-- ==== Sys2Proof/Word.lean ====
section
/-! DEFINITION. The word and byte types of the HA-4 (R4, R51). -/

namespace Sys2Proof

/-- A 64-bit register or address value (R51). -/
abbrev Word := BitVec 64

/-- One byte of memory. -/
abbrev Byte := BitVec 8

end Sys2Proof
end

