-- ==== Sys2Proof/Config.lean ====
section
/-! DEFINITION. What one implementation or one package fixes and the spec does not compute: the cryptographic
functions of start and attestation, and free values. None has a body that Lean can evaluate: a statement about one
holds whatever it is. -/

namespace Sys2Proof.Config

/-- The SHA-384 digest of an image or table, named by a number (R394, R396, log 8). -/
opaque sha384 : Nat → Nat

/-- The verdict of an ECDSA signature check: the message, its length in bytes, r and s (R394, log 8). -/
opaque ecdsaHolds : Nat → Nat → Nat → Nat → Bool

/-- The verdict of an LMS signature check: the message, its length, the signature and its length (R394, log 8). -/
opaque lmsHolds : Nat → Nat → Nat → Nat → Bool

/-- The expansion table that an image carries (R395, log 8). -/
opaque expansionOf : Nat → Nat

/-- The two certificates of the package's public key, in words: 0 the one signed with ECDSA, 1 the one signed with LMS
(R396, log 8). -/
opaque certificate : Nat → List Word

/-- The signature of an attestation report, from the report's digest (R396, log 8). -/
opaque reportSignature : Nat → Nat

/-- The free values: the value of the counter decides which (log 2). -/
opaque freeValue : Nat → Word

end Sys2Proof.Config
end

