-- ==== Sys2Proof/Machine/Numbers.lean ====
section
/-! DEFINITION. Numbers and rounding (R162 to R181): formats, exact arithmetic on values, one rounding into a format,
conversions, the estimates, and the press pass. Values are exact integers and powers of two until they are rounded. -/

namespace Sys2Proof.Machine

/-- A floating format (R163): exponent and fraction widths; `narrow` marks E4M3, which has no infinity and one NaN
pattern, `small` marks the 8-bit formats. -/
structure Fmt where
  e : Nat
  f : Nat
  narrow : Bool
  small : Bool
  deriving DecidableEq, Repr

def fp16 : Fmt := { e := 5, f := 10, narrow := false, small := false }
def bf16 : Fmt := { e := 8, f := 7, narrow := false, small := false }
def fp32 : Fmt := { e := 8, f := 23, narrow := false, small := false }
def fp64 : Fmt := { e := 11, f := 52, narrow := false, small := false }
def e4m3 : Fmt := { e := 4, f := 3, narrow := true, small := true }
def e5m2 : Fmt := { e := 5, f := 2, narrow := false, small := true }

def Fmt.width (t : Fmt) : Nat := 1 + t.e + t.f
def Fmt.bias (t : Fmt) : Nat := 2 ^ (t.e - 1) - 1
def Fmt.sign (t : Fmt) : Nat := 2 ^ (t.e + t.f)

/-- The exponent field of all ones with fraction 0. -/
def Fmt.top (t : Fmt) : Nat := (2 ^ t.e - 1) * 2 ^ t.f

/-- The pattern of the largest finite magnitude (R163). -/
def Fmt.maxBits (t : Fmt) : Nat := if t.narrow then t.top + 2 ^ t.f - 2 else t.top - 1

/-- The canonical NaN (R165). -/
def Fmt.nan (t : Fmt) : Nat := if t.narrow then t.top + 2 ^ t.f - 1 else t.top + 2 ^ (t.f - 1)

/-- The exponent, as a power of two, of the last place of the subnormals (R167). -/
def Fmt.low (t : Fmt) : Int := 1 - (t.bias : Int) - (t.f : Int)

/-- A value: a NaN (signalling or quiet), an infinity, or ± man × 2 ^ exp (R164). -/
inductive FVal where
  | nan (sig : Bool)
  | inf (neg : Bool)
  | fin (neg : Bool) (man : Nat) (exp : Int)
  deriving DecidableEq, Repr

/-- The value of a bit pattern (R163 to R165). -/
def fdecode (t : Fmt) (b : Nat) : FVal :=
  let neg := decide (b / t.sign % 2 = 1)
  let e := b / 2 ^ t.f % 2 ^ t.e
  let f := b % 2 ^ t.f
  if t.narrow then
    if e = 2 ^ t.e - 1 ∧ f = 2 ^ t.f - 1 then .nan false
    else if e = 0 then .fin neg f t.low else .fin neg (2 ^ t.f + f) (t.low + (e : Int) - 1)
  else if e = 2 ^ t.e - 1 then
    if f = 0 then .inf neg else .nan (!t.small && decide (f < 2 ^ (t.f - 1)))
  else if e = 0 then .fin neg f t.low
  else .fin neg (2 ^ t.f + f) (t.low + (e : Int) - 1)

/-- The flags of `vrm` (R71), as a 5-bit word. -/
def flNV : BitVec 5 := 16
def flDZ : BitVec 5 := 8
def flOF : BitVec 5 := 4
def flUF : BitVec 5 := 2
def flNX : BitVec 5 := 1

/-- How a unit rounds: mode code (R167), 8-bit overflow choice (R168), dither threshold (R171). -/
structure Rnd where
  mode : Nat
  ovf8 : Bool
  thr : Nat
  deriving DecidableEq, Repr

/-- Round to nearest even. -/
def rne : Rnd := { mode := 0, ovf8 := false, thr := 0 }

/-- An exact value with the flags raised so far; `sticky` says that it lies a little above `man` × 2 ^ `exp` in
magnitude. -/
structure Exact where
  v : FVal
  sticky : Bool
  flags : BitVec 5
  deriving DecidableEq, Repr

def Exact.of (v : FVal) : Exact := { v := v, sticky := false, flags := 0 }
def Exact.invalid : Exact := { v := .nan false, sticky := false, flags := flNV }

/-- Whether the magnitude is raised when `sh` bits `r` are dropped below an integer `q` (R167, R171). -/
def roundsUp (rd : Rnd) (neg : Bool) (q r sh : Nat) (sticky : Bool) : Bool :=
  let inexact := decide (r ≠ 0) || sticky
  match rd.mode with
  | 0 => decide (2 * r > 2 ^ sh ∧ sh ≠ 0) || (decide (2 * r = 2 ^ sh ∧ sh ≠ 0) && (sticky || decide (q % 2 = 1)))
  | 1 => false
  | 2 => neg && inexact
  | 3 => !neg && inexact
  | _ => decide ((if 8 ≤ sh then r / 2 ^ (sh - 8) else r * 2 ^ (8 - sh)) + rd.thr ≥ 256)

/-- `man` × 2 ^ `exp` as an integer count of 2 ^ `lsb`, rounded; the second part says whether it was inexact. -/
def roundAt (rd : Rnd) (neg : Bool) (man : Nat) (exp lsb : Int) (sticky : Bool) : Nat × Bool :=
  if lsb ≤ exp then
    let q := man * 2 ^ (exp - lsb).toNat
    (q + (roundsUp rd neg q 0 0 sticky).toNat, sticky)
  else
    let sh := (lsb - exp).toNat
    let q := man / 2 ^ sh
    let r := man % 2 ^ sh
    (q + (roundsUp rd neg q r sh sticky).toNat, decide (r ≠ 0) || sticky)

/-- What an overflowing result delivers (R168). -/
def overflowBits (t : Fmt) (rd : Rnd) (neg : Bool) : Nat :=
  let s := if neg then t.sign else 0
  if t.small then (if rd.ovf8 then t.nan else s + t.maxBits)
  else
    match rd.mode with
    | 1 => s + t.maxBits
    | 2 => if neg then s + t.top else t.maxBits
    | 3 => if neg then s + t.maxBits else t.top
    | _ => s + t.top

/-- One rounding of an exact value into a format, with its flags (R167 to R169). -/
def deliver (t : Fmt) (rd : Rnd) (x : Exact) : Nat × BitVec 5 :=
  match x.v with
  | .nan _ => (t.nan, x.flags)
  | .inf neg =>
    if t.narrow then (overflowBits t rd neg, x.flags ||| flOF ||| flNX)
    else ((if neg then t.sign else 0) + t.top, x.flags)
  | .fin neg man exp =>
    let s := if neg then t.sign else 0
    if man = 0 then (s, x.flags)
    else
      let lead : Int := (Nat.log2 man : Int) + exp
      let lsb := max (lead - (t.f : Int)) t.low
      let (q, inexact) := roundAt rd neg man exp lsb x.sticky
      let bits := (lsb - t.low).toNat * 2 ^ t.f + q
      if t.maxBits < bits then (overflowBits t rd neg, x.flags ||| flOF ||| flNX)
      else
        let fl := if inexact then flNX else 0
        let fu := if inexact ∧ bits ≠ 0 ∧ bits < 2 ^ t.f then flUF else 0
        (s + bits, x.flags ||| fl ||| fu)

/-- NV where an operand is a signalling NaN (R169). -/
def sigFlag : FVal → BitVec 5
  | .nan true => flNV
  | _ => 0

def FVal.isNan : FVal → Bool
  | .nan _ => true
  | _ => false

def FVal.isInf : FVal → Bool
  | .inf _ => true
  | _ => false

def FVal.neg : FVal → Bool
  | .nan _ => false
  | .inf n => n
  | .fin n _ _ => n

def FVal.isZero : FVal → Bool
  | .fin _ m _ => decide (m = 0)
  | _ => false

/-- A finite value as an integer count of 2 ^ `lsb`, where `lsb` is at or below its exponent. -/
def FVal.atExp (lsb : Int) : FVal → Int
  | .fin n m e => let a := (m : Int) * (2 ^ (e - lsb).toNat : Nat); if n then -a else a
  | _ => 0

/-- The least exponent among finite values. -/
def minExp : List FVal → Int → Int
  | [], d => d
  | .fin _ _ e :: l, d => minExp l (min e d)
  | _ :: l, d => minExp l d

/-- The exact sum of finite values; an exact zero of operands of opposite signs is −0 in mode RDN and +0 otherwise
(R167). -/
def sumFinite (mode : Nat) (l : List FVal) : FVal :=
  let lsb := minExp l 0
  let t : Int := l.foldl (fun (a : Int) x => a + x.atExp lsb) 0
  if t = 0 then
    if l.all FVal.neg then .fin true 0 0
    else if l.all (fun x => !x.neg) then .fin false 0 0
    else .fin (decide (mode = 2)) 0 0
  else .fin (decide (t < 0)) t.natAbs lsb

/-- The exact sum of a list of values with NaN and infinity rules (R169). -/
def exactSum (mode : Nat) (l : List FVal) : Exact :=
  let sig := l.foldl (fun a x => a ||| sigFlag x) 0
  if l.any FVal.isNan then { v := .nan false, sticky := false, flags := sig }
  else if l.any (fun x => x.isInf && x.neg) && l.any (fun x => x.isInf && !x.neg) then Exact.invalid
  else if l.any FVal.isInf then Exact.of (.inf (l.any (fun x => x.isInf && x.neg)))
  else Exact.of (sumFinite mode l)

/-- The exact product (R169, R191). -/
def exactMul (a b : FVal) : Exact :=
  let sig := sigFlag a ||| sigFlag b
  if a.isNan || b.isNan then { v := .nan false, sticky := false, flags := sig }
  else
    match a, b with
    | .fin n m e, .fin n' m' e' => Exact.of (.fin (n != n') (m * m') (e + e'))
    | _, _ => if a.isZero || b.isZero then Exact.invalid else Exact.of (.inf (a.neg != b.neg))

def FVal.negate : FVal → FVal
  | .nan s => .nan s
  | .inf n => .inf (!n)
  | .fin n m e => .fin (!n) m e

/-- a × b + c, exactly; 0 × ∞ is invalid even when c is a NaN (R191). -/
def exactFma (mode : Nat) (a b c : FVal) : Exact :=
  let p := exactMul a b
  let r := exactSum mode [p.v, c]
  { r with flags := r.flags ||| p.flags ||| sigFlag c }

/-- a ÷ b with enough bits for one correct rounding (R192). -/
def exactDiv (a b : FVal) : Exact :=
  let sig := sigFlag a ||| sigFlag b
  if a.isNan || b.isNan then { v := .nan false, sticky := false, flags := sig }
  else
    match a, b with
    | .inf _, .inf _ => Exact.invalid
    | .inf n, x => Exact.of (.inf (n != x.neg))
    | x, .inf n => Exact.of (.fin (x.neg != n) 0 0)
    | .fin n m e, .fin n' m' e' =>
      if m' = 0 then
        if m = 0 then Exact.invalid else { v := .inf (n != n'), sticky := false, flags := flDZ }
      else
        let k := 80 + Nat.log2 m'
        { v := .fin (n != n') (m * 2 ^ k / m') (e - e' - (k : Int)),
          sticky := decide (m * 2 ^ k % m' ≠ 0), flags := 0 }
    | _, _ => Exact.invalid

/-- The integer square root of `n`, deciding `k` bits from the top. -/
def isqrt (n : Nat) : Nat → Nat → Nat
  | 0, r => r
  | k + 1, r => if (r + 2 ^ k) * (r + 2 ^ k) ≤ n then isqrt n k (r + 2 ^ k) else isqrt n k r

/-- √a with enough bits for one correct rounding (R192). -/
def exactSqrt (a : FVal) : Exact :=
  match a with
  | .nan s => { v := .nan false, sticky := false, flags := if s then flNV else 0 }
  | .inf n => if n then Exact.invalid else Exact.of (.inf false)
  | .fin n m e =>
    if m = 0 then Exact.of (.fin n 0 0)
    else if n then Exact.invalid
    else
      let odd := decide (e % 2 ≠ 0)
      let m' := (if odd then 2 * m else m) * 2 ^ 160
      let e' := (if odd then e - 1 else e) - 160
      let r := isqrt m' (Nat.log2 m' / 2 + 1) 0
      { v := .fin false r (e' / 2), sticky := decide (r * r ≠ m'), flags := 0 }

/-- The order of R179: −0 below +0, then by value; NaNs do not take part. -/
def forder (t : Fmt) (b : Nat) : Int :=
  if b / t.sign % 2 = 1 then -((b % t.sign : Nat) : Int) - 1 else ((b % t.sign : Nat) : Int)

/-- `vmin` and `vmax` on a floating type (R179). -/
def fminmax (t : Fmt) (isMax : Bool) (a b : Nat) : Nat × BitVec 5 :=
  let x := fdecode t a; let y := fdecode t b
  if x.isNan || y.isNan then (t.nan, sigFlag x ||| sigFlag y)
  else if isMax then (if forder t a < forder t b then b else a, 0)
  else (if forder t b < forder t a then b else a, 0)

/-- Whether a < b, a = b as numbers, with −0 equal to +0 (R197); false on NaNs. -/
def fltLess (t : Fmt) (a b : Nat) : Bool :=
  !(fdecode t a).isNan && !(fdecode t b).isNan && !((fdecode t a).isZero && (fdecode t b).isZero)
    && decide (forder t a < forder t b)

def fltEq (t : Fmt) (a b : Nat) : Bool :=
  !(fdecode t a).isNan && !(fdecode t b).isNan
    && (((fdecode t a).isZero && (fdecode t b).isZero) || decide (a % 2 ^ t.width = b % 2 ^ t.width))

/-! ## Number types and conversions (R46, R170) -/

/-- A number type: an integer of a width, or a float. -/
inductive NumT where
  | int (signed : Bool) (w : Nat)
  | flt (f : Fmt)
  deriving DecidableEq, Repr

def NumT.width : NumT → Nat
  | .int _ w => w
  | .flt f => f.width

/-- The 4-bit type codes (R46). -/
def type4 (c : Nat) : Option NumT :=
  match c with
  | 0 => some (.int true 8) | 1 => some (.int true 16) | 2 => some (.int true 32) | 3 => some (.int true 64)
  | 4 => some (.int false 8) | 5 => some (.int false 16) | 6 => some (.int false 32) | 7 => some (.int false 64)
  | 8 => some (.flt fp16) | 9 => some (.flt bf16) | 10 => some (.flt fp32) | 11 => some (.flt fp64)
  | 12 => some (.flt e4m3) | 13 => some (.flt e5m2)
  | _ => none

/-- The DV element types (R37, R184). -/
def etType (et : Nat) : NumT :=
  match et with
  | 0 => .int true 8 | 1 => .int true 16 | 2 => .int true 32 | 3 => .int true 64
  | 4 => .flt fp16 | 5 => .flt bf16 | 6 => .flt fp32 | _ => .flt fp64

/-- A bit pattern as an integer. -/
def toInt (signed : Bool) (w b : Nat) : Int :=
  let v := b % 2 ^ w
  if signed ∧ 2 ^ (w - 1) ≤ v then (v : Int) - (2 ^ w : Nat) else (v : Int)

/-- An integer modulo 2 ^ w. -/
def wrapInt (w : Nat) (x : Int) : Nat := (x % (2 ^ w : Nat)).toNat

def intMin (signed : Bool) (w : Nat) : Int := if signed then -((2 ^ (w - 1) : Nat) : Int) else 0
def intMax (signed : Bool) (w : Nat) : Int := if signed then (2 ^ (w - 1) : Nat) - 1 else (2 ^ w : Nat) - 1

/-- The nearest value in the range of an integer type (R170). -/
def saturate (signed : Bool) (w : Nat) (x : Int) : Int := max (intMin signed w) (min (intMax signed w) x)

/-- A float rounded to an integer type (R170). -/
def floatToInt (signed : Bool) (w : Nat) (rd : Rnd) (v : FVal) : Nat × BitVec 5 :=
  match v with
  | .nan _ => (0, flNV)
  | .inf n => (wrapInt w (if n then intMin signed w else intMax signed w), flNV)
  | .fin n m e =>
    let (q, inexact) := roundAt rd n m e 0 false
    let x : Int := if n then -(q : Int) else (q : Int)
    if x < intMin signed w ∨ intMax signed w < x then (wrapInt w (saturate signed w x), flNV)
    else (wrapInt w x, if inexact then flNX else 0)

def intVal (x : Int) : FVal := .fin (decide (x < 0)) x.natAbs 0

/-- A conversion between two types (R170, R202). -/
def convert (src dst : NumT) (rd : Rnd) (b : Nat) : Nat × BitVec 5 :=
  match src, dst with
  | .int sg w, .int sg' w' => (wrapInt w' (saturate sg' w' (toInt sg w b)), 0)
  | .int sg w, .flt t => deliver t rd (Exact.of (intVal (toInt sg w b)))
  | .flt t, .int sg w => floatToInt sg w rd (fdecode t b)
  | .flt t, .flt t' =>
    let v := fdecode t b
    deliver t' rd { v := v, sticky := false, flags := sigFlag v }

/-! ## The ordered dither (R171) -/

/-- The bits of a 4-bit value interleaved: bit 2k + 1 from `a`, bit 2k from `b`. -/
def interleave4 (a b : Nat) : Nat :=
  (b % 2) + 2 * (a % 2) + 4 * (b / 2 % 2) + 8 * (a / 2 % 2) + 16 * (b / 4 % 2) + 32 * (a / 4 % 2)
    + 64 * (b / 8 % 2) + 128 * (a / 8 % 2)

def bitrev8 (y : Nat) : Nat :=
  128 * (y % 2) + 64 * (y / 2 % 2) + 32 * (y / 4 % 2) + 16 * (y / 8 % 2) + 8 * (y / 16 % 2) + 4 * (y / 32 % 2)
    + 2 * (y / 64 % 2) + y / 128 % 2

/-- The threshold of position (r, c) under a phase. -/
def ditherThr (r c phase : Nat) : Nat :=
  let i := (r + phase / 16 % 16) % 16
  let j := (c + phase % 16) % 16
  bitrev8 (interleave4 (i ^^^ j) i)

/-! ## Estimates (R181) -/

/-- An integer quotient rounded to nearest even. -/
def divRne (a b : Nat) : Nat :=
  let q := a / b; let r := a % b
  if 2 * r > b ∨ (2 * r = b ∧ q % 2 = 1) then q + 1 else q

/-- Only the overflow of the final rounding raises flags (R195). -/
def estDeliver (t : Fmt) (v : FVal) : Nat × BitVec 5 :=
  let (b, fl) := deliver t rne (Exact.of v)
  (b, if fl &&& flOF = 0 then 0 else flOF ||| flNX)

/-- The mantissa of a value truncated to 8 fraction bits, plus 2^−9, as a count of 2^−9, and the exponent. -/
def estSplit (m : Nat) (e : Int) : Nat × Int :=
  let l := Nat.log2 m
  (2 * (m * 2 ^ 8 / 2 ^ l) + 1, (l : Int) + e)

def frcpe (t : Fmt) (b : Nat) : Nat × BitVec 5 :=
  match fdecode t b with
  | .nan s => (t.nan, if s then flNV else 0)
  | .inf n => ((if n then t.sign else 0), 0)
  | .fin n m e =>
    if m = 0 then ((if n then t.sign else 0) + t.top, flDZ)
    else
      let p := min 10 t.f
      let (m1, x) := estSplit m e
      estDeliver t (.fin n (divRne (1024 * 2 ^ p) m1) (-x - 1 - (p : Int)))

/-- The integer nearest to √(a / b). -/
def sqrtRne (a b : Nat) : Nat :=
  let n := a * 2 ^ 16 / b
  let r := isqrt n (Nat.log2 n / 2 + 1) 0
  let q := r / 2 ^ 8; let d := r % 2 ^ 8
  if 128 < d ∨ (d = 128 ∧ (r * r * b ≠ a * 2 ^ 16 ∨ q % 2 = 1)) then q + 1 else q

def frsqe (t : Fmt) (b : Nat) : Nat × BitVec 5 :=
  match fdecode t b with
  | .nan s => (t.nan, if s then flNV else 0)
  | .inf n => if n then (t.nan, flNV) else (0, 0)
  | .fin n m e =>
    if m = 0 then ((if n then t.sign else 0) + t.top, flDZ)
    else if n then (t.nan, flNV)
    else
      let p := min 10 t.f
      let (m1, x) := estSplit m e
      let m1 := if x % 2 = 0 then m1 else 2 * m1
      let x := if x % 2 = 0 then x else x - 1
      estDeliver t (.fin false (sqrtRne (4 * 2 ^ (2 * p) * 512) m1) (-(x / 2) - 1 - (p : Int)))

/-! ## The press pass (R173 to R177) -/

/-- RNE into FP32 of an exact value, as a value. -/
def round32 (x : Exact) : FVal := fdecode fp32 (deliver fp32 rne x).1

/-- An FP8 pass on one element: exact sum, one rounding, one fused multiply-add by the scale (R174). A zero sum is
+0. -/
def passFp8 (prods : List FVal) (scale acc : FVal) : Nat :=
  let s := exactSum 0 prods
  let s := if s.v.isZero then Exact.of (.fin false 0 0) else s
  (deliver fp32 rne (exactFma 0 (round32 s) scale acc)).1

/-- The largest exponent of a non-zero product (R175). -/
def topExp : List FVal → Option Int → Option Int
  | [], d => d
  | .fin _ m e :: l, d =>
    if m = 0 then topExp l d
    else
      let x : Int := (Nat.log2 m : Int) + e
      topExp l (some (match d with | none => x | some y => max x y))
  | _ :: l, d => topExp l d

/-- A value truncated toward zero to a multiple of 2 ^ lsb. -/
def truncAt (lsb : Int) : FVal → FVal
  | .fin n m e => if lsb ≤ e then .fin n m e else .fin n (m / 2 ^ (lsb - e).toNat) lsb
  | x => x

/-- A windowed pass on one element, into FP32 or FP64 (R175, R177). -/
def passWide (t : Fmt) (window : Nat) (prods : List FVal) (acc : FVal) : Nat :=
  let q := match topExp prods none with
    | none => prods
    | some e => prods.map (truncAt (e - (window : Int)))
  let s := exactSum 0 q
  let s := if s.v.isZero then Exact.of (.fin false 0 0) else s
  (deliver t rne (exactSum 0 [fdecode t (deliver t rne s).1, acc])).1

/-- An integer pass (R176). -/
def passInt (prods : List Int) (acc : Int) : Nat :=
  wrapInt 32 (saturate true 32 (prods.foldl (· + ·) acc))

/-! ## Combining operations of `red` and the amo family (R40, R140, R141) -/

/-- The width in bytes of a `red` kind. -/
def redWidth (k : Nat) : Nat := if k = 0 ∨ k = 5 ∨ k = 7 ∨ k = 11 then 4 else 8

/-- op(a, b) of a `red` kind on patterns of its width. -/
def redOp (k a b : Nat) : Nat :=
  let w := 8 * redWidth k
  let a := a % 2 ^ w; let b := b % 2 ^ w
  match k with
  | 0 | 1 => (a + b) % 2 ^ w
  | 2 => a &&& b
  | 3 => a ||| b
  | 4 => a ^^^ b
  | 5 | 6 => if toInt true w b < toInt true w a then b else a
  | 7 | 8 => if toInt true w a < toInt true w b then b else a
  | 9 => min a b
  | 10 => max a b
  | 11 => (deliver fp32 rne (exactSum 0 [fdecode fp32 a, fdecode fp32 b])).1
  | _ => (deliver fp64 rne (exactSum 0 [fdecode fp64 a, fdecode fp64 b])).1

end Sys2Proof.Machine
end

