-- ==== Sys2Proof/Machine/Table.lean ====
section
/-! DEFINITION. Sparse tables keyed by a number (registers, threads, cores, lines) and byte memories.

A table is a list of key and value pairs; a key it does not list has the table's default. `tset` keeps the keys
rising when they rise. A memory lists bytes (`Host.Cell`) in one canonical form: addresses strictly rising, and no
entry equal to 0, which is what an unlisted address reads as (log 3). -/

namespace Sys2Proof.Machine

/-- A sparse table. -/
abbrev Tbl (α : Type) := List (Nat × α)

/-- The value at a key, the default `d` where the key is not listed. -/
def tget {α : Type} (d : α) : Tbl α → Nat → α
  | [], _ => d
  | (k, v) :: t, n => if k = n then v else tget d t n

/-- The table with the value at `n` set. -/
def tset {α : Type} : Tbl α → Nat → α → Tbl α
  | [], n, v => [(n, v)]
  | (k, w) :: t, n, v =>
    if k = n then (n, v) :: t
    else if n < k then (n, v) :: (k, w) :: t
    else (k, w) :: tset t n v

/-- The table without the key. -/
def tdel {α : Type} : Tbl α → Nat → Tbl α
  | [], _ => []
  | (k, w) :: t, n => if k = n then tdel t n else (k, w) :: tdel t n

/-- The first key, from `k` on, of `n` keys that the predicate does not refuse. -/
def firstFree (free : Nat → Bool) : Nat → Nat → Option Nat
  | _, 0 => none
  | k, n + 1 => if free k then some k else firstFree free (k + 1) n

/-- A byte memory in canonical form. -/
abbrev Memory := List Host.Cell

/-- The byte at an address; an unlisted address reads 0 (log 3). -/
def mget : Memory → Nat → Byte
  | [], _ => 0
  | (k, v) :: t, a => if k = a then v else if a < k then 0 else mget t a

/-- Memory with one byte written, in canonical form. -/
def mput : Memory → Nat → Byte → Memory
  | [], a, v => if v = 0 then [] else [(a, v)]
  | (k, w) :: t, a, v =>
    if k = a then (if v = 0 then t else (a, v) :: t)
    else if a < k then (if v = 0 then (k, w) :: t else (a, v) :: (k, w) :: t)
    else (k, w) :: mput t a v

/-- Every listed address is at least `lo`, the addresses rise strictly and no listed byte is 0. -/
def Memory.above (lo : Nat) : Memory → Bool
  | [] => true
  | (k, v) :: t => decide (lo ≤ k) && decide (v ≠ 0) && Memory.above (k + 1) t

/-- The canonical form of a memory. -/
def Memory.wf (m : Memory) : Bool := Memory.above 0 m

/-- `n` bytes from address `a`, little-endian, as a number (R4). -/
def mload (m : Memory) (a : Nat) : Nat → Nat
  | 0 => 0
  | n + 1 => (mget m a).toNat + 256 * mload m (a + 1) n

/-- Memory with the `n` low bytes of `v` stored from address `a`, little-endian (R4). -/
def mstore (m : Memory) (a : Nat) (v : Nat) : Nat → Memory
  | 0 => m
  | n + 1 => mstore (mput m a (BitVec.ofNat 8 v)) (a + 1) (v / 256) n

/-- Memory with the bytes of `v` whose mask bit is set stored from address `a`. -/
def mstoreMask (m : Memory) (a : Nat) (v mask : Nat) : Nat → Memory
  | 0 => m
  | n + 1 =>
    mstoreMask (if mask % 2 = 1 then mput m a (BitVec.ofNat 8 v) else m) (a + 1) (v / 256) (mask / 2) n

/-- Memory without the `n` bytes from `a`: they read 0. -/
def mcut (m : Memory) (a n : Nat) : Memory := m.filter (fun x => decide (x.1 < a ∨ a + n ≤ x.1))

/-- The `n` bytes from `a`, as a memory that begins at 0. -/
def mslice (m : Memory) (a n : Nat) : Memory :=
  (m.filter (fun x => decide (a ≤ x.1 ∧ x.1 < a + n))).map (fun x => (x.1 - a, x.2))

/-- Memory with the bytes of a slice laid at `a`. -/
def mpaste (m : Memory) (a : Nat) (l : Memory) : Memory := l.foldl (fun m x => mput m (a + x.1) x.2) m

end Sys2Proof.Machine
end

