-- ==== Sys2Proof/Syntax.lean ====
section
/-! DEFINITION. The ONE instruction type of the HA-4: a constructor for every row of spec/opcode_table.json.

Rows 0 to 174 are instruction words (R28 to R44); their constructors hold the fields of the word as the encoding
tables name them. Rows 175 to 310 are events without a word (messages between units, engine acts, acts of the
Lantern kernel and of the outside); their constructors hold what names the event: a core, a thread, a place in
the list of messages in flight, the value written. -/

namespace Sys2Proof

/-- The 311 steps of the part, one constructor per row of the opcode table. -/
inductive Instr where
  /-- `LUI` (R53): Writes a 20-bit upper immediate, shifted left by 12, to rd. -/
  | lui (rd : BitVec 4) (imm : BitVec 20)
  /-- `AUIPC` (R53): Adds an upper immediate to the address of the auipc word and writes the sum to rd. -/
  | auipc (rd : BitVec 4) (imm : BitVec 20)
  /-- `JAL` (R53): Jumps PC-relative and links; a target that is not a multiple of 4 traps ILLEGAL. -/
  | jal (rd : BitVec 4) (imm : BitVec 20)
  /-- `JALR` (R53): Jumps to rs1 plus the offset with bit 0 cleared, links, and applies the target check of R27. -/
  | jalr (rd : BitVec 4) (rs1 : BitVec 4) (imm : BitVec 12)
  /-- `BEQ` (R53): Branches when the two registers are equal. -/
  | beq (rs1 : BitVec 4) (rs2 : BitVec 4) (imm : BitVec 12)
  /-- `BNE` (R53): Branches when the two registers differ. -/
  | bne (rs1 : BitVec 4) (rs2 : BitVec 4) (imm : BitVec 12)
  /-- `BLT` (R53): Branches on a signed less-than. -/
  | blt (rs1 : BitVec 4) (rs2 : BitVec 4) (imm : BitVec 12)
  /-- `BGE` (R53): Branches on a signed greater-or-equal. -/
  | bge (rs1 : BitVec 4) (rs2 : BitVec 4) (imm : BitVec 12)
  /-- `BLTU` (R53): Branches on an unsigned less-than. -/
  | bltu (rs1 : BitVec 4) (rs2 : BitVec 4) (imm : BitVec 12)
  /-- `BGEU` (R53): Branches on an unsigned greater-or-equal. -/
  | bgeu (rs1 : BitVec 4) (rs2 : BitVec 4) (imm : BitVec 12)
  /-- `LB` (R58): Auto-retry load of a sign-extended byte. -/
  | lb (rd : BitVec 4) (rs1 : BitVec 4) (imm : BitVec 12)
  /-- `LH` (R58): Auto-retry load of a sign-extended halfword. -/
  | lh (rd : BitVec 4) (rs1 : BitVec 4) (imm : BitVec 12)
  /-- `LW` (R58): Auto-retry load of a sign-extended word. -/
  | lw (rd : BitVec 4) (rs1 : BitVec 4) (imm : BitVec 12)
  /-- `LD` (R58): Auto-retry load of a doubleword. -/
  | ld (rd : BitVec 4) (rs1 : BitVec 4) (imm : BitVec 12)
  /-- `LBU` (R58): Auto-retry load of a zero-extended byte. -/
  | lbu (rd : BitVec 4) (rs1 : BitVec 4) (imm : BitVec 12)
  /-- `LHU` (R58): Auto-retry load of a zero-extended halfword. -/
  | lhu (rd : BitVec 4) (rs1 : BitVec 4) (imm : BitVec 12)
  /-- `LWU` (R58): Auto-retry load of a zero-extended word. -/
  | lwu (rd : BitVec 4) (rs1 : BitVec 4) (imm : BitVec 12)
  /-- `SB` (R58): Auto-retry store of a byte. -/
  | sb (rs1 : BitVec 4) (rs2 : BitVec 4) (imm : BitVec 12)
  /-- `SH` (R58): Auto-retry store of a halfword. -/
  | sh (rs1 : BitVec 4) (rs2 : BitVec 4) (imm : BitVec 12)
  /-- `SW` (R58): Auto-retry store of a word. -/
  | sw (rs1 : BitVec 4) (rs2 : BitVec 4) (imm : BitVec 12)
  /-- `SD` (R58): Auto-retry store of a doubleword. -/
  | sd (rs1 : BitVec 4) (rs2 : BitVec 4) (imm : BitVec 12)
  /-- `ADDI` (R53): Adds a sign-extended immediate, wrapping modulo 2^64. -/
  | addi (rd : BitVec 4) (rs1 : BitVec 4) (imm : BitVec 12)
  /-- `SLTI` (R53): Sets rd to 1 when rs1 is signed-less than the immediate. -/
  | slti (rd : BitVec 4) (rs1 : BitVec 4) (imm : BitVec 12)
  /-- `SLTIU` (R53): Sets rd to 1 when rs1 is unsigned-less than the immediate. -/
  | sltiu (rd : BitVec 4) (rs1 : BitVec 4) (imm : BitVec 12)
  /-- `XORI` (R53): Bitwise XOR with an immediate. -/
  | xori (rd : BitVec 4) (rs1 : BitVec 4) (imm : BitVec 12)
  /-- `ORI` (R53): Bitwise OR with an immediate. -/
  | ori (rd : BitVec 4) (rs1 : BitVec 4) (imm : BitVec 12)
  /-- `ANDI` (R53): Bitwise AND with an immediate. -/
  | andi (rd : BitVec 4) (rs1 : BitVec 4) (imm : BitVec 12)
  /-- `SLLI` (R53): Shifts left by a 6-bit immediate. -/
  | slli (rd : BitVec 4) (rs1 : BitVec 4) (sh : BitVec 6)
  /-- `SRLI` (R53): Shifts right logically by a 6-bit immediate. -/
  | srli (rd : BitVec 4) (rs1 : BitVec 4) (sh : BitVec 6)
  /-- `SRAI` (R53): Shifts right arithmetically by a 6-bit immediate. -/
  | srai (rd : BitVec 4) (rs1 : BitVec 4) (sh : BitVec 6)
  /-- `ADDIW` (R53): Adds an immediate in 32 bits and sign-extends the result. -/
  | addiw (rd : BitVec 4) (rs1 : BitVec 4) (imm : BitVec 12)
  /-- `SLLIW` (R53): Shifts a word left by a 5-bit immediate and sign-extends the result. -/
  | slliw (rd : BitVec 4) (rs1 : BitVec 4) (sh : BitVec 5)
  /-- `SRLIW` (R53): Shifts a word right logically by a 5-bit immediate. -/
  | srliw (rd : BitVec 4) (rs1 : BitVec 4) (sh : BitVec 5)
  /-- `SRAIW` (R53): Shifts a word right arithmetically by a 5-bit immediate. -/
  | sraiw (rd : BitVec 4) (rs1 : BitVec 4) (sh : BitVec 5)
  /-- `ADD` (R53): Adds two registers, wrapping. -/
  | add (rd : BitVec 4) (rs1 : BitVec 4) (rs2 : BitVec 4)
  /-- `SUB` (R53): Subtracts two registers, wrapping. -/
  | sub (rd : BitVec 4) (rs1 : BitVec 4) (rs2 : BitVec 4)
  /-- `SLL` (R53): Shifts left by rs2[5:0]. -/
  | sll (rd : BitVec 4) (rs1 : BitVec 4) (rs2 : BitVec 4)
  /-- `SLT` (R53): Signed set-less-than. -/
  | slt (rd : BitVec 4) (rs1 : BitVec 4) (rs2 : BitVec 4)
  /-- `SLTU` (R53): Unsigned set-less-than. -/
  | sltu (rd : BitVec 4) (rs1 : BitVec 4) (rs2 : BitVec 4)
  /-- `XOR` (R53): Bitwise XOR of two registers. -/
  | xorr (rd : BitVec 4) (rs1 : BitVec 4) (rs2 : BitVec 4)
  /-- `SRL` (R53): Shifts right logically by rs2[5:0]. -/
  | srl (rd : BitVec 4) (rs1 : BitVec 4) (rs2 : BitVec 4)
  /-- `SRA` (R53): Shifts right arithmetically by rs2[5:0]. -/
  | sra (rd : BitVec 4) (rs1 : BitVec 4) (rs2 : BitVec 4)
  /-- `OR` (R53): Bitwise OR of two registers. -/
  | orr (rd : BitVec 4) (rs1 : BitVec 4) (rs2 : BitVec 4)
  /-- `AND` (R53): Bitwise AND of two registers. -/
  | andr (rd : BitVec 4) (rs1 : BitVec 4) (rs2 : BitVec 4)
  /-- `ADDW` (R53): Adds in 32 bits and sign-extends the result. -/
  | addw (rd : BitVec 4) (rs1 : BitVec 4) (rs2 : BitVec 4)
  /-- `SUBW` (R53): Subtracts in 32 bits and sign-extends the result. -/
  | subw (rd : BitVec 4) (rs1 : BitVec 4) (rs2 : BitVec 4)
  /-- `SLLW` (R53): Shifts a word left by rs2[4:0]. -/
  | sllw (rd : BitVec 4) (rs1 : BitVec 4) (rs2 : BitVec 4)
  /-- `SRLW` (R53): Shifts a word right logically by rs2[4:0]. -/
  | srlw (rd : BitVec 4) (rs1 : BitVec 4) (rs2 : BitVec 4)
  /-- `SRAW` (R53): Shifts a word right arithmetically by rs2[4:0]. -/
  | sraw (rd : BitVec 4) (rs1 : BitVec 4) (rs2 : BitVec 4)
  /-- `MUL` (R53): Low 64 bits of the product. -/
  | mul (rd : BitVec 4) (rs1 : BitVec 4) (rs2 : BitVec 4)
  /-- `MULH` (R53): High 64 bits of the signed product. -/
  | mulh (rd : BitVec 4) (rs1 : BitVec 4) (rs2 : BitVec 4)
  /-- `MULHSU` (R53): High 64 bits of the signed-by-unsigned product. -/
  | mulhsu (rd : BitVec 4) (rs1 : BitVec 4) (rs2 : BitVec 4)
  /-- `MULHU` (R53): High 64 bits of the unsigned product. -/
  | mulhu (rd : BitVec 4) (rs1 : BitVec 4) (rs2 : BitVec 4)
  /-- `DIV` (R54): Signed division that never traps, with the results of R54 for the edge cases. -/
  | div (rd : BitVec 4) (rs1 : BitVec 4) (rs2 : BitVec 4)
  /-- `DIVU` (R54): Unsigned division that never traps. -/
  | divu (rd : BitVec 4) (rs1 : BitVec 4) (rs2 : BitVec 4)
  /-- `REM` (R54): Signed remainder, which takes the sign of the dividend. -/
  | rem (rd : BitVec 4) (rs1 : BitVec 4) (rs2 : BitVec 4)
  /-- `REMU` (R54): Unsigned remainder. -/
  | remu (rd : BitVec 4) (rs1 : BitVec 4) (rs2 : BitVec 4)
  /-- `MULW` (R53): 32-bit product, sign-extended. -/
  | mulw (rd : BitVec 4) (rs1 : BitVec 4) (rs2 : BitVec 4)
  /-- `DIVW` (R54): 32-bit signed division, sign-extended. -/
  | divw (rd : BitVec 4) (rs1 : BitVec 4) (rs2 : BitVec 4)
  /-- `DIVUW` (R54): 32-bit unsigned division, sign-extended. -/
  | divuw (rd : BitVec 4) (rs1 : BitVec 4) (rs2 : BitVec 4)
  /-- `REMW` (R54): 32-bit signed remainder, sign-extended. -/
  | remw (rd : BitVec 4) (rs1 : BitVec 4) (rs2 : BitVec 4)
  /-- `REMUW` (R54): 32-bit unsigned remainder, sign-extended. -/
  | remuw (rd : BitVec 4) (rs1 : BitVec 4) (rs2 : BitVec 4)
  /-- `CZERO_EQZ` (R55): Writes zero when rs2 is zero, and rs1 otherwise. -/
  | czeroEqz (rd : BitVec 4) (rs1 : BitVec 4) (rs2 : BitVec 4)
  /-- `CZERO_NEZ` (R55): Writes zero when rs2 is non-zero, and rs1 otherwise. -/
  | czeroNez (rd : BitVec 4) (rs1 : BitVec 4) (rs2 : BitVec 4)
  /-- `FENCE` (R63): sys-scope fence over its pred and succ sets, with the untracked write-back and invalidation of R64. -/
  | fence (rd : BitVec 5) (rs1 : BitVec 5) (pred : BitVec 4) (succ : BitVec 4)
  /-- `FENCE_TSO` (R63): Executes as FENCE rw,rw. -/
  | fenceTso (rd : BitVec 5) (rs1 : BitVec 5) (pred : BitVec 4) (succ : BitVec 4)
  /-- `ECALL` (R65): Fences rw,rw, writes an ECALL trap record and leaves the thread TRAPPED for a Lantern kernel service. -/
  | ecall
  /-- `EBREAK` (R66): Fences rw,rw, writes an EBREAK trap record and leaves the thread TRAPPED. -/
  | ebreak
  /-- `CSRRW` (R67): Swaps a CSR with a register; writes follow the field conversions of R68. -/
  | csrrw (rd : BitVec 4) (rs1 : BitVec 4) (csr : BitVec 12)
  /-- `CSRRS` (R67): Reads a CSR and sets the bits that rs1 selects. -/
  | csrrs (rd : BitVec 4) (rs1 : BitVec 4) (csr : BitVec 12)
  /-- `CSRRC` (R67): Reads a CSR and clears the bits that rs1 selects. -/
  | csrrc (rd : BitVec 4) (rs1 : BitVec 4) (csr : BitVec 12)
  /-- `CSRRWI` (R67): Swaps a CSR with a 5-bit immediate. -/
  | csrrwi (rd : BitVec 4) (csr : BitVec 12) (uimm : BitVec 5)
  /-- `CSRRSI` (R67): Reads a CSR and sets the bits of an immediate. -/
  | csrrsi (rd : BitVec 4) (csr : BitVec 12) (uimm : BitVec 5)
  /-- `CSRRCI` (R67): Reads a CSR and clears the bits of an immediate. -/
  | csrrci (rd : BitVec 4) (csr : BitVec 12) (uimm : BitVec 5)
  /-- `PLD` (R134): Probe load at base plus offset that writes its outcome code, with a claim and wake on NR. -/
  | pld (rd : BitVec 4) (base : BitVec 4) (imm : BitVec 12) (width : BitVec 3) (nb : BitVec 1)
  /-- `PST` (R134): Probe store at base plus offset that writes its outcome code. -/
  | pst (rs : BitVec 4) (base : BitVec 4) (imm : BitVec 12) (width : BitVec 3) (nb : BitVec 1)
  /-- `PLD_BR` (R136): Fused probe load that branches when the outcome is not RDY. -/
  | pldBr (rd : BitVec 4) (base : BitVec 4) (off : BitVec 12) (width : BitVec 3)
  /-- `PST_BR` (R136): Fused probe store that branches when the outcome is not RDY. -/
  | pstBr (rs : BitVec 4) (base : BitVec 4) (off : BitVec 12) (width : BitVec 3)
  /-- `BO` (R100): Branches when oc matches the cond4 test. -/
  | bo (off : BitVec 12) (cond : BitVec 4)
  /-- `YIELD` (R97): Gives up issue until the armed wake fires, the yield limit passes or the thread moves. -/
  | yield
  /-- `YIELD_N` (R98): Yields until the armed condition has fired n times. -/
  | yieldN (rs1 : BitVec 4)
  /-- `SLEEP` (R99): Leaves the thread WAITING until gtick reaches the end tick. -/
  | sleep (rs1 : BitVec 4)
  /-- `THR_SPAWN` (R101): Starts a new thread of the group on the caller's core, in a slot or PARKED. -/
  | thrSpawn (rd : BitVec 4) (rs1 : BitVec 4) (rs2 : BitVec 4) (nb : BitVec 1)
  /-- `THR_EXIT` (R102): Drains the side log and pushes, releases at die scope, disposes of places and messages, and ends
  the thread. -/
  | thrExit
  /-- `GO` (R103): Moves the thread to the core that homes an address within the group's forme. -/
  | go (rs1 : BitVec 4)
  /-- `MSEND` (R104): Queues a message to a thread of the group as a forme-scope release. -/
  | msend (rs1 : BitVec 4) (rs2 : BitVec 4) (nb : BitVec 1)
  /-- `MRECV` (R105): Takes the oldest message held for the thread, or returns EMPTY and arms a wake. -/
  | mrecv (rd : BitVec 4) (nb : BitVec 1)
  /-- `MFROM` (R106): Returns the sender index and kind of the last message taken. -/
  | mfrom (rd : BitVec 4) (nb : BitVec 1)
  /-- `MARK` (R107): Appends a trace record carrying a value when tracing is enabled for the context. -/
  | mark (rs1 : BitVec 4) (nb : BitVec 1)
  /-- `QINIT` (R303): Zeroes a quoin that has no linked place. -/
  | qinit (rs1 : BitVec 4) (nb : BitVec 1)
  /-- `QACQ` (R304): Links a new place for a quoin and returns a handle, granted at once or waiting. -/
  | qacq (rd : BitVec 4) (rs1 : BitVec 4) (nb : BitVec 1)
  /-- `QWAIT` (R305): Tests whether a handle's place has been granted; RDY is a die-scope acquire. -/
  | qwait (rs1 : BitVec 4) (nb : BitVec 1)
  /-- `QGIVE` (R306): Moves ownership of a place to another thread of the group and sends it the handle. -/
  | qgive (rs1 : BitVec 4) (rs2 : BitVec 4) (nb : BitVec 1)
  /-- `QSWAP` (R307): Exchanges the queue positions of two waiting places that the caller owns. -/
  | qswap (rs1 : BitVec 4) (rs2 : BitVec 4) (nb : BitVec 1)
  /-- `QDROP` (R308): Abandons a waiting place, which stays linked until a grant skips it. -/
  | qdrop (rs1 : BitVec 4) (nb : BitVec 1)
  /-- `QREL` (R309): Releases a granted place, skips dropped places and grants the next waiting place. -/
  | qrel (rs1 : BitVec 4) (nb : BitVec 1)
  /-- `QSTAT` (R310): Returns the status of a place or word +0 of a quoin. -/
  | qstat (rd : BitVec 4) (rs1 : BitVec 4) (nb : BitVec 1)
  /-- `AMO_ADD` (R140): Atomic add at a scope, returning the old value. -/
  | amoAdd (rd : BitVec 4) (rs1 : BitVec 4) (rs2 : BitVec 4) (width : BitVec 1) (scope : BitVec 3) (nb : BitVec 1)
  /-- `AMO_AND` (R140): Atomic AND at a scope, returning the old value. -/
  | amoAnd (rd : BitVec 4) (rs1 : BitVec 4) (rs2 : BitVec 4) (width : BitVec 1) (scope : BitVec 3) (nb : BitVec 1)
  /-- `AMO_OR` (R140): Atomic OR at a scope, returning the old value. -/
  | amoOr (rd : BitVec 4) (rs1 : BitVec 4) (rs2 : BitVec 4) (width : BitVec 1) (scope : BitVec 3) (nb : BitVec 1)
  /-- `AMO_XOR` (R140): Atomic XOR at a scope, returning the old value. -/
  | amoXor (rd : BitVec 4) (rs1 : BitVec 4) (rs2 : BitVec 4) (width : BitVec 1) (scope : BitVec 3) (nb : BitVec 1)
  /-- `AMO_MIN` (R140): Atomic signed minimum at a scope. -/
  | amoMin (rd : BitVec 4) (rs1 : BitVec 4) (rs2 : BitVec 4) (width : BitVec 1) (scope : BitVec 3) (nb : BitVec 1)
  /-- `AMO_MAX` (R140): Atomic signed maximum at a scope. -/
  | amoMax (rd : BitVec 4) (rs1 : BitVec 4) (rs2 : BitVec 4) (width : BitVec 1) (scope : BitVec 3) (nb : BitVec 1)
  /-- `AMO_MINU` (R140): Atomic unsigned minimum at a scope. -/
  | amoMinu (rd : BitVec 4) (rs1 : BitVec 4) (rs2 : BitVec 4) (width : BitVec 1) (scope : BitVec 3) (nb : BitVec 1)
  /-- `AMO_MAXU` (R140): Atomic unsigned maximum at a scope. -/
  | amoMaxu (rd : BitVec 4) (rs1 : BitVec 4) (rs2 : BitVec 4) (width : BitVec 1) (scope : BitVec 3) (nb : BitVec 1)
  /-- `AMO_SWAP` (R140): Atomic swap at a scope. -/
  | amoSwap (rd : BitVec 4) (rs1 : BitVec 4) (rs2 : BitVec 4) (width : BitVec 1) (scope : BitVec 3) (nb : BitVec 1)
  /-- `AMO_CAS` (R140): Atomic compare-and-swap at a scope, with the expected value in rd. -/
  | amoCas (rd : BitVec 4) (rs1 : BitVec 4) (rs2 : BitVec 4) (width : BitVec 1) (scope : BitVec 3) (nb : BitVec 1)
  /-- `RED` (R141): Combines a value into memory without a result, using an update-only copy where possible. -/
  | red (rs1 : BitVec 4) (rs2 : BitVec 4) (kind : BitVec 4) (nb : BitVec 1)
  /-- `LINE_WB` (R144): Writes back this core's copy of one line. -/
  | lineWb (rs1 : BitVec 4) (nb : BitVec 1)
  /-- `LINE_INV` (R144): Drops this core's copy of one line, discarding untracked dirty bytes. -/
  | lineInv (rs1 : BitVec 4) (nb : BitVec 1)
  /-- `LINE_WBINV` (R144): Writes back and drops this core's copy of one line. -/
  | lineWbinv (rs1 : BitVec 4) (nb : BitVec 1)
  /-- `PQ_PUSH` (R233): Checks a 32-byte command word in LM and queues it on the core's press queue after a forme release
  step. -/
  | pqPush (rs1 : BitVec 4) (nb : BitVec 1)
  /-- `PQ_DONE` (R234): Tests a ticket against the core's press queue. -/
  | pqDone (rs1 : BitVec 4) (nb : BitVec 1)
  /-- `PQ_RESUME` (R235): Restarts or removes the stopped head of the core's press queue. -/
  | pqResume (nb : BitVec 1)
  /-- `CBIT_TEST` (R262): Reads a completion bitmap word and tests chunk bits; RDY is a die-scope acquire. -/
  | cbitTest (rd : BitVec 4) (rs1 : BitVec 4) (rs2 : BitVec 4) (nb : BitVec 1)
  /-- `KSUB` (R353): Copies a launch record into a queue of the context in one step at the descriptor's home and returns
  the kernel id. -/
  | ksub (rd : BitVec 4) (rs1 : BitVec 4) (rs2 : BitVec 4) (nb : BitVec 1)
  /-- `BAR_ARRIVE` (R158): Counts an arrival at a barrier or semaphore as a release and returns the token. -/
  | barArrive (rd : BitVec 4) (kind : BitVec 2) (idx : BitVec 6) (nb : BitVec 1)
  /-- `BAR_WAIT` (R159): Tests a token against the phase that the core sees. -/
  | barWait (rs1 : BitVec 4) (kind : BitVec 2) (idx : BitVec 6) (nb : BitVec 1)
  /-- `BAR_AW` (R160): Arrives at a barrier and then waits on the token obtained. -/
  | barAw (rd : BitVec 4) (kind : BitVec 2) (idx : BitVec 6) (nb : BitVec 1)
  /-- `BAR_CFG` (R161): Sets the expected count, step and scope of a barrier, advancing it when arrived reaches expected. -/
  | barCfg (rs1 : BitVec 4) (kind : BitVec 2) (idx : BitVec 6) (nb : BitVec 1)
  /-- `FNC` (R139): Scoped acquire, release or full fence. -/
  | fnc (kind : BitVec 2) (scope : BitVec 3) (nb : BitVec 1)
  /-- `PLDA` (R137): Load followed by an acquire at its scope. -/
  | plda (rd : BitVec 4) (rs1 : BitVec 4) (width : BitVec 3) (scope : BitVec 3) (nb : BitVec 1)
  /-- `PSTR` (R138): Release at its scope followed by a store, reporting REFUSED pushes. -/
  | pstr (rs : BitVec 4) (rs1 : BitVec 4) (width : BitVec 3) (scope : BitVec 3) (nb : BitVec 1)
  /-- `PSH_D` (R142): Stores 8 bytes and pushes the line to the target cores named by a constant word. -/
  | pshD (rs : BitVec 4) (rs1 : BitVec 4) (c8 : BitVec 8) (nb : BitVec 1)
  /-- `PSH_LINE` (R143): Pushes the current value of a line to target cores. -/
  | pshLine (rs1 : BitVec 4) (c8 : BitVec 8) (nb : BitVec 1)
  /-- `RNG_WB` (R263): Queues a sweep request that merges the dirty untracked bytes of a range and then arrives at a
  barrier. -/
  | rngWb (rs1 : BitVec 4) (rlen : BitVec 4) (kind : BitVec 2) (idx : BitVec 6) (nb : BitVec 1)
  /-- `RNG_INV` (R263): Queues a sweep request that invalidates the untracked copies of a range, discarding dirty bytes. -/
  | rngInv (rs1 : BitVec 4) (rlen : BitVec 4) (kind : BitVec 2) (idx : BitVec 6) (nb : BitVec 1)
  /-- `RNG_WBINV` (R263): Queues a sweep request that merges and then invalidates the untracked copies of a range. -/
  | rngWbinv (rs1 : BitVec 4) (rlen : BitVec 4) (kind : BitVec 2) (idx : BitVec 6) (nb : BitVec 1)
  /-- `GX_KICK` (R261): Queues a chain head on a galley channel as a die-scope release. -/
  | gxKick (rs1 : BitVec 4) (c8 : BitVec 6) (nb : BitVec 1)
  /-- `LC` (R145): Reads a constant word into a register. -/
  | lc (rd : BitVec 4) (c8 : BitVec 8) (nb : BitVec 1)
  /-- `TI_LOAD` (R259): Copies a 64-byte image into an identifier entry and drops every copy of the entry on the die. -/
  | tiLoad (rs1 : BitVec 4) (c8 : BitVec 8) (nb : BitVec 1)
  /-- `TI_INV` (R260): Makes an identifier entry invalid and drops its copies. -/
  | tiInv (c8 : BitVec 8) (nb : BitVec 1)
  /-- `VADD` (R191): Lanewise add. -/
  | vadd (vd : BitVec 3) (vs1 : BitVec 3) (vs2 : BitVec 3) (et : BitVec 3) (m : BitVec 1)
  /-- `VSUB` (R191): Lanewise subtract. -/
  | vsub (vd : BitVec 3) (vs1 : BitVec 3) (vs2 : BitVec 3) (et : BitVec 3) (m : BitVec 1)
  /-- `VMUL` (R191): Lanewise multiply. -/
  | vmul (vd : BitVec 3) (vs1 : BitVec 3) (vs2 : BitVec 3) (et : BitVec 3) (m : BitVec 1)
  /-- `VFMA` (R191): Lanewise fused multiply-add into vd. -/
  | vfma (vd : BitVec 3) (vs1 : BitVec 3) (vs2 : BitVec 3) (et : BitVec 3) (m : BitVec 1)
  /-- `VMINU` (R193): Lanewise unsigned minimum. -/
  | vminu (vd : BitVec 3) (vs1 : BitVec 3) (vs2 : BitVec 3) (et : BitVec 3) (m : BitVec 1)
  /-- `VMIN` (R193): Lanewise minimum. -/
  | vmin (vd : BitVec 3) (vs1 : BitVec 3) (vs2 : BitVec 3) (et : BitVec 3) (m : BitVec 1)
  /-- `VMAX` (R193): Lanewise maximum. -/
  | vmax (vd : BitVec 3) (vs1 : BitVec 3) (vs2 : BitVec 3) (et : BitVec 3) (m : BitVec 1)
  /-- `VABS` (R194): Lanewise absolute value. -/
  | vabs (vd : BitVec 3) (vs1 : BitVec 3) (et : BitVec 3) (m : BitVec 1)
  /-- `VNEG` (R194): Lanewise negation. -/
  | vneg (vd : BitVec 3) (vs1 : BitVec 3) (et : BitVec 3) (m : BitVec 1)
  /-- `VDIV` (R192): Lanewise correctly rounded division. -/
  | vdiv (vd : BitVec 3) (vs1 : BitVec 3) (vs2 : BitVec 3) (et : BitVec 3) (m : BitVec 1)
  /-- `VSQRT` (R192): Lanewise correctly rounded square root. -/
  | vsqrt (vd : BitVec 3) (vs1 : BitVec 3) (et : BitVec 3) (m : BitVec 1)
  /-- `VRCPE` (R195): Lanewise reciprocal estimate. -/
  | vrcpe (vd : BitVec 3) (vs1 : BitVec 3) (et : BitVec 3) (m : BitVec 1)
  /-- `VRSQE` (R195): Lanewise reciprocal square-root estimate. -/
  | vrsqe (vd : BitVec 3) (vs1 : BitVec 3) (et : BitVec 3) (m : BitVec 1)
  /-- `VMAXU` (R193): Lanewise unsigned maximum. -/
  | vmaxu (vd : BitVec 3) (vs1 : BitVec 3) (vs2 : BitVec 3) (et : BitVec 3) (m : BitVec 1)
  /-- `VAND` (R196): Lanewise bitwise AND. -/
  | vand (vd : BitVec 3) (vs1 : BitVec 3) (vs2 : BitVec 3) (et : BitVec 3) (m : BitVec 1)
  /-- `VOR` (R196): Lanewise bitwise OR. -/
  | vor (vd : BitVec 3) (vs1 : BitVec 3) (vs2 : BitVec 3) (et : BitVec 3) (m : BitVec 1)
  /-- `VXOR` (R196): Lanewise bitwise XOR. -/
  | vxor (vd : BitVec 3) (vs1 : BitVec 3) (vs2 : BitVec 3) (et : BitVec 3) (m : BitVec 1)
  /-- `VSHL` (R196): Lanewise left shift. -/
  | vshl (vd : BitVec 3) (vs1 : BitVec 3) (vs2 : BitVec 3) (et : BitVec 3) (m : BitVec 1)
  /-- `VSHR` (R196): Lanewise logical right shift. -/
  | vshr (vd : BitVec 3) (vs1 : BitVec 3) (vs2 : BitVec 3) (et : BitVec 3) (m : BitVec 1)
  /-- `VSRA` (R196): Lanewise arithmetic right shift. -/
  | vsra (vd : BitVec 3) (vs1 : BitVec 3) (vs2 : BitVec 3) (et : BitVec 3) (m : BitVec 1)
  /-- `VCMP_EQ` (R197): Writes vmask with lanewise equality. -/
  | vcmpEq (vs1 : BitVec 3) (vs2 : BitVec 3) (et : BitVec 3) (m : BitVec 1)
  /-- `VCMP_NE` (R197): Writes vmask with lanewise inequality. -/
  | vcmpNe (vs1 : BitVec 3) (vs2 : BitVec 3) (et : BitVec 3) (m : BitVec 1)
  /-- `VCMP_LT` (R197): Writes vmask with lanewise less-than. -/
  | vcmpLt (vs1 : BitVec 3) (vs2 : BitVec 3) (et : BitVec 3) (m : BitVec 1)
  /-- `VCMP_LE` (R197): Writes vmask with lanewise less-or-equal. -/
  | vcmpLe (vs1 : BitVec 3) (vs2 : BitVec 3) (et : BitVec 3) (m : BitVec 1)
  /-- `VSEL` (R198): Selects lanes from vs1 or vs2 by vmask. -/
  | vsel (vd : BitVec 3) (vs1 : BitVec 3) (vs2 : BitVec 3) (et : BitVec 3)
  /-- `VCMP_LTU` (R197): Writes vmask with lanewise unsigned less-than. -/
  | vcmpLtu (vs1 : BitVec 3) (vs2 : BitVec 3) (et : BitVec 3) (m : BitVec 1)
  /-- `VBC` (R199): Broadcasts a scalar register to every active lane. -/
  | vbc (vd : BitVec 3) (xs : BitVec 4) (et : BitVec 3) (m : BitVec 1)
  /-- `VBC_C` (R199): Broadcasts a constant word to every lane. -/
  | vbcC (vd : BitVec 3) (c8 : BitVec 8) (et : BitVec 3)
  /-- `VMV` (R200): Copies the active lanes of vs1 to vd. -/
  | vmv (vd : BitVec 3) (vs1 : BitVec 3) (et : BitVec 3) (m : BitVec 1)
  /-- `VMV_CLEAN` (R200): Zeroes v0-v7 and vmask and makes the thread vector-clean. -/
  | vmvClean
  /-- `VEXT` (R201): Extracts one lane of vs1 into a scalar register. -/
  | vext (vs1 : BitVec 3) (xs : BitVec 4) (et : BitVec 3)
  /-- `VCVT` (R202): Converts lanes between element types. -/
  | vcvt (vd : BitVec 3) (vs1 : BitVec 3) (src : BitVec 3) (et : BitVec 3) (m : BitVec 1)
  /-- `VCVT8` (R203): Converts between 8-bit floats and FP16, BF16 or FP32. -/
  | vcvt8 (vd : BitVec 3) (vs1 : BitVec 3) (src : BitVec 3) (et : BitVec 3) (m : BitVec 1)
  /-- `VRED_ADD` (R204): Tree sum of the active lanes into lane 0. -/
  | vredAdd (vd : BitVec 3) (vs1 : BitVec 3) (et : BitVec 3) (m : BitVec 1)
  /-- `VRED_MAX` (R204): Tree maximum of the active lanes into lane 0. -/
  | vredMax (vd : BitVec 3) (vs1 : BitVec 3) (et : BitVec 3) (m : BitVec 1)
  /-- `VRED_MIN` (R204): Tree minimum of the active lanes into lane 0. -/
  | vredMin (vd : BitVec 3) (vs1 : BitVec 3) (et : BitVec 3) (m : BitVec 1)
  /-- `VDOT` (R205): Accumulates dot products into the wider lanes of vd. -/
  | vdot (vd : BitVec 3) (vs1 : BitVec 3) (vs2 : BitVec 3) (et : BitVec 3) (m : BitVec 1)
  /-- `VPERM` (R206): Permutes the lanes of vs1 by the indices in vs2. -/
  | vperm (vd : BitVec 3) (vs1 : BitVec 3) (vs2 : BitVec 3) (et : BitVec 3) (m : BitVec 1)
  /-- `VSLIDE` (R207): Slides lanes by a signed distance. -/
  | vslide (vd : BitVec 3) (vs1 : BitVec 3) (xs : BitVec 4) (et : BitVec 3) (m : BitVec 1)
  /-- `VLD` (R208): Loads 64 bytes into a vector register. -/
  | vld (vd : BitVec 3) (xs : BitVec 4) (lane : BitVec 2) (m : BitVec 1) (nb : BitVec 1)
  /-- `VST` (R208): Stores a vector register to 64 bytes. -/
  | vst (vd : BitVec 3) (xs : BitVec 4) (lane : BitVec 2) (m : BitVec 1) (nb : BitVec 1)
  /-- `VLDX` (R209): Gathers lanes from base plus offsets, resumable through the lane cursor. -/
  | vldx (vd : BitVec 3) (vs1 : BitVec 3) (xs : BitVec 4) (lane : BitVec 2) (m : BitVec 1) (nb : BitVec 1)
  /-- `VSTX` (R209): Scatters lanes to base plus offsets, resumable through the lane cursor. -/
  | vstx (vd : BitVec 3) (vs1 : BitVec 3) (xs : BitVec 4) (lane : BitVec 2) (m : BitVec 1) (nb : BitVec 1)
  /-- `CLAIM_DATA_ARRIVAL` (R85): The last resource of a claim (translation or line) arrives, the armed wake fires and the
  hold window opens. -/
  | claimDataArrival (n : Nat)
  /-- `HOLD_WINDOW_CLOSE` (R85): A claim's hold window of 2,048 core cycles closes and the claim, or a reserved claim or
  place-table entry, ends or passes on. -/
  | holdWindowClose (kind : Nat) (core : Nat) (uid : Nat)
  /-- `YIELD_TIMEOUT` (R97): The yield limit expires during a wait and the yield completes with TIMEOUT. -/
  | yieldTimeout (uid : Nat)
  /-- `SLEEP_END` (R99): gtick reaches a sleeping thread's end tick and the thread becomes READY. -/
  | sleepEnd (uid : Nat)
  /-- `SWAP_IN` (R91): A runnable PARKED thread is swapped into an EMPTY slot and takes a priority issue. -/
  | swapIn (core : Nat)
  /-- `SWAP_OUT` (R91): The longest-waiting WAITING thread is moved to the park area to make room for a runnable parked
  thread. -/
  | swapOut (core : Nat)
  /-- `MIGRATION_ARRIVAL` (R103): A MIGRATING thread arrives at its target core with its mailbox entries, READY or PARKED
  runnable. -/
  | migrationArrival (uid : Nat)
  /-- `MAILBOX_FLIT` (R94): A message flit reaches the receiving core and is accepted and acknowledged, or dropped with a
  NACK. -/
  | mailboxFlit (core : Nat) (k : Nat)
  /-- `MESSAGE_ACK` (R94): An acknowledgement reaches the sender and frees its outbound entry. -/
  | messageAck (core : Nat) (k : Nat)
  /-- `MESSAGE_NACK` (R94): A NACK reaches the sender, which schedules the message and its later messages for replay. -/
  | messageNack (core : Nat) (k : Nat)
  /-- `MESSAGE_REPLAY` (R94): The replay back-off expires and the sender resends the NACKed messages in send order. -/
  | messageReplay (core : Nat) (k : Nat)
  /-- `TRAP_RECORD_WRITE` (R110): A trap record held in the core is written to the trap ring once space frees. -/
  | trapRecordWrite (ctx : Nat)
  /-- `WATCHDOG_EXPIRY` (R358): A group's watchdog counter reaches its limit and every READY, WAITING or PARKED thread
  traps WATCHDOG. -/
  | watchdogExpiry (gid : Nat)
  /-- `READ_REQUEST` (R118): A read request reaches a home slice and the directory entry moves as its table gives. -/
  | readRequest (n : Nat)
  /-- `EXCLUSIVE_REQUEST` (R118): A store, amo or upgrade request reaches the home, which invalidates other holders and
  grants M. -/
  | exclusiveRequest (n : Nat)
  /-- `U_REQUEST` (R118): A red request reaches the home, which grants an update-only copy. -/
  | uRequest (n : Nat)
  /-- `PUSH_WRITE` (R127): A push reaches the line's home, which recalls holders, writes the data and sends copies to the
  targets. -/
  | pushWrite (n : Nat)
  /-- `EVICTION_NOTICE` (R118): An eviction notice reaches the home and is applied or ignored. -/
  | evictionNotice (n : Nat)
  /-- `WRITE_BACK` (R118): An owner's write-back reaches the home, which takes the data. -/
  | writeBack (n : Nat)
  /-- `ACKNOWLEDGEMENT` (R118): A reply reaches the home in state W, lowers pending and, at zero, settles the entry and
  serves the request. -/
  | acknowledgement (n : Nat)
  /-- `INVALIDATION` (R116): An invalidation reaches a core's L1, which drops the line and acknowledges it, or defers it
  under a claim. -/
  | invalidation (n : Nat)
  /-- `SHARE_RECALL` (R116): A share recall reaches the owner, which moves to S and replies. -/
  | shareRecall (n : Nat)
  /-- `UPDATE_RECALL` (R116): An update recall reaches a U holder, which sends its copy and drops the line. -/
  | updateRecall (n : Nat)
  /-- `PUSH_FILL` (R128): A push copy reaches a target core, which installs it in Sp or refuses it. -/
  | pushFill (n : Nat)
  /-- `PUSH_COMPLETION` (R127): The completion of a push reaches the pushing core, which lowers the pending-push count and
  counts refusals. -/
  | pushCompletion (n : Nat)
  /-- `CLAIM_COPY_RETURN` (R114): A modified claim copy returns to its remote home, which writes it and ends the pin. -/
  | claimCopyReturn (n : Nat)
  /-- `UNTRACKED_WRITE_BACK` (R123): A masked write-back of untracked bytes reaches the home and is merged byte by byte. -/
  | untrackedWriteBack (n : Nat)
  /-- `HOST_WRITE` (R323): A posted host write reaches a home through the host endpoint and is performed there. `loc`:
  the function of the endpoint and the PA. -/
  | hostWrite (loc : Nat × Nat) (size : Nat) (val : BitVec 64)
  /-- `HOST_READ` (R323): A host read is served at the home through the host endpoint. `loc`: the function of the
  endpoint and the PA. -/
  | hostRead (loc : Nat × Nat) (size : Nat)
  /-- `BARRIER_RELEASE` (R153): A core's staggered release cycle for a barrier advance is reached and its waiters' wakes
  fire. -/
  | barrierRelease (kind : Nat) (unit : Nat) (idx : Nat) (core : Nat)
  /-- `SEM_REMOTE_ARRIVAL` (R378): An arrival from a proxy package is counted at the home semaphore and answered with the
  phase. -/
  | semRemoteArrival (entry : Nat) (pkg : Nat) (uid : Nat)
  /-- `SEM_ARRIVAL_REPLY` (R378): The home's reply reaches a proxy, writing its phase and firing the arriving thread's
  wake. -/
  | semArrivalReply (uid : Nat) (phase : Nat)
  /-- `SEM_PHASE_UPDATE` (R378): A home advance writes the new phase into a proxy semaphore as a pod-scope release. -/
  | semPhaseUpdate (entry : Nat) (phase : Nat)
  /-- `PRESS_ARBITRATION` (R216): The press starts the eligible head command of a queue by weighted round robin. -/
  | pressArbitration (fid : Nat)
  /-- `LSTAT` (R236): Loads a weight tile and its w_scale into the shadow plane. -/
  | lstat (fid : Nat)
  /-- `FLIP` (R218): Makes the loaded shadow plane active for its owner. -/
  | flip (fid : Nat)
  /-- `STREAM` (R237): Passes activation rows against the active plane into accumulator rows. -/
  | stream (fid : Nat)
  /-- `ACLR` (R238): Sets accumulator rows to zero bits. -/
  | aclr (fid : Nat)
  /-- `DRAIN` (R239): Converts accumulator rows and writes them to an operand. -/
  | drain (fid : Nat)
  /-- `ACOPY` (R240): Copies accumulator rows bit for bit. -/
  | acopy (fid : Nat)
  /-- `ALOAD` (R241): Writes accumulator rows from an operand. -/
  | aload (fid : Nat)
  /-- `PRESS_MARK` (R242): Sets the queue's last mark once earlier commands and their writes are done. -/
  | pressMark (fid : Nat)
  /-- `SHARE` (R243): Adds positions to the holder set of the active plane. -/
  | share (fid : Nat)
  /-- `GROUP_QUEUE_DISCARD` (R230): A group whose threads have all exited and whose queues are empty or stopped ends,
  discarding stopped commands and freeing its resources. -/
  | groupQueueDiscard (gid : Nat)
  /-- `GALLEY_CHAIN` (R254): A galley engine takes a chain head from a channel's kick queue and reads and starts its
  records. -/
  | galleyChain (die : Nat) (ch : Nat)
  /-- `COPY` (R251): Galley record that copies each box point bit for bit. -/
  | copy (die : Nat) (ch : Nat) (rec : Nat) (chunk : Nat)
  /-- `COMPOSE` (R251): Galley record that reads its source through a composed identifier. -/
  | compose (die : Nat) (ch : Nat) (rec : Nat) (chunk : Nat)
  /-- `SCATTER` (R251): Galley record that writes its destination through a composed identifier. -/
  | scatter (die : Nat) (ch : Nat) (rec : Nat) (chunk : Nat)
  /-- `FILL` (R251): Galley record that fills each destination point with a value. -/
  | fill (die : Nat) (ch : Nat) (rec : Nat) (chunk : Nat)
  /-- `CONVERT` (R251): Galley record that converts each point in the record's rounding mode. -/
  | convert (die : Nat) (ch : Nat) (rec : Nat) (chunk : Nat)
  /-- `GALLEY_CHUNK_DONE` (R254): Every write of a chunk is performed and the engine sets its bit in the completion object
  as a release. -/
  | galleyChunkDone (die : Nat) (ch : Nat) (rec : Nat) (chunk : Nat)
  /-- `SWEEP` (R257): A sweep engine serves a range request over the forme or die caches and then arrives at its barrier. -/
  | sweep (fid : Nat)
  /-- `TABLE_WALK` (R273): A walker serves a forme TLB miss, setting A and D and filling the TLBs or reporting not present. -/
  | tableWalk (fid : Nat)
  /-- `FAULT_RING_WRITE` (R369): A waiting fault request is written to the fault ring when it has room. -/
  | faultRingWrite (ctx : Nat)
  /-- `QUEUE_DOORBELL` (R338): A write to a queue's widx notifies the scheduler, which reads the new records. -/
  | queueDoorbell (ctx : Nat) (q : Nat)
  /-- `QUEUE_ENABLE` (R340): A write of en 1 takes a DISABLED queue to EMPTY, DEPENDENT or READY. -/
  | queueEnable (ctx : Nat) (q : Nat)
  /-- `QUEUE_DISABLE` (R340): A write of en 0 takes a queue to DISABLED, keeping its head. -/
  | queueDisable (ctx : Nat) (q : Nat)
  /-- `QUEUE_CANCEL` (R343): A write of cidx cancels every record below it that is not yet admitted. -/
  | queueCancel (ctx : Nat) (q : Nat) (c : Nat)
  /-- `DEPENDENCE_MET` (R343): The phase of a head's semaphore or die barrier reaches its target and the queue becomes
  READY. -/
  | dependenceMet (ctx : Nat) (q : Nat)
  /-- `KERNEL_ADMIT` (R342): The scheduler chooses the head of highest effective priority, admits it or skips it, and
  writes its status. -/
  | kernelAdmit (die : Nat) (ctx : Nat)
  /-- `GROUP_PLACE` (R350): A group is placed on a forme or core as room frees. -/
  | groupPlace (kid : Nat)
  /-- `KERNEL_DRAIN_COMPLETE` (R348): A draining kernel's chains and sweeps have ended and the HA-4 arrives at its
  completion semaphore. -/
  | kernelDrainComplete (kid : Nat)
  /-- `KERNEL_CANCEL` (R347): The Lantern kernel's cancel service ends every thread of an admitted kernel. -/
  | kernelCancel (kid : Nat)
  /-- `KERNEL_FAULT_MARK` (R347): The Lantern kernel marks a kernel FAULTED, ending it and cancelling dependent records. -/
  | kernelFaultMark (kid : Nat)
  /-- `GROUP_SAVE` (R359): A preemption request stops the group, settles its work and writes its state to the save area. -/
  | groupSave (gid : Nat)
  /-- `GROUP_RESTORE` (R360): A saved group is restored on cores of its die and resumes after an acquire step. -/
  | groupRestore (gid : Nat) (place : Nat)
  /-- `TENANT_SLICE_END` (R366): A tenant's time slice ends and its contexts are preempted for the next tenant. -/
  | tenantSliceEnd (part : Nat)
  /-- `CONTEXT_PUBLISH` (R363): A context record is published and the context leaves BUILDING, or is refused. -/
  | contextPublish (pa : Nat)
  /-- `CONTEXT_FAULT_MARK` (R363): The Lantern kernel marks a context FAULTED and its queues stop admitting. -/
  | contextFaultMark (ctx : Nat)
  /-- `CONTEXT_TEARDOWN` (R363): A context is torn down, ending its threads and releasing its queues, barriers, channels
  and pages. -/
  | contextTeardown (ctx : Nat)
  /-- `IMAGE_RESTORE` (R368): A migration image is restored at the target, or refused and the context returned to SAVED.
  `dst`: the target's number and the PA of its record. -/
  | imageRestore (src : Nat) (dst : Nat × Nat) (version : Nat)
  /-- `BUCKET_REFILL` (R367): Every 1,024 core cycles a token bucket gains its rate up to its depth. -/
  | bucketRefill (core : Nat)
  /-- `FANS_RESOLVE` (R276): A resolve verdict for a fault request replays the side log and fires the joined FAULTED wakes. -/
  | fansResolve (die : Nat) (ctx : Nat) (seq : Nat)
  /-- `FANS_DECLINE` (R276): A decline verdict traps waiting loads UNRESOLVABLE and discards side-log entries. -/
  | fansDecline (die : Nat) (ctx : Nat) (seq : Nat)
  /-- `SHOOT` (R284): A write of shoot starts a shootdown of a context's VA range on every core and forme. -/
  | shoot (die : Nat) (ctx : Nat) (va : Nat) (len : Nat) (icache : Bool)
  /-- `ASSN_DIE_BARRIER` (R370): Assigns a die barrier to a context and resets it. -/
  | assnDieBarrier (die : Nat) (ctx : Nat) (idx : Nat)
  /-- `ASSN_GALLEY_CHANNEL` (R370): Assigns a galley channel to a context. -/
  | assnGalleyChannel (die : Nat) (ctx : Nat) (ch : Nat)
  /-- `TRES_RESUME` (R370): Resumes a trapped thread at a given PC. -/
  | tresResume (die : Nat) (ctx : Nat) (seq : Nat) (pc : BitVec 64) (a0 : BitVec 64) (a1 : BitVec 64)
  /-- `TRES_END` (R370): Ends a trapped thread. -/
  | tresEnd (die : Nat) (ctx : Nat) (seq : Nat)
  /-- `LINK_DATA_FLIT` (R374): A data flit is received and accepted, or discarded with at most one NACK. `flip`: the bits
  that the wire has changed. -/
  | linkDataFlit (link : Nat) (flip : BitVec 512) (room : Bool)
  /-- `LINK_ACK` (R374): An ACK flit acknowledges sent flits cumulatively. `link`: the link and the bits that the wire has
  changed. -/
  | linkAck (link : Nat × BitVec 512)
  /-- `LINK_NACK` (R374): A NACK flit acknowledges earlier flits and starts the back-off before a resend. `link`: the link
  and the bits that the wire has changed. -/
  | linkNack (link : Nat × BitVec 512)
  /-- `LINK_BACKOFF_EXPIRY` (R374): The back-off ends and the sender resends from the named flit in order. -/
  | linkBackoffExpiry (link : Nat)
  /-- `LINK_REPLAY_TIMEOUT` (R374): No ACK or NACK arrives for 4,096 ticks and the sender resends from its oldest
  unacknowledged flit. -/
  | linkReplayTimeout (link : Nat)
  /-- `LINK_ENABLE` (R375): A DOWN link is enabled and starts training. -/
  | linkEnable (link : Nat)
  /-- `LINK_TRAINING_DONE` (R375): Training ends at full width, at reduced width, or in failure. -/
  | linkTrainingDone (link : Nat) (lanes : Nat)
  /-- `LANE_MARGINAL` (R375): A lane's corrected-error count exceeds the threshold and the link starts sparing. -/
  | laneMarginal (link : Nat) (lane : Nat)
  /-- `LANE_LOST` (R375): A lane is lost or the replay limit is reached and the link retrains. -/
  | laneLost (link : Nat)
  /-- `LINK_DRAIN_REQUEST` (R375): A drain request or disable stops new data flits on a link. -/
  | linkDrainRequest (link : Nat)
  /-- `LINK_WINDOW_DRAINED` (R375): A draining link's window is acknowledged and it goes DOWN. -/
  | linkWindowDrained (link : Nat)
  /-- `SPARE_SWAP_COMPLETE` (R375): Traffic has moved to the spare lane and the link returns to UP or DEGRADED. -/
  | spareSwapComplete (link : Nat)
  /-- `PORT_RING_DOORBELL` (R379): A write to a port ring's widx hands new records to the network or storage port. -/
  | portRingDoorbell (ring : Nat)
  /-- `NETWORK_SEND` (R380): A network send record copies local bytes into a window of another package and arrives at a
  semaphore there. -/
  | networkSend (ring : Nat)
  /-- `STORAGE_READ` (R381): A storage record issues an NVMe Read. -/
  | storageRead (ring : Nat)
  /-- `STORAGE_WRITE` (R381): A storage record issues an NVMe Write. -/
  | storageWrite (ring : Nat)
  /-- `STORAGE_FLUSH` (R381): A storage record issues an NVMe Flush. -/
  | storageFlush (ring : Nat)
  /-- `NVME_COMPLETION` (R381): An NVMe completion entry arrives and the record's status is written and ridx advanced. -/
  | nvmeCompletion (ring : Nat) (status : Nat) (data : List (BitVec 64))
  /-- `TRACE_DRAIN` (R383): A core's trace buffer drains records into the die's trace ring as it has room. -/
  | traceDrain (core : Nat)
  /-- `SNAPSHOT` (R388): At each tick that is a multiple of 2^k every die latches its counters and writes a snapshot
  record. -/
  | snapshot
  /-- `STOP_ON_TICK` (R390): gtick reaches the armed stop tick and every clock domain of the package is gated. -/
  | stopOnTick
  /-- `STOPCTL_ARM` (R389): A write of arm sets the package to stop at stoptk, at once if that tick has passed. -/
  | stopctlArm (val : BitVec 64)
  /-- `REGISTER_WRITE` (R389): A write to an observation or other device register that has no row of its own stores the
  field. -/
  | registerWrite (pa : Nat) (val : BitVec 64)
  /-- `GTICK_DISCIPLINE` (R382): A package corrects its tick counter toward the pod's reference package. -/
  | gtickDiscipline (double : Bool)
  /-- `POWER_GOOD` (R393): Power-good rises and the package reaches SAFE from the I/O die ROM. -/
  | powerGood
  /-- `POWER_GOOD_FALL` (R393): Power-good falls and no state is kept. -/
  | powerGoodFall
  /-- `FIRMWARE_VERIFY` (R394): Lantern's firmware image is verified against both signatures and the fused minimum,
  reaching LANTERN or staying SAFE. -/
  | firmwareVerify (image : Nat)
  /-- `DIE_START` (R395): A die passes training, starts in its reset state and joins the package. -/
  | dieStart (die : Nat) (pass : Bool)
  /-- `ATTESTATION_REPORT` (R396): The I/O die signs a 512-byte attestation report on request. -/
  | attestationReport (nonce : BitVec 384) (ask : Nat × Nat)
  /-- `MANAGEMENT_RESET` (R390): A reset through the management function takes a stopped or tripped package into a staged
  start. -/
  | managementReset
  /-- `SCAN_OUT` (R390): A scan-out through the management function reads the state of a stopped package. -/
  | scanOut
  /-- `PWRCAP_WRITE` (R398): A write of the package ceiling changes the value the ceiling loop enforces from the next
  boundary. -/
  | pwrcapWrite (val : BitVec 64)
  /-- `PREQ_WRITE` (R398): A write of preq requests a P-state for a die. -/
  | preqWrite (die : Nat) (val : BitVec 64)
  /-- `PSTATE_TRANSITION_DONE` (R397): A die's P-state transition completes at the new frequency and voltage. -/
  | pstateTransitionDone (die : Nat)
  /-- `CEILING_BOUNDARY` (R399): At each 1,000-tick boundary the ceiling loop sums the last 99 intervals and sets throttle
  levels and P-states. -/
  | ceilingBoundary (energy : Nat) (l0 : Nat) (l1 : Nat) (l2 : Nat) (l3 : Nat)
  /-- `THERMAL_SAMPLE` (R401): Every 10 µs a die reads its hottest sensor and applies the thermal limits or the trip. -/
  | thermalSample (die : Nat) (celsius : Nat)
  /-- `DROOP_DETECT` (R402): A forme's droop detector stretches the core clock and restores it over 200 ns. -/
  | droopDetect (fid : Nat) (stretch : Bool)
  /-- `PARK` (R403): A write of park 1 stops admission and saves the die's groups on the way to PARKED. -/
  | park (die : Nat)
  /-- `PARK_SHUTDOWN_DONE` (R403): A parking die's caches are emptied and it reaches PARKED. -/
  | parkShutdownDone (die : Nat)
  /-- `UNPARK` (R403): A write of park 0 starts unparking a die. -/
  | unpark (die : Nat)
  /-- `UNPARK_START_DONE` (R403): An unparking die's start completes and it returns to IN-SERVICE. -/
  | unparkStartDone (die : Nat)
  /-- `DIE_DRAIN` (R406): A write of drain takes a die to DRAINED without powering it down. -/
  | dieDrain (die : Nat)
  /-- `FIRMWARE_HANDOVER` (R405): A verified new firmware image takes control while compute continues. -/
  | firmwareHandover (image : Nat)
  /-- `EXPANSION_TABLE_UPDATE` (R406): A new expansion table is loaded and measured on a DRAINED die. -/
  | expansionTableUpdate (die : Nat) (table : Nat)
  /-- `SOFT_ERROR` (R407): A soft error is corrected and logged, or poisons its line when it cannot be corrected. -/
  | softError (pa : Nat) (correctable : Bool)
  /-- `ROW_SPARING` (R407): A row with repeated corrected errors is remapped to a spare row. -/
  | rowSparing (die : Nat) (vault : Nat) (row : Nat)
  /-- `VAULT_RECALIBRATION` (R407): A vault is held for recalibration for at most 10 µs. -/
  | vaultRecalibration (die : Nat) (vault : Nat)
  /-- `VAULT_SPARING` (R407): A failing vault is copied into the spare vault with mirrored writes and switched over at one
  instant. -/
  | vaultSparing (die : Nat) (vault : Nat) (switch : Bool)
  /-- `CORE_RETIRE` (R408): A core is marked retired after its pages are re-homed and its forme's group is saved. -/
  | coreRetire (core : Nat)
  /-- `ILLEGAL_INSTRUCTION_WORD` (R28): Issue of a word that encodes no instruction, or holds a reserved field or value,
  traps ILLEGAL and changes no state. -/
  | illegalInstructionWord
  /-- `LANTERN_CORE_ACCESS` (R426): A Lantern core's read, write, FENCE or AMO reaches a home and is served there as R426
  states. -/
  | lanternCoreAccess (op : Nat) (pa : Nat) (size : Nat) (val : BitVec 64)
  /-- `PAGE_THAW` (R283): The Lantern kernel clears MG and signals the thaw, so a FROZEN page becomes PRESENT and the NR
  wakes of its frozen stores fire. -/
  | pageThaw (ctx : Nat) (va : Nat)
  /-- `HOME_PAGE_RECALL` (R285): Each home recalls and combines every L1 copy of a page's tracked lines, writes dirty
  lines to the frame and discards its directory entries. -/
  | homePageRecall (pa : Nat) (len : Nat)
  /-- `CONTEXT_MIGRATE` (R363): A RUNNABLE or SAVED context is taken into MIGRATING and its canonical image is built. -/
  | contextMigrate (ctx : Nat)
  /-- `CORE_RETURN_TO_SERVICE` (R408): A retired core is returned to service and takes its per-core reset values. -/
  | coreReturnToService (core : Nat)
  /-- `POD_JOIN` (R77): The package joins a pod and its package number in dieid is set. -/
  | podJoin (pkg : Nat)
  /-- `FUSED_MINIMUM_RAISE` (R394): The Lantern kernel raises the fused minimum security version, which never falls again. -/
  | fusedMinimumRaise (version : Nat)
  deriving DecidableEq, Repr

/-- Whether the step is an instruction word (rows 0 to 174) and not an event. -/
def Instr.isWord : Instr → Bool
  | .lui .. => true
  | .auipc .. => true
  | .jal .. => true
  | .jalr .. => true
  | .beq .. => true
  | .bne .. => true
  | .blt .. => true
  | .bge .. => true
  | .bltu .. => true
  | .bgeu .. => true
  | .lb .. => true
  | .lh .. => true
  | .lw .. => true
  | .ld .. => true
  | .lbu .. => true
  | .lhu .. => true
  | .lwu .. => true
  | .sb .. => true
  | .sh .. => true
  | .sw .. => true
  | .sd .. => true
  | .addi .. => true
  | .slti .. => true
  | .sltiu .. => true
  | .xori .. => true
  | .ori .. => true
  | .andi .. => true
  | .slli .. => true
  | .srli .. => true
  | .srai .. => true
  | .addiw .. => true
  | .slliw .. => true
  | .srliw .. => true
  | .sraiw .. => true
  | .add .. => true
  | .sub .. => true
  | .sll .. => true
  | .slt .. => true
  | .sltu .. => true
  | .xorr .. => true
  | .srl .. => true
  | .sra .. => true
  | .orr .. => true
  | .andr .. => true
  | .addw .. => true
  | .subw .. => true
  | .sllw .. => true
  | .srlw .. => true
  | .sraw .. => true
  | .mul .. => true
  | .mulh .. => true
  | .mulhsu .. => true
  | .mulhu .. => true
  | .div .. => true
  | .divu .. => true
  | .rem .. => true
  | .remu .. => true
  | .mulw .. => true
  | .divw .. => true
  | .divuw .. => true
  | .remw .. => true
  | .remuw .. => true
  | .czeroEqz .. => true
  | .czeroNez .. => true
  | .fence .. => true
  | .fenceTso .. => true
  | .ecall => true
  | .ebreak => true
  | .csrrw .. => true
  | .csrrs .. => true
  | .csrrc .. => true
  | .csrrwi .. => true
  | .csrrsi .. => true
  | .csrrci .. => true
  | .pld .. => true
  | .pst .. => true
  | .pldBr .. => true
  | .pstBr .. => true
  | .bo .. => true
  | .yield => true
  | .yieldN .. => true
  | .sleep .. => true
  | .thrSpawn .. => true
  | .thrExit => true
  | .go .. => true
  | .msend .. => true
  | .mrecv .. => true
  | .mfrom .. => true
  | .mark .. => true
  | .qinit .. => true
  | .qacq .. => true
  | .qwait .. => true
  | .qgive .. => true
  | .qswap .. => true
  | .qdrop .. => true
  | .qrel .. => true
  | .qstat .. => true
  | .amoAdd .. => true
  | .amoAnd .. => true
  | .amoOr .. => true
  | .amoXor .. => true
  | .amoMin .. => true
  | .amoMax .. => true
  | .amoMinu .. => true
  | .amoMaxu .. => true
  | .amoSwap .. => true
  | .amoCas .. => true
  | .red .. => true
  | .lineWb .. => true
  | .lineInv .. => true
  | .lineWbinv .. => true
  | .pqPush .. => true
  | .pqDone .. => true
  | .pqResume .. => true
  | .cbitTest .. => true
  | .ksub .. => true
  | .barArrive .. => true
  | .barWait .. => true
  | .barAw .. => true
  | .barCfg .. => true
  | .fnc .. => true
  | .plda .. => true
  | .pstr .. => true
  | .pshD .. => true
  | .pshLine .. => true
  | .rngWb .. => true
  | .rngInv .. => true
  | .rngWbinv .. => true
  | .gxKick .. => true
  | .lc .. => true
  | .tiLoad .. => true
  | .tiInv .. => true
  | .vadd .. => true
  | .vsub .. => true
  | .vmul .. => true
  | .vfma .. => true
  | .vminu .. => true
  | .vmin .. => true
  | .vmax .. => true
  | .vabs .. => true
  | .vneg .. => true
  | .vdiv .. => true
  | .vsqrt .. => true
  | .vrcpe .. => true
  | .vrsqe .. => true
  | .vmaxu .. => true
  | .vand .. => true
  | .vor .. => true
  | .vxor .. => true
  | .vshl .. => true
  | .vshr .. => true
  | .vsra .. => true
  | .vcmpEq .. => true
  | .vcmpNe .. => true
  | .vcmpLt .. => true
  | .vcmpLe .. => true
  | .vsel .. => true
  | .vcmpLtu .. => true
  | .vbc .. => true
  | .vbcC .. => true
  | .vmv .. => true
  | .vmvClean => true
  | .vext .. => true
  | .vcvt .. => true
  | .vcvt8 .. => true
  | .vredAdd .. => true
  | .vredMax .. => true
  | .vredMin .. => true
  | .vdot .. => true
  | .vperm .. => true
  | .vslide .. => true
  | .vld .. => true
  | .vst .. => true
  | .vldx .. => true
  | .vstx .. => true
  | .claimDataArrival .. => false
  | .holdWindowClose .. => false
  | .yieldTimeout .. => false
  | .sleepEnd .. => false
  | .swapIn .. => false
  | .swapOut .. => false
  | .migrationArrival .. => false
  | .mailboxFlit .. => false
  | .messageAck .. => false
  | .messageNack .. => false
  | .messageReplay .. => false
  | .trapRecordWrite .. => false
  | .watchdogExpiry .. => false
  | .readRequest .. => false
  | .exclusiveRequest .. => false
  | .uRequest .. => false
  | .pushWrite .. => false
  | .evictionNotice .. => false
  | .writeBack .. => false
  | .acknowledgement .. => false
  | .invalidation .. => false
  | .shareRecall .. => false
  | .updateRecall .. => false
  | .pushFill .. => false
  | .pushCompletion .. => false
  | .claimCopyReturn .. => false
  | .untrackedWriteBack .. => false
  | .hostWrite .. => false
  | .hostRead .. => false
  | .barrierRelease .. => false
  | .semRemoteArrival .. => false
  | .semArrivalReply .. => false
  | .semPhaseUpdate .. => false
  | .pressArbitration .. => false
  | .lstat .. => false
  | .flip .. => false
  | .stream .. => false
  | .aclr .. => false
  | .drain .. => false
  | .acopy .. => false
  | .aload .. => false
  | .pressMark .. => false
  | .share .. => false
  | .groupQueueDiscard .. => false
  | .galleyChain .. => false
  | .copy .. => false
  | .compose .. => false
  | .scatter .. => false
  | .fill .. => false
  | .convert .. => false
  | .galleyChunkDone .. => false
  | .sweep .. => false
  | .tableWalk .. => false
  | .faultRingWrite .. => false
  | .queueDoorbell .. => false
  | .queueEnable .. => false
  | .queueDisable .. => false
  | .queueCancel .. => false
  | .dependenceMet .. => false
  | .kernelAdmit .. => false
  | .groupPlace .. => false
  | .kernelDrainComplete .. => false
  | .kernelCancel .. => false
  | .kernelFaultMark .. => false
  | .groupSave .. => false
  | .groupRestore .. => false
  | .tenantSliceEnd .. => false
  | .contextPublish .. => false
  | .contextFaultMark .. => false
  | .contextTeardown .. => false
  | .imageRestore .. => false
  | .bucketRefill .. => false
  | .fansResolve .. => false
  | .fansDecline .. => false
  | .shoot .. => false
  | .assnDieBarrier .. => false
  | .assnGalleyChannel .. => false
  | .tresResume .. => false
  | .tresEnd .. => false
  | .linkDataFlit .. => false
  | .linkAck .. => false
  | .linkNack .. => false
  | .linkBackoffExpiry .. => false
  | .linkReplayTimeout .. => false
  | .linkEnable .. => false
  | .linkTrainingDone .. => false
  | .laneMarginal .. => false
  | .laneLost .. => false
  | .linkDrainRequest .. => false
  | .linkWindowDrained .. => false
  | .spareSwapComplete .. => false
  | .portRingDoorbell .. => false
  | .networkSend .. => false
  | .storageRead .. => false
  | .storageWrite .. => false
  | .storageFlush .. => false
  | .nvmeCompletion .. => false
  | .traceDrain .. => false
  | .snapshot => false
  | .stopOnTick => false
  | .stopctlArm .. => false
  | .registerWrite .. => false
  | .gtickDiscipline .. => false
  | .powerGood => false
  | .powerGoodFall => false
  | .firmwareVerify .. => false
  | .dieStart .. => false
  | .attestationReport .. => false
  | .managementReset => false
  | .scanOut => false
  | .pwrcapWrite .. => false
  | .preqWrite .. => false
  | .pstateTransitionDone .. => false
  | .ceilingBoundary .. => false
  | .thermalSample .. => false
  | .droopDetect .. => false
  | .park .. => false
  | .parkShutdownDone .. => false
  | .unpark .. => false
  | .unparkStartDone .. => false
  | .dieDrain .. => false
  | .firmwareHandover .. => false
  | .expansionTableUpdate .. => false
  | .softError .. => false
  | .rowSparing .. => false
  | .vaultRecalibration .. => false
  | .vaultSparing .. => false
  | .coreRetire .. => false
  | .illegalInstructionWord => false
  | .lanternCoreAccess .. => false
  | .pageThaw .. => false
  | .homePageRecall .. => false
  | .contextMigrate .. => false
  | .coreReturnToService .. => false
  | .podJoin .. => false
  | .fusedMinimumRaise .. => false

end Sys2Proof
end

