-- ==== Sys2Proof/Machine/State.lean ====
section
/-! DEFINITION. The state of one HA-4 package: every piece of state that spec/ gives the machine, as plain data.

Numbering: core `c` of the package is die × 256 + die-local index (R13), forme `f` is die × 32 + forme (R12), so the
forme of a core is c / 8 and its position is c mod 8. A home slice is the agent 1,024 + core. Lines are numbered by
PA / 128 (R111). -/

namespace Sys2Proof.Machine

/-- Outcome codes (R45). -/
inductive OCode where
  | rdy | nr | nrx | empty | full | stale | refused | faulted | abandoned | moved | timeout | denied
  deriving DecidableEq, Repr

/-- Trap classes (R109). -/
inductive TrapClass where
  | illegal | window | access | ecall | ebreak | race | unresolvable | pressError | watchdog | machineCheck
  deriving DecidableEq, Repr

/-- Thread states (R79); a thread that is gone is `exited`. -/
inductive TState where
  | ready | waiting | parked | migrating | trapped | exited
  deriving DecidableEq, Repr

/-- What an armed wake waits for (R83): each constructor names the events that fire it. -/
inductive WakeCond where
  | claim (pc ea : Word)           -- the thread's claim made at that PC and address can complete (R85)
  | budget (pc ea : Word)          -- a claim is reserved for the thread's operation at that PC and address (R87)
  | mail                           -- a message arrives for the thread (R105)
  | outbound (core dest : Nat)       -- the core's outbound queue accepts a message for thread `to` (R104)
  | park (ctx : Nat)               -- a slot or park entry of the context frees (R101)
  | fault (ctx page : Nat) (va : Option Word) -- the fault request is answered (R83, R276); `va`: a declined one traps
  | sideLog (core : Nat)           -- a side-log entry of the core frees (R277)
  | drain (page : Nat)             -- the thread's side-log entries of the page drain (R277)
  | release (scope : Nat)          -- the thread's release step at the scope is established (R132)
  | fenced (scope : Nat)           -- so is that of a FENCE, the core's side log drained (R64)
  | linePerformed (line : Nat)     -- a pending write of the core to the line is performed (R131)
  | unpinned (core line : Nat)     -- a claim that pins the line ends (R144)
  | setFree (core set : Nat)       -- a claim in the L1 set ends (R111)
  | thaw (ctx page : Nat)          -- the page thaws (R274)
  | phase (kind unit idx : Nat)    -- the visible phase of a barrier changes (R151)
  | semPhase (pa base : Nat)       -- the phase of the semaphore at a PA leaves `base` (R151)
  | barRelease (kind unit idx : Nat) -- the core's release cycle is reached (R154)
  | semReply                       -- the home's reply to a remote arrival (R378)
  | grant (die entry : Nat)        -- the place is granted (R299)
  | lineQuiet (line : Nat)         -- nothing stands against an access at the line's home (R90, R299)
  | tableEntry (die : Nat)         -- a place-table entry is reserved for the thread (R298)
  | pressEntry (core : Nat)        -- an entry of the core's press queue frees (R233)
  | ticket (core t : Nat)          -- a MARK with the ticket is reached or the queue stops (R234)
  | pressResolved (core : Nat)     -- the stopped command's fault is answered (R228)
  | kick (die ch : Nat)            -- a chain head of the channel is taken (R261)
  | sweepEntry (forme : Nat)       -- a sweep request is taken (R263)
  | lineWritten (line : Nat)       -- any agent writes the line (R262)
  | ring (ctx q : Nat)             -- the queue's ridx advances (R353)
  | trace (core : Nat)             -- the core's trace buffer has room (R107)
  deriving DecidableEq, Repr

/-- An armed wake condition and how often it has fired since it was armed (R83, R98). -/
structure Wake where
  cond : WakeCond
  fired : Nat
  deriving DecidableEq, Repr

/-- The wait in progress of a WAITING or PARKED thread (R97 to R99, R31, R56). -/
inductive Wait where
  | none
  | yield (t0 n : Nat)     -- `yield` (n = 1) or `yield.n`, begun at tick t0
  | sleep (until_ : Nat)   -- `sleep` to a tick
  | retry                  -- an auto-retry wait
  | fetch (page : Nat)     -- an instruction fetch from a page that is not present
  deriving DecidableEq, Repr

/-- A trap record (R109), before its bytes are written. -/
structure TrapRec where
  tick : Nat
  kernel : Nat
  group : Nat
  index : Nat
  pc : Word
  core : Nat
  slot : Nat
  insn : Nat
  cls : TrapClass
  va : Word
  extra : Word
  seq : Nat
  uid : Nat
  deriving DecidableEq, Repr

/-- A trap that a discarded side-log entry leaves for the thread's next boundary (R279). -/
structure LateTrap where
  cls : TrapClass
  va : Word
  extra : Word
  deriving DecidableEq, Repr

/-- An acquired-from entry of the race detector (R326). -/
structure AcqEntry where
  agent : Nat
  interval : Nat
  scope : Nat
  deriving DecidableEq, Repr

/-- A pending remote arrival (R378): the proxy word's address, and the home's phase once its reply has come. -/
structure RemoteArrival where
  pa : Nat
  reply : Option Nat
  deriving DecidableEq, Repr

/-- A misaligned access to a local memory that has performed some of its bytes (R60): the PC, how many, and the bytes
read so far. -/
structure ByteCursor where
  pc : Word
  done : Nat
  value : Nat
  deriving DecidableEq, Repr

/-- One thread (R9, R51, R69, R79, R129, R183, R326, R392). -/
structure Thread where
  st : TState
  runnable : Bool            -- PARKED and marked runnable (R79)
  wokenAt : Nat              -- order of its wake, for swap-in and priority issue (R81, R91)
  prio : Bool                -- a priority issue is pending (R81)
  saved : Bool               -- its group is saved (R359)
  core : Nat                 -- the core it runs on or is parked for (R92)
  slot : Option Nat          -- its slot, when it holds one
  slotFrom : Nat             -- core cycle at which it took the slot (R78)
  target : Nat               -- target core while MIGRATING (R103)
  gid : Nat                  -- its group
  index : Nat                -- index in group, the mailbox address (R93)
  rank : Nat                 -- R77
  thrid : Nat                -- `thrid`[31:0] (R77)
  regs : Tbl Word            -- x1 to x15 (R51); an unlisted register is 0
  pc : Word                  -- R51
  oc : BitVec 4              -- R70
  vregs : Tbl (BitVec 512)   -- v0 to v7 (R183)
  vmask : Word               -- R185
  vrm : BitVec 9             -- R71
  dphase : BitVec 9          -- R72
  pushref : Word             -- R130
  yldlim : BitVec 48         -- R75
  cycles : Nat               -- core cycles in earlier slots (R78)
  instret : Word             -- R78
  moves : Word               -- R77
  dirty : Bool               -- vector-dirty (R186)
  cursor : Option (Word × Nat) -- lane cursor (R210)
  bytes : Option ByteCursor  -- R60
  trail : List Nat           -- cores it has left since its last release step at `pkg` or wider (R132, R313)
  wake : Option Wake         -- R83
  wait : Wait
  waitFrom : Nat             -- when the wait began, for R91's longest-waiting choice
  movedPending : Bool        -- R97
  pushes : Nat               -- pending-push count (R129)
  refusal : Bool             -- refusal-pending bit (R129)
  remote : Option RemoteArrival -- R378
  ending : Bool              -- ended, its granted places not yet released (R300)
  last : Option (Nat × Nat)  -- sender and kind of the last message taken (R106)
  late : List LateTrap       -- R279
  trap : Option TrapRec      -- the trap that the thread is TRAPPED with (R108)
  arrived : Option (Word × Nat) -- `bar.aw`: the PC at which its arrival is counted already, and the token (R160)
  linked : Option (Word × Word) -- `qacq` in its auto-retry wait: PC and handle of the linked place (R304)
  agent : Nat                -- race detector agent number (R326)
  interval : Nat             -- R326
  epoch : Nat                -- R326
  acq : List AcqEntry        -- R326
  overflow : Bool            -- R326
  seen : Option Nat          -- the shadow word that its last checked load found (R315, R326)
  releasing : Bool           -- its next write is the one that an `fnc rel` or `fnc full` makes a release (R315, R326)
  sig : Word                 -- path signature (R392)
  deriving DecidableEq, Repr

/-- The state of a line in an L1 (R115, R121): `raw` is an untracked line, whose bytes carry their own state. -/
inductive LState where
  | s | sp | e | m | u (kind : Nat) | raw
  deriving DecidableEq, Repr

/-- One line held by an L1. `valid` and `dirty` are the byte masks of an untracked line (R121); in U, `valid` is the
touched mask (R115). -/
structure L1Line where
  line : Nat
  st : LState
  data : BitVec 1024
  valid : BitVec 128
  dirty : BitVec 128
  home : Nat                 -- the core beside its home slice (R268)
  deriving DecidableEq, Repr

/-- A TLB entry (R271): the context's ASID, the leaf's level and the leaf, with the home set read at the walk (R269). -/
structure TlbEntry where
  asid : Nat
  level : Nat
  vpn : Nat
  pte : Word
  homes : List Nat
  deriving DecidableEq, Repr

/-- What a claim needs (R85). -/
inductive Need where
  | translation             -- a translation only (line operations, `go`)
  | share                   -- a readable tracked copy
  | excl                    -- E or M
  | upd (kind : Nat)        -- U of a kind, or E or M
  | fetch                   -- the bytes of an untracked line
  | pushEntry               -- a push entry of the core (R142)
  | outbound                -- an outbound entry (R104)
  deriving DecidableEq, Repr

/-- Where a claim stands. -/
inductive CStage where
  | walking        -- its translation is awaited
  | blocked        -- a way of its set, or an update copy that another claim pins, is awaited (R90, R111)
  | waiting        -- its line or entry is awaited
  | ready          -- every resource has arrived
  | absent         -- its walk found the page not present
  deriving DecidableEq, Repr

/-- A claim of a core (R85). `word`, `pc` and `ea` name the operation (R86). -/
structure Claim where
  uid : Nat
  pc : Word
  word : Nat
  ea : Word
  need : Need
  write : Bool                -- the access writes (R273, R274)
  line : Nat
  stage : CStage
  opened : Bool               -- the hold window has started
  closes : Nat                -- the core cycle at which it closes
  remote : Bool               -- the line is homed on another die (R114)
  copy : Option (BitVec 1024) -- the claim copy, or the bytes of an untracked line that its fetch brought
  tag : Nat                   -- the number of its last fetch: an earlier fetch's bytes are not taken (R132)
  home : Nat                  -- the core beside the home slice of the line (R268)
  deriving DecidableEq, Repr

/-- An access that waits for a claim (R87): the thread and the operation. -/
structure Waiter where
  uid : Nat
  pc : Word
  word : Nat
  ea : Word
  deriving DecidableEq, Repr

/-- A claim reserved for an operation (R87): its hold window opens as a claim's does (R85). -/
structure Hold where
  op : Waiter
  opened : Bool
  closes : Nat
  deriving DecidableEq, Repr

/-- Where a message of an outbound queue stands (R94): its flit flies, was dropped with a NACK on its way back, was
accepted with an acknowledgement on its way back, or awaits replay at a core cycle of the sender's die. -/
inductive OutSt where
  | flying | nacked | accepted | replay (due : Nat)
  deriving DecidableEq, Repr

/-- A message held in an outbound queue (R94): the group, the receiving thread and the core its flit flies to, the
sending thread and its mailbox index, the kind bit, the payload and the order of its sending. -/
structure OutMsg where
  gid : Nat
  dest : Nat
  core : Nat
  sender : Nat
  src : Nat
  kind : Nat
  payload : Word
  seq : Nat
  st : OutSt
  deriving DecidableEq, Repr

/-- A mailbox entry (R93): the group, the receiving thread, the sender's index, the kind bit and the payload. -/
structure Mail where
  gid : Nat
  dest : Nat
  src : Nat
  kind : Nat
  payload : Word
  deriving DecidableEq, Repr

/-- A side-log entry (R277). -/
structure SideEntry where
  uid : Nat
  ctx : Nat
  va : Word
  width : Nat
  data : Word
  seq : Nat
  pc : Word
  sync : Bool                -- the first write after an `fnc rel` or `fnc full` (R315)
  deriving DecidableEq, Repr

/-- A trace record (R384). -/
structure TraceRec where
  tick : Nat
  kind : Nat
  ctx : Nat
  core : Nat
  slot : Nat
  index : Nat
  pc : Word
  value : Word
  deriving DecidableEq, Repr

/-- A hardware barrier (R148). `rel` holds, per core whose release cycle lies ahead, that cycle and the phase and epoch
that the core still sees (R153); `epoch` is the context's epoch at the last advance (R326). -/
structure Bar where
  phase : Nat
  expected : Nat
  arrived : Nat
  step : Nat
  holder : Option Nat
  rel : Tbl (Nat × Nat × Nat)
  epoch : Nat
  deriving DecidableEq, Repr

/-- A message between an L1 and a home slice (R113). The request messages carry the requesting thread. -/
inductive MsgKind where
  | readReq (uid : Nat)
  | exclReq (uid : Nat)
  | updReq (uid kind : Nat)
  | fetchReq (uid tag : Nat)                     -- the bytes of an untracked line (R122)
  | remoteReq (uid : Nat) (excl : Bool)          -- R114
  | pushWrite (uid : Nat) (off : Option Nat) (val : Word) (targets : List Nat) -- R127
  | evict                                        -- eviction notice (R116)
  | writeBack (data : BitVec 1024) (keep : Bool) -- an owner's write-back; `keep`: the core keeps a clean copy (R143, R144)
  | uCopy (data : BitVec 1024) (touched : BitVec 128) (kind : Nat) -- an update-only copy sent unasked (R116, R125)
  | ack (data : Option (BitVec 1024)) (touched : BitVec 128) (kind : Nat) -- acknowledgement or reply
  | pushReply (installed : Bool)
  | inval
  | shareRecall
  | updRecall
  | grant (uid : Nat) (st : LState) (data : BitVec 1024)
  | fill (uid tag : Nat) (data : BitVec 1024)
  | claimCopy (uid : Nat) (data : BitVec 1024)
  | claimReturn (uid : Nat) (data : Option (BitVec 1024))
  | pushFill (data : BitVec 1024)
  | pushDone (uid refused : Nat)
  | rawWriteBack (data : BitVec 1024) (mask : BitVec 128)
  | aliased                                      -- an untracked write-back has met a directory entry (R287)
  | own (uid : Nat)                              -- a core's answer to an attempt it chose not to serve at once (R89)
  deriving DecidableEq, Repr

structure Msg where
  src : Nat
  dst : Nat
  line : Nat
  kind : MsgKind
  deriving DecidableEq, Repr

/-- One core (R9). -/
structure Core where
  pushq : BitVec 10          -- R73
  pweight : BitVec 4         -- R74
  pmsel : Tbl (BitVec 18)    -- R76
  pmselCtx : Tbl Nat         -- the context that last wrote each `pmsel` (R76)
  pmc : Tbl Word             -- R77
  l1 : List L1Line           -- most recently used first (R111)
  icache : Tbl (BitVec 1024) -- L1 instruction lines by PA / 128 (R57)
  tlb : List TlbEntry        -- R271
  claims : List Claim        -- R87
  budget : List Waiter       -- the budget queue, oldest first (R87)
  reserved : List Hold       -- reserved claims (R87)
  outq : List OutMsg         -- R94
  mail : List Mail           -- R93
  side : List SideEntry      -- R277
  pushes : List (Nat × Nat)  -- push entries in use: line, thread (R142)
  bars : Tbl Bar             -- core barriers (R146)
  trace : List TraceRec      -- trace buffer (R383)
  lost : Nat                 -- hardware trace records dropped (R383)
  deferred : List Msg        -- requests deferred by a pin (R90)
  retired : Bool             -- R408
  lastIssue : Nat            -- the cycle count after its last issue (R81)
  port : List Msg            -- requests that wait for a token at the port of the slice beside it (R367)
  refills : Nat              -- refills of the token buckets of the slice beside it (R367)
  hot : List (Nat × List Nat) -- hotness entries of the home slice beside it: granule and counters, last used first (R281)
  deriving DecidableEq, Repr

/-- A press plane record (R212). -/
structure Plane where
  owner : Option Nat
  loaded : Bool
  type : Nat
  wscale : BitVec 32
  deriving DecidableEq, Repr

/-- The states of a press command word (R226). -/
inductive CmdSt where
  | queued | started | stoppedFault | resolved | stoppedError | stoppedPoison (pa : Nat) | stoppedDeclined
  deriving DecidableEq, Repr

/-- A queued press command word (R47) with what is kept beside it: the phase captured at push (R233), the pushing
thread with its detector number, interval and epoch after that release (R326), the identifier entry once read (R248),
its state, the unit cursor and the VA of its fault (R228). -/
structure Cmd where
  w0 : Word
  w1 : Word
  w2 : Word
  w3 : Word
  phase : Nat
  uid : Nat
  pc : Word
  agent : Nat
  interval : Nat
  epoch : Nat
  tids : Word
  entry : Option (List Word)
  st : CmdSt
  unit : Nat
  ahead : List (Nat × Nat)   -- elements of later rows that a DRAIN has already written: row and column (R225, R255)
  faultVa : Word
  deriving DecidableEq, Repr

/-- A press command queue (R212). `markAgent` and `markInterval` are those of the MARK last reached (R326). -/
structure PQueue where
  cmds : List Cmd
  lastMark : Option Nat
  markAgent : Nat
  markInterval : Nat
  auto : Nat
  deriving DecidableEq, Repr

/-- A press (R212) and the place of its round (R216). -/
structure Press where
  active : Plane
  shadow : Plane
  holders : List Nat
  queues : Tbl PQueue
  pos : Nat
  count : Nat
  weights : List Nat
  running : Option Nat
  deriving DecidableEq, Repr

/-- A sweep request (R257, R263); `left` are the cores still to be swept. -/
structure SweepReq where
  uid : Nat
  gid : Nat
  ctx : Nat
  core : Nat
  start : Word
  len : Nat
  wb : Bool
  inv : Bool
  kind : Nat
  idx : Nat
  left : List Nat
  deriving DecidableEq, Repr

/-- A forme-TLB miss in the miss queue (R272): one entry per claim. -/
structure Miss where
  core : Nat
  uid : Nat
  asid : Nat
  va : Word
  write : Bool
  kind : Nat               -- access kind of a fault request (R369)
  deriving DecidableEq, Repr

/-- One forme (R9). -/
structure Forme where
  tlb : List TlbEntry
  misses : List Miss
  bars : Tbl Bar
  sweeps : List SweepReq
  sweeping : Option SweepReq
  group : Option Nat
  press : Press
  stretched : Bool
  deriving DecidableEq, Repr

/-- A chain head in a kick queue, with the thread that kicked it and its detector number, interval and epoch after
that release (R250, R261, R326). -/
structure Kick where
  va : Word
  uid : Nat
  gid : Nat
  ctx : Nat
  core : Nat
  tids : Word
  pc : Word
  agent : Nat
  interval : Nat
  epoch : Nat
  deriving DecidableEq, Repr

/-- The states of a galley record that an engine has reached (R256): `finishing` is a record whose status is decided and
whose end writes are to be made (R254). -/
inductive RecSt where
  | running | finishing (status : Nat) | suspFault | suspPreempt | ended (status : Nat)
  deriving DecidableEq, Repr

/-- A started transfer record (R49, R254): its chain, its VA and words, the source, destination and target entries read
at its start (R248), whether its checks have passed, the chunks written, the points written along with another chunk's
(R255), the chunks whose bit is set, the pages that its
run and its end writes wait on, the pages whose end writes are abandoned, and its state. -/
structure GRec where
  chain : Nat
  kick : Kick
  va : Word
  words : List Word
  src : List Word
  dst : List Word
  tgt : List Word
  entered : Bool
  chunks : Nat
  written : List Nat
  ahead : List Nat
  done : List Nat
  faults : List Nat
  ends : List Nat
  skip : List Nat
  st : RecSt
  deriving DecidableEq, Repr

/-- A galley channel (R250): holder, kick queue, and the chain in progress: its head, the VA it reads next, the fault
it waits on, its records. -/
structure Channel where
  holder : Option Nat
  kicks : List Kick
  chain : Option Kick
  serial : Nat
  next : Word
  waitFault : Option Nat
  recs : List GRec
  deriving DecidableEq, Repr

/-- The states of a place-table entry (R293). -/
inductive PlaceSt where
  | free | waiting | granted | dropped
  deriving DecidableEq, Repr

/-- A place-table entry (R293): the owner is a thread of the context `ctx`; `quoin` is VA[54:5], `key` names the quoin in
`quoins`. -/
structure Place where
  st : PlaceSt
  gen : Nat
  owner : Option Nat
  ctx : Nat
  quoin : Nat
  key : Nat
  deriving DecidableEq, Repr

/-- What the place tables hold of one quoin (R290, R291), under a key of the model: its places in queue order, the
counters, the contexts and VAs by which it has been reached, the physical address at which it was last found, the words
last written, whether a program has stored to it since, and whether a rewrite is pending: `stale` because its page was
absent or frozen, `owed` because its line was not free to be written. -/
structure Quoin where
  die : Nat
  places : List Nat
  grants : Nat
  skips : Nat
  names : List (Nat × Word)
  pa : Option Nat
  words : List Word
  stored : Bool
  stale : Bool
  owed : Bool
  deriving DecidableEq, Repr

/-- A place-table entry reserved for a thread (R298): its hold window opens as a claim's does (R85). -/
structure TableHold where
  uid : Nat
  quoin : Nat
  opened : Bool
  closes : Nat
  deriving DecidableEq, Repr

/-- A shootdown in progress (R284): context, range, whether instruction lines go too, and the cores whose points lie
ahead. -/
structure Shoot where
  ctx : Nat
  va : Nat
  len : Nat
  icache : Bool
  left : List Nat
  deriving DecidableEq, Repr

/-- One die (R9). -/
structure Die where
  bars : Tbl Bar
  chans : Tbl Channel
  places : Tbl Place
  tableQ : List (Nat × Nat)          -- threads waiting for an entry, with the quoin (R298)
  tableRes : List TableHold          -- reserved entries (R298)
  counters : Tbl Nat                 -- event counters (R386)
  hotLog : List (Nat × List Nat)     -- evicted hotness entries (R281)
  backoff : Nat                      -- message back-off (R94)
  traceTail : Nat                    -- R389
  snapTail : Nat                     -- R389
  missed : Nat                       -- snapshots missed (R388)
  shoot : Option Shoot               -- the shootdown in progress; `shst` reads whether there is one (R370)
  expansion : Nat                    -- the loaded expansion table's identity (R395, R396)
  eventLog : List (Nat × Nat)        -- events logged with an address: code and PA (R286, R287)
  turns : Tbl Nat                    -- per galley engine, the channel after the one it served last (R250)
  latched : Option Nat               -- the tick of the last latched snapshot (R388, R390)
  snap : Option (List Nat)           -- the words of a latched record that is not yet written (R388)
  started : Bool                     -- the die has started (R395)
  shootVa : Word                     -- service register +0x010 (R370)
  shootLen : Word                    -- service register +0x018 (R370)
  tresPc : Word                      -- service register +0x038 (R370)
  deriving DecidableEq, Repr

/-- Directory states (R117). -/
inductive DState where
  | i | s | ex | u | w
  deriving DecidableEq, Repr

/-- A directory entry (R117). `req` is the request in progress in W; `kept` the holders a push keeps; `installed` and
`refusals` its replies so far; `copying` says that its copies are out (R127); `pins` the remote claims (R114). -/
structure DirEntry where
  st : DState
  coarse : Bool
  holders : List Nat
  kind : Nat
  pending : Nat
  req : Option Msg
  waitq : List Msg
  kept : List Nat
  installed : List Nat
  refusals : Nat
  copying : Bool
  pins : List (Nat × Bool)
  home : Nat                 -- the home that served its last request (R287)
  deriving DecidableEq, Repr

/-- An open fault request (R276, R369); `reports` are those of presses: core, command word w0 and cursor (R228). -/
structure FaultReq where
  ctx : Nat
  page : Nat
  va : Word
  level : Nat
  malformed : Bool
  kind : Nat
  seq : Nat
  core : Nat
  written : Bool
  reports : List (Nat × Word × Nat)
  deriving DecidableEq, Repr

/-- What a channel keeps for a context that is saved: its kick queue and its chain (R250, R256). -/
structure ChanSave where
  kicks : List Kick
  chain : Option Kick
  serial : Nat
  next : Word
  waitFault : Option Nat
  deriving DecidableEq, Repr

/-- Context states (R363). -/
inductive CtxSt where
  | free | building | runnable | running | preempting | saved | migrating | faulted | tornDown
  deriving DecidableEq, Repr

/-- The scheduler's queue states (R336, R340). -/
inductive QState where
  | disabled | empty | dependent | ready | stopped
  deriving DecidableEq, Repr

/-- What the scheduler keeps of one queue (R340, R341); `since` counts from the tick at which the head became READY, moved
on by the time its context was saved. `newHead`: the head has not been judged since it became the head; `due`: records still
to be looked at for an upstream fault: index, completion semaphore, and its phase at that moment (R344). -/
structure QSched where
  st : QState
  since : Nat            -- the tick from which the head has been READY
  prev : Option Nat      -- the queue's previous kernel (R341)
  cidx : Option Nat      -- a cancel index written while DISABLED (R340, R343)
  skipped : List (Nat × Nat) -- ring indices cancelled before they became head, and their codes (R343, R344)
  wait : Option Nat      -- the page of the ring or status array whose fault the head waits on (R336)
  newHead : Bool
  due : List (Nat × Nat × Option Nat)
  deriving DecidableEq, Repr

/-- A context (R362, R363). -/
structure Ctx where
  st : CtxSt
  pa : Nat               -- the PA of its record
  root : Nat
  weight : Nat
  part : Nat
  tenant : Nat
  race : Nat
  qtab : Word
  park : Word
  pcap : Nat
  wdog : Nat
  tring : Word
  fring : Word
  save : Word
  shadow : Word
  masks : Word
  raceLog : Word
  flg : Nat
  tlg : Nat
  ttail : Nat
  ftail : Nat
  tseq : Nat
  fseq : Nat
  rseq : Nat
  vtime : Nat            -- virtual time, in units of 1 / `virtualUnit` (R366)
  epochs : Tbl Nat
  queues : Tbl QSched
  totals : Tbl Nat       -- counter totals per event code (R387)
  chans : Tbl ChanSave   -- what its channels held when it was saved, by die × 64 + channel (R250)
  savedAt : Nat          -- the tick of its last save
  after : CtxSt          -- what it becomes once saved: SAVED, FAULTED or TORN-DOWN (R363)
  deriving DecidableEq, Repr

/-- A partition record (R364). -/
structure Partition where
  units : Nat
  tenants : Nat
  slices : List Nat
  cap : Bool
  current : Nat          -- the tenant whose slice runs (R366)
  sliceFrom : Nat
  unbegun : Bool         -- the slice waits for its first restore (R366)
  vfs : List Nat         -- the VF by which each tenant is reached, 1 to 63
  buckets : Tbl (Nat × Nat) -- rate and depth of each context's bucket (R367)
  deriving DecidableEq, Repr

/-- Kernel states (R347), in table order. -/
inductive KState where
  | pending | dependent | admitted | placing | running | draining | done | faulted | cancelled
  deriving DecidableEq, Repr

/-- An admitted kernel (R345 to R351). -/
structure Kernel where
  ctx : Nat
  die : Nat
  q : Nat
  idx : Nat
  words : List Word
  st : KState
  consts : List Word
  loaded : Bool          -- the constant block has been read (R351)
  room : Option Nat      -- the place that its admission reserves: a forme or a core (R349)
  wait : Option Nat      -- the page whose fault its constant block or its completion semaphore waits on
  placed : Nat
  ended : Nat
  admitTick : Nat
  order : Nat
  spawned : Nat          -- spawned threads take numbers from this floor: group count × tpg (R77)
  sig : Word             -- the kernel's path signature over its ended threads (R392)
  deriving DecidableEq, Repr

/-- Group states (R355). -/
inductive GState where
  | unplaced | starting | running | saving | saved | restoring | ending | ended
  deriving DecidableEq, Repr

/-- What a saved group keeps of one rank (R229, R280, R359). -/
structure RankSave where
  lm : Memory
  accRows : Tbl (BitVec 32)
  queue : PQueue
  active : Option (Plane × Memory)
  shadow : Option (Plane × Memory)
  holder : Bool
  bars : Tbl Bar
  side : List SideEntry
  mail : List Mail
  outq : List OutMsg
  deriving DecidableEq, Repr

/-- A group (R354 to R361). -/
structure Group where
  kid : Nat
  ctx : Nat
  die : Nat
  index : Nat
  forme : Bool
  tpg : Nat
  lm : Nat
  rows : Nat
  st : GState
  cores : List Nat
  wdCount : Nat          -- watchdog ticks counted (R356)
  wdLimit : Nat
  save : List RankSave
  formeBars : Tbl Bar
  reinstall : List (Nat × Bool × Plane × Memory)  -- saved planes awaiting a free plane: mask of the holders' positions,
                                                  -- whether the shadow, record and bytes (R229)
  deriving DecidableEq, Repr

/-- Link states (R375). -/
inductive LinkSt where
  | down | training | up | degraded | draining | retraining | sparing
  deriving DecidableEq, Repr

/-- A device-link flit of 64 bytes (R373), and, where its message is routed through the I/O die, the link that it takes next
(R376). -/
structure Flit where
  payload : BitVec 448
  kind : BitVec 4
  seq : BitVec 12
  ref : BitVec 12
  crc : BitVec 32
  next : Option Nat
  deriving DecidableEq, Repr

/-- A data flit in a replay window, and how often it has been resent (R374). -/
structure Sent where
  flit : Flit
  again : Nat
  deriving DecidableEq, Repr

/-- One direction of a device link (R374, R375). -/
structure Link where
  st : LinkSt
  nextSeq : BitVec 12
  window : List Sent           -- sent and not yet covered, oldest first
  wire : List Flit             -- data and idle flits on the way
  back : List Flit             -- ACK and NACK flits on the way back
  source : List (BitVec 448 × Option Nat) -- payloads waiting at their source, with the link they take next
  expect : BitVec 12
  nackSent : Bool
  ackDue : Option Nat          -- the tick of the oldest acceptance that is not yet acknowledged
  delivered : List (BitVec 448)
  backoff : Nat
  waiting : Option (Nat × BitVec 12) -- back-off running: due tick, first seq to resend
  lastAck : Nat
  lanes : Nat
  spares : Nat
  swapping : Bool              -- a spare is trained beside a marginal lane of this direction (R376)
  laneErrs : Tbl Nat           -- corrected errors by lane (R375)
  threshold : Nat              -- the corrected errors above which a lane is marginal (R375)
  tries : Nat
  drainAfter : Bool
  sent : Nat
  crcErrors : Nat
  nacks : Nat
  resent : Nat
  deriving DecidableEq, Repr

/-- A pod binding (R377). -/
inductive Binding where
  | none
  | home (pa proxies : Nat)
  | proxy (pa pkg entry : Nat)
  deriving DecidableEq, Repr

/-- A port ring (R379) as the port has taken it up. -/
structure PortRing where
  desc : Word
  ctx : Nat
  stopped : Bool
  seen : Nat            -- widx read
  ridx : Nat
  inFlight : Option Nat -- the record at ridx, once it is put to its device or to another package (R380, R381)
  deriving DecidableEq, Repr

/-- A migration image between packages (R368): its header, and the contents of its sections as the model holds them: the
context with its queues, channels and counts, its groups and threads, its kernels, its open fault requests, its linked
places by die and entry with the quoins that they stand in, and its held trap records. Threads, groups and quoins keep
their numbers (log 54). -/
structure Image where
  header : List Word
  ctx : Ctx
  groups : Tbl Group
  threads : Tbl Thread
  kernels : Tbl Kernel
  faults : List FaultReq
  places : List ((Nat × Nat) × Place)
  quoins : Tbl Quoin
  traps : List TrapRec
  deriving DecidableEq, Repr

/-- A message that leaves the package through the network port (R368, R378, R380). -/
inductive PodMsg where
  | arrival (pkg entry uid : Nat)
  | reply (pkg uid phase : Nat)
  | phase (pkg entry phase : Nat)
  | write (pkg window off : Nat) (data : List Byte)
  | signal (pkg entry : Nat)
  | written (window off : Nat) (done : Bool)
  | image (pkg src : Nat) (m : Image)
  | restored (pkg src : Nat) (done : Bool)
  deriving DecidableEq, Repr

/-- Park states of a die (R398, R403). -/
inductive ParkSt where
  | inService | parking | parked | unparking | drained | out
  deriving DecidableEq, Repr

/-- The power state of one die (R397 to R403). -/
structure DiePower where
  park : ParkSt
  parkBit : Bool
  drainBit : Bool
  preq : Nat
  pcur : Nat
  band : Nat             -- the voltage band (R397)
  loopP : Nat            -- the P-state the loop has set
  thermP : Nat           -- the P-state thermal limits set
  throttle : Nat
  moving : Bool
  hotRun : Nat           -- consecutive intervals with throttle 8 or more
  coolRun : Nat          -- consecutive intervals with throttle 0
  maxThrottle : Bool     -- held at throttle 15 by the thermal limit
  deriving DecidableEq, Repr

/-- Start stages (R393, R398): `off` is power-good low. -/
inductive Stage where
  | off | safe | lantern | dies | full
  deriving DecidableEq, Repr

/-- The package's power, start and attestation state (R393 to R401). -/
structure Power where
  stage : Stage
  cause : Nat
  rating : Nat
  ceiling : Nat
  enforced : Nat         -- the ceiling in force since the last boundary (R399)
  mean : Nat
  history : List Nat     -- energies of the last intervals, newest first, at most 99 (R399)
  fusedMin : Nat
  version : Nat
  image : Nat
  tripped : Bool
  stopped : Bool
  package : Nat          -- package number in the pod (R77)
  boundary : Option Nat  -- the tick of the last boundary of the ceiling loop (R399)
  deriving DecidableEq, Repr

/-- The observation registers (R389). -/
structure Observe where
  snapEn : Bool
  snapK : Nat
  snapRing : Tbl (Nat × Nat × Nat)   -- base, lg, head per die, 4 is the I/O die
  trSel : Tbl Word
  trRing : Tbl (Nat × Nat × Nat)
  ioSnapTail : Nat
  ioMissed : Nat
  ioLatched : Option Nat             -- the tick of the I/O die's last latched snapshot (R388)
  ioSnap : Option (List Nat)         -- its record that is not yet written
  stopTk : Nat
  arm : Bool
  corrected : Option Nat             -- the tick of the last correction of the tick counter (R382)
  deriving DecidableEq, Repr

/-- A token bucket (R367). -/
structure Bucket where
  ctx : Nat
  rate : Nat
  depth : Nat
  tokens : Nat
  deriving DecidableEq, Repr

/-- What the outside has been answered: host and Lantern reads, attestation reports, scans. -/
structure Answer where
  what : Nat
  addr : Nat
  data : List Word
  deriving DecidableEq, Repr

/-- A setting that the Lantern kernel makes and for which the opcode table has no row: each names its rule. -/
inductive Setting where
  | messageBackoff (die v : Nat)                 -- R94
  | linkBackoff (link v : Nat)                   -- R374
  | linkSend (link : Nat) (payload : BitVec 448) -- traffic handed to a link (R372, R374)
  | linkIdle (link : Nat)                        -- an idle flit is sent (R373)
  | podPeer (link pkg : Nat)                     -- R376: the package that a pod link reaches
  | linkAckFlit (link : Nat)                     -- the receiver's cumulative ACK (R374)
  | laneThreshold (link v : Nat)                 -- R375
  | pstateStep (die : Nat)                       -- R397: a step of a P-state transition
  | certificate (k : Nat)                        -- R396: the management function reads a certificate
  | laneError (link lane : Nat)                  -- an error on a lane is corrected (R375)
  | partition (id units tenants : Nat) (slices : List Nat) (cap : Bool) (vfs : List Nat) -- R364
  | bucket (core slot ctx rate depth : Nat)      -- R367
  | binding (entry : Nat) (b : Binding)          -- R377
  | window (w ctx : Nat) (base : Word) (len : Nat) -- R380
  | portRing (ring : Nat) (desc : Word) (ctx : Nat) -- R379
  | podWrite (w off entry : Nat) (data : List Byte) -- R380: a network write of another package arrives
  | podWritten (ring : Nat) (done : Bool)        -- R380: another package answers a network write
  | namespaceBlocks (port ns bytes : Nat)        -- R381: the bytes of a block of an NVMe namespace
  | agentNumber (uid agent : Nat)                -- R326
  | building (ctx : Nat)                         -- R363: a FREE context is taken into BUILDING
  | sliceBegin (ctx : Nat)                       -- R363, R366
  | preempt (ctx : Nat)                          -- R355, R363: a preempt request
  | saveComplete (ctx : Nat)                     -- R363: a PREEMPTING context is saved
  | imageOut (ctx pkg : Nat)                     -- R368: a MIGRATING context's image leaves for another package
  | imageAway (ctx : Nat) (done : Bool)          -- R363, R368: the other package has restored it, or refused it
  | imageIn (pkg src dst pa : Nat) (m : Image)   -- R368: an image of another package arrives for a context's record
  | freed (ctx : Nat)                            -- R363: a TORN-DOWN context's resources are freed
  | clearHot (core granule : Nat)                -- R281: the Lantern kernel reads and clears a hotness entry
  | countersFor (core n ctx : Nat) (sel : BitVec 18) -- R387: the Lantern kernel rewrites a `pmsel` for a context
  | discardDie (die : Nat)                       -- R391: every cache and TLB of a die is invalidated
  deriving DecidableEq, Repr

/-- What moves next (plain data, log 2): an event of the opcode table, an issue of a core, time passing, an L1 or TLB
entry that a core gives up, a line that a home slice gives up, a prefetch, the service of a request that waits at a port,
a core's shootdown point (R284), or a setting. -/
inductive Item where
  | event (i : Instr)
  | issue (core : Nat)
  | ticks (n : Nat)
  | cycles (die n : Nat)
  | evictLine (core line : Nat)
  | evictCode (core line : Nat)
  | evictTlb (core k : Nat)
  | evictHome (line : Nat)                       -- the home slice gives a line up (R112)
  | prefetch (uid ahead : Nat)                   -- a line ahead of a thread's PC is fetched (R288)
  | portServe (core : Nat)                       -- a request that waits at a port is served (R367)
  | shootPoint (die core : Nat)
  | setting (x : Setting)
  deriving DecidableEq, Repr

/-- The state of the package. -/
structure State where
  gtick : Nat                 -- R382
  cyc : Tbl Nat               -- core cycles per die (R6)
  agenda : List Item          -- log 2
  turn : Nat                  -- the core that issues when the agenda is empty (log 2)
  cur : Nat                   -- the thread in execution
  ir : Nat                    -- the word in execution
  oracle : List Nat           -- choices that R89 leaves to an implementation (log 2)
  clockFree : Nat             -- counter of free values (log 2)
  wakeSeq : Nat               -- orders wakes (R81, R91)
  net : List Msg              -- R113
  mem : Memory                -- physical memory (R267)
  lm : Memory                 -- local memories, core × 2^18 + byte (R18, R21)
  acc : Tbl (BitVec 32)       -- accumulator elements, (core × 1024 + row of its allocation) × 128 + column (R213)
  planes : Memory             -- plane bytes, (press × 2 + role) × 2^14 + byte (R212)
  threads : Tbl Thread
  nextUid : Nat
  cores : Tbl Core
  formes : Tbl Forme
  dies : Tbl Die
  dir : Tbl DirEntry
  poison : List Nat           -- poisoned lines (R61, R407)
  quoins : Tbl Quoin
  faults : List FaultReq      -- R276
  heldTraps : Tbl (List TrapRec) -- trap records held while a ring is full (R110)
  ctxs : Tbl Ctx
  parts : Tbl Partition
  kernels : Tbl Kernel
  groups : Tbl Group
  nextGid : Nat
  orders : Nat                -- admissions so far (R349)
  links : Tbl Link
  bindings : Tbl Binding
  windows : Tbl (Nat × Word × Nat)
  rings : Tbl PortRing
  peers : Tbl Nat             -- the package that each pod link reaches (R376)
  blocks : Tbl Nat            -- the bytes of a block of each namespace, by port and namespace (R381)
  podOut : List PodMsg
  buckets : Tbl Bucket        -- core × 16 + bucket (R367)
  power : Power
  diePower : Tbl DiePower
  observe : Observe
  sparedRows : List (Nat × Nat × Nat) -- R407
  sparedVault : Tbl (Nat × Bool)      -- R407
  units : List Nat            -- partition units out of service (R407)
  hold : Tbl Nat              -- per vault, die × 64 + vault, the tick of its last recalibration (R407)
  heldUntil : Tbl Nat         -- per vault, the tick until which it holds traffic (R407)
  answers : List Answer
  deriving DecidableEq, Repr

/-- Why a step stops the machine. -/
inductive Fault where
  /-- Raised by the step when the package is without power (R393): nothing runs. Safe. -/
  | powerOff
  /-- Raised by the step when the package is stopped (R390) and the agenda names nothing that a stopped package
  answers. Safe. -/
  | packageStopped
  deriving DecidableEq, Repr

/-- Why a step has no meaning. -/
inductive Refusal where
  /-- Raised by an arm of `exec` whose instruction has no meaning yet. Safe. -/
  | notModelled (mnemonic : String)
  /-- Raised by an event that the agenda names and that cannot occur in the state: a dash of a state table, a message
  that is not in flight, a time not yet reached. Safe: nothing is claimed of such a step. -/
  | eventNotEnabled (mnemonic : String)
  deriving DecidableEq, Repr

/-! ## Reset values -/

/-- A thread as it starts (R352, R101); no thread exists at reset, and a thread not listed is `exited`. -/
def Thread.fresh : Thread :=
  { st := .exited, runnable := false, wokenAt := 0, prio := false, saved := false, core := 0, slot := none,
    slotFrom := 0, target := 0, gid := 0, index := 0, rank := 0, thrid := 0, regs := [], pc := 0, oc := 0,
    vregs := [], vmask := 0, vrm := 0, dphase := 0, pushref := 0, yldlim := 0, cycles := 0, instret := 0, moves := 0,
    dirty := false, cursor := none, bytes := none, trail := [], wake := none, wait := .none, waitFrom := 0, movedPending := false, pushes := 0,
    refusal := false, remote := none, ending := false, last := none, late := [], trap := none, arrived := none, linked := none,
    agent := 0, interval := 0, epoch := 0, acq := [], overflow := false, seen := none, releasing := false, sig := 0 }

/-- A barrier before any assignment: unconfigured (R148). -/
def Bar.fresh : Bar := { phase := 0, expected := 0, arrived := 0, step := 0, holder := none, rel := [],
                           epoch := 0 }

/-- A core at die start (R69, R73 to R76, R395). -/
def Core.fresh : Core :=
  { pushq := 64, pweight := 8, pmsel := [], pmselCtx := [], pmc := [], l1 := [], icache := [], tlb := [], claims := [],
    budget := [], reserved := [], outq := [], mail := [], side := [], pushes := [], bars := [], trace := [], lost := 0,
    deferred := [], retired := false, lastIssue := 0, port := [], refills := 0, hot := [] }

def Plane.fresh : Plane := { owner := none, loaded := false, type := 0, wscale := 0 }

def PQueue.fresh : PQueue := { cmds := [], lastMark := none, markAgent := 0, markInterval := 0, auto := 0 }

def Press.fresh : Press :=
  { active := Plane.fresh, shadow := Plane.fresh, holders := [], queues := [], pos := 0, count := 0, weights := [],
    running := none }

def Forme.fresh : Forme :=
  { tlb := [], misses := [], bars := [], sweeps := [], sweeping := none, group := none, press := Press.fresh, stretched := false }

def Channel.fresh : Channel :=
  { holder := none, kicks := [], chain := none, serial := 0, next := 0, waitFault := none, recs := [] }

/-- A free place-table entry (R293); the generation at start is a choice (log 5). -/
def Place.fresh : Place := { st := .free, gen := 1, owner := none, ctx := 0, quoin := 0, key := 0 }

def Quoin.fresh : Quoin :=
  { die := 0, places := [], grants := 0, skips := 0, names := [], pa := none, words := [0, 0, 0, 0], stored := false,
    stale := false, owed := false }

/-- A die that has not started (R395); the message back-off is 256 after die start (R94). -/
def Die.fresh : Die :=
  { bars := [], chans := [], places := [], tableQ := [], tableRes := [], counters := [], hotLog := [],
    backoff := 256, traceTail := 0, snapTail := 0, missed := 0, shoot := none, expansion := 0, eventLog := [], turns := [], latched := none, snap := none,
    started := false, shootVa := 0, shootLen := 0, tresPc := 0 }

/-- No directory entry: state I with no request (R117). -/
def DirEntry.fresh : DirEntry :=
  { st := .i, coarse := false, holders := [], kind := 0, pending := 0, req := none, waitq := [], kept := [],
    installed := [], refusals := 0, copying := false, pins := [], home := 0 }

def QSched.fresh : QSched := { st := .disabled, since := 0, prev := none, cidx := none, skipped := [], wait := none, newHead := false, due := [] }

/-- A FREE context (R363). -/
def Ctx.fresh : Ctx :=
  { st := .free, pa := 0, root := 0, weight := 1, part := 0, tenant := 0, race := 0, qtab := 0, park := 0, pcap := 0,
    wdog := 0, tring := 0, fring := 0, save := 0, shadow := 0, masks := 0, raceLog := 0, flg := 0, tlg := 0, ttail := 0,
    ftail := 0, tseq := 1, fseq := 1, rseq := 1, vtime := 0, epochs := [], queues := [], totals := [],
    chans := [], savedAt := 0, after := .saved }

def Partition.fresh : Partition :=
  { units := 0, tenants := 0, slices := [], cap := false, current := 0, sliceFrom := 0, unbegun := false, vfs := [], buckets := [] }

def Kernel.fresh : Kernel :=
  { ctx := 0, die := 0, q := 0, idx := 0, words := [], st := .pending, consts := [], loaded := false, room := none, wait := none, placed := 0, ended := 0,
    admitTick := 0, order := 0, spawned := 0, sig := 0 }

def Group.fresh : Group :=
  { kid := 0, ctx := 0, die := 0, index := 0, forme := false, tpg := 0, lm := 0, rows := 0, st := .unplaced,
    cores := [], wdCount := 0, wdLimit := 0, save := [], formeBars := [], reinstall := [] }

/-- A link that is DOWN (R375), with the back-off that training leaves (R374): 32 ticks on die links. -/
def Link.fresh : Link :=
  { st := .down, nextSeq := 0, window := [], wire := [], back := [], source := [], expect := 0, nackSent := false,
    ackDue := none, delivered := [], backoff := 32, waiting := none, lastAck := 0, lanes := 0, spares := 0,
    swapping := false, laneErrs := [], threshold := 0, tries := 0, drainAfter := false, sent := 0, crcErrors := 0, nacks := 0, resent := 0 }

def PortRing.fresh : PortRing := { desc := 0, ctx := 0, stopped := true, seen := 0, ridx := 0, inFlight := none }

/-- A die's power registers at reset (R398). A die that has not started is out of service until it joins (R393). -/
def DiePower.fresh : DiePower :=
  { park := .inService, parkBit := false, drainBit := false, preq := 7, pcur := 7, band := 3, loopP := 0, thermP := 0,
    throttle := 0, moving := false, hotRun := 0, coolRun := 0, maxThrottle := false }

/-- The package in SAFE (R393, R398): ceiling 400 W; the fuses' values are named in log 6. -/
def Power.reset : Power :=
  { stage := .safe, cause := 0, rating := 1000, ceiling := 400, enforced := 400, mean := 0, history := [],
    fusedMin := 0, version := 0, image := 0, tripped := false, stopped := false, package := 0, boundary := none }

def Observe.reset : Observe :=
  { snapEn := false, snapK := 10, snapRing := [], trSel := [], trRing := [], ioSnapTail := 0, ioMissed := 0, ioLatched := none,
    ioSnap := none,
    stopTk := 0, arm := false, corrected := none }

def Bucket.fresh : Bucket := { ctx := 0, rate := 1, depth := 1, tokens := 0 }

/-- The package right after power-good: SAFE, the tick counter at zero, no die started, every cache, table and queue
empty (R382, R393, R395, R398). -/
def State.reset : State :=
  { gtick := 0, cyc := [], agenda := [], turn := 0, cur := 0, ir := 0, oracle := [], clockFree := 0, wakeSeq := 0,
    net := [], mem := [], lm := [], acc := [], planes := [], threads := [], nextUid := 1, cores := [], formes := [],
    dies := [], dir := [], poison := [], quoins := [], faults := [], heldTraps := [], ctxs := [], parts := [],
    kernels := [], groups := [], nextGid := 1, orders := 0, links := [], bindings := [], windows := [], rings := [], peers := [],
    blocks := [], podOut := [], buckets := [], power := Power.reset, diePower := [], observe := Observe.reset, sparedRows := [],
    sparedVault := [], units := [], hold := [], heldUntil := [], answers := [] }

end Sys2Proof.Machine
end

