-- ==== Sys2Proof/Machine/Ops.lean ====
section
/-! DEFINITION. The named operations over the state: the floor plan, registers, wakes, lines at the home, page walks,
event counts, claims, and taking a trap and returning from one. -/

namespace Sys2Proof.Machine

open Sys2Proof

/-! ## The floor plan (R12, R13, R15) -/

def coreDie (c : Nat) : Nat := c / 256
def coreForme (c : Nat) : Nat := c / 8
def corePos (c : Nat) : Nat := c % 8
def coreLocal (c : Nat) : Nat := c % 256
def formeDie (f : Nat) : Nat := f / 32
def formeRow (f : Nat) : Nat := f % 32 / 8
def formeCol (f : Nat) : Nat := f % 8
def formeQuad (f : Nat) : Nat := 2 * (formeRow f / 2) + formeCol f / 4
def snakeForme (f : Nat) : Nat :=
  if formeRow f % 2 = 0 then 8 * formeRow f + formeCol f else 8 * formeRow f + 7 - formeCol f
def snakePos (c : Nat) : Nat := 8 * snakeForme (coreForme c) + corePos c

/-- The partition unit of a core, as its bit in a partition's mask (R15, R364). -/
def coreUnit (c : Nat) : Nat := 8 * coreDie c + coreLocal c / 32

/-- The home slice of a core, as an agent of the message network. -/
def homeAgent (c : Nat) : Nat := 1024 + c

/-! ## Access to the records of the state -/

def State.thr (s : State) (u : Nat) : Thread := tget Thread.fresh s.threads u
def State.core (s : State) (c : Nat) : Core := tget Core.fresh s.cores c
def State.forme (s : State) (f : Nat) : Forme := tget Forme.fresh s.formes f
def State.die (s : State) (d : Nat) : Die := tget Die.fresh s.dies d
def State.ctx (s : State) (x : Nat) : Ctx := tget Ctx.fresh s.ctxs x
def State.grp (s : State) (g : Nat) : Group := tget Group.fresh s.groups g
def State.ker (s : State) (k : Nat) : Kernel := tget Kernel.fresh s.kernels k
def State.part (s : State) (p : Nat) : Partition := tget Partition.fresh s.parts p
def State.dpow (s : State) (d : Nat) : DiePower := tget DiePower.fresh s.diePower d
def State.entry (s : State) (line : Nat) : DirEntry := tget DirEntry.fresh s.dir line
def State.now (s : State) (d : Nat) : Nat := tget 0 s.cyc d

def State.setThr (s : State) (u : Nat) (t : Thread) : State := { s with threads := tset s.threads u t }
def State.setCore (s : State) (c : Nat) (k : Core) : State := { s with cores := tset s.cores c k }
def State.setForme (s : State) (f : Nat) (k : Forme) : State := { s with formes := tset s.formes f k }
def State.setDie (s : State) (d : Nat) (k : Die) : State := { s with dies := tset s.dies d k }
def State.setCtx (s : State) (x : Nat) (k : Ctx) : State := { s with ctxs := tset s.ctxs x k }
def State.setGrp (s : State) (g : Nat) (k : Group) : State := { s with groups := tset s.groups g k }
def State.setKer (s : State) (k : Nat) (v : Kernel) : State := { s with kernels := tset s.kernels k v }
def State.setDpow (s : State) (d : Nat) (k : DiePower) : State := { s with diePower := tset s.diePower d k }

def State.modThr (s : State) (u : Nat) (f : Thread → Thread) : State := s.setThr u (f (s.thr u))
def State.modCore (s : State) (c : Nat) (f : Core → Core) : State := s.setCore c (f (s.core c))
def State.modForme (s : State) (c : Nat) (f : Forme → Forme) : State := s.setForme c (f (s.forme c))
def State.modDie (s : State) (c : Nat) (f : Die → Die) : State := s.setDie c (f (s.die c))
def State.modCtx (s : State) (c : Nat) (f : Ctx → Ctx) : State := s.setCtx c (f (s.ctx c))
def State.modGrp (s : State) (c : Nat) (f : Group → Group) : State := s.setGrp c (f (s.grp c))
def State.modKer (s : State) (c : Nat) (f : Kernel → Kernel) : State := s.setKer c (f (s.ker c))
def State.modDpow (s : State) (c : Nat) (f : DiePower → DiePower) : State := s.setDpow c (f (s.dpow c))

/-- The thread in execution. -/
def State.me (s : State) : Thread := s.thr s.cur
def State.modMe (s : State) (f : Thread → Thread) : State := s.modThr s.cur f

/-- The core on which the thread in execution runs, its group, kernel, context and die. -/
def State.myCore (s : State) : Nat := s.me.core
def State.myGrp (s : State) : Group := s.grp s.me.gid
def State.ctxOf (s : State) (u : Nat) : Nat := (s.grp (s.thr u).gid).ctx
def State.myCtx (s : State) : Nat := s.ctxOf s.cur
def State.myKer (s : State) : Kernel := s.ker s.myGrp.kid
def State.myDie (s : State) : Nat := coreDie s.myCore

/-- The entry of a directory that holds nothing is discarded (R117). -/
def State.setEntry (s : State) (line : Nat) (e : DirEntry) : State :=
  if e.st = .i ∧ e.req = none ∧ e.waitq = [] ∧ e.pins = [] then { s with dir := tdel s.dir line }
  else { s with dir := tset s.dir line e }

/-! ## Registers (R51) -/

/-- A register read: x0 reads zero. -/
def Thread.reg (t : Thread) (r : BitVec 4) : Word := if r = 0 then 0 else tget 0 t.regs r.toNat

/-- A register write: a write to x0 is discarded. -/
def Thread.setReg (t : Thread) (r : BitVec 4) (v : Word) : Thread :=
  if r = 0 then t else { t with regs := tset t.regs r.toNat v }

/-- A vector register (R183). -/
def Thread.vreg (t : Thread) (r : BitVec 3) : BitVec 512 := tget 0 t.vregs r.toNat
def Thread.setVreg (t : Thread) (r : BitVec 3) (v : BitVec 512) : Thread :=
  { t with vregs := tset t.vregs r.toNat v, dirty := true }

def OCode.code : OCode → Nat
  | .rdy => 0 | .nr => 1 | .nrx => 2 | .empty => 3 | .full => 4 | .stale => 5 | .refused => 6 | .faulted => 7
  | .abandoned => 8 | .moved => 9 | .timeout => 10 | .denied => 11

def TrapClass.code : TrapClass → Nat
  | .illegal => 1 | .window => 2 | .access => 3 | .ecall => 4 | .ebreak => 5 | .race => 6 | .unresolvable => 7
  | .pressError => 8 | .watchdog => 9 | .machineCheck => 10

/-! ## Event counts (R386, R387) -/

/-- One event of a code on a core or die unit: the unit's cumulative counter. -/
def Die.count (d : Die) (code unit n : Nat) : Die :=
  let k := code * 65536 + unit
  { d with counters := tset d.counters k ((tget 0 d.counters k + n) % 2 ^ 64) }

/-- Whether an event code is counted by a programmable counter (R76, R386). -/
def coreEvent (n : Nat) : Bool :=
  decide (n = 0 ∨ (1 ≤ n ∧ n ≤ 3) ∨ (0x1001 ≤ n ∧ n ≤ 0x100B) ∨ (0x1010 ≤ n ∧ n ≤ 0x1013) ∨ (0x2001 ≤ n ∧ n ≤ 0x2003)
    ∨ n = 0x3001 ∨ n = 0x3002 ∨ n = 0x5001 ∨ n = 0x5002 ∨ n = 0x6002 ∨ n = 0x7001)

/-- The programmable counter `i` of a core sees `n` events of a code for a context (R76, R77). -/
def Core.pmcCount (k : Core) (ctx code n i : Nat) : Core :=
  let sel := (tget 0 k.pmsel i).toNat
  let mode := sel / 65536
  if sel % 65536 = code ∧ (mode = 1 ∨ (mode = 2 ∧ tget 0 k.pmselCtx i = ctx)) then
    { k with pmc := tset k.pmc i (BitVec.ofNat 64 (min (2 ^ 64 - 2) ((tget 0 k.pmc i).toNat + n))) }
  else k

def Core.countAll (k : Core) (ctx code n : Nat) : Core :=
  (((k.pmcCount ctx code n 0).pmcCount ctx code n 1).pmcCount ctx code n 2).pmcCount ctx code n 3

/-- `n` events of a core code on core `c` for a context. -/
def State.count (s : State) (c ctx code n : Nat) : State :=
  (s.modDie (coreDie c) (fun d => d.count code (coreLocal c) n)).modCore c (fun k => k.countAll ctx code n)

/-- One event of a die code. -/
def State.countDie (s : State) (d code unit n : Nat) : State := s.modDie d (fun k => k.count code unit n)

/-- One event of a core code for the thread in execution. -/
def State.countMe (s : State) (code : Nat) : State := s.count s.myCore s.myCtx code 1

/-! ## Lines (R4, R111, R115) -/

def lineGet (d : BitVec 1024) (off n : Nat) : Nat := d.toNat / 2 ^ (8 * off) % 2 ^ (8 * n)

def lineSet (d : BitVec 1024) (off n v : Nat) : BitVec 1024 :=
  let lo := d.toNat % 2 ^ (8 * off)
  let hi := d.toNat / 2 ^ (8 * (off + n))
  BitVec.ofNat 1024 (lo + 2 ^ (8 * off) * (v % 2 ^ (8 * n)) + 2 ^ (8 * (off + n)) * hi)

/-- `n` mask bits from bit `off`. -/
def maskRange (off n : Nat) : BitVec 128 := BitVec.ofNat 128 ((2 ^ n - 1) * 2 ^ off)

def findLine (line : Nat) : List L1Line → Option L1Line
  | [] => none
  | x :: l => if x.line = line then some x else findLine line l

def dropLine (line : Nat) (l : List L1Line) : List L1Line := l.filter (fun x => decide (x.line ≠ line))

def Core.line (k : Core) (line : Nat) : Option L1Line := findLine line k.l1

/-- A line put in front of its L1: most recently used (R111). -/
def Core.putLine (k : Core) (x : L1Line) : Core := { k with l1 := x :: dropLine x.line k.l1 }
def Core.delLine (k : Core) (line : Nat) : Core := { k with l1 := dropLine line k.l1 }

/-- Pushed lines held (R128). -/
def Core.spCount (k : Core) : Nat := (k.l1.filter (fun x => decide (x.st = .sp))).length

/-- Whether a state of a line serves what a claim needs. -/
def servesNeed (need : Need) (st : LState) : Bool :=
  match need with
  | .share => match st with | .s | .sp | .e | .m => true | _ => false
  | .excl => match st with | .e | .m => true | _ => false
  | .upd k => match st with | .e | .m => true | .u k' => decide (k = k') | _ => false
  | .fetch => decide (st = .raw)
  | _ => false

/-- Whether a claim of the core pins the line as it stands (R90): its resource has arrived. -/
def Core.pinned (k : Core) (line : Nat) : Bool :=
  k.claims.any (fun c => decide (c.line = line) && decide (c.stage = .ready) && !c.remote &&
    (match k.line line with | some x => servesNeed c.need x.st | none => false))

/-- Whether a claim would lose what it needs if the line went to `st` (R90). -/
def Core.defers (k : Core) (line : Nat) (st : Option LState) : Bool :=
  k.claims.any (fun c => decide (c.line = line) && decide (c.stage = .ready) && !c.remote &&
    (match k.line line with | some x => servesNeed c.need x.st | none => false) &&
    (match st with | some q => !servesNeed c.need q | none => true))

/-- Whether a claim of this need takes a line into the L1. -/
def Need.ofLine : Need → Bool
  | .share | .excl | .upd _ | .fetch => true
  | _ => false

/-- Whether a claim has asked for its line or holds it (R85). -/
def Claim.onLine (c : Claim) : Bool := c.need.ofLine && (decide (c.stage = .waiting) || decide (c.stage = .ready))

/-- Whether a claim of the core holds a way for a line: for the copy that it pins, or for the one that it awaits, an
upgrade of an S copy among them (R85, R111). -/
def Core.awaits (k : Core) (line : Nat) : Bool :=
  k.claims.any (fun c => decide (c.line = line) && !c.remote && c.onLine)

/-- The ways of a line's set that claims on other lines hold (R111). -/
def Core.busyWays (k : Core) (line : Nat) : Nat :=
  ((k.claims.filter (fun c => decide (c.line % 64 = line % 64) && decide (c.line ≠ line) && !c.remote && c.onLine)).map
    (·.line)).dedup.length

/-- The least recently used line of a set for which no claim holds a way (R111). -/
def Core.victim (k : Core) (line : Nat) : Option L1Line :=
  (k.l1.reverse.find? (fun x => decide (x.line % 64 = line % 64) && !k.awaits x.line))

/-- Lines of the set of a line. -/
def Core.waysUsed (k : Core) (line : Nat) : Nat :=
  (k.l1.filter (fun x => decide (x.line % 64 = line % 64))).length

/-! ## Messages between cores and homes (R113) -/

def State.send (s : State) (m : Msg) : State := { s with net := s.net ++ [m] }

/-- What a core sends when it gives up a line (R116, R122). -/
def giveUp (x : L1Line) : Option MsgKind :=
  match x.st with
  | .s | .sp | .e => some .evict
  | .m => some (.writeBack x.data false)
  | .u k => some (.uCopy x.data x.valid k)
  | .raw => if x.dirty = 0 then none else some (.rawWriteBack x.data x.dirty)

/-! ## Wakes (R83, R84, R97, R98) -/

/-- Conditions that may fire more than once (R98). -/
def WakeCond.repeats : WakeCond → Bool
  | .mail | .outbound .. | .phase .. | .semPhase .. | .park _ | .pressEntry _ | .kick .. | .sweepEntry _ | .ring ..
  | .trace _ => true
  | _ => false

/-- A thread whose wait ends becomes READY with a priority issue, or runnable where it is parked (R80, R81). -/
def Thread.ready (seq : Nat) (t : Thread) : Thread :=
  let t := { t with wait := .none, wokenAt := seq }
  match t.st with
  | .waiting => { t with st := .ready, prio := true }
  | .parked => { t with runnable := true }
  | _ => t

/-- The end of an instruction: the PC moves on and it counts as retired (R78). -/
def Thread.retire (t : Thread) : Thread := { t with pc := t.pc + 4, instret := t.instret + 1 }

/-- A wait of `yield` or `sleep` ends with an outcome. -/
def Thread.endWait (seq : Nat) (c : OCode) (t : Thread) : Thread :=
  ({ t with oc := BitVec.ofNat 4 c.code }.retire).ready seq

/-- One fire of a thread's armed wake. -/
def Thread.fire (seq : Nat) (t : Thread) : Thread :=
  match t.wake with
  | none => t
  | some w =>
    let w := { w with fired := w.fired + 1 }
    let t := { t with wake := some w }
    if t.saved then t
    else
      match t.wait with
      | .retry => Thread.ready seq { t with wake := none }
      | .fetch _ => t
      | .yield _ n =>
        if !w.cond.repeats || decide (n ≤ w.fired) then Thread.endWait seq .rdy { t with wake := none } else t
      | .none => if t.st = .parked ∧ !t.runnable then Thread.ready seq t else t
      | .sleep _ => t

def Thread.armed (t : Thread) (p : WakeCond → Bool) : Bool :=
  match t.wake with
  | none => false
  | some w => p w.cond

/-- Fires the wake of every thread whose condition satisfies the predicate, at one instant. -/
def State.fireIf (s : State) (p : Nat → Thread → WakeCond → Bool) : State :=
  { s with
    threads := s.threads.map (fun x => if x.2.armed (p x.1 x.2) then (x.1, Thread.fire s.wakeSeq x.2) else x),
    wakeSeq := s.wakeSeq + 1 }

/-- The fetches of a context's threads from a page go on: its fault has been answered (R56). -/
def State.wakeFetches (s : State) (ctx page : Nat) : State :=
  { s with
    threads := s.threads.map (fun x =>
      if x.2.wait = .fetch page ∧ !x.2.saved ∧ (tget Group.fresh s.groups x.2.gid).ctx = ctx then
        (x.1, Thread.ready s.wakeSeq x.2)
      else x),
    wakeSeq := s.wakeSeq + 1 }

def State.fire (s : State) (p : WakeCond → Bool) : State := s.fireIf (fun _ _ c => p c)

/-- Fires one thread's wake if it has the condition. -/
def State.fireOf (s : State) (u : Nat) (c : WakeCond) : State := s.fireIf (fun u' _ c' => decide (u' = u ∧ c' = c))

/-! ## Reads and writes at the home (R113, R125, R426) -/

/-- The cores of a directory entry's holders: named cores, or all cores of the marked formes (R117, R119). -/
def DirEntry.cores (e : DirEntry) : List Nat :=
  if e.coarse then e.holders.flatMap (fun f => (List.range 8).map (fun p => 8 * f + p)) else e.holders

/-- A holder added: a fifth switches to coarse form (R119). -/
def DirEntry.add (e : DirEntry) (c : Nat) : DirEntry :=
  if e.coarse then
    (if e.holders.contains (coreForme c) then e else { e with holders := e.holders ++ [coreForme c] })
  else if e.holders.contains c then e
  else if e.holders.length < 4 then { e with holders := e.holders ++ [c] }
  else { e with coarse := true, holders := ((e.holders ++ [c]).map coreForme).dedup }

/-- The word-by-word combination of a U copy into the home's line (R125). -/
def combineLine (kind : Nat) (home copy : BitVec 1024) (touched : BitVec 128) : Nat → BitVec 1024
  | 0 => home
  | n + 1 =>
    let home := combineLine kind home copy touched n
    let w := redWidth kind
    if w * n < 128 ∧ touched.getLsbD (w * n) then
      lineSet home (w * n) w (redOp kind (lineGet home (w * n) w) (lineGet copy (w * n) w))
    else home

def State.homeLine (s : State) (line : Nat) : BitVec 1024 := BitVec.ofNat 1024 (mload s.mem (128 * line) 128)
def State.setHomeLine (s : State) (line : Nat) (d : BitVec 1024) : State :=
  { s with mem := mstore s.mem (128 * line) d.toNat 128 }

/-- A holder's copy is taken to the home: dirty data and combined copies are written there. -/
def State.takeCopy (s : State) (line c : Nat) (keep : Bool) : State :=
  match (s.core c).line line with
  | none => s
  | some x =>
    let s := match x.st with
      | .m => s.setHomeLine line x.data
      | .u k => s.setHomeLine line (combineLine k (s.homeLine line) x.data x.valid 32)
      | _ => s
    let stay := match x.st with | .u _ => false | _ => keep
    if stay then s.modCore c (fun k => { k with l1 := k.l1.map (fun y => if y.line = line then { y with st := .s } else y) })
    else s.modCore c (fun k => k.delLine line)

/-- The partition unit of a byte of DRAM, as its bit in a partition's mask (R267). -/
def paUnit (pa : Nat) : Nat := 8 * (pa / 0x2000000000) + pa % 0x2000000000 / 0x300000000

/-- The vault of a line of DRAM, die × 64 + vault: 8u + PA[14:12] in partition unit u of its die (R267). -/
def vaultOf (line : Nat) : Nat := 8 * paUnit (128 * line) + 128 * line / 4096 % 8

/-- Whether the vault of a line of DRAM holds traffic now (R407). -/
def State.vaultHeld (s : State) (line : Nat) : Bool :=
  s.heldUntil.any (fun x => decide (x.1 = vaultOf line ∧ s.gtick < x.2)) && decide (128 * line < 0x8000000000)

/-- No message, transient state, remote pin, claim or held vault stands against an access at the home of the line (R90, R113,
R407). -/
def State.quiet (s : State) (line : Nat) : Bool :=
  let e := s.entry line
  let here (m : Msg) : Bool := decide (m.line = line)
  e.req.isNone && e.waitq.isEmpty && e.pins.isEmpty && !s.vaultHeld line && !s.net.any here &&
    !s.cores.any (fun k => k.2.pinned line || k.2.deferred.any here || k.2.port.any here)

/-- A read at the home recalls an owner to S and combines update copies (R426). -/
def State.recallShare (s : State) (line : Nat) : State :=
  let e := s.entry line
  match e.st with
  | .ex => (e.cores.foldl (fun s c => s.takeCopy line c true) s).setEntry line { e with st := .s }
  | .u => (e.cores.foldl (fun s c => s.takeCopy line c false) s).setEntry line DirEntry.fresh
  | _ => s

/-- A write at the home takes the line from every holder (R426). -/
def State.recallAll (s : State) (line : Nat) : State :=
  let e := s.entry line
  (e.cores.foldl (fun s c => s.takeCopy line c false) s).setEntry line DirEntry.fresh

/-- The lines of `n` bytes from a physical address. -/
def linesOf (pa n : Nat) : List Nat :=
  (List.range ((pa + n - 1) / 128 - pa / 128 + 1)).map (fun i => pa / 128 + i)

def State.quietAll (s : State) (pa n : Nat) : Bool := (linesOf pa n).all s.quiet

/-- A read at the home. -/
def State.homeRead (s : State) (pa n : Nat) : State × Nat :=
  let s := (linesOf pa n).foldl State.recallShare s
  (s, mload s.mem pa n)

/-- The value that memory holds for agents that read it at the home, without moving any line. -/
def State.peek (s : State) (pa n : Nat) : Nat := (s.homeRead pa n).2

/-- A line has been written: what waits on a write of it is woken, and what waits on the phase of a semaphore in it
once for each advance (R98, R151, R262). -/
def State.wrote (s : State) (line : Nat) : State :=
  s.fireIf (fun _ t c => match c with
    | .lineWritten l => decide (l = line)
    | .semPhase pa base =>
      decide (pa / 128 = line) &&
        (match t.wake with
        | some w => decide (w.fired < (s.peek pa 8 / 2 ^ 48 + 2 ^ 16 - base) % 2 ^ 16)
        | none => false)
    | _ => false)

/-- A write at the home. -/
def State.homeWrite (s : State) (pa n v : Nat) : State :=
  let s := (linesOf pa n).foldl State.recallAll s
  let s := { s with mem := mstore s.mem pa v n }
  (linesOf pa n).foldl State.wrote s

/-- A write of hardware that stands above the lines' own traffic, as those of the race detector (R325): at the home where
the lines are quiet, else into memory alone (log 52). -/
def State.plantWord (s : State) (pa n v : Nat) : State :=
  if s.quietAll pa n then s.homeWrite pa n v else { s with mem := mstore s.mem pa v n }

/-- The value of a word that only such writes change. -/
def State.plantedWord (s : State) (pa n : Nat) : Nat := if s.quietAll pa n then s.peek pa n else mload s.mem pa n

/-! ## Page tables (R264 to R269, R273) -/

inductive PaClass where
  | dram (die : Nat)
  | device
  | host
  | empty
  deriving DecidableEq, Repr

/-- The physical map (R267). -/
def paClass (pa : Nat) : PaClass :=
  if pa < 0x8000000000 then
    (if pa % 0x2000000000 < 0x1800000000 then .dram (pa / 0x2000000000) else .empty)
  else if pa < 0x10000000000 then .device
  else if pa < 0x8000000000000 then .empty
  else if pa < 0x10000000000000 then .host
  else .empty

def pteV (p : Nat) : Bool := decide (p % 2 = 1)
def pteLeaf (p : Nat) : Bool := decide (p / 2 % 2 = 1)
def pteR (p : Nat) : Bool := decide (p / 4 % 2 = 1)
def pteW (p : Nat) : Bool := decide (p / 8 % 2 = 1)
def pteX (p : Nat) : Bool := decide (p / 16 % 2 = 1)
def pteT (p : Nat) : Bool := decide (p / 32 % 2 = 1)
def pteP (p : Nat) : Bool := decide (p / 64 % 2 = 1)
def pteA (p : Nat) : Bool := decide (p / 128 % 2 = 1)
def pteD (p : Nat) : Bool := decide (p / 256 % 2 = 1)
def pteMG (p : Nat) : Bool := decide (p / 512 % 2 = 1)
def ptePpn (p : Nat) : Nat := p / 65536 % 2 ^ 36
def pteHmode (p : Nat) : Nat := p / 2 ^ 52 % 4
def pteHome (p : Nat) : Nat := p / 2 ^ 54

/-- Bytes of VA that a leaf of a level maps, as a power of two (R264). -/
def levelBits (lv : Nat) : Nat := 42 - 13 * lv

/-- What the whole range that a leaf maps holds (R266, R267): a range of a level above 0 lies within one part of the map, and
the 4 TiB of a level-0 leaf below host memory take in parts that are empty. -/
def leafClass (lv pa : Nat) : PaClass := if lv = 0 ∧ pa < 0x8000000000000 then .empty else paClass pa

/-- The walk's steps without what depends on masks, units and retired cores. -/
def walkRaw (s : State) (va : Nat) : Nat → Nat → Nat → Option (Nat × Nat × Nat) ⊕ (Nat × Bool)
  | _, _, 0 => .inr (2, true)
  | t, lv, n + 1 =>
    let ea := t + 8 * (va / 2 ^ levelBits lv % 8192)
    let p := mload s.mem ea 8
    if !pteV p then .inr (lv, false)
    else if p / 1024 % 64 ≠ 0 ∨ 2 ≤ pteHmode p then .inr (lv, true)
    else if pteLeaf p then
      if pteHmode p = 1 ∧ pteHome p / 32 ≠ 0 then .inr (lv, true)
      else if ptePpn p % 2 ^ (levelBits lv - 16) ≠ 0 then .inr (lv, true)
      else
        match leafClass lv (ptePpn p * 65536) with
        | .empty => .inr (lv, true)
        | .dram _ => .inl (some (lv, p, ea))
        | _ => if pteT p then .inr (lv, true) else .inl (some (lv, p, ea))
    else if p / 2 ^ 52 ≠ 0 ∨ p / 4 % 256 ≠ 0 ∨ lv = 2 then .inr (lv, true)
    else walkRaw s va (ptePpn p * 65536) (lv + 1) n

/-- The lines of the entries that those steps read. -/
def walkLines (s : State) (va : Nat) : Nat → Nat → Nat → List Nat
  | _, _, 0 => []
  | t, lv, n + 1 =>
    let ea := t + 8 * (va / 2 ^ levelBits lv % 8192)
    let p := mload s.mem ea 8
    ea / 128 :: (if pteV p && !pteLeaf p then walkLines s va (ptePpn p * 65536) (lv + 1) n else [])

/-- The physical address that a leaf gives a VA. -/
def leafPa (lv p va : Nat) : Nat := ptePpn p * 65536 + va % 2 ^ levelBits lv

/-- Whether the context's partition holds a core or a byte of DRAM (R365). -/
def State.inPart (s : State) (ctx unit : Nat) : Bool := (s.part (s.ctx ctx).part).units.testBit unit

/-- Whether a leaf with these home cores is well formed: it names a home, it maps no DRAM outside the partition's units, and
its homes are cores of those units that are not retired (R266, R365). -/
def State.leafIn (s : State) (ctx p : Nat) (hs : List Nat) : Bool :=
  let pa := ptePpn p * 65536
  !hs.isEmpty && (match paClass pa with | .dram _ => s.inPart ctx (paUnit pa) | _ => true) &&
    hs.all (fun c => !(s.core c).retired && s.inPart ctx (coreUnit c))

/-- The cores of a core group mask (R269). -/
def State.maskCores (s : State) (pa : Nat) : List Nat :=
  let die := s.peek (pa + 32) 8 % 4
  let bits := s.peek pa 32
  ((List.range 256).filter (fun c => bits.testBit c)).map (fun c => 256 * die + c)

/-- A core group mask of a context, read through the context's own tables: its address, and its leaf and the leaf's entry. A
mask on a page that is not present is empty; a mask page that is itself spread over a mask takes that one as it stands. -/
def State.maskLeaf (s : State) (ctx i : Nat) : Option (Nat × Nat × Nat) :=
  let x := s.ctx ctx
  let find (i : Nat) : Option (Nat × Nat × Nat) :=
    let va := (x.masks.toNat + 64 * i) % 2 ^ 64
    match walkRaw s va x.root 0 3 with
    | .inl (some (lv, p, ea)) => some (leafPa lv p va, p, ea)
    | _ => none
  let cores (i : Nat) : List Nat := match find i with | some y => s.maskCores y.1 | none => []
  (find i).filter (fun y => s.leafIn ctx y.2.1 (if pteHmode y.2.1 = 0 then [pteHome y.2.1] else cores (pteHome y.2.1)))

/-- The die and cores of a core group mask (R269). -/
def State.maskOf (s : State) (ctx i : Nat) : List Nat :=
  match s.maskLeaf ctx i with
  | some y => s.maskCores y.1
  | none => []

/-- The home cores of a leaf (R268); none where the leaf is malformed (R266, R365). -/
def State.leafHomes (s : State) (ctx p : Nat) : Option (List Nat) :=
  let hs := if pteHmode p = 0 then [pteHome p] else s.maskOf ctx (pteHome p)
  if s.leafIn ctx p hs then some hs else none

/-- What a walk finds. -/
inductive Walk where
  | leaf (level pte entry : Nat) (homes : List Nat)
  | absent (level : Nat) (malformed : Bool)
  deriving DecidableEq, Repr

/-- A walk of a context's tables (R273), without its setting of A. -/
def State.walk (s : State) (ctx va : Nat) : Walk :=
  match walkRaw s va (s.ctx ctx).root 0 3 with
  | .inl (some (lv, p, ea)) =>
    match s.leafHomes ctx p with
    | some hs => .leaf lv p ea hs
    | none => .absent lv true
  | .inl none => .absent 2 true
  | .inr (lv, m) => .absent lv m

/-- Whether a walk reads from a vault that holds traffic (R407). -/
def State.walkHeld (s : State) (ctx va : Nat) : Bool := (walkLines s va (s.ctx ctx).root 0 3).any s.vaultHeld

/-- A leaf's entry with A set, and with D set too where `dirty` (R273). -/
def State.markEntry (s : State) (entry p : Nat) (dirty : Bool) : State :=
  let new := p ||| 128 ||| (if dirty then 256 else 0)
  if new = p then s else { s with mem := mstore s.mem entry new 8 }

/-- The leaf of the page of a core group mask with A set, where a leaf that a walk found names the mask (R269, R273). -/
def State.markMask (s : State) (ctx p : Nat) : State :=
  if pteHmode p = 1 then
    match s.maskLeaf ctx (pteHome p) with
    | some (_, q, ea) => s.markEntry ea q false
    | none => s
  else s

/-- The physical address behind a VA of a context, without a mark of the walk. -/
def State.vaPa (s : State) (ctx va : Nat) : Option Nat :=
  match s.walk ctx va with
  | .leaf lv p _ _ => some (leafPa lv p va)
  | .absent .. => none

/-- The physical address behind a VA of a context, for an access of hardware that walks for itself: the walk sets A in the
leaf, and D for a write (R273). -/
def State.reach (s : State) (ctx va : Nat) (write : Bool) : Option (State × Nat) :=
  match s.walk ctx va with
  | .leaf lv p entry _ => some ((s.markMask ctx p).markEntry entry p write, leafPa lv p va)
  | .absent .. => none

/-- The leaf of a VA marked as an access of hardware that walks for itself leaves it (R273). -/
def State.markVa (s : State) (ctx va : Nat) (write : Bool) : State :=
  match s.reach ctx va write with
  | some (s, _) => s
  | none => s

/-! ## Hotness (R281) -/

/-- A request of a core, press, sweep or galley engine of quadrant `quad` of a die reaches the home slice beside core
`home`. Whether it misses the slice's L2 is open: a free value says so. A miss counts in the entry of its granule; an
entry that the slice has no room for goes to the die's log. -/
def State.hotMiss (s : State) (home line die quad : Nat) : State :=
  if die ≠ coreDie home then s
  else
    let miss := (Config.freeValue s.clockFree).getLsbD 0
    let s := { s with clockFree := s.clockFree + 1 }
    if miss then
      let k := s.core home
      let g := line / 512
      let old := match k.hot.find? (fun x => decide (x.1 = g)) with | some x => x.2 | none => [0, 0, 0, 0]
      let hot := (g, old.modify quad (fun v => min 65535 (v + 1))) :: k.hot.filter (fun x => decide (x.1 ≠ g))
      let s := s.setCore home { k with hot := hot.take 256 }
      s.modDie die (fun d => { d with hotLog := d.hotLog ++ hot.drop 256 })
    else s

/-! ## Token buckets (R367) -/

/-- The bucket at the slice beside a core that a context draws from: its own, or the shared default bucket. -/
def State.bucketKey (s : State) (home ctx : Nat) : Nat :=
  match s.buckets.find? (fun b => decide (b.1 / 17 = home ∧ b.1 % 17 ≠ 16 ∧ b.2.ctx = ctx)) with
  | some b => b.1
  | none => 17 * home + 16

def State.tokensAt (s : State) (home ctx : Nat) : Nat := (tget Bucket.fresh s.buckets (s.bucketKey home ctx)).tokens

/-- A request of a context that is served spends a token, where its bucket has one. -/
def State.spend (s : State) (home ctx : Nat) : State :=
  let k := s.bucketKey home ctx
  let b := tget Bucket.fresh s.buckets k
  if b.tokens = 0 then s else { s with buckets := tset s.buckets k { b with tokens := b.tokens - 1 } }

/-- The thread that made a request. -/
def MsgKind.requester : MsgKind → Option Nat
  | .readReq u | .exclReq u | .updReq u _ | .fetchReq u _ | .remoteReq u _ | .pushWrite u .. => some u
  | _ => none

/-- The context that a request at a port belongs to. -/
def State.payer (s : State) (m : Msg) : Nat := match m.kind.requester with | some u => s.ctxOf u | none => 4096

/-- Whether a request with a token waits at the port of the slice beside a core. -/
def State.tokenWaits (s : State) (home : Nat) : Bool :=
  (s.core home).port.any (fun m => decide (s.tokensAt home (s.payer m) ≠ 0))

/-- Whether the port serves a request of a context that arrives now: it has a token and none with a token waits before it. -/
def State.portServes (s : State) (home ctx : Nat) : Bool := decide (s.tokensAt home ctx ≠ 0) && !s.tokenWaits home

/-- Whether a request of an engine or a fetch of a context may arrive at a port and be served at once: with a token, where
none with a token waits there; to borrow, where nothing waits there. One that may not has not arrived yet (R367). -/
def State.portOpen (s : State) (home ctx : Nat) : Bool :=
  if s.tokensAt home ctx = 0 then (s.core home).port.isEmpty else !s.tokenWaits home

/-- A request of an engine or a fetch that a home serves: it spends a token where it has one (R367), and a miss of a
core's or an engine's die counts in the hotness of its granule (R281). -/
def State.homeRequest (s : State) (home line ctx : Nat) (unit : Option (Nat × Nat)) : State :=
  let s := s.spend home ctx
  match unit with
  | some q => s.hotMiss home line q.1 q.2
  | none => s

/-! ## Claims (R85 to R88) -/

def Claim.sameOp (c : Claim) (uid : Nat) (pc : Word) (word : Nat) (ea : Word) : Bool :=
  decide (c.uid = uid ∧ c.pc = pc ∧ c.word = word ∧ c.ea = ea)

def Core.findClaim (k : Core) (uid : Nat) (pc : Word) (word : Nat) (ea : Word) : Option Claim :=
  k.claims.find? (fun c => c.sameOp uid pc word ea)

/-- The length of a hold window (R85). -/
def holdWindow : Nat := 2048

/-- Whether a hold window opens later than its wake: the wake is the thread's armed wake and finds it WAITING or PARKED
(R85). -/
def Thread.opensLater (t : Thread) (w : WakeCond) : Bool :=
  t.armed (fun x => decide (x = w)) && (decide (t.st = .waiting) || decide (t.st = .parked))

/-- A free claim is reserved for the head of the budget queue, whose wake fires (R87). -/
def State.serveBudgetOnce (s : State) (c : Nat) : State :=
  let k := s.core c
  match k.budget with
  | [] => s
  | u :: rest =>
    if k.claims.length + k.reserved.length < 32 then
      let w := WakeCond.budget u.pc u.ea
      let later := (s.thr u.uid).opensLater w
      (s.setCore c { k with budget := rest, reserved := k.reserved ++
        [{ op := u, opened := !later, closes := s.now (coreDie c) + holdWindow }] }).fireOf u.uid w
    else s

/-- Every free claim is reserved for the budget queue, in its order (R87). -/
def State.serveBudget (s : State) (c : Nat) : State := (s.core c).budget.foldl (fun s _ => s.serveBudgetOnce c) s

/-- The fetches of untracked lines under the claims that the predicate names are made anew: what an earlier fetch brings
is not taken (R132). -/
def State.refetch (s : State) (c : Nat) (p : Claim → Bool) : State :=
  let again (x : Claim) : Bool :=
    decide (x.need = .fetch) && (decide (x.stage = .waiting) || decide (x.stage = .ready)) && p x
  let tag := s.wakeSeq
  let k := s.core c
  let s := State.setCore { s with wakeSeq := tag + 1 } c { k with claims := k.claims.map (fun x =>
    if again x then { x with stage := .waiting, copy := none, opened := false, tag := tag } else x) }
  (k.claims.filter again).foldl (fun s x =>
    s.send { src := c, dst := homeAgent x.home, line := x.line, kind := .fetchReq x.uid tag }) s

/-- A core sends what it owes the home for a line that it gives up. A fetch under way of a line whose dirty bytes are
sent is made anew behind them. -/
def State.giveUpLine (s : State) (c : Nat) (x : L1Line) : State :=
  match giveUp x with
  | none => s
  | some m =>
    let s := s.send { src := c, dst := homeAgent x.home, line := x.line, kind := m }
    if x.st = .raw then s.refetch c (fun y => decide (y.line = x.line ∧ y.stage = .waiting)) else s

/-- Puts a line into an L1, in place of the least recently used unpinned way of a full set (R111). -/
def State.install (s : State) (c : Nat) (x : L1Line) : State :=
  let k := s.core c
  if (k.line x.line).isSome ∨ k.waysUsed x.line < 8 then s.modCore c (fun k => k.putLine x)
  else
    match k.victim x.line with
    | none => s.giveUpLine c x
    | some v => (s.modCore c (fun k => (k.delLine v.line).putLine x)).giveUpLine c v

/-- A claim's last resource has arrived: its wake fires, and its window opens now unless the thread was waiting on
this very wake (R85). -/
def State.claimReady (s : State) (c : Nat) (uid : Nat) (pc ea : Word) : State :=
  let later := (s.thr uid).opensLater (.claim pc ea)
  let close := s.now (coreDie c) + holdWindow
  let s := s.modCore c (fun k => { k with claims := k.claims.map (fun x =>
    if x.uid = uid ∧ x.pc = pc ∧ x.ea = ea then
      { x with stage := (if x.stage = .absent then .absent else .ready), opened := !later, closes := close }
    else x) })
  s.fireOf uid (.claim pc ea)

/-- Claims of a core whose line has come become ready. -/
def State.wakeClaims (s : State) (c line : Nat) : State :=
  let k := s.core c
  let ok (x : Claim) : Bool := decide (x.line = line ∧ x.stage = .waiting) && !x.remote &&
    (match k.line line with | some l => servesNeed x.need l.st | none => false)
  (k.claims.filter ok).foldl (fun s x => s.claimReady c x.uid x.pc x.ea) s

/-- A copy under the other attribute is given up before a line is taken as an untracked copy, or as a tracked one (R287). -/
def State.dropAlias (s : State) (c line : Nat) (raw : Bool) : State :=
  match (s.core c).line line with
  | some x => if decide (x.st = .raw) = raw then s else (s.modCore c (fun q => q.delLine line)).giveUpLine c x
  | none => s

/-- A core sends the dirty bytes of an untracked line home and keeps its copy (R122). -/
def State.cleanLine (s : State) (c line : Nat) : State :=
  match (s.core c).line line with
  | some x =>
    if x.st = .raw ∧ x.dirty ≠ 0 then
      (s.modCore c (fun k => { k with l1 := k.l1.map (fun y => if y.line = line then { y with dirty := 0 } else y) })).giveUpLine c x
    else s
  | none => s

/-- A grant reaches a core. A grant of U leaves the copy of that kind that the core holds; a copy of another kind goes to the
home first, and E or M takes in the core's own updates in place (R116, R119). -/
def State.putGrant (s : State) (c line home : Nat) (st : LState) (d : BitVec 1024) : State :=
  let fresh : L1Line := { line := line, st := st, data := d, valid := 0, dirty := 0, home := home }
  match (s.core c).line line with
  | some y =>
    match y.st, st with
    | .u j, .u k =>
      if j = k then s
      else ((s.modCore c (fun q => q.delLine line)).giveUpLine c y).install c { fresh with data := 0 }
    | .u j, _ =>
      if y.valid = 0 then s.install c fresh
      else s.install c { fresh with st := .m, data := combineLine j d y.data y.valid 32 }
    | st', .u _ => (if st' = .raw then s.dropAlias c line false else s).install c { fresh with data := 0 }
    | st', _ => (if st' = .raw then s.dropAlias c line false else s).install c fresh
  | none => s.install c { fresh with data := (match st with | .u _ => 0 | _ => d) }

/-- A grant reaches a core, and the claims that waited for the line become ready. -/
def State.takeGrant (s : State) (c line home : Nat) (st : LState) (d : BitVec 1024) : State :=
  (s.putGrant c line home st d).wakeClaims c line

/-- A core performs an invalidation or a recall on its copy and replies (R116), or takes a grant that it had deferred. -/
def State.performRecall (s : State) (c : Nat) (m : Msg) : State :=
  let x := (s.core c).line m.line
  let reply (d : Option (BitVec 1024)) (touched : BitVec 128) (kind : Nat) : Msg :=
    { src := c, dst := m.src, line := m.line, kind := .ack d touched kind }
  match m.kind with
  | .inval =>
    match x with
    | some l => (s.modCore c (fun k => k.delLine m.line)).send
        (reply (if l.st = .m then some l.data else none) 0 0)
    | none => s.send (reply none 0 0)
  | .shareRecall =>
    match x with
    | some l =>
      if l.st = .m ∨ l.st = .e then
        (s.modCore c (fun k => { k with l1 := k.l1.map (fun y => if y.line = m.line then { y with st := .s } else y) })).send
          (reply (if l.st = .m then some l.data else none) 0 0)
      else s.send (reply none 0 0)
    | none => s.send (reply none 0 0)
  | .updRecall =>
    match x with
    | some l =>
      match l.st with
      | .u k => (s.modCore c (fun q => q.delLine m.line)).send (reply (if l.valid = 0 then none else some l.data) l.valid k)
      | _ => s.send (reply none 0 0)
    | none => s.send (reply none 0 0)
  | .grant _ st d => s.takeGrant c m.line (m.src - 1024) st d
  | _ => s

/-- The state that a request leaves a line in. -/
def MsgKind.leaves : MsgKind → Option LState
  | .shareRecall => some .s
  | .grant _ st _ => some st
  | _ => none

/-- Performs the deferred requests of a core that no claim defers any longer (R90). -/
def State.undefer (s : State) (c : Nat) : State :=
  let k := s.core c
  let go := k.deferred.filter (fun m => !k.defers m.line m.kind.leaves)
  go.foldl (fun s m => s.performRecall c m)
    (s.setCore c { k with deferred := k.deferred.filter (fun m => k.defers m.line m.kind.leaves) })

/-- Entries of the core's push or outbound queue in use or reserved for a claim (R104, R142). -/
def Core.entriesUsed (k : Core) (need : Need) : Nat :=
  (if need = .pushEntry then k.pushes.length else k.outq.length) +
    (k.claims.filter (fun x => decide (x.need = need ∧ x.stage = .ready))).length

/-- A freed entry is reserved for the claim that has waited longest (R104, R142). -/
def State.serveEntry (s : State) (c : Nat) (need : Need) : State :=
  let k := s.core c
  if k.entriesUsed need < 16 then
    match k.claims.find? (fun x => decide (x.need = need ∧ x.stage = .waiting)) with
    | some x => s.claimReady c x.uid x.pc x.ea
    | none => s
  else s

/-- The blocked claims of a core that the predicate names look again at what they wait for: the core sends itself a word for
each. -/
def State.lookAgain (s : State) (c : Nat) (p : Claim → Bool) : State :=
  ((s.core c).claims.filter (fun x => decide (x.stage = .blocked) && p x)).foldl
    (fun s x => s.send { src := c, dst := c, line := x.line, kind := .own x.uid }) s

/-- The blocked claims of a set look again. -/
def State.unblock (s : State) (c set : Nat) : State := s.lookAgain c (fun x => decide (x.line % 64 = set))

/-- What follows the end of a claim on a line: waiting accesses of its set wake, blocked claims look again, and a remote
pin is dropped at the home when nothing was written (R111, R114, R144). -/
def State.afterClaim (s : State) (c : Nat) (x : Claim) : State :=
  let s := if x.remote ∧ x.copy.isSome then
      s.send { src := c, dst := homeAgent x.home, line := x.line, kind := .claimReturn x.uid none } else s
  let s := s.fire (fun w => match w with
    | .unpinned c' l => decide (c' = c ∧ l = x.line)
    | .setFree c' k => decide (c' = c ∧ k = x.line % 64)
    | _ => false)
  let s := s.unblock c (x.line % 64)
  let s := if x.need = .pushEntry ∨ x.need = .outbound then s.serveEntry c x.need else s
  s.serveBudget c

/-- Ends the claims of a core that the predicate names. -/
def State.endClaims (s : State) (c : Nat) (p : Claim → Bool) : State :=
  let k := s.core c
  let gone := k.claims.filter p
  let s := s.setCore c { k with claims := k.claims.filter (fun x => !p x) }
  (gone.foldl (fun s x => s.afterClaim c x) s).undefer c

/-- Ends every claim of a thread (R85), and its place in the budget queue. -/
def State.endAllClaims (s : State) (u : Nat) : State :=
  let c := (s.thr u).core
  let s := s.modCore c (fun k => { k with
    budget := k.budget.filter (fun x => decide (x.uid ≠ u)),
    reserved := k.reserved.filter (fun x => decide (x.op.uid ≠ u)) })
  (s.endClaims c (fun x => decide (x.uid = u))).serveBudget c

/-! ## Write-backs of untracked lines, and what a release waits for (R122, R132) -/

/-- Starts the write-backs of a core's dirty untracked lines (R122, R132). -/
def State.writeBackRaw (s : State) (c : Nat) : State :=
  let dirty := (s.core c).l1.filter (fun x => decide (x.st = .raw ∧ x.dirty ≠ 0))
  let s := s.modCore c (fun k => { k with l1 := k.l1.map (fun x => if x.st = .raw then { x with dirty := 0 } else x) })
  dirty.foldl (fun s x => s.giveUpLine c x) s

/-- A message that a release step waits for: write-backs of the cores named and claim copies of the thread. -/
def Msg.heldBack (m : Msg) (u : Nat) (cs : List Nat) : Bool :=
  match m.kind with
  | .claimReturn u' (some _) => decide (u' = u)
  | .writeBack .. | .uCopy .. | .rawWriteBack .. => cs.contains m.src
  | _ => false

/-- The cores whose write-backs may hold a thread's stores: its own and those it has left (R132, R313). -/
def Thread.places (t : Thread) : List Nat := t.core :: t.trail

/-- Whether the thread has entries in a side log, of a core or of a saved group (R280, R300). -/
def State.logged (s : State) (u : Nat) : Bool :=
  let mine (l : List SideEntry) : Bool := l.any (fun e => decide (e.uid = u))
  s.cores.any (fun k => mine k.2.side) || s.groups.any (fun g => g.2.save.any (fun r => mine r.side))

/-- Whether what a thread has sent has been performed: its pushes and the write-backs started, its side log left out
(R132, R284). -/
def State.fenced (s : State) (u : Nat) : Bool :=
  let t := s.thr u
  decide (t.pushes = 0) && !s.net.any (fun m => m.heldBack u t.places)

/-- Whether the release step of a thread at a scope is established (R132). -/
def State.established (s : State) (u scope : Nat) : Bool :=
  !s.logged u && s.fenced u &&
    (decide (scope < 3) ||
      !(s.thr u).places.any (fun c => (s.core c).l1.any (fun x => decide (x.st = .raw ∧ x.dirty ≠ 0))))

/-- Whether the thread's partition caps scope at `die` (R324). -/
def State.capped (s : State) (ctx : Nat) : Bool := (s.part (s.ctx ctx).part).cap

/-! ## Traps (R108 to R110) -/

/-- The bytes of a trap record (R109). -/
def TrapRec.bytes (r : TrapRec) : Nat :=
  r.tick % 2 ^ 64
  + 2 ^ 64 * (r.kernel % 2 ^ 16 * 2 ^ 48 + r.group % 2 ^ 32 * 2 ^ 16 + r.index % 256)
  + 2 ^ 128 * r.pc.toNat
  + 2 ^ 192 * (coreDie r.core % 4 * 2 ^ 48 + coreLocal r.core * 2 ^ 40 + r.slot % 16 * 2 ^ 36 + r.insn % 2 ^ 32)
  + 2 ^ 256 * (r.cls.code * 2 ^ 56)
  + 2 ^ 320 * r.va.toNat
  + 2 ^ 384 * r.extra.toNat
  + 2 ^ 448 * (r.seq % 2 ^ 64)

/-- A release of the thread counts an interval (R326). -/
def Thread.released (t : Thread) : Thread := { t with interval := (t.interval + 1) % 2 ^ 20 }

/-- Starts the untracked write-backs of a thread's release at `pkg`, which a capped partition leaves out (R132, R324). -/
def State.trapRelease (s : State) (ctx u : Nat) : State :=
  if s.capped ctx then s else (s.thr u).places.foldl State.writeBackRaw s

/-- A trap record in its slot of the ring at `pa`, with the tail moved on and the others still held (R110, R369). -/
def State.putTrap (s : State) (ctx pa : Nat) (r : TrapRec) (rest : List TrapRec) : State :=
  let x := s.ctx ctx
  let tail := (x.ttail + 1) % 2 ^ 32
  let s := (s.homeWrite pa 64 r.bytes).homeWrite (x.pa + 96) 4 tail
  State.modCtx { s with heldTraps := tset s.heldTraps ctx rest } ctx (fun y => { y with ttail := tail })

/-- Writes the oldest held trap record of a context to its trap ring if the ring has room, its page is present and the
release that the write is has been established, and counts the release; `none` where it cannot be written now (R110, R132,
R326, R369). -/
def State.writeTrap (s : State) (ctx : Nat) : Option State :=
  let x := s.ctx ctx
  match tget [] s.heldTraps ctx with
  | [] => none
  | r :: rest =>
    if !s.quietAll (x.pa + 96) 8 || s.logged r.uid || !s.fenced r.uid then none
    else
      let head := s.peek (x.pa + 100) 4
      if (x.ttail + 2 ^ 32 - head) % 2 ^ 32 ≥ 2 ^ x.tlg then none
      else
        match s.reach ctx ((x.tring.toNat + 64 * (x.ttail % 2 ^ x.tlg)) % 2 ^ 64) true with
        | none => none
        | some (s, pa) =>
          if !s.quietAll pa 64 then none
          else
            some ((s.putTrap ctx pa r rest).modThr r.uid Thread.released)

/-- Whether a trap counts toward the trace of the context (R383). -/
def State.traced (s : State) (ctx die : Nat) : Bool :=
  let sel := (tget 0 s.observe.trSel die).toNat
  decide (sel / 2 ^ 63 = 1) && (decide (sel / 2 ^ 62 % 2 = 1) || decide (sel % 4096 = ctx))

/-- A hardware trace record: dropped and counted when the buffer is full (R383). -/
def State.traceHw (s : State) (c : Nat) (r : TraceRec) : State :=
  if s.traced r.ctx (coreDie c) then
    if (s.core c).trace.length < 32 then s.modCore c (fun k => { k with trace := k.trace ++ [r] })
    else (s.modCore c (fun k => { k with lost := k.lost + 1 })).count c r.ctx 0x1013 1
  else s

/-- The record of a trap (R109). -/
def State.trapRec (s : State) (u : Nat) (cls : TrapClass) (pc va extra : Word) (insn : Nat) : TrapRec :=
  let t := s.thr u
  let g := s.grp t.gid
  { tick := s.gtick, kernel := g.kid, group := g.index, index := t.index, pc := pc, core := t.core,
    slot := t.slot.getD 0, insn := insn, cls := cls, va := va, extra := extra, seq := (s.ctx g.ctx).tseq, uid := u }

/-- A thread TRAPPED with a record. The end of an auto-retry wait disarms the wake (R83, R108). -/
def Thread.trapped (t : Thread) (r : TrapRec) : Thread :=
  { t with st := .trapped, trap := some r, wait := .none, prio := false, runnable := false, pc := r.pc,
           wake := (if t.wait = .retry then none else t.wake) }

/-- A record joins those held for its context (R110). -/
def State.holdTrap (s : State) (ctx : Nat) (r : TrapRec) : State :=
  State.modCtx { s with heldTraps := tset s.heldTraps ctx (tget [] s.heldTraps ctx ++ [r]) } ctx
    (fun x => { x with tseq := x.tseq + 1 })

/-- TAKING A TRAP (R108, R109): thread `u` becomes TRAPPED at `pc`, its claims end, and its record takes the next
sequence number of the context and is written to the trap ring, or held until the ring has room and the release at `pkg`
that the write is has been established (R110); its write-backs start here. No register of the thread changes. -/
def State.trap (s : State) (u : Nat) (cls : TrapClass) (pc va extra : Word) (insn : Nat) : State :=
  let t := s.thr u
  let ctx := (s.grp t.gid).ctx
  let r := s.trapRec u cls pc va extra insn
  let s := (((s.endAllClaims u).modThr u (fun t => t.trapped r)).trapRelease ctx u).holdTrap ctx r
  let s := s.traceHw t.core { tick := s.gtick, kind := 2, ctx := ctx, core := t.core, slot := t.slot.getD 0,
                              index := t.index, pc := pc, value := BitVec.ofNat 64 cls.code }
  if (tget [] s.heldTraps ctx).length = 1 then (s.writeTrap ctx).getD s else s

/-- The thread in execution traps at its instruction. -/
def State.trapMe (s : State) (cls : TrapClass) (va extra : Word) : State :=
  (s.trap s.cur cls s.me.pc va extra s.ir).modMe (fun t => { t with instret := t.instret + 1 })

/-- RETURNING FROM A TRAP (R79, R80, R370): the Lantern kernel resumes a TRAPPED thread at a PC of its choice: READY
where it holds a slot, runnable where it is parked. -/
def State.resume (s : State) (u : Nat) (pc : Word) : State :=
  { s with wakeSeq := s.wakeSeq + 1 }.modThr u (fun t =>
    let t := if pc = t.pc then t else { t with arrived := none, linked := none, bytes := none }
    let t := { t with pc := pc, trap := none, wait := .none, wokenAt := s.wakeSeq }
    match t.slot with
    | some _ => { t with st := .ready }
    | none => { t with st := .parked, runnable := true })

/-! ## Completing an instruction (R26, R31, R83) -/

/-- Progress of a group for its watchdog (R356). -/
def State.progress (s : State) (g : Nat) : State := s.modGrp g (fun x => { x with wdCount := 0 })

/-- An instruction completes with an outcome. With nb = 1 the code is written and the wake disarmed; with nb = 0, RDY
writes nothing, and any other code that completes is written. -/
def State.complete (s : State) (nb : BitVec 1) (c : OCode) : State :=
  let s := if nb = 1 ∧ c = .rdy then s.modMe (fun t => { t with oc := 0, wake := none }.retire)
    else if c = .rdy then s.modMe Thread.retire
    else (s.modMe (fun t => { t with oc := BitVec.ofNat 4 c.code, wake := none }.retire)).countMe (0x1000 + c.code)
  s

/-- Completion that is progress of the group for RDY and STALE (R356). -/
def State.completeP (s : State) (nb : BitVec 1) (c : OCode) : State :=
  if c = .rdy ∨ c = .stale then (s.complete nb c).progress s.me.gid else s.complete nb c

/-- An instruction is not ready. With nb = 1 the code is written, the wake armed and the PC moves on; with nb = 0 the
thread waits at the instruction until the wake fires (R31, R83). -/
def State.notReady (s : State) (nb : BitVec 1) (c : OCode) (w : WakeCond) : State :=
  if nb = 1 then
    (s.modMe (fun t => { t with oc := BitVec.ofNat 4 c.code, wake := some { cond := w, fired := 0 } }.retire)).countMe
      (0x1000 + c.code)
  else
    ({ s with wakeSeq := s.wakeSeq + 1 }.modMe (fun t => { t with
      st := .waiting, wait := .retry, waitFrom := s.wakeSeq, wake := some { cond := w, fired := 0 } })).countMe 0x1010

/-- A plain instruction: registers change by `f`, and the PC moves on. -/
def State.plain (s : State) (f : Thread → Thread) : State := s.modMe (fun t => (f t).retire)

end Sys2Proof.Machine
end

