-- ==== Sys2Proof/Machine/Flags.lean ====
section
/-! DEFINITION. The flag computations: the sticky flags, rounding mode and overflow choice of `vrm` (R71, R169), the
dither phase (R72, R172), and the path signature (R392). -/

namespace Sys2Proof.Machine

open Sys2Proof

/-- The sticky flags of `vrm` raised (R71: set, never cleared). -/
def Thread.raiseFlags (t : Thread) (fl : BitVec 5) : Thread := { t with vrm := t.vrm ||| fl.zeroExtend 9 }

/-- The rounding mode of `vrm` (R71). -/
def Thread.mode (t : Thread) : Nat := t.vrm.toNat / 32 % 8

/-- The rounding of a vector instruction at destination lane `k` (R172). -/
def Thread.rnd (t : Thread) (k : Nat) : Rnd :=
  { mode := t.mode, ovf8 := t.vrm.getLsbD 8, thr := ditherThr (k / 16) (k % 16) (t.dphase.toNat % 256) }

/-- The phase steps once after a rounding instruction in dither mode with an active lane (R72, R190). -/
def Thread.stepPhase (t : Thread) (any : Bool) : Thread :=
  if any ∧ t.mode = 4 ∧ t.dphase.getLsbD 8 then
    { t with dphase := BitVec.ofNat 9 (256 + (t.dphase.toNat % 256 + 0x35) % 256) }
  else t

/-- One step of CRC-64 over a bit, most significant first (R392, log 9). -/
def crcBit (c : Nat) : Nat := if c / 2 ^ 63 % 2 = 1 then (c * 2 % 2 ^ 64) ^^^ 0x42F0E1EBA9EA3693 else c * 2 % 2 ^ 64

def crcBits : Nat → Nat → Nat
  | c, 0 => c
  | c, n + 1 => crcBits (crcBit c) n

/-- CRC-64 of `n` bytes of a little-endian value, from an initial register. -/
def crcBytes : Nat → Nat → Nat → Nat
  | c, _, 0 => c
  | c, v, n + 1 => crcBytes (crcBits (c ^^^ (v % 256 * 2 ^ 56)) 8) (v / 256) n

/-- The signature followed by an input of `n` bytes (R392). -/
def sigStep (sig : Word) (v n : Nat) : Word := BitVec.ofNat 64 (crcBytes (crcBytes 0 sig.toNat 8) v n)

def Thread.sign (t : Thread) (v n : Nat) : Thread := { t with sig := sigStep t.sig v n }

/-- A kernel's signature takes in one thread: CRC-64 of its signature followed by its `thrid` (R392). -/
def threadSig (t : Thread) (thrid : Nat) : Word := sigStep t.sig thrid 8

end Sys2Proof.Machine
end

