-- ==== Sys2Proof/Machine/Operands.lean ====
section
/-! DEFINITION. Operand forms: immediates, effective addresses and their classes (R19 to R23, R59), constant words
(R21, R36), scopes under the partition's cap (R9, R64, R324). -/

namespace Sys2Proof.Machine

open Sys2Proof

/-- A 12-bit immediate, sign-extended (R33). -/
def sext12 (i : BitVec 12) : Word := i.signExtend 64

/-- A 20-bit upper immediate shifted left by 12, sign-extended (R53). -/
def upper20 (i : BitVec 20) : Word := (i.signExtend 64) <<< 12

/-- A branch offset: a 12-bit field of 2-byte units (R53). -/
def branchOff (i : BitVec 12) : Word := (i.signExtend 64) <<< 1

/-- A jump offset: a 20-bit field of 2-byte units (R53). -/
def jumpOff (i : BitVec 20) : Word := (i.signExtend 64) <<< 1

/-- A fused branch offset: a 12-bit field of 4-byte units (R25). -/
def fusedOff (i : BitVec 12) : Word := (i.signExtend 64) <<< 2

/-- Bytes of a width code (R33). -/
def widthBytes (w : BitVec 3) : Nat := 2 ^ (w.toNat % 4)

/-- A loaded value extended as its width code says (R33, R134). -/
def extendLoad (w : BitVec 3) (v : Nat) : Word :=
  match w.toNat with
  | 0 => (BitVec.ofNat 8 v).signExtend 64
  | 1 => (BitVec.ofNat 16 v).signExtend 64
  | 2 => (BitVec.ofNat 32 v).signExtend 64
  | 4 => (BitVec.ofNat 8 v).zeroExtend 64
  | 5 => (BitVec.ofNat 16 v).zeroExtend 64
  | 6 => (BitVec.ofNat 32 v).zeroExtend 64
  | _ => BitVec.ofNat 64 v

/-- The LM byte of a core in the local memories (R18, R21). -/
def lmByte (core off : Nat) : Nat := core * 0x40000 + off

/-- Constant word `n` of a core (R21, R36). -/
def State.constWord (s : State) (core n : Nat) : Word := BitVec.ofNat 64 (mload s.lm (lmByte core (8 * n)) 8)

/-- Whether a 64-bit address is canonical (R19). -/
def canonical (a : Nat) : Bool := decide (a < 2 ^ 54 ∨ 2 ^ 64 - 2 ^ 54 ≤ a)

/-- Whether an address lies in paged memory (R20). -/
def inPaged (a : Nat) : Bool := decide ((0x100000000 ≤ a ∧ a < 2 ^ 54) ∨ (2 ^ 64 - 2 ^ 54 ≤ a ∧ a < 2 ^ 64))

/-- The region of a byte (R23): its number, and for local memory the byte of the local memories. Region 0 is the LM
window, 1 + k the slot of rank k, 9 paged memory. -/
def State.region (s : State) (u a : Nat) : Option (Nat × Nat) :=
  let t := s.thr u
  let g := s.grp t.gid
  if a < 0x40000 then (if a < g.lm then some (0, lmByte t.core a) else none)
  else if 0x1000000 ≤ a ∧ a < 0x1200000 then
    let k := (a - 0x1000000) / 0x40000
    let off := a % 0x40000
    match g.cores[k]? with
    | some c => if off < g.lm then some (1 + k, lmByte c off) else none
    | none => none
  else if inPaged a then some (9, a)
  else none

/-- The class of an access of `n` bytes. -/
inductive Span where
  | lm (byte : Nat)
  | paged
  | window
  | access
  deriving DecidableEq, Repr

/-- Whether an access touches an identity word of a local memory (R21). -/
def touchesIdentity (byte n : Nat) : Bool :=
  let off := byte % 0x40000
  decide (off < 0x800 ∧ 0x700 < off + n)

/-- Whether an address lies in the LM window or the forme window (R20). -/
def inWindows (ea : Word) : Bool :=
  decide (ea.toNat < 0x40000) || decide (0x1000000 ≤ ea.toNat ∧ ea.toNat < 0x1200000)

/-- The class of an access by thread `u` of `n` bytes at `ea` (R19 to R23). An address that is not canonical, is unmapped
or lies beyond the allocation gives ACCESS whatever its further bytes are (R20, R59, R208). -/
def State.span (s : State) (u : Nat) (ea : Word) (n : Nat) (write : Bool) : Span :=
  let a := ea.toNat
  let b := (a + (n - 1)) % 2 ^ 64
  match s.region u a, s.region u b with
  | none, _ => .access
  | some (r, x), some (r', _) =>
    if r ≠ r' then .window
    else if r = 9 then .paged
    else if write && touchesIdentity x n then .access
    else .lm x
  | some _, none => .window

/-- A scope under the cap of the thread in execution. -/
def State.capScope (s : State) (scope : Nat) : Nat := if s.capped s.myCtx ∧ 2 < scope then 2 else scope

/-- The scope-clamp event, where the cap applies (R64, R324). -/
def State.clampCount (s : State) (scope : Nat) : State :=
  if s.capped s.myCtx ∧ 2 < scope then s.countMe 0x2003 else s

/-- NR, NRX or FAULTED of an instruction with a scope. With nb = 1 it has been executed and counts its scope-clamp event; with
nb = 0 it goes on waiting, and counts when it ends (R137, R324). -/
def State.clampedWait (s : State) (scope : Nat) (nb : BitVec 1) (c : OCode) (w : WakeCond) : State :=
  (if nb = 1 then s.clampCount scope else s).notReady nb c w

/-- The least scope whose instance holds both cores (R9, R327). -/
def leastScope (a b : Nat) : Nat :=
  if a = b then 0 else if coreForme a = coreForme b then 1 else if coreDie a = coreDie b then 2 else 3

end Sys2Proof.Machine
end

