-- ==== Sys2Proof/Machine/Places.lean ====
section
/-! DEFINITION. The place tables (R290 to R300): linking, granting, dropping and releasing places, and the copy of a
quoin's state that its four words in memory are. -/

namespace Sys2Proof.Machine

open Sys2Proof

/-- Entries of a place table (R293). -/
def placeCount : Nat := 8192

def State.place (s : State) (d e : Nat) : Place := tget Place.fresh (s.die d).places e
def State.setPlace (s : State) (d e : Nat) (p : Place) : State :=
  s.modDie d (fun k => { k with places := tset k.places e p })
def State.quoin (s : State) (key : Nat) : Quoin := tget Quoin.fresh s.quoins key
def State.setQuoin (s : State) (key : Nat) (q : Quoin) : State := { s with quoins := tset s.quoins key q }

/-- The contexts and VAs that lead to a quoin: those by which it has been reached, and those of its places (R292). -/
def State.quoinNames (s : State) (q : Quoin) : List (Nat × Word) :=
  q.names ++ (q.places.map (s.place q.die)).map (fun p => (p.ctx, BitVec.ofNat 64 (32 * p.quoin)))

/-- Whether a quoin stands at a physical address: it was last found there, or the page of a name of it puts it there now. -/
def State.quoinAt (s : State) (q : Quoin) (pa : Nat) : Bool :=
  decide (q.pa = some pa) || (s.quoinNames q).any (fun n => decide (s.vaPa n.1 n.2.toNat = some pa))

/-- The key of the quoin that a context reaches at a physical address by a VA. A quoin with places is known by where it
was last found, then by its names, and then by where their pages put it now, so that it is one quoin while its page is
moved (R283, R292). Where there is none, one without places at the address; else a new one. -/
def State.quoinKey (s : State) (ctx : Nat) (va : Word) (pa : Nat) : Nat :=
  let linked (x : Nat × Quoin) : Bool := decide (x.2.places ≠ [])
  let here (x : Nat × Quoin) : Bool := decide (x.2.pa = some pa)
  let named (x : Nat × Quoin) : Bool := (s.quoinNames x.2).contains (ctx, va)
  let find (p : Nat × Quoin → Bool) : Option (Nat × Quoin) := s.quoins.find? p
  match (find (fun x => linked x && here x)).or ((find (fun x => linked x && named x)).or
      ((find (fun x => linked x && s.quoinAt x.2 pa)).or ((find here).or (find (fun x => s.quoinAt x.2 pa))))) with
  | some x => x.1
  | none => if s.quoins.any (fun x => decide (x.1 = pa / 32)) then 2 ^ 52 + s.quoins.length else pa / 32

/-- Where the words of a quoin are now: at the address where it was last found, as long as a name leads there, else where the
first name does; whether the page is frozen, and the home core. -/
def State.quoinSpot (s : State) (q : Quoin) : Option (Nat × Bool × Nat) :=
  let spots := (s.quoinNames q).filterMap (fun n =>
    match s.walk n.1 n.2.toNat with
    | .leaf lv p _ homes => some (leafPa lv p n.2.toNat, pteMG p, homes.headD 0)
    | .absent .. => none)
  match spots.find? (fun x => decide (q.pa = some x.1)) with
  | some x => some x
  | none => spots.head?

/-- The line that a rewrite of a quoin has to wait for: its page is there, and something stands against a write of the line
(R90, R291). -/
def State.quoinBusy (s : State) (key : Nat) : Option Nat :=
  match s.quoinSpot (s.quoin key) with
  | some (pa, frozen, _) => if !frozen && !s.quietAll pa 32 then some (pa / 128) else none
  | none => none

/-- Word +0 of a quoin (R290). -/
def State.quoinWord0 (s : State) (q : Quoin) : Word :=
  match q.places with
  | [] => 0
  | h :: l =>
    let g := if (s.place q.die h).st = .granted then 1 else 0
    BitVec.ofNat 64 (g * 2 ^ 45 + h * 2 ^ 32 + (h :: l).getLast! * 2 ^ 16 + q.die * 2 ^ 14 + (l.length + 1))

/-- The four words of a quoin (R290). -/
def State.quoinWords (s : State) (q : Quoin) : List Word :=
  [s.quoinWord0 q, BitVec.ofNat 64 q.grants, BitVec.ofNat 64 q.skips, 0]

/-- Words as one little-endian number. -/
def wordsNat : List Word → Nat
  | [] => 0
  | w :: l => w.toNat + 2 ^ 64 * wordsNat l

/-- The home rewrites the words of a quoin from the table (R291), and counts one quoin-overwrite event where a program has
stored to it since the last rewrite. Where the page is absent or frozen the quoin is marked stale and its rewrite, which
counts no event, is left pending until an operation on the quoin finds the page writable; where something still stands against
a write of its line (R90), the write waits. -/
def State.rewriteQuoin (s : State) (key : Nat) : State :=
  let q := s.quoin key
  match s.quoinSpot q with
  | none => s.setQuoin key { q with stale := true, owed := false }
  | some (pa, frozen, home) =>
    if frozen then s.setQuoin key { q with stale := true, owed := false }
    else if !s.quietAll pa 32 then s.setQuoin key { q with owed := true, pa := some pa }
    else
      let ws := s.quoinWords q
      let s := if q.stored ∧ !q.stale then s.countDie (coreDie home) 0x6001 0 1 else s
      let s := s.setQuoin key { q with words := ws, stored := false, stale := false, owed := false, pa := some pa }
      if s.peek pa 32 = wordsNat ws then s else s.homeWrite pa 32 (wordsNat ws)

/-- The rewrites that wait for their lines are made where they can be (R90, R291), and who waits for a line to be free at
its home goes on. -/
def State.rewriteOwed (s : State) : State :=
  let s := (s.quoins.filter (fun x => x.2.owed)).foldl (fun s x => s.rewriteQuoin x.1) s
  if s.threads.any (fun x => x.2.armed (fun w => match w with | .lineQuiet l => s.quiet l | _ => false)) then
    s.fire (fun w => match w with | .lineQuiet l => s.quiet l | _ => false)
  else s

/-- A program's store of `n` bytes at a physical address is noted at the quoins that it touches (R291). -/
def State.noteStore (s : State) (pa n : Nat) : State :=
  let touched (q : Quoin) : Bool := (List.range ((pa + n - 1) / 32 - pa / 32 + 1)).any (fun i => s.quoinAt q (32 * (pa / 32 + i)))
  { s with quoins := s.quoins.map (fun x => if touched x.2 then (x.1, { x.2 with stored := true }) else x) }

/-- A frame is emptied: quoins are no more known by where they stood in it (R285, R286). -/
def State.forgetFrames (s : State) (pa len : Nat) : State :=
  { s with quoins := s.quoins.map (fun x =>
      match x.2.pa with
      | some a => if a < pa + len ∧ pa < a + 32 then (x.1, { x.2 with pa := none }) else x
      | none => x) }

/-- The record of a quoin that is reached by a name at a physical address (R290, R292). One without places whose words in
memory are all zero is a free quoin whose counters start again. -/
def State.meetQuoin (s : State) (key ctx pa : Nat) (va : Word) : State :=
  let q := s.quoin key
  let known := s.quoins.any (fun x => decide (x.1 = key))
  let names := if q.names.contains (ctx, va) then q.names else q.names ++ [(ctx, va)]
  if q.places = [] ∧ !q.stale ∧ !q.owed ∧ (!known || decide (s.peek pa 32 = 0)) then
    s.setQuoin key { Quoin.fresh with names := names, pa := some pa }
  else s.setQuoin key { q with names := names, pa := some pa }

/-! ## The table queue (R298) -/

def Die.usedPlaces (d : Die) : Nat := (d.places.filter (fun x => decide (x.2.st ≠ .free))).length

/-- An entry that is free is reserved for the head of the table queue, whose wake fires. -/
def State.serveTableOnce (s : State) (d : Nat) : State :=
  let k := s.die d
  match k.tableQ with
  | [] => s
  | x :: rest =>
    if k.usedPlaces + k.tableRes.length < placeCount then
      let t := s.thr x.1
      let h : TableHold := { uid := x.1, quoin := x.2, opened := !t.opensLater (.tableEntry d),
                             closes := s.now (coreDie t.core) + holdWindow }
      (s.setDie d { k with tableQ := rest, tableRes := k.tableRes ++ [h] }).fireOf x.1 (.tableEntry d)
    else s

/-- The free entries are reserved for the table queue, in its order (R298). -/
def State.serveTable (s : State) (d : Nat) : State := (s.die d).tableQ.foldl (fun s _ => s.serveTableOnce d) s

/-- A thread leaves every table queue, and its reservations pass on (R298, R359). -/
def State.leaveTables (s : State) (u : Nat) : State :=
  [0, 1, 2, 3].foldl (fun s d =>
    let k := s.die d
    let s := s.setDie d { k with tableQ := k.tableQ.filter (fun x => decide (x.1 ≠ u)),
                                 tableRes := k.tableRes.filter (fun x => decide (x.uid ≠ u)) }
    if k.tableRes.any (fun x => decide (x.uid = u)) then s.serveTable d else s) s

/-- An entry becomes free: its generation advances, from 65,535 to 1 (R293). -/
def State.freePlace (s : State) (d e : Nat) : State :=
  let p := s.place d e
  (s.setPlace d e { Place.fresh with gen := p.gen % 65535 + 1 }).serveTable d

/-! ## Grants (R297) -/

/-- Dropped entries at the head are freed and counted. -/
def State.skipDropped (s : State) (d : Nat) : List Nat → Nat → State × List Nat × Nat
  | [], n => (s, [], n)
  | e :: l, n =>
    if (s.place d e).st = .dropped then State.skipDropped (s.freePlace d e) d l (n + 1) else (s, e :: l, n)

/-- The walk of a release from the place after the released one: the first waiting place is granted and its owner's
wake fires, or the quoin is left with count 0. -/
def State.grantNext (s : State) (key : Nat) : State :=
  let q := s.quoin key
  let (s, l, n) := s.skipDropped q.die q.places 0
  let q := { q with places := l, skips := (q.skips + n) % 2 ^ 64 }
  match l with
  | [] => s.setQuoin key { q with die := 0 }
  | e :: _ =>
    let p := s.place q.die e
    let s := s.setQuoin key { q with grants := (q.grants + 1) % 2 ^ 64 }
    let s := s.setPlace q.die e { p with st := .granted }
    match p.owner with
    | some u => s.fireOf u (.grant q.die e)
    | none => s

/-- The release of a granted place (R309). -/
def State.releasePlace (s : State) (d e : Nat) : State :=
  let key := (s.place d e).key
  let q := s.quoin key
  let s := s.setQuoin key { q with places := q.places.filter (fun x => decide (x ≠ e)) }
  ((s.freePlace d e).grantNext key).rewriteQuoin key

/-- A waiting place is dropped: it stays linked, with no owner (R308). -/
def State.dropPlace (s : State) (d e : Nat) : State :=
  let p := s.place d e
  (s.setPlace d e { p with st := .dropped, owner := none }).rewriteQuoin p.key

/-- The places that a thread owns: die and entry. -/
def State.placesOf (s : State) (u : Nat) : List (Nat × Nat) :=
  [0, 1, 2, 3].flatMap (fun d => ((s.die d).places.filter (fun x => decide (x.2.owner = some u))).map (fun x => (d, x.1)))

/-- Places of a thread that ends: the waiting ones are dropped; each granted one counts an exit-with-grant event and
is released once the owner's release step is established (R300). -/
def State.disownPlaces (s : State) (u : Nat) : State :=
  (s.placesOf u).foldl (fun s x =>
    match (s.place x.1 x.2).st with
    | .waiting => s.dropPlace x.1 x.2
    | .granted => s.count (s.thr u).core (s.ctxOf u) 0x6002 1
    | _ => s) s

/-- A handle (R294). -/
def handleOf (gen d e va : Nat) : Word :=
  BitVec.ofNat 64 (gen * 2 ^ 48 + d * 2 ^ 46 + 2 ^ 45 + e * 2 ^ 32 + va / 32 % 2 ^ 32)

/-- What checking a handle finds (R295). -/
inductive Checked where
  | fail (c : OCode)
  | ok (d e : Nat)
  deriving DecidableEq, Repr

/-- The checks of R295 in their order; `own` asks the last two. -/
def State.checkHandle (s : State) (h : Word) (own : Bool) : Checked :=
  let n := h.toNat
  let d := n / 2 ^ 46 % 4
  let e := n / 2 ^ 32 % 8192
  let p := s.place d e
  if n / 2 ^ 45 % 2 = 0 ∨ n / 2 ^ 48 = 0 then .fail .abandoned
  else if p.st = .free ∨ p.gen ≠ n / 2 ^ 48 then .fail .stale
  else if own ∧ p.quoin % 2 ^ 32 ≠ n % 2 ^ 32 then .fail .abandoned
  else if own ∧ p.owner ≠ some s.cur then .fail .abandoned
  else .ok d e

end Sys2Proof.Machine
end

