-- ==== Sys2Proof/Machine/Access.lean ====
section
/-! DEFINITION. An access of a thread to memory (R59, R85, R116, R122, R134, R271 to R280): translation, claims,
requests to homes, the side log, reads and writes of the copy that serves it; release and acquire steps (R132); the
race detector (R325 to R328). -/

namespace Sys2Proof.Machine

open Sys2Proof

/-! ## Faults (R275, R276) -/

/-- The page of a VA: its bits 54 to 16. -/
def pageOf (va : Nat) : Nat := va % 2 ^ 55 / 65536

def State.faultOpen (s : State) (ctx page : Nat) : Bool :=
  s.faults.any (fun f => decide (f.ctx = ctx ∧ f.page = page))

/-- Opens a fault request for a page, or joins the open one (R276). `kind` is the access kind of R369. The page is 64 KiB
at whatever level the walk stops (log 26). -/
def State.openFault (s : State) (ctx va kind core : Nat) : State :=
  if s.faultOpen ctx (pageOf va) then s
  else
    let q := (s.ctx ctx).fseq
    let (level, malformed) := match s.walk ctx va with
      | .absent lv m => (lv, m)
      | .leaf lv .. => (lv, false)
    let f : FaultReq := {
      ctx := ctx, page := pageOf va, va := BitVec.ofNat 64 va, level := level, malformed := malformed, kind := kind,
      seq := q, core := core, written := false, reports := [] }
    State.modCtx { s with faults := s.faults ++ [f] } ctx (fun x => { x with fseq := x.fseq + 1 })

/-! ## What an access is -/

/-- The kinds of access of a thread. -/
inductive AKind where
  | load                  -- a plain load
  | acq                   -- a load that the race detector does not check: `plda`, and the reads of other entries
  | store                 -- a plain store, which may enter the side log (R277)
  | storeRel              -- the store of `pstr`: never in the side log (R138)
  | entry                 -- a store to the identifier table, which does not enter the side log (R259, R260)
  | amo                   -- R140
  | red (k : Nat)         -- R141
  | vload                 -- R208
  | vstore                -- R208
  | semLoad               -- the load of a semaphore word (R159)
  | cbit                  -- the load of a bitmap word (R262)
  deriving DecidableEq, Repr

def AKind.writes : AKind → Bool
  | .load | .acq | .vload | .semLoad | .cbit => false
  | _ => true

/-- Whether the page needs R, W (R140, R141, R274). -/
def AKind.needsR : AKind → Bool
  | .load | .acq | .vload | .semLoad | .cbit | .amo => true
  | _ => false

def AKind.need : AKind → Need
  | .load | .acq | .vload | .semLoad | .cbit => .share
  | .red k => .upd k
  | _ => .excl

/-- Whether an untracked page gives DENIED (R140, R141, R158). -/
def AKind.tracked : AKind → Bool
  | .amo | .red _ | .semLoad | .cbit => true
  | _ => false

/-- Whether the race detector checks the access (R327). -/
def AKind.checked : AKind → Bool
  | .load | .store | .vload | .vstore | .entry => true
  | _ => false

/-- Where an access that may be performed is performed. -/
inductive Spot where
  | lm (byte : Nat)            -- a local memory
  | line (line off : Nat)      -- a tracked copy in the L1
  | raw (line off : Nat)       -- an untracked copy in the L1
  | copy (line off : Nat)      -- the claim copy of a line homed on another die
  | log                        -- the side log
  | fwd (v : Nat)              -- bytes forwarded from the side log
  deriving DecidableEq, Repr

/-- What an attempt finds. -/
inductive Res where
  | ok (s : State) (p : Spot)
  | stop (s : State) (c : OCode) (w : WakeCond)
  | denied (s : State)
  | trap (s : State) (c : TrapClass) (va extra : Word)

/-! ## Claims and requests -/

/-- A claim is taken for the thread's operation at `ea`, or kept if it has one; NRX where none is free (R85, R87). -/
def State.claim (s : State) (ea : Word) (need : Need) (write : Bool) (line : Nat) (stage : CStage) (remote : Bool)
    (home : Nat) : State × Bool :=
  let t := s.me
  let c := t.core
  let k := s.core c
  let x : Claim := { uid := s.cur, pc := t.pc, word := s.ir, ea := ea, need := need, write := write, line := line,
                     stage := stage, opened := false, closes := 0, remote := remote, copy := none, tag := 0, home := home }
  let op : Waiter := { uid := s.cur, pc := t.pc, word := s.ir, ea := ea }
  match k.findClaim s.cur t.pc s.ir ea with
  | some _ =>
    (s.setCore c { k with claims := k.claims.map (fun y => if y.sameOp s.cur t.pc s.ir ea then x else y) }, true)
  | none =>
    if k.reserved.any (fun r => decide (r.op = op)) then
      (s.setCore c { k with claims := k.claims ++ [x], reserved := k.reserved.filter (fun r => decide (r.op ≠ op)) },
        true)
    else if k.claims.length + k.reserved.length < 32 then (s.setCore c { k with claims := k.claims ++ [x] }, true)
    else if k.budget.contains op then (s, false)
    else (s.setCore c { k with budget := k.budget ++ [op] }, false)

/-- NR under a claim with the wake `w`, or NRX (R85, R87). -/
def State.stopOn (r : State × Bool) (ea : Word) (w : WakeCond) (f : State → State) : Res :=
  if r.2 then .stop (f r.1) .nr w else .stop r.1 .nrx (.budget r.1.me.pc ea)

/-- NR under a claim, whose wake is that of the claim, or NRX. -/
def State.stopClaim (r : State × Bool) (ea : Word) (f : State → State) : Res :=
  State.stopOn r ea (.claim r.1.me.pc ea) f

/-- The request that brings a tracked line in the state a claim needs (R116). -/
def requestKind (need : Need) (uid : Nat) : MsgKind :=
  match need with
  | .excl => .exclReq uid
  | .upd k => .updReq uid k
  | _ => .readReq uid

/-- An update copy that the next access cannot use. -/
def Core.wrongU (k : Core) (line : Nat) (need : Need) : Option L1Line :=
  match k.line line with
  | some x => (match x.st with | .u j => if servesNeed need (.u j) then none else some x | _ => none)
  | none => none

/-- Gives up an update copy that the next access cannot use (R116). -/
def State.dropU (s : State) (c line : Nat) (need : Need) : State :=
  match (s.core c).wrongU line need with
  | some x => (s.modCore c (fun q => q.delLine line)).giveUpLine c x
  | none => s

/-- Sends the request of a claim for its line. -/
def State.request (s : State) (c uid line : Nat) (need : Need) (remote : Bool) (home : Nat) : State :=
  if remote then
    s.send { src := c, dst := homeAgent home, line := line, kind := .remoteReq uid (decide (need ≠ .share)) }
  else if need = .fetch then s.refetch c (fun x => decide (x.uid = uid ∧ x.line = line ∧ x.stage = .waiting))
  else
    let s := s.dropU c line need
    s.send { src := c, dst := homeAgent home, line := line, kind := requestKind need uid }

/-- Whether a claim of the core holds a push entry for a line: the push that it obliges would keep others off the line
(R86, R131). -/
def Core.pushHeld (k : Core) (line : Nat) : Bool :=
  k.claims.any (fun c => decide (c.line = line ∧ c.need = .pushEntry ∧ c.stage = .ready))

/-- Whether a push to a line would keep a claim of the core off it (R86, R131). -/
def Core.lineClaimed (k : Core) (line : Nat) : Bool := k.claims.any (fun c => decide (c.line = line) && c.onLine)

/-- Whether a claim that needs a line must wait for the end of another: no way of the set is free for it, its request
would give up an update copy that another claim pins, or a push to the line is due (R85, R86, R90, R111). -/
def Core.blocks (k : Core) (line : Nat) (need : Need) (remote : Bool) : Bool :=
  k.pushHeld line || (!remote && (decide (8 ≤ k.busyWays line) || ((k.wrongU line need).isSome && k.pinned line)))

/-! ## Translation (R271, R272) -/

def TlbEntry.hits (e : TlbEntry) (asid va : Nat) : Bool :=
  decide (e.asid = asid ∧ e.vpn = va % 2 ^ 55 / 2 ^ levelBits e.level)

def State.tlbHit (s : State) (c asid va : Nat) : Option TlbEntry := (s.core c).tlb.find? (fun e => e.hits asid va)

inductive Tr where
  | held (s : State) (e : TlbEntry)
  | absent (s : State)
  | wait (r : Res)

/-- A miss joins the forme's queue (R272). -/
def State.missQueue (s : State) (c uid asid : Nat) (va : Word) (write : Bool) (kind : Nat) : State :=
  s.modForme (coreForme c) (fun f => { f with
    misses := f.misses ++ [{ core := c, uid := uid, asid := asid, va := va, write := write, kind := kind }] })

/-- Ends the claim of the operation in execution at `ea`. -/
def State.endOp (s : State) (ea : Word) : State :=
  let t := s.me
  let u := s.cur
  let w := s.ir
  s.endClaims t.core (fun x => x.sameOp u t.pc w ea)

/-- A page is not present to an access of a core: neither TLB holds it, and its walk finds no leaf (R266, R272). -/
def State.notThere (s : State) (c ctx va : Nat) : Bool :=
  (s.tlbHit c ctx va).isNone && !(s.forme (coreForme c)).tlb.any (fun e => e.hits ctx va) &&
    (match s.walk ctx va with | .absent .. => true | _ => false)

/-- The thread's entries of its core's side log for a page. -/
def State.myLog (s : State) (page : Nat) : List SideEntry :=
  (s.core s.myCore).side.filter (fun e => decide (e.uid = s.cur ∧ pageOf e.va.toNat = page))

/-- The translation of an access of the thread in execution. A page that is not present gives the outcome of R275 in the
attempt itself (log 49); while the page is present, the thread's entries for it hold the access back (R277). -/
def State.translate (s : State) (ea : Word) (need : Need) (write : Bool) : Tr :=
  let t := s.me
  let c := t.core
  let ctx := s.myCtx
  let page := pageOf ea.toNat
  let gone := s.notThere c ctx ea.toNat
  if s.myLog page ≠ [] ∧ !gone then
    .wait (State.stopOn (s.claim ea need write 0 .blocked false 0) ea (.drain page) id)
  else
    let walk (s : State) : Tr :=
      .wait (State.stopClaim (s.claim ea need write 0 .walking false 0) ea
        (fun s => s.missQueue c s.cur ctx ea write (if write then 2 else 1)))
    match s.tlbHit c ctx ea.toNat with
    | some e => .held s e
    | none =>
      match (s.core c).findClaim s.cur t.pc s.ir ea with
      | some x =>
        if x.stage = .walking then .wait (.stop s .nr (.claim t.pc ea))
        else if gone then .absent (s.endOp ea)
        else walk s
      | none => if gone then .absent (s.countMe 0x5001) else walk (s.countMe 0x5001)

/-! ## The side log (R277, R278) -/

/-- The byte that the youngest entry covering an address holds. -/
def logByte (l : List SideEntry) (a : Nat) : Option Nat :=
  l.foldl (fun r e => if e.va.toNat ≤ a ∧ a < e.va.toNat + e.width then
    some (e.data.toNat / 2 ^ (8 * (a - e.va.toNat)) % 256) else r) none

/-- The bytes of a load that a mask names, where the log holds them all. -/
def logBytes (l : List SideEntry) (a mask : Nat) : Nat → Option Nat
  | 0 => some 0
  | n + 1 =>
    match logByte l a, logBytes l (a + 1) (mask / 2) n with
    | some b, some v => some (b + 256 * v)
    | none, some v => if mask % 2 = 0 then some (256 * v) else none
    | _, none => none

/-! ## The race detector (R325 to R328) -/

/-- Who makes a checked access. -/
structure Agent where
  uid : Nat
  number : Nat
  interval : Nat
  epoch : Nat
  core : Nat
  unit : Nat           -- 0 thread, 1 press, 2 galley
  quad : Nat           -- the quadrant of its die where the unit stands (R12, R14)
  pc : Word
  deriving DecidableEq, Repr

inductive RaceRes where
  | ok (s : State)
  | conflict (s : State)   -- to be trapped
  | absent (s : State) (page : Nat)
  deriving DecidableEq, Repr

/-- The VA of the shadow word of a sector (R325). -/
def State.shadowVa (s : State) (ctx va : Nat) : Nat := ((s.ctx ctx).shadow.toNat + 8 * (va % 2 ^ 55 / 32)) % 2 ^ 64

/-- The shadow word that a writer leaves (R325). -/
def shadowWord (a : Agent) (tracked : Bool) : Nat :=
  1 + 2 * (if tracked then 0 else 3) + 16 * corePos a.core + 128 * (coreForme a.core % 32) + 4096 * coreDie a.core
    + 2 ^ 14 * (a.epoch % 4096) + 2 ^ 26 * (a.interval % 2 ^ 20) + 2 ^ 46 * (a.number % 2 ^ 18)

/-- The check of R327 on a shadow word. -/
def raceOk (t : Thread) (a : Agent) (w : Nat) : Bool :=
  let number := w / 2 ^ 46
  let interval := w / 2 ^ 26 % 2 ^ 20
  let epoch := w / 2 ^ 14 % 4096
  let core := 256 * (w / 4096 % 4) + 8 * (w / 128 % 32) + w / 16 % 8
  let de := (a.epoch + 4096 - epoch) % 4096
  let need := max (w / 2 % 8) (leastScope core a.core)
  decide (w % 2 = 0) || decide (number = a.number) || decide (1 ≤ de ∧ de ≤ 2047) ||
    t.acq.any (fun x => decide (x.agent = number) &&
      decide (1 ≤ (x.interval + 2 ^ 20 - interval) % 2 ^ 20 ∧ (x.interval + 2 ^ 20 - interval) % 2 ^ 20 ≤ 2 ^ 19) &&
      decide (need ≤ x.scope))

/-- Appends a race record to the context's log (R328): `at` is the address of the access; where its slot has no page the
record is dropped (log 10). -/
def State.raceLog (s : State) (ctx : Nat) (a : Agent) (at' w : Nat) (write : Bool) : State :=
  let x := s.ctx ctx
  let slot := (x.raceLog.toNat + 64 * (x.rseq - 1)) % 2 ^ 64
  let word4 := a.number % 2 ^ 18 * 2 ^ 46 + (if write then 2 ^ 45 else 0)
    + (if (s.thr a.uid).overflow then 2 ^ 44 else 0) + a.unit * 2 ^ 42
  let rec' := s.gtick % 2 ^ 64 + 2 ^ 64 * (at' % 2 ^ 64) + 2 ^ 128 * a.pc.toNat + 2 ^ 192 * w + 2 ^ 256 * word4
    + 2 ^ 320 * (x.rseq % 2 ^ 64)
  match s.reach ctx slot true with
  | some (s, pa) => (s.plantWord pa 64 rec').modCtx ctx (fun y => { y with rseq := y.rseq + 1 })
  | none => s.countDie (coreDie a.core) 0x7002 0 1

/-- The shadow words of sectors: where each stands and what it holds; the first page that is not present otherwise. -/
def State.shadowWords (s : State) (ctx : Nat) (write : Bool) : List Nat → (State × List (Nat × Nat)) ⊕ Nat
  | [] => .inl (s, [])
  | va :: l =>
    match s.reach ctx (s.shadowVa ctx va) write with
    | none => .inr (s.shadowVa ctx va)
    | some (s, pa) =>
      match State.shadowWords s ctx write l with
      | .inl (s, ws) => .inl (s, (pa, s.plantedWord pa 8) :: ws)
      | .inr v => .inr v

/-- Checks the sectors of an access at `at'` (R327): a conflict is logged, and is a trap of the thread in trap mode, before
any shadow word is written (R328). -/
def State.raceSectors (s : State) (ctx : Nat) (a : Agent) (at' : Nat) (write tracked : Bool) (vas : List Nat) : RaceRes :=
  match s.shadowWords ctx write vas with
  | .inr sv => .absent (s.openFault ctx sv (if write then 2 else 1) a.core) (pageOf sv)
  | .inl (s, ws) =>
    let bad := ws.filter (fun x => !raceOk (s.thr a.uid) a x.2)
    let s := bad.foldl (fun s x => s.raceLog ctx a at' x.2 write) s
    if bad ≠ [] ∧ (s.ctx ctx).race = 2 ∧ a.unit = 0 then .conflict s
    else if write then
      .ok ((ws.filter (fun x => raceOk (s.thr a.uid) a x.2)).foldl
        (fun s x => s.plantWord x.1 8 (shadowWord a tracked)) s)
    else if a.unit = 0 then .ok (s.modThr a.uid (fun t => { t with seen := ws.head?.map (·.2) }))
    else .ok s

/-- The sectors of `n` bytes from an address. -/
def sectorsOf (va n : Nat) : List Nat := (List.range ((va + n - 1) / 32 - va / 32 + 1)).map (fun i => (va / 32 + i) * 32)

/-- The sectors of a line that a byte mask touches. -/
def sectorsIn (va : Nat) (mask : BitVec 128) : List Nat :=
  ((List.range 4).filter (fun i => decide (mask.toNat / 2 ^ (32 * i) % 2 ^ 32 ≠ 0))).map (fun i => va / 128 * 128 + 32 * i)

/-- The check of an access of these sectors, where the context has the detector on. -/
def State.raceCheck (s : State) (ctx : Nat) (a : Agent) (at' : Nat) (vas : List Nat) (write tracked : Bool) : RaceRes :=
  if (s.ctx ctx).race = 0 then .ok s else s.raceSectors ctx a at' write tracked vas

/-- Whether a VA lies in a context's shadow pages, which programs cannot write (R325). -/
def State.inShadow (s : State) (ctx : Nat) (va : Nat) : Bool :=
  decide ((s.ctx ctx).race ≠ 0 ∧ (va + 2 ^ 64 - (s.ctx ctx).shadow.toNat) % 2 ^ 64 < 2 ^ 53)

/-- The thread in execution as an agent of the detector. -/
def State.meAgent (s : State) : Agent :=
  let t := s.me
  { uid := s.cur, number := t.agent, interval := t.interval, epoch := t.epoch, core := t.core, unit := 0,
    quad := formeQuad (coreForme t.core), pc := t.pc }

/-- A fence of kind release or full: the thread's next write carries the release (R315, R326). -/
def State.fenceRelease (s : State) : State :=
  let on := decide ((s.ctx s.myCtx).race ≠ 0)
  s.modMe (fun t => { t.released with releasing := on })

/-- The shadow of the sector that a releasing write covers takes the interval after the release (R326). -/
def State.shadowRelease (s : State) (ea : Word) : State :=
  let ctx := s.myCtx
  if (s.ctx ctx).race = 0 ∨ !inPaged ea.toNat then s
  else
    let tracked := match s.walk ctx ea.toNat with | .leaf _ p .. => pteT p | .absent .. => true
    match s.reach ctx (s.shadowVa ctx ea.toNat) true with
    | some (s, pa) => s.plantWord pa 8 (shadowWord s.meAgent tracked)
    | none => s

/-- An acquired-from entry is taken in (R326). -/
def Thread.acquireFrom (t : Thread) (agent interval scope : Nat) : Thread × Bool :=
  match t.acq.find? (fun x => decide (x.agent = agent)) with
  | some x =>
    let d := (interval + 2 ^ 20 - x.interval) % 2 ^ 20
    if 1 ≤ d ∧ d ≤ 2 ^ 19 then
      ({ t with acq := t.acq.filter (fun y => decide (y.agent ≠ agent)) ++
          [{ agent := agent, interval := interval, scope := scope }] }, false)
    else (t, false)
  | none =>
    if t.acq.length < 8 then
      ({ t with acq := t.acq ++ [{ agent := agent, interval := interval, scope := scope }] }, false)
    else
      ({ t with acq := t.acq.drop 1 ++ [{ agent := agent, interval := interval, scope := scope }], overflow := true },
        true)

/-- The thread takes in the agent of a shadow word that its acquire found (R326). -/
def State.shadowTake (s : State) (w scope : Nat) : State :=
  if w % 2 = 1 ∧ w / 2 ^ 46 ≠ s.me.agent then
    let (t, lost) := s.me.acquireFrom (w / 2 ^ 46) (w / 2 ^ 26 % 2 ^ 20) scope
    let s := s.setThr s.cur t
    if lost then s.countMe 0x7001 else s
  else s

/-- A fence takes in the writer that the last checked load found: with it the load is an acquire (R315, R326). -/
def State.fenceTake (s : State) (scope : Nat) : State :=
  match s.me.seen with
  | some w => if (s.ctx s.myCtx).race = 0 then s else s.shadowTake w scope
  | none => s

/-- The effect of `fnc full, die` on a thread of a core that passes a shootdown point: it takes in the writer of its last
load, and its next write carries a release (R284, R315, R326). -/
def State.shootFence (s : State) (u : Nat) : State :=
  { (State.fenceRelease ({ s with cur := u }.fenceTake 2)) with cur := s.cur }

/-- The thread takes in the agent that last wrote the sector its acquire read (R326). -/
def State.shadowAcquire (s : State) (ea : Word) (scope : Nat) : State :=
  let ctx := s.myCtx
  if (s.ctx ctx).race = 0 ∨ !inPaged ea.toNat then s
  else
    match s.reach ctx (s.shadowVa ctx ea.toNat) false with
    | some (s, pa) => s.shadowTake (s.plantedWord pa 8) scope
    | none => s

/-- The thread takes in the agent of the press's or galley's work that wrote the sector, one interval on (R326). -/
def State.shadowAcquireWork (s : State) (ea : Word) (scope : Nat) : State :=
  let ctx := s.myCtx
  if (s.ctx ctx).race = 0 ∨ !inPaged ea.toNat then s
  else
    match s.reach ctx (s.shadowVa ctx ea.toNat) false with
    | some (s, pa) =>
      let w := s.plantedWord pa 8
      s.shadowTake (w - w / 2 ^ 26 % 2 ^ 20 * 2 ^ 26 + (w / 2 ^ 26 + 1) % 2 ^ 20 * 2 ^ 26) scope
    | none => s

/-! ## The attempt -/

/-- The home core of a line of a leaf (R268). -/
def TlbEntry.home (e : TlbEntry) (line : Nat) : Nat := (e.homes[line % e.homes.length]?).getD 0

/-- Whether all bytes of a mask are valid in an untracked copy. -/
def L1Line.holds (x : L1Line) (mask : BitVec 128) : Bool := decide (x.st = .raw ∧ x.valid &&& mask = mask)

/-- R89: whether the model is told to answer NR to an attempt that would hit. -/
def State.takeOracle (s : State) : State × Bool :=
  match s.oracle with
  | [] => (s, false)
  | x :: r => ({ s with oracle := r }, decide (x ≠ 0))

/-- The poisoned line that a read consumes (R61, R407). -/
def State.poisonOf (s : State) (line : Nat) : Bool := s.poison.contains line

/-- A write of a core on its way to a line's home (R131). -/
def State.pendingWrite (s : State) (c line : Nat) : Bool :=
  (s.core c).pushes.any (fun p => decide (p.1 = line)) ||
    s.net.any (fun m => decide (m.src = c ∧ m.line = line) &&
      (match m.kind with | .claimReturn _ (some _) => true | _ => false))

/-- The race detector passes an access that could be performed, or stops it (R327, R328). The first write after an `fnc
rel` or `fnc full` is not checked (R315). -/
def State.racePass (s : State) (k : AKind) (ea : Word) (mask : BitVec 128) (tracked : Bool) (p : Spot) : Res :=
  if k.checked && !(k.writes && s.me.releasing) then
    match s.raceCheck s.myCtx s.meAgent ea.toNat (sectorsIn ea.toNat mask) k.writes tracked with
    | .ok s => .ok s p
    | .conflict s => .trap s .race ea 0
    | .absent s page => .stop s .faulted (.fault s.myCtx page (if k.writes then none else some ea))
  else .ok s p

/-- A hit: the access may be performed at the spot, unless the model chooses NR (R89), its line is poisoned, or the
race detector stops it. -/
def State.ready (s : State) (k : AKind) (ea : Word) (mask : BitVec 128) (e : TlbEntry) (pa : Nat) (p : Spot) : Res :=
  let t := s.me
  let line := pa / 128
  let (s, spare) := if ((s.core t.core).findClaim s.cur t.pc s.ir ea).isSome then (s, false) else s.takeOracle
  let self (s : State) : Res := State.stopClaim (s.claim ea k.need k.writes line .waiting false (e.home line)) ea
    (fun s => s.send { src := t.core, dst := t.core, line := line, kind := .own s.cur })
  if spare then self s
  else if (k.needsR) && s.poisonOf line then .trap s .machineCheck ea (BitVec.ofNat 64 (128 * line))
  else s.racePass k ea mask (pteT e.pte.toNat) p

/-- What an access to a page that is not present gives (R275, R277). -/
def State.onAbsent (s : State) (k : AKind) (ea : Word) : Res :=
  let c := s.myCore
  let page := pageOf ea.toNat
  let s := s.openFault s.myCtx ea.toNat (if k.writes then 2 else 1) c
  match k with
  | .store => if (s.core c).side.length < 32 then .ok s .log else .stop s .faulted (.sideLog c)
  | _ => .stop s .faulted (.fault s.myCtx page (if k.writes then none else some ea))

/-- An access under a held translation (R274, R116, R114, R122). A page of device registers traps ACCESS before any policy
answers DENIED (R267, log 14). -/
def State.onLeaf (s : State) (k : AKind) (ea : Word) (mask : BitVec 128) (e : TlbEntry) : Res :=
  let t := s.me
  let c := t.core
  let p := e.pte.toNat
  let pa := leafPa e.level p ea.toNat
  let line := pa / 128
  let off := pa % 128
  let home := e.home line
  let claim := (s.core c).findClaim s.cur t.pc s.ir ea
  let at' (st : CStage) : Bool := match claim with | some x => decide (x.stage = st) | none => false
  let held (s : State) : Res := .stop s .nr (.claim t.pc ea)
  -- the line is asked for under a claim, which waits where a way or an update copy is not free for it
  let askOn (s : State) (need : Need) (remote : Bool) (w : WakeCond) : Res :=
    let blocked := (s.core c).blocks line need remote
    State.stopOn ((s.countMe 0x2001).claim ea need k.writes line (if blocked then .blocked else .waiting) remote home) ea w
      (fun s => if blocked then s else s.request c s.cur line need remote home)
  let ask (s : State) (need : Need) (remote : Bool) : Res := askOn s need remote (.claim t.pc ea)
  -- the first NR for a full set has the wake of the set (R111)
  let full (s : State) (need : Need) : Res :=
    if claim.isNone ∧ ((s.core c).line line).isNone ∧ 8 ≤ (s.core c).busyWays line then
      askOn s need false (.setFree c (line % 64))
    else ask s need false
  -- an NR under a claim that looks again when the wake fires (R85)
  let later (s : State) (need : Need) (w : WakeCond) : Res :=
    State.stopOn (s.claim ea need k.writes line .blocked false home) ea w id
  if paClass pa = .device then .trap s .access ea 0
  else if k.tracked && !pteT p then .denied (s.endOp ea)
  else if (k.needsR && !pteR p) || ((k.writes || decide (k = .semLoad)) && !pteW p) then .trap s .access ea 0
  else if k.writes && pteMG p then later s k.need (.thaw s.myCtx (pageOf ea.toNat))
  else if k.writes && !pteD p then
    if at' .walking then held s
    else State.stopClaim (s.claim ea k.need true line .walking false home) ea
      (fun s => s.missQueue c s.cur s.myCtx ea true 2)
  else if s.pendingWrite c line then later s k.need (.linePerformed line)
  else if pteT p then
    if coreDie home = coreDie c then
      match (s.core c).line line with
      | some x =>
        if servesNeed k.need x.st then s.ready k ea mask e pa (.line line off)
        else if at' .waiting || at' .blocked then held s
        else full s k.need
      | none => if at' .waiting || at' .blocked then held s else full s k.need
    else
      match claim with
      | some x =>
        if x.copy.isSome then s.ready k ea mask e pa (.copy line off)
        else if x.stage = .waiting ∨ x.stage = .blocked then held s
        else ask s (if k.writes then .excl else .share) true
      | none => ask s (if k.writes then .excl else .share) true
  else if k.writes then
    if ((s.core c).line line).isSome || decide ((s.core c).busyWays line < 8) then s.ready k ea mask e pa (.raw line off)
    else if at' .blocked then held s
    else later s .fetch (.setFree c (line % 64))
  else
    let got : Bool := match (s.core c).line line with | some x => x.holds mask | none => false
    let brought : Bool := match claim with | some x => x.copy.isSome | none => false
    if got || brought then s.ready k ea mask e pa (.raw line off)
    else if at' .waiting || at' .blocked then held s
    else full s .fetch

/-- An access of the thread in execution of `n` bytes at `ea`, up to the right to perform it. `align` is the alignment
that paged memory asks, `all` whether every class asks it, `mask` the bytes of the access. -/
def State.attempt (s : State) (k : AKind) (ea : Word) (n align : Nat) (all : Bool) (bytes : Nat) : Res :=
  if ea.toNat % align ≠ 0 ∧ (all ∨ inPaged ea.toNat) then .trap s .access ea 0
  else
    match s.span s.cur ea n k.writes with
    | .access => .trap s .access ea 0
    | .window => .trap s .window ea 0
    | .lm b => .ok s (.lm b)
    | .paged =>
      let page := pageOf ea.toNat
      let mine := s.myLog page
      let logged := decide (mine ≠ [])
      let fwd := if k = .load ∨ k = .acq then logBytes mine ea.toNat bytes n else none
      if k.writes && s.inShadow s.myCtx ea.toNat then .trap s .access ea 0
      else if logged && decide (k = .store) then s.onAbsent k ea
      else if logged && fwd.isSome then
        s.racePass k ea (BitVec.ofNat 128 (bytes * 2 ^ (ea.toNat % 128))) true (.fwd (fwd.getD 0))
      else
        match s.translate ea k.need k.writes with
        | .absent s => s.onAbsent k ea
        | .wait r => r
        | .held s e => s.onLeaf k ea (BitVec.ofNat 128 (bytes * 2 ^ (ea.toNat % 128))) e

/-- A byte mask of all `n` bytes. -/
def allBytes (n : Nat) : Nat := 2 ^ n - 1

/-! ## Performing the access -/

/-- The claim of the operation in execution. -/
def State.opClaim (s : State) (ea : Word) : Option Claim := (s.core s.myCore).findClaim s.cur s.me.pc s.ir ea

/-- The bytes of an untracked copy, with those of the claim's fetch where the copy has none (R122, R132). -/
def mergeRaw (x : Option L1Line) (c : Option (BitVec 1024)) (off : Nat) : Nat → Nat
  | 0 => 0
  | n + 1 =>
    let b := match x with
      | some l => if l.valid.getLsbD off then lineGet l.data off 1 else lineGet (c.getD l.data) off 1
      | none => lineGet (c.getD 0) off 1
    b + 256 * mergeRaw x c (off + 1) n

/-- The value that an access reads at its spot. -/
def State.readAt (s : State) (p : Spot) (ea : Word) (n : Nat) : Nat :=
  let k := s.core s.myCore
  match p with
  | .lm b => mload s.lm b n
  | .line l off => match k.line l with | some x => lineGet x.data off n | none => 0
  | .raw l off => mergeRaw ((k.line l).filter (fun x => decide (x.st = .raw))) ((s.opClaim ea).bind Claim.copy) off n
  | .copy _ off => match s.opClaim ea with | some x => lineGet (x.copy.getD 0) off n | none => 0
  | .log => 0
  | .fwd v => v

/-- A read of a tracked copy: it becomes the most recently used, and a pushed copy loses its flag (R111, R116). -/
def State.touch (s : State) (p : Spot) : State :=
  match p with
  | .line l _ | .raw l _ =>
    match (s.core s.myCore).line l with
    | some x => s.modCore s.myCore (fun k => k.putLine (if x.st = .sp then { x with st := .s } else x))
    | none => s
  | _ => s

/-- The line of data with the bytes of a mask replaced. -/
def lineMask (d : BitVec 1024) (off : Nat) (v mask : Nat) : Nat → BitVec 1024
  | 0 => d
  | n + 1 =>
    let d := lineMask d off v mask n
    if mask.testBit n then lineSet d (off + n) 1 (v / 2 ^ (8 * n) % 256) else d

/-- A store of the core into an untracked line reaches the bytes that its claims on the line hold too (R316). -/
def State.patchCopies (s : State) (c line : Nat) (f : BitVec 1024 → BitVec 1024) : State :=
  s.modCore c (fun k => { k with claims := k.claims.map (fun y =>
    if y.line = line ∧ y.need = .fetch then { y with copy := y.copy.map f } else y) })

/-- The write of an access at its spot: the bytes of `mask` among `n`. -/
def State.putAt (s : State) (p : Spot) (ea : Word) (n v mask : Nat) (home : Nat) : State :=
  let c := s.myCore
  match p with
  | .lm b => { s with lm := mstoreMask s.lm b v mask n }
  | .line l off =>
    match (s.core c).line l with
    | some x => (s.modCore c (fun k => k.putLine { x with st := .m, data := lineMask x.data off v mask n })).wrote l
    | none => s
  | .raw l off =>
    -- older stores of the thread that cores it has left still hold go ahead of this one (R313)
    let s := (s.me.trail.foldl (fun s c => s.cleanLine c l) s).dropAlias c l true
    let x := ((s.core c).line l).getD { line := l, st := .raw, data := 0, valid := 0, dirty := 0, home := home }
    let m := BitVec.ofNat 128 (mask * 2 ^ off)
    let s := s.install c { x with data := lineMask x.data off v mask n, valid := x.valid ||| m, dirty := x.dirty ||| m }
    (s.patchCopies c l (fun d => lineMask d off v mask n)).wrote l
  | .copy l off =>
    match s.opClaim ea with
    | some x =>
      let d := lineMask (x.copy.getD 0) off v mask n
      let s := s.modCore c (fun k => { k with claims := k.claims.map (fun y =>
        if y.sameOp s.cur s.me.pc s.ir ea then { y with copy := none } else y) })
      s.send { src := c, dst := homeAgent x.home, line := l, kind := .claimReturn s.cur (some d) }
    | none => s
  | .log =>
    let q := s.wakeSeq
    let e : SideEntry := { uid := s.cur, ctx := s.myCtx, va := ea, width := n, data := BitVec.ofNat 64 v, seq := q,
                           pc := s.me.pc, sync := s.me.releasing }
    (State.modCore { s with wakeSeq := q + 1 } c (fun k => { k with side := k.side ++ [e] })).countMe 0x5002
  | .fwd _ => s

/-- The write of an access at its spot, noted at the quoins that it touches. -/
def State.storeAt (s : State) (p : Spot) (ea : Word) (n v mask : Nat) (home : Nat) : State :=
  let s := s.putAt p ea n v mask home
  match p with | .line l off | .copy l off | .raw l off => s.noteStore (128 * l + off) n | _ => s

/-- The release of an `fnc rel` or `fnc full` has been carried by a write (R315). -/
def State.endReleasing (s : State) : State := s.modMe (fun t => { t with releasing := false })

/-- The write of an access at its spot. The first write after an `fnc rel` or `fnc full` carries the release (R315): in paged
memory it leaves the interval after the release in the shadow of each of its sectors (R326). -/
def State.writeAt (s : State) (p : Spot) (ea : Word) (n v mask : Nat) (home : Nat) : State :=
  let s := s.storeAt p ea n v mask home
  match p with
  | .fwd _ => s
  | .lm _ | .log => s.endReleasing
  | _ =>
    let vas := sectorsIn ea.toNat (BitVec.ofNat 128 (mask * 2 ^ (ea.toNat % 128)))
    if s.me.releasing && !vas.isEmpty then (vas.foldl (fun s va => s.shadowRelease (BitVec.ofNat 64 va)) s).endReleasing else s

/-- The home core of the line at an address, for a new untracked copy. -/
def State.homeAt (s : State) (ea : Word) : Nat :=
  match s.tlbHit s.myCore s.myCtx ea.toNat with
  | some e => e.home (leafPa e.level e.pte.toNat ea.toNat / 128)
  | none => 0

/-- How many bytes of a misaligned access at this PC are performed, and what they read. -/
def Thread.bytesDone (t : Thread) : Nat × Nat :=
  match t.bytes with
  | some x => if x.pc = t.pc then (x.done, x.value) else (0, 0)
  | none => (0, 0)

/-- A misaligned access has performed its byte `i`: the thread stays at the instruction for the next one. -/
def State.byteMade (s : State) (i v : Nat) : State :=
  s.modMe (fun t => { t with bytes := some { pc := t.pc, done := i + 1, value := v } })

/-! ## Release and acquire steps (R132) -/

/-- The release step of the thread in execution: what it starts, and whether it is established. -/
def State.releaseStep (s : State) (scope : Nat) : State × Bool :=
  let s := if scope < 3 then s else s.me.places.foldl State.writeBackRaw s
  let ok := s.established s.cur scope
  (if ok ∧ 3 ≤ scope then s.modMe (fun t => { t with trail := [] }) else s, ok)

/-! ## The end of a thread -/

/-- A thread leaves its slot: `cycle` keeps the core cycles it held it (R78). -/
def State.leaveSlot (s : State) (u : Nat) : State :=
  s.modThr u (fun t => { t with
    slot := none, cycles := t.cycles + (if t.slot.isSome then s.now (coreDie t.core) - t.slotFrom else 0) })

/-- A park entry of a context has become free (R101). -/
def State.parkFreed (s : State) (ctx : Nat) : State := s.fire (fun w => decide (w = .park ctx))

/-- Whether a group has a live thread. -/
def State.anyLive (s : State) (g : Nat) : Bool :=
  s.threads.any (fun x => decide (x.2.gid = g ∧ x.2.st ≠ .exited))

/-- Messages held for a thread are discarded, one event each (R95). -/
def State.dropMail (s : State) (u : Nat) : State :=
  let t := s.thr u
  let n := ((s.core t.core).mail.filter (fun m => decide (m.dest = u))).length
  let s := s.modCore t.core (fun k => { k with mail := k.mail.filter (fun m => decide (m.dest ≠ u)) })
  if n = 0 then s else s.count t.core (s.ctxOf u) 0x1012 n

/-- The granted places of a thread. -/
def State.grantsOf (s : State) (u : Nat) : List (Nat × Nat) :=
  (s.placesOf u).filter (fun x => decide ((s.place x.1 x.2).st = .granted))

/-- The end of a thread that is ending is complete once the release step of its granted places is established: they are
released (R300), its messages are discarded, its slot or park entry frees, its signature enters the kernel's (R392), and a
RUNNING group whose last thread it was is ENDING (R355). -/
def State.finishEnd (s : State) (u : Nat) : State :=
  let t := s.thr u
  let ps := s.grantsOf u
  if ps ≠ [] ∧ !s.established u 2 then s
  else
    let ctx := s.ctxOf u
    let s := ps.foldl (fun s x => s.releasePlace x.1 x.2) s
    let s := ((s.dropMail u).leaveSlot u).modThr u (fun t => { t with st := .exited, ending := false })
    let s := s.modKer (s.grp t.gid).kid (fun k => { k with sig := k.sig ^^^ threadSig t t.thrid })
    let s := (s.parkFreed ctx).progress t.gid
    if s.anyLive t.gid then s
    else s.modGrp t.gid (fun g => if g.st = .running then { g with st := .ending } else g)

/-- A thread ends, by `thr.exit` or because the Lantern kernel ends it (R102, R300): its claims end, its wake is discarded,
its waiting places are dropped, and its end is complete at once or when its granted places can be released. -/
def State.endThread (s : State) (u : Nat) : State :=
  let s := (s.endAllClaims u).leaveTables u
  let s := s.modThr u (fun t => { t with st := .trapped, wake := none, wait := .none, runnable := false, prio := false,
                                         trap := none, late := [], ending := true })
  (s.disownPlaces u).finishEnd u

/-- The ends that have become complete. -/
def State.finishEnds (s : State) : State :=
  (s.threads.filter (fun x => x.2.ending)).foldl (fun s x => s.finishEnd x.1) s

/-- Wakes the threads whose release step has become established (R132). -/
def State.fireReleases (s : State) : State :=
  s.finishEnds.fireIf (fun u _ w => match w with
    | .release sc => s.established u sc
    | .fenced sc => s.established u sc && (s.core (s.thr u).core).side.isEmpty
    | _ => false)

/-- A core's untracked copy is dropped, or keeps its dirty bytes alone. -/
def L1Line.unclean (x : L1Line) : L1Line := if x.st = .raw then { x with valid := x.dirty } else x

/-- The bytes of an untracked line as a fetch of the core would find them now: the home's, with the core's own write-backs on
their way and its dirty bytes (R113, R122). -/
def State.rawNow (s : State) (c line : Nat) : BitVec 1024 :=
  let d := s.net.foldl (fun d m => match m.kind with
    | .rawWriteBack v k => if m.src = c ∧ m.line = line then lineMask d 0 v.toNat k.toNat 128 else d
    | _ => d) (s.homeLine line)
  match (s.core c).line line with
  | some x => lineMask d 0 x.data.toNat x.dirty.toNat 128
  | none => d

/-- The fetches that an acquire or an invalidation makes stale: those that have not come, of any thread of the core, are
made anew, and what the ready claims of the threads that `mine` names have brought is read again at once, so that their
next attempts still complete (R86, R132, R318). -/
def State.refetchFor (s : State) (c : Nat) (mine : Nat → Bool) (p : Claim → Bool) : State :=
  let s := s.refetch c (fun x => p x && decide (x.stage = .waiting))
  s.modCore c (fun k => { k with claims := k.claims.map (fun x =>
    if p x && mine x.uid && decide (x.stage = .ready ∧ x.need = .fetch) then { x with copy := x.copy.map (fun _ => s.rawNow c x.line) }
    else x) })

/-- The acquire step of the thread in execution at a scope: from `pkg` on, the clean untracked bytes of its core become not
valid, and no fetch made before it serves its later accesses (R132). -/
def State.acquireStep (s : State) (c scope : Nat) : State :=
  if scope < 3 then s
  else
    let keep (x : L1Line) : Bool := !(decide (x.st = .raw) && decide (x.valid = 0))
    let s := s.refetchFor c (fun u => decide (u = s.cur)) (fun _ => true)
    s.modCore c (fun k => { k with l1 := (k.l1.map L1Line.unclean).filter keep })

/-- What a claim without a translation waits on goes on: the entries of its thread for the page drain first, then it walks
(R272, R277). -/
def State.rewalk (s : State) (c : Nat) (x : Claim) (ctx : Nat) : State :=
  (s.modCore c (fun k => { k with claims := k.claims.map (fun z =>
    if z.sameOp x.uid x.pc x.word x.ea then { x with stage := .walking, line := 0 } else z) })).missQueue c x.uid ctx x.ea x.write
    (if x.write then 2 else 1)

/-- A claim goes on from where it stands: to its walk, to its line, or to what blocks it; it is ready where nothing more is
needed or where the next attempt must answer otherwise (R85). -/
def State.advance (s : State) (c : Nat) (x : Claim) (ctx : Nat) : State :=
  let put (s : State) (y : Claim) : State := s.modCore c (fun k => { k with claims := k.claims.map (fun z =>
    if z.sameOp x.uid x.pc x.word x.ea then y else z) })
  if (s.core c).side.any (fun e => decide (e.uid = x.uid ∧ pageOf e.va.toNat = pageOf x.ea.toNat)) then
    put s { x with stage := .blocked, line := 0 }
  else
  match s.tlbHit c ctx x.ea.toNat with
  | none => s.rewalk c x ctx
  | some e =>
    let p := e.pte.toNat
    let pa := leafPa e.level p x.ea.toNat
    let line := pa / 128
    let home := e.home line
    let block (s : State) (y : Claim) : State := put s { y with stage := .blocked, line := line, home := home }
    if paClass pa = .device || (x.write && !pteW p) then
      (put s { x with need := .translation }).claimReady c x.uid x.pc x.ea
    else if x.write && pteMG p then block s x
    else if !x.need.ofLine && decide (x.need ≠ .pushEntry) then s.claimReady c x.uid x.pc x.ea
    else if x.write && !pteD p then
      (put s { x with stage := .walking }).missQueue c x.uid ctx x.ea true 2
    else if s.pendingWrite c line then block s x
    else if x.need = .pushEntry then
      if (s.core c).lineClaimed line then block s x
      else (put s { x with stage := .waiting, line := line, home := home }).serveEntry c .pushEntry
    else
      let remote := pteT p && decide (coreDie home ≠ coreDie c)
      let need : Need := if !pteT p then .fetch else if remote then (if x.write then .excl else .share) else x.need
      let copy := (s.core c).line line
      let y : Claim := { x with stage := .waiting, need := need, line := line, home := home, remote := remote }
      let whole : Bool := match copy with | some l => l.holds (BitVec.allOnes 128) | none => false
      let blocked := (s.core c).blocks line need remote
      let present : Bool := !remote && (if pteT p then (match copy with | some l => servesNeed need l.st | none => false)
        else x.write || whole)
      if blocked then block s y
      else if present then
        (put s { y with copy := (if whole then copy.map L1Line.data else none) }).claimReady c x.uid x.pc x.ea
      else ((put s y).count c ctx 0x2001 1).request c x.uid line need remote home

end Sys2Proof.Machine
end

