-- ==== Sys2Proof/Machine/Flit.lean ====
section
/-! DEFINITION. The links by number (R372), their flits (R373), and the acknowledgements that a receiver owes (R374).

A link number names one direction: 0 to 11 are the die pairs (0,1), (0,2), (0,3), (1,2), (1,3), (2,3), forward then
back; 12 + 2d runs from die d to the I/O die and 13 + 2d back; 20 to 43 are the pod links, out then in. -/

namespace Sys2Proof.Machine

open Sys2Proof

/-! ## Links -/

/-- The directions of the package's device links (R372). -/
def linkCount : Nat := 44

def State.link (s : State) (l : Nat) : Link := tget Link.fresh s.links l
def State.setLink (s : State) (l : Nat) (k : Link) : State := { s with links := tset s.links l k }

/-- Data lanes and spare lanes of a direction (R372). -/
def dataLanes (l : Nat) : Nat := if l < 12 then 64 else if l < 20 then 32 else 8
def spareLanes (l : Nat) : Nat := if l < 12 then 2 else 1

/-- The two directions of a link, and the other one of a direction. -/
def bothWays (l : Nat) : List Nat := [2 * (l / 2), 2 * (l / 2) + 1]
def otherWay (l : Nat) : Nat := if l % 2 = 0 then l + 1 else l - 1

/-- The dies that a die-to-die direction joins. -/
def linkEnds (l : Nat) : Nat × Nat :=
  let p : Nat × Nat := ([(0, 1), (0, 2), (0, 3), (1, 2), (1, 3), (2, 3)][l / 2]?).getD (0, 0)
  if l % 2 = 0 then p else (p.2, p.1)

/-- The direction that joins two dies. -/
def linkTo (a b : Nat) : Nat := ((List.range 12).find? (fun l => decide (linkEnds l = (a, b)))).getD 0

/-- Whether a link carries flits. -/
def LinkSt.carries : LinkSt → Bool
  | .up | .degraded | .sparing | .draining => true
  | _ => false

/-- Whether a direction sends a new data flit now: the link carries flits and is not draining, no back-off runs, and the
window has room (R374, R376). -/
def Link.sends (k : Link) : Bool :=
  k.st.carries && decide (k.st ≠ .draining) && k.waiting.isNone && decide (k.window.length < 64)

/-- Whether traffic from one die to another finds a way now: their link takes new traffic, or it is DOWN and the links through
the I/O die do (R374, R376). -/
def State.wayOpen (s : State) (a b : Nat) : Bool :=
  let l := linkTo a b
  decide (a = b) || (s.link l).sends ||
    (decide ((s.link l).st = .down) && (s.link (12 + 2 * a)).sends && (s.link (13 + 2 * b)).sends)

/-- Whether the I/O die and a die exchange traffic now (R374, R376). -/
def State.ioOpen (s : State) (d : Nat) : Bool := (s.link (12 + 2 * d)).sends && (s.link (13 + 2 * d)).sends

/-! ## Flits (R373) -/

/-- The bytes +0 to +59 of a flit, as one number. -/
def Flit.body (f : Flit) : Nat :=
  f.payload.toNat + 2 ^ 448 * (f.kind.toNat * 4096 + f.seq.toNat) + 2 ^ 464 * f.ref.toNat

/-- One bit, and one byte, of CRC-32C, whose polynomial 0x1EDC_6F41 stands here with its bits reversed. -/
def flitCrcBit (c : Nat) : Nat := if c % 2 = 1 then (c / 2) ^^^ 0x82F63B78 else c / 2

def flitCrcByte (c b : Nat) : Nat :=
  flitCrcBit (flitCrcBit (flitCrcBit (flitCrcBit (flitCrcBit (flitCrcBit (flitCrcBit (flitCrcBit (c ^^^ b))))))))

/-- CRC-32C of the low `n` bytes of a number, from a register value. -/
def crcOver (v : Nat) : Nat → Nat → Nat
  | c, 0 => c
  | c, n + 1 => crcOver (v / 256) (flitCrcByte c (v % 256)) n

def crc32c (v n : Nat) : Nat := crcOver v 0xFFFFFFFF n ^^^ 0xFFFFFFFF

/-- A flit with its CRC. -/
def Flit.sealed (f : Flit) : Flit := { f with crc := BitVec.ofNat 32 (crc32c f.body 60) }

/-- The 512 bits of a flit. -/
def Flit.bits (f : Flit) : BitVec 512 := BitVec.ofNat 512 (f.body + 2 ^ 480 * f.crc.toNat)

/-- What 512 received bits say, where their CRC holds. -/
def flitOf (b : BitVec 512) (next : Option Nat) : Option Flit :=
  let v := b.toNat
  if crc32c v 60 = v / 2 ^ 480 then
    some { payload := BitVec.ofNat 448 v, kind := BitVec.ofNat 4 (v / 2 ^ 460), seq := BitVec.ofNat 12 (v / 2 ^ 448),
           ref := BitVec.ofNat 12 (v / 2 ^ 464), crc := BitVec.ofNat 32 (v / 2 ^ 480), next := next }
  else none

/-- A flit as it is received: `flip` are the bits that the wire has changed. -/
def Flit.received (f : Flit) (flip : BitVec 512) : Option Flit := flitOf (f.bits ^^^ flip) f.next

/-- A data flit, an ACK, a NACK and an idle flit. -/
def dataFlit (payload : BitVec 448) (seq : BitVec 12) (next : Option Nat) : Flit :=
  Flit.sealed { payload := payload, kind := 0, seq := seq, ref := 0, crc := 0, next := next }
def controlFlit (kind : BitVec 4) (ref : BitVec 12) : Flit :=
  Flit.sealed { payload := 0, kind := kind, seq := 0, ref := ref, crc := 0, next := none }

/-! ## Acknowledgements (R374) -/

/-- The receiver's cumulative ACK. -/
def Link.ackNow (k : Link) : Link := { k with back := k.back ++ [controlFlit 1 (k.expect - 1)], ackDue := none }

/-- The ticks within which an accepted flit is acknowledged. -/
def ackLimit : Nat := 32

/-- The acknowledgements that can wait no longer leave. -/
def State.sendAcks (s : State) : State :=
  { s with links := s.links.map (fun x =>
      match x.2.ackDue with
      | some t => if x.2.st.carries ∧ t + ackLimit ≤ s.gtick then (x.1, x.2.ackNow) else x
      | none => x) }

/-- The ticks that pass, of at most `n`, before an acknowledgement can wait no longer. -/
def State.ackRoom (s : State) (n : Nat) : Nat :=
  s.links.foldl (fun n x =>
    match x.2.ackDue with
    | some t => if x.2.st.carries ∧ s.gtick < t + ackLimit then min n (t + ackLimit - s.gtick) else n
    | none => n) n

end Sys2Proof.Machine
end

