-- ==== Sys2Proof/Machine/Coherence.lean ====
section
/-! DEFINITION. The messages between L1 caches and home slices (R113 to R131, R426): one definition per event of the
table. An event names the place of its message in `net`; it is enabled where the message has the right kind and no
older message runs between the same two agents (R113). -/

namespace Sys2Proof.Machine

open Sys2Proof

/-- An event that the state does not allow. -/
def notEnabled (m : String) : Host.Outcome State Fault Refusal := .refused (.eventNotEnabled m)

/-- The die that an agent of the message network stands on: a core, or the home slice beside one. -/
def agentDie (a : Nat) : Nat := coreDie (a % 1024)

/-- A message that brings bytes for memory to a home. -/
def MsgKind.brings : MsgKind → Bool
  | .writeBack .. | .uCopy .. | .rawWriteBack .. | .claimReturn _ (some _) | .ack (some _) .. => true
  | _ => false

/-- Whether message `n` of the network, `m`, may be delivered: no older one runs between the same two agents (R113), one
between two dies has a link that carries it (R374, R376), and the vault that it writes to holds no traffic (R407). -/
def State.deliverable (s : State) (n : Nat) (m : Msg) : Bool :=
  s.wayOpen (agentDie m.src) (agentDie m.dst) && !(m.kind.brings && s.vaultHeld m.line) &&
    !(s.net.take n).any (fun x => decide (x.src = m.src ∧ x.dst = m.dst))

/-- Takes message `n` out of the network, if it may be delivered and its kind is right. -/
def State.take (s : State) (n : Nat) (ok : MsgKind → Bool) : Option (Msg × State) :=
  match s.net[n]? with
  | none => none
  | some m => if ok m.kind && s.deliverable n m then some (m, { s with net := s.net.eraseIdx n }) else none

/-! ## The home -/

/-- A message from a home to a core. -/
def Msg.answer (m : Msg) (c : Nat) (k : MsgKind) : Msg := { src := m.dst, dst := c, line := m.line, kind := k }

def State.sendAll (s : State) (m : Msg) (cs : List Nat) (k : MsgKind) : State :=
  cs.foldl (fun s c => s.send (m.answer c k)) s

/-- The entry waits in W for `n` replies (R118). -/
def State.await (s : State) (m : Msg) (e : DirEntry) (n : Nat) : State :=
  s.setEntry m.line { e with st := .w, req := some m, pending := n }

/-- A push settles: its holders are the kept and the installed (R127). -/
def State.settlePush (s : State) (m : Msg) (uid : Nat) : State :=
  let e := s.entry m.line
  let e' := e.installed.foldl DirEntry.add { e with req := none, pending := 0, copying := false, installed := [] }
  let s := s.setEntry m.line (if e'.holders = [] then { DirEntry.fresh with waitq := e.waitq }
    else { e' with st := .s, kept := [], refusals := 0 })
  s.send (m.answer m.src (.pushDone uid e.refusals))

/-- Whether a push target takes part: cores that are retired and those of a parked die are skipped (R126, R404). -/
def State.pushable (s : State) (c : Nat) : Bool :=
  !(s.core c).retired && decide ((s.dpow (coreDie c)).park ≠ .parked)

/-- A push writes its bytes and sends its copies (R127). -/
def State.startCopies (s : State) (m : Msg) (uid : Nat) (off : Option Nat) (val : Word) (targets : List Nat) : State :=
  let s := match off with
    | some o => State.wrote { s with mem := mstore s.mem (128 * m.line + o) val.toNat 8 } m.line
    | none => s
  let ts := targets.dedup.filter s.pushable
  let e := { s.entry m.line with installed := [], refusals := 0, copying := true }
  if ts = [] then (s.setEntry m.line { e with st := .w, req := some m }).settlePush m uid
  else (s.await m e ts.length).sendAll m ts (.pushFill (s.homeLine m.line))

/-- Pins the line for a remote claim and sends the claim copy (R114). -/
def State.pinRemote (s : State) (m : Msg) (uid : Nat) (excl : Bool) (e : DirEntry) : State :=
  (s.setEntry m.line { e with pins := e.pins ++ [(uid, excl)], req := none, pending := 0 }).send
    (m.answer m.src (.claimCopy uid (s.homeLine m.line)))

/-- Whether a pin of a remote claim holds a request back (R90, R114). A read that the home would answer with E waits for
every pin: its holder could store without a message. -/
def DirEntry.blocks (e : DirEntry) (k : MsgKind) : Bool :=
  match k with
  | .readReq _ => if e.st = .s then e.pins.any (fun p => p.2) else decide (e.pins ≠ [])
  | .remoteReq _ false => e.pins.any (fun p => p.2)
  | _ => decide (e.pins ≠ [])

/-- The cores that a request's invalidation or recall goes to. In coarse form the requester's own core is left out of those
made for its own read, exclusive or U request (R119); in pointer form its copy is recalled like any other, but for an S copy
that an exclusive request upgrades (R118, log 51). -/
def DirEntry.asked (e : DirEntry) (m : Msg) : List Nat :=
  let own : Bool := match m.kind with
    | .exclReq _ => e.coarse || decide (e.st = .s)
    | .readReq _ | .updReq .. => e.coarse
    | _ => false
  if own then e.cores.filter (fun c => decide (c ≠ m.src)) else e.cores

/-- A directory entry with one holder, in pointer form: it passes through I or EX (R119). -/
def DirEntry.sole (e : DirEntry) (st : DState) (c kind : Nat) : DirEntry :=
  { e with st := st, coarse := false, holders := [c], kind := kind }

/-- A directory entry whose one holder has an update copy. An entry in coarse form stays so (R119). -/
def DirEntry.updates (e : DirEntry) (c kind : Nat) : DirEntry :=
  if e.coarse then { e with st := .u, holders := [coreForme c], kind := kind } else e.sole .u c kind

/-- The home serves a request in a stable state (R118, R119, R127). -/
def State.serve (s : State) (m : Msg) : State :=
  let e := s.entry m.line
  let cs := e.asked m
  let ask (k : MsgKind) (e : DirEntry) : State := (s.await m e cs.length).sendAll m cs k
  let grant (st : LState) (uid : Nat) (e : DirEntry) : State :=
    (s.setEntry m.line e).send (m.answer m.src (.grant uid st (s.homeLine m.line)))
  match m.kind with
  | .readReq uid =>
    match e.st with
    | .s => grant .s uid (e.add m.src)
    | .ex => ask .shareRecall { e with kept := e.cores }
    | .u => if cs = [] then grant .e uid (e.sole .ex m.src 0) else ask .updRecall { e with kept := [] }
    | _ => grant .e uid (e.sole .ex m.src 0)
  | .exclReq uid =>
    match e.st with
    | .i => grant .m uid (e.sole .ex m.src 0)
    | .u => if cs = [] then grant .m uid (e.sole .ex m.src 0) else ask .updRecall e
    | _ => if cs = [] then grant .m uid (e.sole .ex m.src 0) else ask .inval e
  | .updReq uid k =>
    match e.st with
    | .i => grant (.u k) uid (e.sole .u m.src k)
    | .u =>
      if e.kind = k then grant (.u k) uid (e.add m.src)
      else if cs = [] then grant (.u k) uid (e.updates m.src k) else ask .updRecall e
    | _ => if cs = [] then grant (.u k) uid (e.updates m.src k) else ask .inval e
  | .remoteReq uid excl =>
    match e.st with
    | .s => if excl then ask .inval e else s.pinRemote m uid excl e
    | .ex => ask (if excl then .inval else .shareRecall) { e with kept := if excl then [] else e.cores }
    | .u => ask .updRecall e
    | _ => s.pinRemote m uid excl e
  | .fetchReq uid tag => s.send (m.answer m.src (.fill uid tag (s.homeLine m.line)))
  | .pushWrite uid off val targets =>
    match e.st with
    | .s => if off.isSome then ask .inval { e with holders := [] } else s.startCopies m uid off val targets
    | .ex => if off.isSome then ask .inval { e with holders := [] } else ask .shareRecall e
    | .u => ask .updRecall { e with holders := [], coarse := false }
    | _ => s.startCopies m uid off val targets
  | .aliased =>
    match e.st with
    | .u => ask .updRecall e
    | .i | .w => s
    | _ => ask .inval e
  | _ => s

/-- Every reply is in: the entry goes where the request names, and the line is served (R118). -/
def State.settle (s : State) (line : Nat) : State :=
  let e := s.entry line
  match e.req with
  | none => s
  | some m =>
    let grant (st : LState) (uid : Nat) (e : DirEntry) : State :=
      (s.setEntry line { e with req := none, pending := 0, kept := [] }).send
        (m.answer m.src (.grant uid st (s.homeLine line)))
    match m.kind with
    | .readReq uid =>
      if e.kept = [] then grant .e uid (e.sole .ex m.src 0)
      else grant .s uid ({ e with st := .s, coarse := false, holders := e.kept }.add m.src)
    | .exclReq uid => grant .m uid (e.sole .ex m.src 0)
    | .updReq uid k => grant (.u k) uid (e.updates m.src k)
    | .remoteReq uid excl =>
      if e.kept = [] then s.pinRemote m uid excl { e with st := .i, coarse := false, holders := [] }
      else s.pinRemote m uid excl { e with st := .s, coarse := false, holders := e.kept, kept := [] }
    | .pushWrite uid off val targets =>
      if e.copying then s.settlePush m uid else s.startCopies m uid off val targets
    | _ => s.setEntry line { e with st := .i, coarse := false, holders := [], req := none }

/-- Takes up the waiting requests of a line, in order, until one makes the home wait again (R113). -/
def State.serveWaiting (s : State) (line : Nat) : Nat → State
  | 0 => s
  | n + 1 =>
    let e := s.entry line
    if e.st = .w then s
    else
      match e.waitq with
      | [] => s
      | m :: rest =>
        if e.blocks m.kind then s
        else State.serveWaiting ((s.setEntry line { e with waitq := rest }).serve m) line n

def State.goOn (s : State) (line : Nat) : State := s.serveWaiting line ((s.entry line).waitq.length + 1)

/-- A request is taken up at the home: it is served, or waits while the home is in W or a remote claim pins the line. -/
def State.arrive (s : State) (m : Msg) : State :=
  let home := m.dst - 1024
  let s := s.homeRequest home m.line (s.payer m) (some (coreDie m.src, formeQuad (coreForme m.src)))
  let e := { s.entry m.line with home := home }
  match m.kind with
  | .fetchReq .. => s.serve m
  | _ =>
    let s := s.setEntry m.line e
    if e.st = .w ∨ e.waitq ≠ [] ∨ e.blocks m.kind then s.setEntry m.line { e with waitq := e.waitq ++ [m] }
    else s.serve m

/-- A request arrives at the port of a home slice: one without a token, or behind one with a token, waits there, and so
does one for a line of a vault that holds traffic (R367, R407). -/
def requestEvent (s : State) (n : Nat) (ok : MsgKind → Bool) (name : String) : Host.Outcome State Fault Refusal :=
  match s.take n ok with
  | some (m, s') =>
    let home := m.dst - 1024
    if s'.portServes home (s'.payer m) && !s'.vaultHeld m.line then .next (s'.arrive m)
    else .next (s'.modCore home (fun k => { k with port := k.port ++ [m] }))
  | none => notEnabled name

/-- Which of the requests that wait at a port is served next: the oldest with a token, else the oldest, which borrows; those
of held vaults wait (R367, R407). -/
def State.portNext (s : State) (home : Nat) : Option Nat :=
  let l := (s.core home).port
  let free (m : Msg) : Bool := !s.vaultHeld m.line
  match l.findIdx? (fun m => free m && decide (s.tokensAt home (s.payer m) ≠ 0)) with
  | some n => some n
  | none => l.findIdx? free

/-- A port serves one that waits. -/
def State.portServe (s : State) (home : Nat) : State :=
  match (s.portNext home).bind (fun n => ((s.core home).port[n]?).map (fun m => (n, m))) with
  | none => s
  | some x => (s.modCore home (fun k => { k with port := k.port.eraseIdx x.1 })).arrive x.2

/-- A home slice gives up a line that nothing holds it back on and no claim pins: every L1 copy is recalled first (R112). -/
def State.evictHome (s : State) (line : Nat) : State := if s.quiet line then s.recallAll line else s

/-- An event with an address is counted on a die and logged (R286, R287). -/
def State.logEvent (s : State) (d code pa : Nat) : State :=
  (s.countDie d code 0 1).modDie d (fun k => { k with eventLog := k.eventLog ++ [(code, pa)] })

/-- The home beside a core merges dirty untracked bytes into a line. A line for which this home holds a directory entry is
aliased: its tracked copies are invalidated as a store does, in turn with the line's requests; an entry of another home is not
seen (R122, R123, R287). -/
def State.mergeHome (s : State) (home line : Nat) (data : BitVec 1024) (mask : BitVec 128) : State :=
  let s : State := { s with mem := mstoreMask s.mem (128 * line) data.toNat mask.toNat 128 }
  let e := s.entry line
  let m : Msg := { src := homeAgent home, dst := homeAgent home, line := line, kind := .aliased }
  let s := if e.st = .i ∨ e.home ≠ home then s
    else
      let s := s.logEvent (coreDie home) 0x2004 (128 * line)
      if e.st = .w ∨ e.waitq ≠ [] ∨ e.blocks m.kind then s.setEntry line { e with waitq := e.waitq ++ [m] } else s.serve m
  s.wrote line

/-! ## Requests at the home -/

/-- READ_REQUEST (R118, R114, R122). -/
def execReadRequest (n : Nat) (s : State) : Host.Outcome State Fault Refusal :=
  requestEvent s n (fun k => match k with | .readReq _ | .fetchReq .. | .remoteReq _ false => true | _ => false)
    "READ_REQUEST"

/-- EXCLUSIVE_REQUEST (R118, R114). -/
def execExclusiveRequest (n : Nat) (s : State) : Host.Outcome State Fault Refusal :=
  requestEvent s n (fun k => match k with | .exclReq _ | .remoteReq _ true => true | _ => false) "EXCLUSIVE_REQUEST"

/-- U_REQUEST (R118). -/
def execURequest (n : Nat) (s : State) : Host.Outcome State Fault Refusal :=
  requestEvent s n (fun k => match k with | .updReq .. => true | _ => false) "U_REQUEST"

/-- PUSH_WRITE (R127). -/
def execPushWrite (n : Nat) (s : State) : Host.Outcome State Fault Refusal :=
  requestEvent s n (fun k => match k with | .pushWrite .. => true | _ => false) "PUSH_WRITE"

/-- EVICTION_NOTICE (R118): a sharer's pointer is removed, an owner's entry goes to I; ignored otherwise. -/
def execEvictionNotice (n : Nat) (s : State) : Host.Outcome State Fault Refusal :=
  match s.take n (fun k => decide (k = .evict)) with
  | none => notEnabled "EVICTION_NOTICE"
  | some (m, s) =>
    let e := s.entry m.line
    match e.st with
    | .s =>
      if e.coarse then .next s
      else
        let hs := e.holders.filter (fun c => decide (c ≠ m.src))
        .next (s.setEntry m.line (if hs = [] then { e with st := .i, holders := [] } else { e with holders := hs }))
    | .ex => if e.holders = [m.src] then .next (s.setEntry m.line { e with st := .i, holders := [] }) else .next s
    | _ => .next s

/-- WRITE_BACK (R118, R120, R125): the home takes an owner's data, or combines an update copy sent unasked. -/
def execWriteBack (n : Nat) (s : State) : Host.Outcome State Fault Refusal :=
  match s.take n (fun k => match k with | .writeBack .. | .uCopy .. => true | _ => false) with
  | none => notEnabled "WRITE_BACK"
  | some (m, s) =>
    let e := s.entry m.line
    match m.kind with
    | .writeBack d keep =>
      let s := s.setHomeLine m.line d
      let s := if e.st = .ex ∧ e.holders = [m.src] ∧ !keep then
        s.setEntry m.line { e with st := .i, holders := [] } else s
      .next ((s.wrote m.line).fireReleases)
    | .uCopy d touched k =>
      .next (((s.setHomeLine m.line (combineLine k (s.homeLine m.line) d touched 32)).wrote m.line).fireReleases)
    | _ => .next s

/-- ACKNOWLEDGEMENT (R118, R120, R125, R127): pending falls by one; at zero the entry settles and the line is
served. -/
def execAcknowledgement (n : Nat) (s : State) : Host.Outcome State Fault Refusal :=
  match s.take n (fun k => match k with | .ack .. | .pushReply _ => true | _ => false) with
  | none => notEnabled "ACKNOWLEDGEMENT"
  | some (m, s) =>
    let e := s.entry m.line
    if e.st ≠ .w ∨ e.pending = 0 then notEnabled "ACKNOWLEDGEMENT"
    else
      let s := match m.kind with
        | .ack (some d) touched k =>
          if touched = 0 then s.setHomeLine m.line d
          else s.setHomeLine m.line (combineLine k (s.homeLine m.line) d touched 32)
        | _ => s
      let e := match m.kind with
        | .pushReply true => { e with installed := e.installed ++ [m.src] }
        | .pushReply false => { e with refusals := e.refusals + 1 }
        | _ => e
      let s := s.setEntry m.line { e with pending := e.pending - 1 }
      if e.pending = 1 then .next ((s.settle m.line).goOn m.line) else .next s

/-! ## Recalls at the core (R90, R116) -/

def recallEvent (s : State) (n : Nat) (k : MsgKind) (name : String) : Host.Outcome State Fault Refusal :=
  match s.take n (fun x => decide (x = k)) with
  | none => notEnabled name
  | some (m, s) =>
    if (s.core m.dst).defers m.line k.leaves then
      .next (s.modCore m.dst (fun c => { c with deferred := c.deferred ++ [m] }))
    else .next (s.performRecall m.dst m)

/-- INVALIDATION (R116): performed, or deferred while a claim pins the line. -/
def execInvalidation (n : Nat) (s : State) : Host.Outcome State Fault Refusal := recallEvent s n .inval "INVALIDATION"

/-- SHARE_RECALL (R116). -/
def execShareRecall (n : Nat) (s : State) : Host.Outcome State Fault Refusal :=
  recallEvent s n .shareRecall "SHARE_RECALL"

/-- UPDATE_RECALL (R116, R125). -/
def execUpdateRecall (n : Nat) (s : State) : Host.Outcome State Fault Refusal :=
  recallEvent s n .updRecall "UPDATE_RECALL"

/-- PUSH_FILL (R116, R128): the target installs the copy in Sp or refuses it. -/
def execPushFill (n : Nat) (s : State) : Host.Outcome State Fault Refusal :=
  match s.take n (fun k => match k with | .pushFill _ => true | _ => false) with
  | none => notEnabled "PUSH_FILL"
  | some (m, s) =>
    match m.kind with
    | .pushFill d =>
      let c := m.dst
      let k := s.core c
      let reply (b : Bool) : Msg := { src := c, dst := m.src, line := m.line, kind := .pushReply b }
      match k.line m.line with
      | some _ => .next (s.send (reply true))
      | none =>
        if k.pushq.toNat ≤ k.spCount ∨ (8 ≤ k.waysUsed m.line ∧ (k.victim m.line).isNone) then
          let ctx := match (s.entry m.line).req.bind (fun r => r.kind.requester) with | some u => s.ctxOf u | none => 4096
          .next ((s.count c ctx 0x2002 1).send (reply false))
        else
          .next ((s.install c { line := m.line, st := .sp, data := d, valid := 0, dirty := 0, home := m.src - 1024 }).send
            (reply true))
    | _ => .next s

/-- Where no write of a core to a line is on its way any longer, what waits on that goes on (R131). -/
def State.linePerformed (s : State) (c line : Nat) : State :=
  if s.pendingWrite c line then s
  else (s.fireIf (fun _ t w => decide (t.core = c ∧ w = .linePerformed line))).lookAgain c (fun x => decide (x.line = line))

/-- PUSH_COMPLETION (R127, R129, R142). -/
def execPushCompletion (n : Nat) (s : State) : Host.Outcome State Fault Refusal :=
  match s.take n (fun k => match k with | .pushDone .. => true | _ => false) with
  | none => notEnabled "PUSH_COMPLETION"
  | some (m, s) =>
    match m.kind with
    | .pushDone uid refused =>
      let c := m.dst
      let s := s.modCore c (fun k => { k with pushes := k.pushes.erase (m.line, uid) })
      let s := s.modThr uid (fun t => { t with
        pushes := t.pushes - 1,
        pushref := BitVec.ofNat 64 (min (2 ^ 64 - 1) (t.pushref.toNat + refused)),
        refusal := t.refusal || decide (refused ≠ 0) })
      let s := s.linePerformed c m.line
      let s := s.serveEntry c .pushEntry
      .next s.fireReleases
    | _ => .next s

/-- CLAIM_COPY_RETURN (R114): the home writes a modified claim copy and only then ends the pin. -/
def execClaimCopyReturn (n : Nat) (s : State) : Host.Outcome State Fault Refusal :=
  match s.take n (fun k => match k with | .claimReturn .. => true | _ => false) with
  | none => notEnabled "CLAIM_COPY_RETURN"
  | some (m, s) =>
    match m.kind with
    | .claimReturn uid d =>
      let s := match d with | some v => (s.setHomeLine m.line v).wrote m.line | none => s
      let e := s.entry m.line
      let s := s.setEntry m.line { e with pins := e.pins.eraseP (fun p => decide (p.1 = uid)) }
      let s := s.linePerformed m.src m.line
      .next ((s.goOn m.line).fireReleases)
    | _ => .next s

/-- Whether a write-back of an untracked line waits for an older one of the same line, from a core that a thread of this
core has left since its last release: the thread's stores to a byte are merged in its program order (R313). -/
def State.mergesAfter (s : State) (n : Nat) : Bool :=
  let raw (m : Msg) : Bool := match m.kind with | .rawWriteBack .. => true | _ => false
  match s.net[n]? with
  | some m => raw m && (s.net.take n).any (fun x => raw x && decide (x.line = m.line ∧ x.src ≠ m.src) &&
      s.threads.any (fun t => t.2.places.contains m.src && t.2.trail.contains x.src))
  | none => false

/-- UNTRACKED_WRITE_BACK (R122, R123, R287): the dirty bytes are merged. -/
def execUntrackedWriteBack (n : Nat) (s : State) : Host.Outcome State Fault Refusal :=
  if s.mergesAfter n then notEnabled "UNTRACKED_WRITE_BACK"
  else
  match s.take n (fun k => match k with | .rawWriteBack .. => true | _ => false) with
  | none => notEnabled "UNTRACKED_WRITE_BACK"
  | some (m, s) =>
    match m.kind with
    | .rawWriteBack d mask => .next (s.mergeHome (m.dst - 1024) m.line d mask).fireReleases
    | _ => .next s

/-! ## Data at the core (R85, R116, R122) -/

/-- Whether a grant of an update copy would take from a claim the update copy of another kind that it pins (R90). -/
def Core.holdsGrant (k : Core) (line : Nat) (st : LState) : Bool :=
  match st with
  | .u _ => k.defers line (some st)
  | _ => false

/-- CLAIM_DATA_ARRIVAL (R85): a grant, an untracked fill or a claim copy reaches the core; the claims it completes
fire their wakes. The bytes of a fetch that an acquire has made stale are not taken (R132). -/
def execClaimDataArrival (n : Nat) (s : State) : Host.Outcome State Fault Refusal :=
  match s.take n (fun k => match k with | .grant .. | .fill .. | .claimCopy .. | .own _ => true | _ => false) with
  | none => notEnabled "CLAIM_DATA_ARRIVAL"
  | some (m, s) =>
    let c := m.dst
    match m.kind with
    | .grant _ st d =>
      if (s.core c).holdsGrant m.line st then .next (s.modCore c (fun k => { k with deferred := k.deferred ++ [m] }))
      else .next (s.takeGrant c m.line (m.src - 1024) st d)
    | .fill uid tag d =>
      if (s.core c).claims.any (fun y => decide (y.uid = uid ∧ y.line = m.line ∧ y.tag = tag ∧ y.stage = .waiting ∧
          y.need = .fetch)) then
        let s := s.dropAlias c m.line true
        let x := ((s.core c).line m.line).getD
          { line := m.line, st := .raw, data := 0, valid := 0, dirty := 0, home := m.src - 1024 }
        let d := lineMask d 0 x.data.toNat x.dirty.toNat 128
        let s := s.install c { x with st := .raw, data := d, valid := BitVec.allOnes 128 }
        let s := s.modCore c (fun k => { k with claims := k.claims.map (fun y =>
          if y.line = m.line ∧ y.need = .fetch ∧ (y.stage = .waiting ∨ y.copy.isSome) then { y with copy := some d } else y) })
        .next (s.wakeClaims c m.line)
      else .next s
    | .claimCopy uid d =>
      match (s.core c).claims.find? (fun x => decide (x.uid = uid ∧ x.line = m.line ∧ x.stage = .waiting) && x.remote) with
      | some x =>
        let s := s.modCore c (fun k => { k with claims := k.claims.map (fun y =>
          if y = x then { y with copy := some d } else y) })
        .next (s.claimReady c uid x.pc x.ea)
      | none => .next (s.send { src := c, dst := m.src, line := m.line, kind := .claimReturn uid none })
    | .own uid =>
      let xs := (s.core c).claims.filter (fun x => decide (x.uid = uid ∧ (x.stage = .waiting ∨ x.stage = .blocked) ∧ x.line = m.line))
      .next (xs.foldl (fun s x => s.advance c x (s.ctxOf uid)) s)
    | _ => .next s

/-! ## Host agents at the home (R323, R426) -/

def hostReach (pa size : Nat) : Bool :=
  decide (1 ≤ size ∧ size ≤ 8 ∧ pa / 128 = (pa + size - 1) / 128) &&
    (match paClass pa with | .dram _ | .host => true | _ => false)

/-- Whether a function of the host endpoint reaches a physical address: the PF, function 0, in every stage; a VF once the
Lantern kernel has built it for a tenant, within the units of that tenant's partition (R364, R365, R372, R393). -/
def State.hostFunction (s : State) (fn pa : Nat) : Bool :=
  if fn = 0 then true
  else
    decide (s.power.stage = .full) && s.parts.any (fun p => p.2.vfs.contains fn &&
      (match paClass pa with | .dram _ => p.2.units.testBit (paUnit pa) | _ => true))

/-- Whether the I/O die reaches the memory behind a physical address now (R374, R376). -/
def State.ioReaches (s : State) (pa : Nat) : Bool :=
  match paClass pa with
  | .dram d => s.ioOpen d
  | _ => true

/-- HOST_WRITE: a function of the host endpoint writes at a PA; performed at the home when nothing stands against it. -/
def execHostWrite (loc : Nat × Nat) (size : Nat) (val : Word) (s : State) : Host.Outcome State Fault Refusal :=
  if hostReach loc.2 size && s.hostFunction loc.1 loc.2 && s.ioReaches loc.2 && s.quietAll loc.2 size then
    .next (s.homeWrite loc.2 size val.toNat)
  else notEnabled "HOST_WRITE"

end Sys2Proof.Machine
end

