-- ==== Sys2Proof/Machine/Slots.lean ====
section
/-! DEFINITION. Slots and the park area (R79, R80, R91, R92), instruction fetch (R56, R57), messages (R93 to R95), the
end of a thread (R102, R300) and the watchdog's count (R356, R357). -/

namespace Sys2Proof.Machine

open Sys2Proof

/-! ## Fetch -/

inductive Fetch where
  | word (w : Nat)
  | trap (c : TrapClass)
  | translation        -- the core TLB does not hold the page
  | code (line : Nat)  -- the L1 instruction cache does not hold the line
  deriving DecidableEq, Repr

/-- The instruction line that a core holds. -/
def Core.code (k : Core) (line : Nat) : Option (BitVec 1024) := (k.icache.find? (fun x => decide (x.1 = line))).map (·.2)

/-- What a thread's fetch finds (R56). -/
def State.fetch (s : State) (u : Nat) : Fetch :=
  let t := s.thr u
  let pc := t.pc.toNat
  if pc % 4 ≠ 0 then .trap .illegal
  else if !inPaged pc then .trap .access
  else
    match s.tlbHit t.core (s.ctxOf u) pc with
    | none => .translation
    | some e =>
      let pa := leafPa e.level e.pte.toNat pc
      if !pteX e.pte.toNat ∨ paClass pa = .device then .trap .access
      else
        match (s.core t.core).code (pa / 128) with
        | none => .code (pa / 128)
        | some d => .word (lineGet d (pa % 128) 4)

/-- The word of a thread's next instruction, from the core's code line or from memory; 0 where its page is not present
(R109). -/
def State.nextWord (s : State) (u : Nat) : Nat :=
  match s.fetch u with
  | .word w => w
  | _ =>
    match s.vaPa (s.ctxOf u) (s.thr u).pc.toNat with
    | some pa => s.peek pa 4
    | none => 0

/-! ## Slots and the park area -/

/-- Whether a slot of a core holds a thread. -/
def State.slotUsed (s : State) (c k : Nat) : Bool :=
  s.threads.any (fun x => decide (x.2.core = c ∧ x.2.slot = some k) && !x.2.saved && decide (x.2.st ≠ .exited))

/-- The first EMPTY slot of a core. -/
def State.freeSlot (s : State) (c : Nat) : Option Nat := firstFree (fun k => !s.slotUsed c k) 0 16

/-- Whether a thread occupies an entry of its context's park area (R91). -/
def Thread.inPark (t : Thread) : Bool :=
  !t.saved && !t.ending && (decide (t.st = .parked) || (decide (t.st = .trapped) && t.slot.isNone))

/-- Entries of a context's park area in use (R91). -/
def State.parkUsed (s : State) (ctx : Nat) : Nat :=
  (s.threads.filter (fun x => x.2.inPark && decide ((s.grp x.2.gid).ctx = ctx))).length

def State.parkFree (s : State) (ctx : Nat) : Bool := decide (s.parkUsed ctx < (s.ctx ctx).pcap)

/-- A thread takes a slot of its core. -/
def State.takeSlot (s : State) (u k : Nat) : State :=
  s.modThr u (fun t => { t with slot := some k, slotFrom := s.now (coreDie t.core) })

/-- The runnable parked threads of a core, in the order of their wakes (R91). -/
def State.runnables (s : State) (c : Nat) : List Nat :=
  (s.threads.filter (fun x => decide (x.2.core = c ∧ x.2.st = .parked) && x.2.runnable && !x.2.saved)).map (·.1)

/-- The least element of a list by a key. -/
def leastBy {α : Type} (key : α → Nat) : List α → Option α
  | [] => none
  | x :: l =>
    match leastBy key l with
    | none => some x
    | some y => if key x ≤ key y then some x else some y

/-- A runnable thread of a core takes its EMPTY slot, the first woken first (R91); `none` where there is none or no slot. -/
def State.swapIn (s : State) (c : Nat) : Option State :=
  match s.freeSlot c, leastBy (fun u => (s.thr u).wokenAt) (s.runnables c) with
  | some k, some u =>
    some (((s.takeSlot u k).modThr u (fun t => { t with st := .ready, runnable := false, prio := true })).parkFreed
      (s.ctxOf u))
  | _, _ => none

/-! ## Detector numbers (R326) -/

/-- An agent number that no live thread of the context has: the first after the thread's own (log 53). -/
def State.newAgent (s : State) (ctx u : Nat) : Nat :=
  let used := (s.threads.filter (fun x => decide (x.2.st ≠ .exited) && decide (s.ctxOf x.1 = ctx))).map (fun x => x.2.agent)
  (((List.range (used.length + 1)).map (fun i => (u + i) % 2 ^ 18)).find? (fun n => !used.contains n)).getD (u % 2 ^ 18)

/-! ## Messages -/

/-- The live thread of a group with a mailbox index (R93); one that has ended and waits for the release of its granted places
is none (R300). -/
def State.mailUid (s : State) (gid idx : Nat) : Option Nat :=
  (s.threads.find? (fun x => decide (x.2.gid = gid ∧ x.2.index = idx ∧ x.2.st ≠ .exited) && !x.2.ending)).map (·.1)

/-- The thread that a mailbox address names for the thread in execution (R93, R104). -/
def State.mailDest (s : State) (a : Word) : Option Nat :=
  if a.toNat < 256 then s.mailUid s.me.gid a.toNat else none

/-- Whether the core's outbound queue takes a message to a thread (R104): FULL, NR, NRX or the right to queue it. -/
def State.outbound (s : State) (ea : Word) (dest : Nat) : Res :=
  let c := s.myCore
  let k := s.core c
  let t := s.me
  if k.outq.any (fun m => decide (m.dest = dest) && (match m.st with | .replay _ => true | _ => false)) then
    .stop s .full (.outbound c dest)
  else
    match k.findClaim s.cur t.pc s.ir ea with
    | some x => if x.stage = .ready then .ok s .log else .stop s .nr (.claim t.pc ea)
    | none =>
      if k.entriesUsed .outbound < 16 then .ok s .log
      else State.stopClaim (s.claim ea .outbound true 0 .waiting false 0) ea id

/-- A message is queued (R94). -/
def State.queueMail (s : State) (dest : Nat) (payload : Word) (kind : Nat) : State :=
  let t := s.me
  let d := s.thr dest
  let m : OutMsg := { gid := t.gid, dest := dest, core := (if d.st = .migrating then d.target else d.core),
                      sender := s.cur, src := t.index, kind := kind, payload := payload, seq := s.wakeSeq, st := .flying }
  State.modCore { s with wakeSeq := s.wakeSeq + 1 } t.core (fun k => { k with outq := k.outq ++ [m] })

/-- Whether a group is being saved, is saved or is being restored. -/
def State.asleep (s : State) (g : Nat) : Bool :=
  match (s.grp g).st with
  | .saving | .saved | .restoring => true
  | _ => false

/-- Whether an earlier message of the same sender to the same thread is not yet accepted (R94). -/
def State.earlierMail (s : State) (m : OutMsg) : Bool :=
  s.cores.any (fun k => k.2.outq.any (fun x =>
    decide (x.sender = m.sender ∧ x.dest = m.dest ∧ x.seq < m.seq ∧ x.st ≠ .accepted)))

/-- Whether an earlier message of the same queue to the same thread is not yet accepted: messages to one thread leave
in send order (R94). -/
def Core.earlierOut (k : Core) (n dest : Nat) : Bool :=
  (k.outq.take n).any (fun x => decide (x.dest = dest ∧ x.st ≠ .accepted))

def Core.setOut (k : Core) (n : Nat) (st : OutSt) : Core :=
  { k with outq := k.outq.modify n (fun m => { m with st := st }) }

/-! ## The watchdog's count (R356, R357) -/

/-- Whether a thread pauses its group's watchdog: a FAULTED wake that has not fired, an absent fetch, an ECALL. -/
def Thread.pausing (t : Thread) : Bool :=
  let wake : Bool := match t.wake with
    | some w => decide (w.fired = 0) && (match w.cond with | .fault .. | .sideLog _ | .pressResolved _ => true | _ => false)
    | none => false
  let fetch : Bool := match t.wait with | .fetch _ => true | _ => false
  let ecall : Bool := match t.trap with | some r => decide (r.cls = .ecall) | none => false
  decide (t.st ≠ .exited) && (wake || fetch || (decide (t.st = .trapped) && ecall))

/-- Whether a press queue of the group is STOPPED-FAULT and unresolved (R228). -/
def State.pressFaulted (s : State) (g : Group) : Bool :=
  g.cores.any (fun c =>
    match (tget PQueue.fresh (s.forme (coreForme c)).press.queues (corePos c)).cmds with
    | x :: _ => decide (x.st = .stoppedFault)
    | [] => false)

/-- Whether a galley record of the group is SUSP-FAULT, or a chain it kicked waits on a fault. -/
def State.galleyFaulted (s : State) (gid : Nat) : Bool :=
  s.dies.any (fun d => d.2.chans.any (fun c =>
    (match c.2.chain with | some k => decide (k.gid = gid) && c.2.waitFault.isSome | none => false) ||
      c.2.recs.any (fun r => decide (r.kick.gid = gid) && (decide (r.st = .suspFault) || decide (r.faults ≠ [] ∨ r.ends ≠ [])))))

/-- The watchdog of a group does not advance (R357). -/
def State.paused (s : State) (gid : Nat) : Bool :=
  s.asleep gid || s.threads.any (fun x => decide (x.2.gid = gid) && x.2.pausing) || s.pressFaulted (s.grp gid) ||
    s.galleyFaulted gid

/-- A tick of virtual time is this many units, a multiple of every weight (R366). -/
def virtualUnit : Nat := (List.range 255).foldl (fun a i => Nat.lcm a (i + 1)) 1

/-- Cores that the placed groups of a context hold. -/
def State.coresHeld (s : State) (ctx : Nat) : Nat :=
  (s.groups.map (fun g =>
    if g.2.ctx = ctx then (match g.2.st with | .unplaced | .saved | .ended => 0 | _ => g.2.cores.length) else 0)).foldl
    (· + ·) 0

/-- The watchdog counter of a group after `n` ticks: it stands at its limit, and past it after an expiry (R356, R358). -/
def Group.tickWatchdog (g : Group) (n : Nat) : Nat :=
  if g.wdCount ≤ g.wdLimit then min (g.wdCount + n) g.wdLimit else g.wdCount

/-- Whether the watchdog of a group has reached its limit and has not expired since (R358). -/
def State.watchdogDue (s : State) (gid : Nat) : Bool :=
  decide ((s.grp gid).st = .running ∧ (s.grp gid).wdCount = (s.grp gid).wdLimit)

/-- The watchdog of a group expires: every READY, WAITING or PARKED thread of the group traps (R358). The counter passes the
limit, so that it is not reached again before a progress event (log 50). -/
def State.expire (s : State) (gid : Nat) : State :=
  let stops (t : Thread) : Bool :=
    decide (t.gid = gid) && !t.saved && !t.ending &&
      (decide (t.st = .ready) || decide (t.st = .waiting) || decide (t.st = .parked))
  let s := s.modGrp gid (fun g => { g with wdCount := g.wdLimit + 1 })
  (s.threads.filter (fun x => stops x.2)).foldl
    (fun s x => s.trap x.1 .watchdog (s.thr x.1).pc 0 0 (s.nextWord x.1)) s

/-- Ticks pass: the counter of every placed group that is not paused advances, and so does the virtual time of each
context that holds cores (R366). -/
def State.passTicks (s : State) (n : Nat) : State :=
  { s with
    gtick := (s.gtick + n) % 2 ^ 64,
    ctxs := s.ctxs.map (fun x =>
      (x.1, { x.2 with vtime := x.2.vtime + n * s.coresHeld x.1 * virtualUnit / max 1 x.2.weight })),
    groups := s.groups.map (fun x =>
      match x.2.st with
      | .running | .ending => if s.paused x.1 then x else (x.1, { x.2 with wdCount := x.2.tickWatchdog n })
      | _ => x) }

/-- The ticks that pass, of at most `n`, before the watchdog of a group reaches its limit. -/
def State.watchdogRoom (s : State) (n : Nat) : Nat :=
  s.groups.foldl (fun n x =>
    if x.2.st = .running ∧ x.2.wdCount < x.2.wdLimit ∧ !s.paused x.1 then min n (x.2.wdLimit - x.2.wdCount) else n) n

/-- The present tick ends: the watchdogs that are due expire, for nothing of the tick has been progress of their groups
(R358), and the acknowledgements that can wait no longer leave (R374). Then ticks pass, at most `n` and no further than
the next tick at whose end one of these may come; their number is given. -/
def State.endTicks (s : State) (n : Nat) : State × Nat :=
  if n = 0 then (s, 0)
  else
    let s := (s.groups.filter (fun x => s.watchdogDue x.1)).foldl (fun s x => s.expire x.1) s
    let s := s.sendAcks
    let k := s.ackRoom (s.watchdogRoom n)
    (s.passTicks k, k)

end Sys2Proof.Machine
end

