-- ==== Sys2Proof/Machine/Barrier.lean ====
section
/-! DEFINITION. Barriers and semaphores (R146 to R161, R377, R378): phases, arrivals, advances, staggered release, the
four instructions and their events. Kind 0 is `core` (its unit a core), 1 `forme` (a forme), 2 `die` (a die), 3 `sem`. -/

namespace Sys2Proof.Machine

open Sys2Proof

/-! ## Hardware barriers -/

def State.bar (s : State) (kind unit idx : Nat) : Bar :=
  tget Bar.fresh (match kind with
    | 0 => (s.core unit).bars
    | 1 => (s.forme unit).bars
    | _ => (s.die unit).bars) idx

def State.setBar (s : State) (kind unit idx : Nat) (b : Bar) : State :=
  match kind with
  | 0 => s.modCore unit (fun k => { k with bars := tset k.bars idx b })
  | 1 => s.modForme unit (fun k => { k with bars := tset k.bars idx b })
  | _ => s.modDie unit (fun k => { k with bars := tset k.bars idx b })

/-- The unit that a barrier of a kind has at a core (R147). -/
def unitOf (kind c : Nat) : Nat :=
  match kind with
  | 0 => c
  | 1 => coreForme c
  | _ => coreDie c

/-- The die of a unit. -/
def unitDie (kind unit : Nat) : Nat :=
  match kind with
  | 0 => coreDie unit
  | 1 => formeDie unit
  | _ => unit

/-- The group that holds a core (R354). -/
def State.groupOn (s : State) (c : Nat) : Option Nat :=
  (s.groups.find? (fun g => g.2.cores.contains c && (match g.2.st with
    | .starting | .running | .saving | .restoring | .ending => true
    | _ => false))).map (·.1)

/-- The cores that see a barrier. -/
def unitCores (kind unit : Nat) : List Nat :=
  match kind with
  | 0 => [unit]
  | 1 => (List.range 8).map (fun p => 8 * unit + p)
  | _ => (List.range 256).map (fun p => 256 * unit + p)

/-- The stagger position of a core (R146, R153). -/
def State.stagger (s : State) (kind c : Nat) : Nat :=
  match kind with
  | 1 => match s.groupOn c with
    | some g => (s.grp g).cores.findIdx (fun x => decide (x = c))
    | none => 0
  | 2 => snakePos c
  | _ => 0

/-- Whether a core's release for the barrier lies ahead (R153). -/
def Bar.pending (b : Bar) (now c : Nat) : Bool :=
  b.rel.any (fun x => decide (x.1 = c ∧ now < x.2.1))

/-- The phase, and the epoch of the advance to it, that a core sees (R153). -/
def Bar.seen (b : Bar) (now c : Nat) : Nat × Nat :=
  match b.rel.find? (fun x => decide (x.1 = c ∧ now < x.2.1)) with
  | some x => x.2.2
  | none => (b.phase, b.epoch)

/-- The waiters of a core on a barrier wake (R151, R153, R154). -/
def State.wakeCore (s : State) (kind unit idx : Nat) (cores : List Nat) : State :=
  s.fireIf (fun _ t w => cores.contains t.core &&
    (decide (w = .phase kind unit idx) || decide (w = .barRelease kind unit idx)))

/-- The context that holds a barrier. -/
def State.barCtx (s : State) (kind unit idx : Nat) : Option Nat :=
  match kind with
  | 0 => (s.groupOn unit).map (fun g => (s.grp g).ctx)
  | 1 => (s.forme unit).group.map (fun g => (s.grp g).ctx)
  | _ => (s.bar 2 unit idx).holder

/-- The group whose progress an advance is (R156). -/
def State.barGroup (s : State) (kind unit : Nat) : Option Nat :=
  match kind with
  | 0 => s.groupOn unit
  | 1 => (s.forme unit).group
  | _ => none

/-- THE ADVANCE (R150, R153, R326): phase + 1, arrived 0, each core's release cycle by its stagger position, the
context's epoch, and the group's progress. -/
def State.advanceBar (s : State) (kind unit idx : Nat) : State :=
  let b := s.bar kind unit idx
  let d := unitDie kind unit
  let now := s.now d
  let ctx := s.barCtx kind unit idx
  let epoch := match ctx with | some x => (tget 0 (s.ctx x).epochs d + 1) % 4096 | none => 0
  let rel := (unitCores kind unit).filterMap (fun c =>
    let p := b.step * s.stagger kind c
    if p = 0 then none else some (c, (now + p, b.seen now c)))
  let s := match ctx with
    | some x => s.modCtx x (fun y => { y with epochs := tset y.epochs d epoch })
    | none => s
  let s := s.setBar kind unit idx { b with phase := (b.phase + 1) % 2 ^ 16, arrived := 0, rel := rel, epoch := epoch }
  let s := s.wakeCore kind unit idx ((unitCores kind unit).filter (fun c => !rel.any (fun x => decide (x.1 = c))))
  match s.barGroup kind unit with
  | some g => s.progress g
  | none => s

/-- An arrival is counted (R150). -/
def State.countArrival (s : State) (kind unit idx : Nat) : State :=
  let b := s.bar kind unit idx
  let s := s.setBar kind unit idx { b with arrived := b.arrived + 1 }
  if b.expected ≤ b.arrived + 1 then s.advanceBar kind unit idx else s

/-- A sweep engine's arrival (R152, R257): none at an unconfigured barrier. -/
def State.engineArrive (s : State) (kind unit idx : Nat) : State :=
  if (s.bar kind unit idx).expected = 0 then s else s.countArrival kind unit idx

/-- Whether the thread in execution may use a barrier: its group or context holds it (R147). -/
def State.holdsBar (s : State) (kind idx : Nat) : Bool :=
  match kind with
  | 0 => true
  | 1 => s.myGrp.forme
  | _ => decide ((s.bar 2 s.myDie idx).holder = some s.myCtx)

/-! ## Semaphores (R149) -/

def semPhase (w : Nat) : Nat := w / 2 ^ 48 % 2 ^ 16
def semExpected (w : Nat) : Nat := w / 2 ^ 32 % 2 ^ 16
def semArrived (w : Nat) : Nat := w / 2 ^ 16 % 2 ^ 16
def semReserved (w : Nat) : Nat := w / 8 % 2 ^ 13
def semScope (w : Nat) : Nat := w % 8

def semWord (phase expected arrived scope : Nat) : Nat :=
  phase % 2 ^ 16 * 2 ^ 48 + expected % 2 ^ 16 * 2 ^ 32 + arrived % 2 ^ 16 * 2 ^ 16 + scope % 8

def semUnconfigured (w : Nat) : Bool := decide (semExpected w = 0)

def semMalformed (w : Nat) : Bool :=
  decide (semReserved w ≠ 0) ||
    (!semUnconfigured w && (decide (semScope w ≠ 3 ∧ semScope w ≠ 4) || decide (semExpected w ≤ semArrived w)))

/-- The word after an arrival, and whether it advances. -/
def semArrive (w : Nat) : Nat × Bool :=
  if semArrived w + 1 = semExpected w then (semWord (semPhase w + 1) (semExpected w) 0 (semScope w), true)
  else (semWord (semPhase w) (semExpected w) (semArrived w + 1) (semScope w), false)

/-- The pod binding of a semaphore word of scope 4 (R377). -/
def State.binding (s : State) (pa w : Nat) : Binding :=
  if semScope w = 4 then
    match s.bindings.find? (fun b => match b.2 with
      | .home p _ => decide (p = pa)
      | .proxy p _ _ => decide (p = pa)
      | .none => false) with
    | some b => b.2
    | none => .none
  else .none

/-- The entry of a binding. -/
def State.bindingEntry (s : State) (pa : Nat) : Nat :=
  match s.bindings.find? (fun b => match b.2 with
    | .home p _ => decide (p = pa)
    | .proxy p _ _ => decide (p = pa)
    | .none => false) with
  | some b => b.1
  | none => 0

/-- The requester that an arrival of hardware at a proxy names to the home: this number and the entry of the proxy's
binding here (R378). -/
def hardwareUid : Nat := 2 ^ 40

/-- An advance of a home word is written into every proxy's phase field (R378). -/
def State.tellProxies (s : State) (pa w : Nat) : State :=
  match s.binding pa w with
  | .home _ mask =>
    let e := s.bindingEntry pa
    { s with podOut := s.podOut ++ ((List.range 64).filter (fun p => mask.testBit p)).map (fun p =>
        PodMsg.phase p e (semPhase w)) }
  | _ => s

/-- The VA of the semaphore that a constant word names. -/
def State.semVa (s : State) (idx : Nat) : Word := s.constWord s.myCore idx

/-- The physical address of a spot in a tracked line. -/
def Spot.pa : Spot → Nat
  | .line l off | .copy l off | .raw l off => 128 * l + off
  | _ => 0

/-! ## Arrivals (R158) -/

/-- What an arrival gives. -/
inductive Arrival where
  | counted (s : State) (token : Nat)
  | denied (s : State)
  | wait (s : State) (c : OCode) (w : WakeCond)
  | trap (s : State) (c : TrapClass) (va extra : Word)

def State.arriveHw (s : State) (kind idx : Nat) : Arrival :=
  let c := s.myCore
  let unit := unitOf kind c
  let b := s.bar kind unit idx
  if !s.holdsBar kind idx || decide (b.expected = 0) then .denied s
  else
    let (s, ok) := s.releaseStep kind
    if !ok then .wait s .nr (.release kind)
    else if b.pending (s.now (coreDie c)) c then .wait s .nr (.barRelease kind unit idx)
    else .counted ((s.modMe Thread.released).countArrival kind unit idx) b.phase

/-- An arrival at a proxy word: sent once, consumed when the home's reply has come (R378). -/
def State.arriveProxy (s : State) (ea : Word) (pa pkg entry : Nat) : Arrival :=
  let s := s.endOp ea
  match s.me.remote with
  | some r =>
    if r.pa = pa then
      match r.reply with
      | some ph => .counted ((s.modMe (fun t => { t with remote := none })).clampCount 3) ph
      | none => .wait s .nr .semReply
    else if r.reply.isNone then .wait s .nr .semReply
    else
      .wait (State.modMe { s with podOut := s.podOut ++ [.arrival pkg entry s.cur] }
        (fun t => { t with remote := some { pa := pa, reply := none } }.released)) .nr .semReply
  | none =>
    .wait (State.modMe { s with podOut := s.podOut ++ [.arrival pkg entry s.cur] }
      (fun t => { t with remote := some { pa := pa, reply := none } }.released)) .nr .semReply

/-- An arrival at a semaphore: the word's checks, its scope under the cap, the release step, the count. The instruction that
consumes a pending remote arrival sends nothing and asks no release step: that came before the arrival was sent (R378). -/
def State.arriveSem (s : State) (idx : Nat) : Arrival :=
  let ea := s.semVa idx
  if ea.toNat % 8 ≠ 0 then .trap s .access ea 0
  else if inWindows ea then .denied s
  else
    match s.attempt .amo ea 8 8 true (allBytes 8) with
    | .trap s c va x => .trap s c va x
    | .denied s => .denied s
    | .stop s c w => .wait s c w
    | .ok s p =>
      let w := s.readAt p ea 8
      if semMalformed w || semUnconfigured w then .denied (s.endOp ea)
      else
        let sc := s.capScope (semScope w)
        let answered : Bool := match s.me.remote with | some r => decide (r.pa = p.pa) && r.reply.isSome | none => false
        let (s, ok) := if answered then (s, true) else s.releaseStep sc
        if !ok then .wait (s.endOp ea) .nr (.release sc)
        else
          match s.binding p.pa w with
          | .proxy pa pkg entry => s.arriveProxy ea pa pkg entry
          | _ =>
            let r := semArrive w
            let s := (s.writeAt p ea 8 r.1 (allBytes 8) (s.homeAt ea)).endOp ea
            let s := ((s.modMe Thread.released).shadowRelease ea).clampCount 3
            .counted (if r.2 then s.tellProxies p.pa r.1 else s) (semPhase w)

def State.arriveAt (s : State) (kind idx : Nat) : Arrival :=
  if kind = 3 then s.arriveSem idx else s.arriveHw kind idx

/-- An arrival at a semaphore that completes with NR after its scope is known counts its scope-clamp event (R158, R324). -/
def State.clampWait (s : State) (kind : Nat) (nb : BitVec 1) (w : WakeCond) : State :=
  match w with
  | .release _ | .semReply => if kind = 3 ∧ nb = 1 then s.clampCount 3 else s
  | _ => s

def execBarArrive (rd : BitVec 4) (kind : BitVec 2) (idx : BitVec 6) (nb : BitVec 1) (s : State) :
    Host.Outcome State Fault Refusal :=
  match s.arriveAt kind.toNat idx.toNat with
  | .denied s => .next (s.complete nb .denied)
  | .wait s c w => .next ((s.clampWait kind.toNat nb w).notReady nb c w)
  | .trap s c va x => .next (s.trapMe c va x)
  | .counted s token => .next ((s.modMe (fun t => t.setReg rd (BitVec.ofNat 64 token))).completeP nb .rdy)

/-! ## Waits (R151, R159) -/

/-- RDY at distance 1, STALE beyond (R151). -/
def waitCode (d : Nat) : OCode := if d = 1 then .rdy else .stale

/-- A barrier acquire: the detector's epoch, where the barrier gives one, and its overflow flag (R326). -/
def State.barAcquire (s : State) (scope : Nat) (epoch : Option Nat) : State :=
  (s.acquireStep s.myCore scope).modMe (fun t => { t with epoch := epoch.getD t.epoch, overflow := false })

/-- The wait part of `bar.wait` and `bar.aw` on a token; `clamp`: it counts the instruction's scope-clamp event, which for
`bar.aw` its arrival part has counted (R324). -/
def State.waitAt (s : State) (kind idx token : Nat) (nb : BitVec 1) (clamp : Bool) : State :=
  if kind = 3 then
    let ea := s.semVa idx
    if ea.toNat % 8 ≠ 0 then s.trapMe .access ea 0
    else if inWindows ea then s.complete nb .denied
    else
      match s.attempt .semLoad ea 8 8 true (allBytes 8) with
      | .trap s c va x => s.trapMe c va x
      | .denied s => s.complete nb .denied
      | .stop s c w => s.notReady nb c w
      | .ok s p =>
        let w := s.readAt p ea 8
        let s := (s.touch p).endOp ea
        let d := (semPhase w + 2 ^ 16 - token) % 2 ^ 16
        if semMalformed w || semUnconfigured w then s.complete nb .denied
        else if d = 0 then s.notReady nb .nr (.semPhase p.pa (semPhase w))
        else
          let sc := s.capScope (semScope w)
          let s := if clamp then s.clampCount (semScope w) else s
          ((s.shadowAcquire ea sc).barAcquire sc none).completeP nb (waitCode d)
  else
    let c := s.myCore
    let unit := unitOf kind c
    let b := s.bar kind unit idx
    if !s.holdsBar kind idx || decide (b.expected = 0) then s.complete nb .denied
    else
      let v := b.seen (s.now (coreDie c)) c
      let d := (v.1 + 2 ^ 16 - token) % 2 ^ 16
      if d = 0 then s.notReady nb .nr (.phase kind unit idx)
      else (s.barAcquire kind (some v.2)).completeP nb (waitCode d)

def execBarWait (rs1 : BitVec 4) (kind : BitVec 2) (idx : BitVec 6) (nb : BitVec 1) (s : State) :
    Host.Outcome State Fault Refusal :=
  .next (s.waitAt kind.toNat idx.toNat ((s.me.reg rs1).toNat % 2 ^ 16) nb true)

/-- `bar.aw`: the arrival as with nb = 0, then the wait on its token; a re-issue performs the wait alone (R160),
also one after a trap in the wait (log 23). -/
def execBarAw (rd : BitVec 4) (kind : BitVec 2) (idx : BitVec 6) (nb : BitVec 1) (s : State) :
    Host.Outcome State Fault Refusal :=
  let pc := s.me.pc
  let waitOn (s : State) (token : Nat) : State :=
    let s := s.waitAt kind.toNat idx.toNat token nb false
    if s.me.pc = pc then s else s.modMe (fun t => { t with arrived := none })
  match s.me.arrived.filter (fun x => decide (x.1 = pc)) with
  | some x => .next (waitOn s x.2)
  | none =>
    match s.arriveAt kind.toNat idx.toNat with
    | .denied s => .next (s.complete nb .denied)
    | .wait s c w => .next (s.notReady 0 c w)
    | .trap s c va x => .next (s.trapMe c va x)
    | .counted s token =>
      .next (waitOn (s.modMe (fun t => { t.setReg rd (BitVec.ofNat 64 token) with arrived := some (pc, token) })) token)

/-! ## Configuration (R161) -/

/-- Whether a configuration breaks a rule of the table of R161. -/
def cfgBroken (kind v : Nat) : Bool :=
  let step := v / 2 ^ 32 % 256
  let scope := v / 2 ^ 16 % 8
  decide (v / 2 ^ 40 ≠ 0) || decide (v / 2 ^ 19 % 2 ^ 13 ≠ 0) || decide (v % 2 ^ 16 = 0) ||
    (decide (kind = 0 ∨ kind = 3) && decide (step ≠ 0)) ||
    (if kind = 3 then decide (scope ≠ 3 ∧ scope ≠ 4) else decide (scope ≠ 0))

/-- A semaphore's word under a configuration, and whether it advances. -/
def semConfigure (w v : Nat) : Nat × Bool :=
  let expected := v % 2 ^ 16
  let scope := v / 2 ^ 16 % 8
  if semUnconfigured w then (semWord 0 expected 0 scope, false)
  else if expected ≤ semArrived w then (semWord (semPhase w + 1) expected 0 scope, true)
  else (semWord (semPhase w) expected (semArrived w) scope, false)

def State.configureSem (s : State) (idx v : Nat) (nb : BitVec 1) : State :=
  let ea := s.semVa idx
  if ea.toNat % 8 ≠ 0 then s.trapMe .access ea 0
  else if inWindows ea || cfgBroken 3 v then s.complete nb .denied
  else
    match s.attempt .amo ea 8 8 true (allBytes 8) with
    | .trap s c va x => s.trapMe c va x
    | .denied s => s.complete nb .denied
    | .stop s c w => s.notReady nb c w
    | .ok s p =>
      let w := s.readAt p ea 8
      let proxy : Bool := match s.binding p.pa w with | .proxy .. => true | _ => false
      if semMalformed w || proxy then (s.endOp ea).complete nb .denied
      else
        let r := semConfigure w v
        let s := (s.writeAt p ea 8 r.1 (allBytes 8) (s.homeAt ea)).endOp ea
        let s := if r.2 then s.tellProxies p.pa r.1 else s
        (s.clampCount 3).completeP nb .rdy

def execBarCfg (rs1 : BitVec 4) (kind : BitVec 2) (idx : BitVec 6) (nb : BitVec 1) (s : State) :
    Host.Outcome State Fault Refusal :=
  let v := (s.me.reg rs1).toNat
  let k := kind.toNat
  if k = 3 then .next (s.configureSem idx.toNat v nb)
  else
    let unit := unitOf k s.myCore
    let b := s.bar k unit idx.toNat
    if !s.holdsBar k idx.toNat || cfgBroken k v then .next (s.complete nb .denied)
    else
      let expected := v % 2 ^ 16
      let s := s.setBar k unit idx.toNat { b with expected := expected, step := v / 2 ^ 32 % 256 }
      .next ((if expected ≤ b.arrived then s.advanceBar k unit idx.toNat else s).completeP nb .rdy)

/-! ## Events -/

/-- BARRIER_RELEASE: a core's release cycle is reached, and its waiters wake (R153, R154). -/
def execBarrierRelease (kind unit idx core : Nat) (s : State) : Host.Outcome State Fault Refusal :=
  let b := s.bar kind unit idx
  match b.rel.find? (fun x => decide (x.1 = core)) with
  | some x =>
    if x.2.1 ≤ s.now (unitDie kind unit) then
      .next ((s.setBar kind unit idx { b with rel := tdel b.rel core }).wakeCore kind unit idx [core])
    else notEnabled "BARRIER_RELEASE"
  | none => notEnabled "BARRIER_RELEASE"

/-- The cycle of the next release of a barrier of a die that is not yet made: with the core, of a list of barriers. -/
def firstRelease (l : Tbl Bar) : Option (Nat × Nat × Nat) :=
  leastBy (fun x => x.2.2) (l.flatMap (fun b => b.2.rel.map (fun r => (b.1, r.1, r.2.1))))

/-- The next release of a die: its kind, unit, index and core, and its cycle (R153). -/
def State.nextRelease (s : State) (d : Nat) : Option (Nat × Nat × Nat × Nat × Nat) :=
  let tag (kind : Nat) (x : Nat × Tbl Bar) : Option (Nat × Nat × Nat × Nat × Nat) :=
    (firstRelease x.2).map (fun r => (kind, x.1, r.1, r.2.1, r.2.2))
  let all := (s.cores.filterMap (fun k => if coreDie k.1 = d then tag 0 (k.1, k.2.bars) else none)) ++
    (s.formes.filterMap (fun f => if formeDie f.1 = d then tag 1 (f.1, f.2.bars) else none)) ++
    (s.dies.filterMap (fun x => if x.1 = d then tag 2 (d, x.2.bars) else none))
  leastBy (fun x => x.2.2.2.2) all

/-- A release whose cycle has been reached (R153, R154). -/
def State.releaseDue (s : State) : Option Instr :=
  [0, 1, 2, 3].findSome? (fun d =>
    match s.nextRelease d with
    | some (kind, unit, idx, core, cycle) => if cycle ≤ s.now d then some (.barrierRelease kind unit idx core) else none
    | none => none)

/-- The core cycles of a span that pass on a die before a release is due there (R153). -/
def State.cycleRoom (s : State) (d n : Nat) : Nat :=
  match s.nextRelease d with
  | some (_, _, _, _, cycle) => min n (cycle - s.now d)
  | none => n

/-- SEM_REMOTE_ARRIVAL: an arrival from package `pkg` is counted at the home word of a binding entry, and answered with
the phase it was counted in (R378). -/
def execSemRemoteArrival (entry pkg uid : Nat) (s : State) : Host.Outcome State Fault Refusal :=
  match tget Binding.none s.bindings entry with
  | .home pa _ =>
    let w := s.peek pa 8
    if s.quietAll pa 8 ∧ !semMalformed w ∧ !semUnconfigured w then
      let r := semArrive w
      let s := s.homeWrite pa 8 r.1
      let s := { s with podOut := s.podOut ++ [.reply pkg uid (semPhase w)] }
      .next (if r.2 then s.tellProxies pa r.1 else s)
    else notEnabled "SEM_REMOTE_ARRIVAL"
  | _ => notEnabled "SEM_REMOTE_ARRIVAL"

/-- A phase written into a proxy: never backward (R378). -/
def State.writeProxy (s : State) (pa phase : Nat) : State :=
  let w := s.peek pa 8
  if (phase + 2 ^ 16 - semPhase w) % 2 ^ 16 < 32768 then
    s.homeWrite pa 8 (w % 2 ^ 48 + phase % 2 ^ 16 * 2 ^ 48)
  else s

/-- SEM_ARRIVAL_REPLY: the proxy's phase is written, that of the arriving thread, whose wake fires, or that of the binding
entry from which hardware has arrived (R378). -/
def execSemArrivalReply (uid phase : Nat) (s : State) : Host.Outcome State Fault Refusal :=
  if hardwareUid ≤ uid then
    match tget Binding.none s.bindings (uid - hardwareUid) with
    | .proxy pa _ _ =>
      if s.quietAll pa 8 then .next (s.writeProxy pa phase) else notEnabled "SEM_ARRIVAL_REPLY"
    | _ => notEnabled "SEM_ARRIVAL_REPLY"
  else
  match (s.thr uid).remote with
  | some r =>
    if r.reply.isNone ∧ s.quietAll r.pa 8 then
      let s := (s.writeProxy r.pa phase).modThr uid (fun t => { t with
        remote := some { pa := r.pa, reply := some (phase % 2 ^ 16) } })
      .next (s.fireOf uid .semReply)
    else notEnabled "SEM_ARRIVAL_REPLY"
  | none => notEnabled "SEM_ARRIVAL_REPLY"

/-- SEM_PHASE_UPDATE: a home's advance reaches the proxy word of a binding entry (R378). -/
def execSemPhaseUpdate (entry phase : Nat) (s : State) : Host.Outcome State Fault Refusal :=
  match tget Binding.none s.bindings entry with
  | .proxy pa _ _ =>
    if s.quietAll pa 8 then .next (s.writeProxy pa phase) else notEnabled "SEM_PHASE_UPDATE"
  | _ => notEnabled "SEM_PHASE_UPDATE"

end Sys2Proof.Machine
end

