-- ==== Sys2Proof/Machine/Home.lean ====
section
/-! DEFINITION. What the agents that keep no L1 copy share (presses, galleys, ports): their accesses to paged memory at
the home (R224, R249, R426), and tensor identifiers (R244 to R248). -/

namespace Sys2Proof.Machine

open Sys2Proof

/-! ## Accesses at the home -/

/-- What an agent's access to one VA meets. -/
inductive Look where
  | hit (pa pte entry home : Nat)
  | absent                 -- the page is not present
  | denied                 -- outside paged memory, forbidden by the page, or a write to shadow pages (R325)
  | poison (pa : Nat)      -- a poisoned line (R61)
  | busy                   -- the home cannot serve it now (R90, R113), or the page is frozen (R274)
  deriving DecidableEq, Repr

/-- An access of an agent within one line (R274, R426); `press`: a read consumes poison (R227). An address outside paged
memory is denied, to a press as to a galley (log 25). -/
def State.look (s : State) (ctx va : Nat) (write press : Bool) : Look :=
  if !inPaged va then .denied
  else if s.walkHeld ctx va then .busy
  else
    match s.walk ctx va with
    | .absent .. => .absent
    | .leaf lv p entry homes =>
      let pa := leafPa lv p va
      if paClass pa = .device ∨ (write && s.inShadow ctx va) ∨ (if write then !pteW p else !pteR p) then .denied
      else if write && pteMG p then .busy
      else if !s.quiet (pa / 128) then .busy
      else
        let home := (homes[pa / 128 % homes.length]?).getD 0
        if !s.portOpen home ctx then .busy
        else if press && !write && s.poisonOf (pa / 128) then .poison (pa / 128 * 128)
        else .hit pa p entry home

/-- The leaf of a walk with A set, whatever its access then meets (R273): an address outside paged memory is not walked to. -/
def State.markWalk (s : State) (ctx va : Nat) : State := if inPaged va then s.markVa ctx va false else s

/-- What the accesses of one unit of an agent's work meet, in order. -/
inductive Acc where
  | ok (s : State)
  | absent (s : State) (va : Nat)
  | denied (s : State)
  | poison (s : State) (pa : Nat)
  | busy

/-- Every VA of a list (with its length) may be accessed; `quad` is the die and quadrant of the unit whose misses the
homes count (R281). A walk sets A also in a leaf that then refuses the access (R273). The first VA that is not met with a
hit decides what the unit meets (log 25). -/
def State.lookAll (s : State) (ctx : Nat) (write press : Bool) (quad : Option (Nat × Nat)) : List (Nat × Nat) → Acc
  | [] => .ok s
  | (va, _) :: l =>
    match s.look ctx va write press with
    | .hit pa p e home =>
      let way : Bool := match quad with | some x => s.wayOpen x.1 (coreDie home) | none => true
      if !way then .busy
      else
        let s := ((s.markMask ctx p).markEntry e p write).homeRequest home (pa / 128) ctx quad
        State.lookAll s ctx write press quad l
    | .absent => .absent s va
    | .denied => .denied (s.markWalk ctx va)
    | .poison pa => .poison (s.markVa ctx va false) pa
    | .busy => .busy

/-- The race detector's checks of an agent's accesses (R326 to R328). -/
def State.raceAll (s : State) (ctx : Nat) (a : Agent) (write : Bool) : List (Nat × Nat) → Acc
  | [] => .ok s
  | (va, n) :: l =>
    let tracked : Bool := match s.walk ctx va with | .leaf _ p _ _ => pteT p | _ => true
    match s.raceCheck ctx a va (sectorsOf va n) write tracked with
    | .ok s | .conflict s => State.raceAll s ctx a write l
    | .absent s page => .absent s (page * 65536)

/-- The accesses of one unit: all may be performed, or none is. -/
def State.agentAccess (s : State) (ctx : Nat) (a : Agent) (write : Bool) (l : List (Nat × Nat)) : Acc :=
  match s.lookAll ctx write (decide (a.unit = 1)) (some (coreDie a.core, a.quad)) l with
  | .ok s => if (s.ctx ctx).race = 0 then .ok s else s.raceAll ctx a write l
  | r => r

/-- A read at the home by VA; the value of a page that is not mapped is not read. -/
def State.readVa (s : State) (ctx va n : Nat) : State × Nat :=
  match s.reach ctx va false with
  | some (s, pa) => s.homeRead pa n
  | none => (s, 0)

/-- A write at the home by VA. -/
def State.writeVa (s : State) (ctx va n v : Nat) : State :=
  match s.reach ctx va true with
  | some (s, pa) => s.homeWrite pa n v
  | none => s

/-- A VA advanced by a signed number of bytes. -/
def vaAdd (base : Nat) (d : Int) : Nat := (((base : Int) + d) % (2 ^ 64 : Nat)).toNat

/-! ## The launch record (R345) -/

def Kernel.word (k : Kernel) (i : Nat) : Nat := ((k.words[i]?).getD 0).toNat

/-- The identifier table of the launch (R244). -/
def Kernel.tids (k : Kernel) : Word := (k.words[4]?).getD 0

/-! ## Tensor identifiers (R245) -/

/-- Bytes of an element of a 4-bit type code (R46). -/
def typeBytes (t : Nat) : Nat :=
  match type4 t with
  | some x => x.width / 8
  | none => 0

def idWord (e : List Word) (i : Nat) : Nat := ((e[i]?).getD 0).toNat
def idBase (e : List Word) : Nat := idWord e 0
def idType (e : List Word) : Nat := idWord e 1 % 16
def idKind (e : List Word) : Nat := idWord e 1 / 16 % 16
def idRank (e : List Word) : Nat := idWord e 1 / 256 % 8
def idTarget (e : List Word) : Nat := idWord e 1 / 65536 % 256
def idSel (e : List Word) : Nat := idWord e 1 / 2 ^ 24 % 4
def idSize (e : List Word) (d : Nat) : Nat :=
  let v := idWord e 2 / 65536 ^ d % 65536
  if v = 0 then 65536 else v
def idStride (e : List Word) (d : Nat) : Int := toInt true 32 (idWord e (3 + d / 2) / 2 ^ (32 * (d % 2)))
def idScale (e : List Word) : Nat := idWord e 5

/-- A well-formed entry of index `own` (R245): one that meets the list of the rule and what its table asks of each field
(log 58). -/
def idOk (own : Nat) (e : List Word) : Bool :=
  let w := idWord e 1
  let n := typeBytes (idType e)
  decide (e.length = 8) && decide (w / 2 ^ 26 = 0 ∧ w / 2 ^ 11 % 32 = 0 ∧ idWord e 6 = 0 ∧ idWord e 7 = 0) &&
    decide (idKind e = 1 ∨ idKind e = 2) && decide (n ≠ 0) && decide (1 ≤ idRank e ∧ idRank e ≤ 4) &&
    (List.range 4).all (fun d => decide (d < idRank e) || decide (idSize e d = 1)) &&
    inPaged (idBase e) && decide (idBase e % n = 0) &&
    (List.range 4).all (fun d => decide (idStride e d % (n : Int) = 0)) &&
    (if idKind e = 1 then decide (idSel e = 0 ∧ idTarget e = 0 ∧ idScale e % 4 = 0)
    else
      [1, 2, 3, 5, 6, 7].contains (idType e) && decide (idSel e < idRank e ∧ idTarget e ≠ own) &&
        decide (idStride e 1 = 0 ∧ idStride e 2 = 0 ∧ idStride e 3 = 0 ∧ idScale e = 0))

/-- The VA of an element, where it exists (R246). -/
def idElement (e : List Word) (c : List Nat) : Option Nat :=
  if (List.range 4).all (fun d => decide (c.getD d 0 < idSize e d)) then
    some (vaAdd (idBase e) ((List.range 4).foldl (fun (a : Int) d => a + (c.getD d 0 : Int) * idStride e d) 0))
  else none

/-- The index of the scale of the block that holds an element (R223). -/
def scaleIndex (e : List Word) (c : List Nat) (b0 b1 : Nat) : Nat :=
  let up (a b : Nat) : Nat := (a + b - 1) / b
  ((c.getD 3 0 * idSize e 2 + c.getD 2 0) * up (idSize e 1) b1 + c.getD 1 0 / b1) * up (idSize e 0) b0 + c.getD 0 0 / b0

/-- What the read of a table entry meets (R248). -/
inductive Entry where
  | words (s : State) (e : List Word)   -- an empty list where the launch names no table
  | absent (va : Nat)
  | poison (s : State) (pa : Nat)
  | busy

/-- The read of entry `n` of a table by a unit of a die and quadrant (R248, R281). An entry that may not be read is no valid
entry. -/
def State.readEntry (s : State) (ctx : Nat) (tids : Word) (n : Nat) (press : Bool) (quad : Nat × Nat) : Entry :=
  let va := (tids.toNat + 64 * n) % 2 ^ 64
  if tids = 0 then .words s []
  else
    match s.look ctx va false press with
    | .hit pa p e home =>
      let (s, v) := (((s.markMask ctx p).markEntry e p false).homeRequest home (pa / 128) ctx (some quad)).homeRead pa 64
      .words s ((List.range 8).map (fun i => BitVec.ofNat 64 (v / 2 ^ (64 * i))))
    | .absent => .absent va
    | .denied => .words (s.markWalk ctx va) []
    | .poison pa => .poison (s.markVa ctx va false) pa
    | .busy => .busy

end Sys2Proof.Machine
end

