-- ==== Sys2Proof/Machine/Galley.lean ====
section
/-! DEFINITION. Galley engines, transfer records and completion objects (R49, R50, R249 to R256), sweep engines (R257),
and the instructions that drive them (R259 to R263). -/

namespace Sys2Proof.Machine

open Sys2Proof

/-! ## Channels and records -/

def State.chan (s : State) (d ch : Nat) : Channel := tget Channel.fresh (s.die d).chans ch
def State.modChan (s : State) (d ch : Nat) (f : Channel → Channel) : State :=
  s.modDie d (fun k => { k with chans := tset k.chans ch (f (tget Channel.fresh k.chans ch)) })
def State.modRec (s : State) (d ch n : Nat) (f : GRec → GRec) : State :=
  s.modChan d ch (fun c => { c with recs := c.recs.modify n f })

/-- The fields of a record (R49). -/
def GRec.word (r : GRec) (i : Nat) : Nat := ((r.words[i]?).getD 0).toNat
def GRec.op (r : GRec) : Nat := r.word 1 / 2 ^ 56 % 128
def GRec.owned (r : GRec) : Bool := decide (r.word 1 / 2 ^ 63 = 1)
def GRec.round (r : GRec) : Nat := r.word 1 / 256 % 16
def GRec.ordered (r : GRec) : Bool := decide (r.word 1 / 2 % 2 = 1)
def GRec.last (r : GRec) : Bool := decide (r.word 1 % 2 = 1)
def GRec.srcId (r : GRec) : Nat := r.word 2 % 256
def GRec.dstId (r : GRec) : Nat := r.word 4 % 256
def GRec.extent (r : GRec) (d : Nat) : Nat :=
  let v := r.word 2 / 65536 / 4096 ^ d % 4096
  if v = 0 then 4096 else v
def GRec.start (r : GRec) (d : Nat) : Nat := r.word 3 / 65536 ^ d % 65536
def GRec.dstart (r : GRec) (d : Nat) : Nat := r.word 5 / 65536 ^ d % 65536
def GRec.cobj (r : GRec) : Nat := r.word 6
def GRec.cursor (r : GRec) : Nat := r.word 7 % 2 ^ 32

/-- Step 1 of R252. -/
def GRec.malformed (r : GRec) : Bool :=
  let w := r.word 1
  decide (r.op = 0 ∨ 5 < r.op) || decide (w / 2 ^ 12 % 2 ^ 36 ≠ 0) || decide (w / 4 % 64 ≠ 0) ||
    decide (r.word 2 / 256 % 256 ≠ 0) || decide (r.word 4 / 256 ≠ 0) || decide (r.word 7 / 2 ^ 40 ≠ 0) ||
    decide (r.word 0 % 64 ≠ 0) || decide (4 < r.round) || (decide (r.op ≠ 5) && decide (r.round ≠ 0)) ||
    (decide (r.op = 4) && decide (r.srcId ≠ 0))

/-- The type of the elements that an identifier names: that of its target where it is composed (R247). -/
def elemType (e tgt : List Word) : Nat := if idKind e = 2 then idType tgt else idType e

/-- Step 3 of R252, for one side. -/
def boxFits (e : List Word) (start extent : Nat → Nat) : Bool :=
  (List.range 4).all (fun d => decide (start d + extent d ≤ idSize e d))

/-- Step 4 of R252: the kinds and types that each op accepts (R251). FILL takes a composed destination, as the table of
R251 says, although R247 does not name it (log 58). -/
def GRec.kindsOk (r : GRec) (src dst tgt : List Word) : Bool :=
  match r.op with
  | 1 => decide (idKind src = 1 ∧ idKind dst = 1 ∧ idType src = idType dst)
  | 2 => decide (idKind src = 2 ∧ idKind dst = 1 ∧ idType tgt = idType dst)
  | 3 => decide (idKind src = 1 ∧ idKind dst = 2 ∧ idType src = idType tgt)
  | 4 => true
  | _ => decide (idKind src = 1 ∧ idKind dst = 1)

/-- Bytes of a destination element. -/
def GRec.width (r : GRec) : Nat := typeBytes (elemType r.dst r.tgt)

/-- Box points, and the chunks of a record (R253). -/
def GRec.points (r : GRec) : Nat := r.extent 0 * r.extent 1 * r.extent 2 * r.extent 3
def GRec.chunkCount (r : GRec) : Nat := (r.points * r.width + 511) / 512

/-- The first chunk whose bit is clear (R254). -/
def GRec.firstClear (r : GRec) : Nat :=
  if r.entered then ((List.range r.chunks).find? (fun j => !r.done.contains j)).getD r.chunks else 0

/-- The agent that a record is for the race detector (R326). -/
def Kick.agentOf (k : Kick) (ch : Nat) : Agent :=
  { uid := k.uid, number := k.agent, interval := k.interval, epoch := k.epoch, core := k.core, unit := 2,
    quad := ch / 16, pc := k.pc }

/-- A release of an engine writes the shadow of the sector it writes, with the interval that the kicking thread held after
its release (R326). Where the shadow page is not present it writes none (log 10). -/
def State.shadowEngine (s : State) (k : Kick) (va : Nat) : State :=
  if (s.ctx k.ctx).race = 0 then s
  else
    let tracked := match s.walk k.ctx va with | .leaf _ p .. => pteT p | .absent .. => true
    match s.reach k.ctx (s.shadowVa k.ctx va) true with
    | some (s, pa) => s.plantWord pa 8 (shadowWord (k.agentOf 0) tracked)
    | none => s

/-- The die and quadrant of the engine of a channel (R14, R281). -/
def engineQuad (d ch : Nat) : Nat × Nat := (d, ch / 16)

/-- Kick-queue entry freed: what waits on the channel wakes (R261). -/
def State.kickTaken (s : State) (d ch : Nat) : State := s.fire (fun w => decide (w = .kick d ch))

/-! ## End writes (R254) -/

/-- Where a write at the end of a record goes. -/
inductive EndWrite where
  | write (s : State)      -- may be made
  | leave (s : State)                -- is left undone
  | wait (va : Nat)        -- its page is not present
  | busy

/-- A write of a record's end at a VA. -/
def State.endPage (s : State) (quad : Nat × Nat) (r : GRec) (va : Nat) : EndWrite :=
  if r.skip.contains (pageOf va) then .leave s
  else
    match s.lookAll r.kick.ctx true false (some quad) [(va, 8)] with
    | .ok s => .write s
    | .absent _ va => .wait va
    | .denied s => .leave s
    | .poison .. | .busy => .busy

/-- Whether a status stops the chain (R50). -/
def stopsChain (st : Nat) : Bool := decide (st = 4 ∨ st = 5 ∨ 0x10 ≤ st)

/-- The cause that goes with a status (R252). -/
def causeOf (st : Nat) : Nat := if st = 2 ∨ st = 5 then 7 else if st = 1 ∨ st = 3 then 0 else 11

/-- Status, cause, cursor and own of a record (R50). Bits 63 to 40 of +56, to which R49 and R50 give no value then, are
written as zero (log 58). -/
def State.writeRecord (s : State) (r : GRec) (st : Nat) : State :=
  let va := r.va.toNat
  let own := if st = 2 ∨ st = 3 then 1 else 0
  let w1 := own * 2 ^ 63 + r.op * 2 ^ 56 + st * 2 ^ 48 + r.word 1 % 2 ^ 48
  let s := s.writeVa r.kick.ctx (va + 56) 8 (causeOf st * 2 ^ 32 + r.firstClear % 2 ^ 32)
  (s.writeVa r.kick.ctx (va + 8) 8 w1).shadowEngine r.kick va

/-- The words of a completion object's bitmap (R253). -/
def State.objectWords (s : State) (r : GRec) : List Nat :=
  let capacity := (s.readVa r.kick.ctx r.cobj 4).2
  (List.range ((capacity + 63) / 64)).map (fun i => r.cobj + 16 + 8 * i)

/-- The end field of a completion object (R254). -/
def State.writeEnd (s : State) (r : GRec) (st : Nat) : State :=
  (s.writeVa r.kick.ctx (r.cobj + 12) 1 st).shadowEngine r.kick r.cobj

/-- An amo of 0 on a bitmap word, which fires every watch on it (R254, R262). -/
def State.rewriteWord (s : State) (r : GRec) (va : Nat) : State :=
  s.writeVa r.kick.ctx va 8 (s.readVa r.kick.ctx va 8).2

/-- The chain that a channel reads ends. -/
def Channel.endChain (c : Channel) (serial : Nat) : Channel :=
  if c.serial = serial then { c with chain := none, next := 0, waitFault := none } else c

/-- The chain of a record ends, on its channel or in what a saved context keeps of the channel (R50, R256). -/
def State.endChain (s : State) (d ch ctx serial : Nat) : State :=
  (s.modChan d ch (fun c => c.endChain serial)).modCtx ctx (fun x => { x with chans := x.chans.map (fun y =>
    if y.1 = 64 * d + ch ∧ y.2.serial = serial then (y.1, { y.2 with chain := none, next := 0, waitFault := none }) else y) })

/-- Whether the context of a kick runs (R256). -/
def State.ctxRuns (s : State) (x : Nat) : Bool := decide ((s.ctx x).st = .running)

/-- A page to which a record's end writes are left undone: one event (R254). -/
def State.abandon (s : State) (d ch n va : Nat) : State :=
  match ((s.chan d ch).recs)[n]? with
  | none => s
  | some r =>
    if r.skip.contains (pageOf va) then s
    else (s.countDie d 0x4001 0 1).modRec d ch n (fun y => { y with skip := y.skip ++ [pageOf va] })

/-- One end write of a record: made, or left undone. -/
def State.endWrite (s : State) (d ch n va : Nat) (r : GRec) (f : State → State) : State :=
  match s.endPage (engineQuad d ch) r va with
  | .write s => f s
  | _ => s.abandon d ch n va

/-- The VAs that a record's end writes (R254): its own words, the header of its object, and, where the record stops its
chain, the words of the bitmap. -/
def State.endVas (s : State) (r : GRec) (st : Nat) : List Nat :=
  if r.cobj = 0 ∨ (st ≠ 1 ∧ !stopsChain st) then [r.va.toNat]
  else
    let words := if stopsChain st then
        (match s.lookAll r.kick.ctx false false none [(r.cobj, 8)] with | .ok s => s.objectWords r | _ => [])
      else []
    r.va.toNat :: (r.cobj + 8) :: words

/-- The end writes of a record, and its state after them; `none` where they cannot be made now. Where a page of them is not
present, its fault is opened and they wait for it (R254). -/
def State.finishRec (s : State) (d ch n : Nat) (r : GRec) (st : Nat) : Option State :=
  let q := engineQuad d ch
  let vas := s.endVas r st
  let absent (va : Nat) : Bool := match s.endPage q r va with | .wait _ => true | _ => false
  if vas.any (fun va => match s.endPage q r va with | .busy => true | _ => false) then none
  else
    match vas.find? absent with
    | some va =>
      some ((s.openFault r.kick.ctx va 5 r.kick.core).modRec d ch n (fun y => { y with ends := y.ends ++ [pageOf va] }))
    | none =>
      let s := s.endWrite d ch n r.va.toNat r (fun s => s.writeRecord r st)
      let s := if vas.length ≤ 1 then s else s.endWrite d ch n (r.cobj + 8) r (fun s => s.writeEnd r st)
      let s := (vas.drop 2).foldl (fun s va => s.endWrite d ch n va r (fun s => s.rewriteWord r va)) s
      let r' := (((s.chan d ch).recs)[n]?).getD r
      let after : RecSt :=
        if st = 2 then (if r.faults = [] then (if s.ctxRuns r.kick.ctx then .running else .finishing 3) else .suspFault)
        else if st = 3 then (if s.ctxRuns r.kick.ctx then .running else .suspPreempt) else .ended st
      let s := s.modRec d ch n (fun y => { y with st := after })
      some (if stopsChain st ∨ (st ≠ 2 ∧ st ≠ 3 ∧ r'.skip ≠ []) then s.endChain d ch r.kick.ctx r.chain else s)

/-! ## Starting a record (R252) -/

/-- What the checks of a record find. -/
inductive Started where
  | ok (s : State) (src dst tgt : List Word)
  | status (s : State) (st : Nat)
  | absent (s : State) (va : Nat)
  | busy

/-- The entries of a record (R248, R252 step 2). -/
def State.recEntries (s : State) (quad : Nat × Nat) (r : GRec) : Started :=
  let k := r.kick
  let withDst (s : State) (src tgt : List Word) : Started :=
    match s.readEntry k.ctx k.tids r.dstId false quad with
    | .absent va => .absent s va
    | .busy => .busy
    | .poison .. => .busy
    | .words s dst =>
      if !idOk r.dstId dst then .status s 0x11
      else if idKind dst = 2 then
        match s.readEntry k.ctx k.tids (idTarget dst) false quad with
        | .absent va => .absent s va
        | .busy => .busy
        | .poison .. => .busy
        | .words s t => if idOk (idTarget dst) t && decide (idKind t = 1) then .ok s src dst t else .status s 0x11
      else .ok s src dst tgt
  if r.op = 4 then withDst s [] []
  else
    match s.readEntry k.ctx k.tids r.srcId false quad with
    | .absent va => .absent s va
    | .busy => .busy
    | .poison .. => .busy
    | .words s src =>
      if !idOk r.srcId src then .status s 0x11
      else if idKind src = 2 then
        match s.readEntry k.ctx k.tids (idTarget src) false quad with
        | .absent va => .absent s va
        | .busy => .busy
        | .poison .. => .busy
        | .words s t => if idOk (idTarget src) t && decide (idKind t = 1) then withDst s src t else .status s 0x11
      else withDst s src []

/-- One VA on each page of `n` bytes from an address. -/
def pagesFrom (va n : Nat) : List (Nat × Nat) :=
  (List.range ((va + n - 1) / 65536 - va / 65536 + 1)).map (fun i => (if i = 0 then va else (va / 65536 + i) * 65536, 8))

/-- Whether a page is tracked and its home stands on a die. -/
def State.ownPage (s : State) (ctx d va : Nat) : Bool :=
  match s.walk ctx va with
  | .leaf lv p _ homes =>
    let line := leafPa lv p va / 128
    pteT p && decide (coreDie ((homes[line % homes.length]?).getD 0) = d)
  | _ => false

/-- Both R and W of the pages of an object's bytes. -/
def State.mayUse (s : State) (quad : Nat × Nat) (ctx : Nat) (l : List (Nat × Nat)) : Acc :=
  match s.lookAll ctx false false (some quad) l with
  | .ok s => s.lookAll ctx true false none l
  | x => x

/-- Steps 5 and 6 of R252: the header's page, then those of the bitmap that its capacity gives. -/
def State.checkObject (s : State) (d ch : Nat) (r : GRec) (src dst tgt : List Word) : Started :=
  let ctx := r.kick.ctx
  let q := engineQuad d ch
  let chunks := { r with dst := dst, tgt := tgt }.chunkCount
  if r.cobj = 0 then .ok s src dst tgt
  else
    match s.mayUse q ctx [(r.cobj, 8)] with
    | .absent s va => .absent s va
    | .denied s => .status s 4
    | .poison .. | .busy => .busy
    | .ok s =>
      let (s, head) := s.readVa ctx r.cobj 8
      let capacity := head % 2 ^ 32
      let pages := pagesFrom r.cobj (16 + 8 * ((capacity + 63) / 64))
      match s.mayUse q ctx pages with
      | .absent s va => .absent s va
      | .denied s => .status s 4
      | .poison .. | .busy => .busy
      | .ok s =>
        if capacity = 0 ∨ capacity % 64 ≠ 0 ∨ capacity < chunks then .status s 0x14
        else if !pages.all (fun x => s.ownPage ctx d x.1) then .status s 4
        else .ok s src dst tgt

/-- The checks of R252 in their order. -/
def State.checkRec (s : State) (d ch : Nat) (r : GRec) : Started :=
  if r.malformed then .status s 0x10
  else
    match s.recEntries (engineQuad d ch) r with
    | .ok s src dst tgt =>
      if (decide (r.op ≠ 4) && !boxFits src r.start r.extent) || !boxFits dst r.dstart r.extent then .status s 0x12
      else if !r.kindsOk src dst tgt then .status s 0x13
      else s.checkObject d ch r src dst tgt
    | x => x

/-- The chunks whose bits are set in a completion object. -/
def State.setBits (s : State) (ctx cobj chunks : Nat) : List Nat :=
  (List.range chunks).filter (fun j => (s.readVa ctx (cobj + 16 + 8 * (j / 64)) 8).2.testBit (j % 64))

/-- A record starts: its checks, and the header of its completion object (R254). -/
def State.startRec (s : State) (d ch n : Nat) (r : GRec) : Option State :=
  match s.checkRec d ch r with
  | .busy => none
  | .status s st => some (s.modRec d ch n (fun y => { y with st := .finishing st }))
  | .absent s va =>
    some ((s.openFault r.kick.ctx va 5 r.kick.core).modRec d ch n (fun y => { y with
      st := .finishing 2, faults := y.faults ++ [pageOf va] }))
  | .ok s src dst tgt =>
    let r' := { r with src := src, dst := dst, tgt := tgt, entered := true }
    let chunks := r'.chunkCount
    let ctx := r.kick.ctx
    let s := if r.cobj ≠ 0 ∧ r.cursor = 0 then (s.writeVa ctx (r.cobj + 8) 8 (chunks % 2 ^ 32)).shadowEngine r.kick r.cobj
      else s
    let bits := if r.cobj = 0 then [] else s.setBits ctx r.cobj chunks
    let past := (List.range chunks).filter (fun j => decide (j < r.cursor) || bits.contains j)
    let r' := { r' with chunks := chunks, written := past, done := past }
    some (s.modRec d ch n (fun _ => if past.length = chunks then { r' with st := .finishing 1 } else r'))

/-! ## Chains -/

/-- Whether a record of the chain holds back those behind it: it is suspended, or it stops the chain and its end writes
are still to come (R50, R254). -/
def Channel.suspended (c : Channel) : Bool :=
  c.recs.any (fun r => decide (r.chain = c.serial) &&
    (match r.st with
    | .suspFault | .suspPreempt => true
    | .finishing st => decide (st = 2 ∨ st = 3) || stopsChain st
    | _ => false))

/-- Whether every record of the chain so far is DONE. -/
def Channel.allDone (c : Channel) : Bool :=
  c.recs.all (fun r => decide (r.chain ≠ c.serial) || decide (r.st = .ended 1))

/-- The next record of the chain that a channel reads (R254). -/
def State.readChain (s : State) (d ch : Nat) : Option State :=
  let c := s.chan d ch
  match c.chain with
  | none => none
  | some k =>
    if c.waitFault.isSome ∨ c.suspended ∨ !s.ctxRuns k.ctx then none
    else
      match s.lookAll k.ctx false false (some (engineQuad d ch)) [(c.next.toNat, 64)] with
      | .absent s _ =>
        some ((s.openFault k.ctx c.next.toNat 5 k.core).modChan d ch (fun y => { y with
          waitFault := some (pageOf c.next.toNat) }))
      | .denied s => some ((s.countDie d 0x4001 0 1).modChan d ch (fun y => y.endChain y.serial))
      | .poison .. | .busy => none
      | .ok s =>
        let (s, v) := s.readVa k.ctx c.next.toNat 64
        let r : GRec :=
          { chain := c.serial, kick := k, va := c.next, words := (List.range 8).map (fun i => BitVec.ofNat 64 (v / 2 ^ (64 * i))),
            src := [], dst := [], tgt := [], entered := false, chunks := 0, written := [], ahead := [], done := [], faults := [],
            ends := [], skip := [], st := .running }
        if !r.owned then some (s.modChan d ch (fun y => y.endChain y.serial))
        else if r.ordered && !c.allDone then none
        else
          let s := s.modChan d ch (fun y => { y with
            recs := y.recs ++ [r], next := (if r.last then 0 else BitVec.ofNat 64 (r.word 0)) })
          let s := if r.last ∨ r.word 0 = 0 then s.modChan d ch (fun y => y.endChain y.serial) else s
          s.startRec d ch c.recs.length r

/-- A channel takes the next head of its kick queue. -/
def State.takeKick (s : State) (d ch : Nat) : Option State :=
  let c := s.chan d ch
  match c.chain, c.kicks with
  | none, k :: rest =>
    if !s.ctxRuns k.ctx then none else
    let recs := c.recs.filter (fun r => match r.st with | .ended _ => false | _ => true)
    some ((State.modChan { s with wakeSeq := s.wakeSeq + 1 } d ch (fun c => { c with
      chain := some k, serial := s.wakeSeq, next := k.va, kicks := rest, recs := recs })).kickTaken d ch)
  | _, _ => none

/-- Whether a record's end writes may be made: every chunk written has its bit. -/
def GRec.settled (r : GRec) : Bool := r.written.all (fun j => r.done.contains j)

/-- A record that an engine visits: one whose end writes are due, or whose start was held up. -/
def State.visitRec (s : State) (d ch : Nat) : Option State :=
  let l := (s.chan d ch).recs
  let due (r : GRec) : Bool := match r.st with
    | .finishing 2 | .finishing 3 => r.settled && r.ends.isEmpty
    | .finishing _ => r.settled && r.faults.isEmpty && r.ends.isEmpty
    | .running => !r.entered && s.ctxRuns r.kick.ctx
    | _ => false
  match (List.range l.length).find? (fun n => match l[n]? with | some r => due r | none => false) with
  | none => none
  | some n =>
    match l[n]? with
    | none => none
    | some r =>
      match r.st with
      | .finishing st => s.finishRec d ch n r st
      | _ => s.startRec d ch n r

/-- A visit of an engine to a channel: a record's end writes, a start that was held up, the next record of the chain, or the
next chain (R254). -/
def State.visit (s : State) (d ch : Nat) : Option State :=
  match s.visitRec d ch with
  | some s => some s
  | none =>
    match s.readChain d ch with
    | some s => some s
    | none =>
      match s.takeKick d ch with
      | some s => some ((s.readChain d ch).getD s)
      | none => none

/-- The channels of an engine that its round meets before one (R250). -/
def State.roundBefore (s : State) (d ch : Nat) : List Nat :=
  let from' := tget 0 (s.die d).turns (ch / 8) % 8
  (List.range ((ch % 8 + 8 - from') % 8)).map (fun i => ch / 8 * 8 + (from' + i) % 8)

/-- GALLEY_CHAIN: an engine visits a channel in its round, which passes over the channels that have no work (R250, R254). -/
def execGalleyChain (die ch : Nat) (s : State) : Host.Outcome State Fault Refusal :=
  if (s.roundBefore die ch).any (fun c => (s.visit die c).isSome) then notEnabled "GALLEY_CHAIN"
  else
    match s.visit die ch with
    | some s => .next (s.modDie die (fun d => { d with turns := tset d.turns (ch / 8) ((ch % 8 + 1) % 8) }))
    | none => notEnabled "GALLEY_CHAIN"

/-! ## Chunks (R251, R253) -/

/-- The box point of a number (R253). -/
def GRec.pointAt (r : GRec) (l : Nat) : List Nat :=
  let e0 := r.extent 0
  let e1 := r.extent 1
  let e2 := r.extent 2
  [l % e0, l / e0 % e1, l / e0 / e1 % e2, l / e0 / e1 / e2]

/-- The numbers of the points of a chunk (R253) that no earlier chunk has written along with its own. -/
def GRec.chunkNums (r : GRec) (j : Nat) : List Nat :=
  let per := 512 / r.width
  ((List.range per).map (fun i => per * j + i)).filter (fun l => decide (l < r.points) && !r.ahead.contains l)

def GRec.srcCoord (r : GRec) (p : List Nat) : List Nat := (List.range 4).map (fun d => r.start d + p.getD d 0)
def GRec.dstCoord (r : GRec) (p : List Nat) : List Nat := (List.range 4).map (fun d => r.dstart d + p.getD d 0)

/-- The VA of the index element that an element of a composed identifier reads (R247). -/
def indexVa (e : List Word) (c : List Nat) : Nat :=
  vaAdd (idBase e) ((c.getD (idSel e) 0 : Int) * idStride e 0)

/-- The element of the target that a composed identifier maps an element to, for the index read (R247). -/
def throughIndex (e tgt : List Word) (c : List Nat) (v : Nat) : Option Nat :=
  let t := idType e
  let i := toInt (decide (t < 4)) (8 * typeBytes t) v
  if i < 0 then none else idElement tgt (c.set (idSel e) i.toNat)

/-- The elements of a side of a record: through the index vector where it is composed. -/
def State.sideElems (s : State) (ctx : Nat) (e tgt : List Word) (l : List (List Nat)) : List (Option Nat) :=
  l.map (fun c =>
    if idKind e = 2 then throughIndex e tgt c (s.readVa ctx (indexVa e c) (typeBytes (idType e))).2
    else idElement e c)

/-- The accesses that read the index vector of a side. -/
def indexVas (e : List Word) (l : List (List Nat)) : List (Nat × Nat) :=
  if idKind e = 2 then l.map (fun c => (indexVa e c, typeBytes (idType e))) else []

/-- The value that a box point's destination takes (R251). -/
def GRec.pointValue (r : GRec) (p : List Nat) (v : Nat) : Nat :=
  match r.op with
  | 4 => r.word 3
  | 5 =>
    match type4 (idType r.src), type4 (idType r.dst) with
    | some a, some b =>
      let q := r.dstCoord p
      (convert a b { mode := r.round, ovf8 := false, thr := ditherThr (q.getD 1 0 % 16) (q.getD 0 0 % 16) 0 } v).1
    | _, _ => v
  | _ => v

/-- Whether an engine may perform a chunk of a record: it runs, or the chunk was in flight when a fault was met. -/
def GRec.mayRun (r : GRec) (j : Nat) : Bool :=
  r.entered && decide (j < r.chunks) && !r.written.contains j && (decide (r.st = .running) || decide (r.st = .finishing 2))

/-- The points that a chunk writes (R253, R255): its own, and those of other chunks, not yet written, whose elements stand
in a word that it writes part of, one element named twice among them, so that one step writes what the record writes of
each word. Where an index that says so cannot be read, what that read meets. -/
def State.chunkPoints (s : State) (ctx : Nat) (a : Agent) (r : GRec) (j : Nat) : List (List Nat) ⊕ Acc :=
  let own := r.chunkNums j
  if 8 ≤ r.width ∨ r.chunks ≤ 1 then .inl (own.map r.pointAt)
  else
    let others := ((List.range r.chunks).filter (fun i => i ≠ j && !r.written.contains i)).flatMap r.chunkNums
    let coord (l : Nat) : List Nat := r.dstCoord (r.pointAt l)
    match s.agentAccess ctx a false (indexVas r.dst ((own ++ others).map coord)) with
    | .ok _ =>
      let words := ((s.sideElems ctx r.dst r.tgt (own.map coord)).filterMap id).map (fun e => e / 8)
      let mates := (others.zip (s.sideElems ctx r.dst r.tgt (others.map coord))).filterMap (fun x =>
        x.2.bind (fun e => if words.contains (e / 8) then some x.1 else none))
      .inl ((own ++ mates).map r.pointAt)
    | .absent _ va => .inr (.absent s va)
    | x => .inr x

/-- The number of a box point (R253). -/
def GRec.pointNum (r : GRec) (p : List Nat) : Nat :=
  p.getD 0 0 + r.extent 0 * (p.getD 1 0 + r.extent 1 * (p.getD 2 0 + r.extent 2 * p.getD 3 0))

/-- The counter of the bytes that a die's galley engine has written (R388): a number above every event code. -/
def galleyBytes : Nat := 65536

/-- A chunk of a record of an op: every point, or a fault, or a refusal by a page (R251, R254). -/
def State.runChunk (s : State) (d ch n j op : Nat) (name : String) : Host.Outcome State Fault Refusal :=
  match ((s.chan d ch).recs)[n]? with
  | none => notEnabled name
  | some r =>
    if decide (r.op ≠ op) || !r.mayRun j then notEnabled name
    else
      let ctx := r.kick.ctx
      let a := r.kick.agentOf ch
      let stop (s : State) (va : Nat) : State :=
        (s.openFault ctx va 5 r.kick.core).modRec d ch n (fun y => { y with
          st := .finishing 2, faults := y.faults ++ [pageOf va] })
      let meet (s : State) (x : Acc) (k : State → Host.Outcome State Fault Refusal) : Host.Outcome State Fault Refusal :=
        match x with
        | .ok s => k s
        | .absent s va => .next (stop s va)
        | .denied s => .next (s.modRec d ch n (fun y => { y with st := .finishing 4 }))
        | .poison .. | .busy => notEnabled name
      match s.chunkPoints ctx a r j with
      | .inr x => meet s x .next
      | .inl points =>
        let srcs := points.map r.srcCoord
        let dsts := points.map r.dstCoord
        let idx := indexVas r.src srcs ++ indexVas r.dst dsts
        meet s (s.agentAccess ctx a false idx) (fun s =>
          let s := idx.foldl (fun s x => (s.readVa ctx x.1 x.2).1) s
          let wsrc := typeBytes (elemType r.src r.tgt)
          let froms := if r.op = 4 then dsts.map (fun _ => none) else s.sideElems ctx r.src r.tgt srcs
          let tos := s.sideElems ctx r.dst r.tgt dsts
          let reads := froms.filterMap (fun x => x.map (fun a => (a, wsrc)))
          let writes := tos.filterMap (fun x => x.map (fun a => (a, r.width)))
          meet s (s.agentAccess ctx a false reads) (fun s =>
            meet s (s.agentAccess ctx a true writes) (fun s =>
              let s := reads.foldl (fun s x => (s.readVa ctx x.1 x.2).1) s
              let vals := froms.map (fun x => match x with | some a => (s.readVa ctx a wsrc).2 | none => 0)
              let s := ((points.zip vals).zip tos).foldl (fun s x =>
                match x.2 with
                | some a => s.writeVa ctx a r.width (r.pointValue x.1.1 x.1.2)
                | none => s) s
              let mates := (points.drop (r.chunkNums j).length).map r.pointNum
              .next ((s.modRec d ch n (fun y => { y with written := y.written ++ [j], ahead := y.ahead ++ mates })).countDie d
                galleyBytes (ch / 8) (r.width * writes.length)))))

def execCopy (die ch rec chunk : Nat) (s : State) : Host.Outcome State Fault Refusal :=
  s.runChunk die ch rec chunk 1 "COPY"
def execCompose (die ch rec chunk : Nat) (s : State) : Host.Outcome State Fault Refusal :=
  s.runChunk die ch rec chunk 2 "COMPOSE"
def execScatter (die ch rec chunk : Nat) (s : State) : Host.Outcome State Fault Refusal :=
  s.runChunk die ch rec chunk 3 "SCATTER"
def execFill (die ch rec chunk : Nat) (s : State) : Host.Outcome State Fault Refusal :=
  s.runChunk die ch rec chunk 4 "FILL"
def execConvert (die ch rec chunk : Nat) (s : State) : Host.Outcome State Fault Refusal :=
  s.runChunk die ch rec chunk 5 "CONVERT"

/-- GALLEY_CHUNK_DONE: the bit of a written chunk is set in the completion object, as a release (R254). -/
def execGalleyChunkDone (die ch rec chunk : Nat) (s : State) : Host.Outcome State Fault Refusal :=
  match ((s.chan die ch).recs)[rec]? with
  | none => notEnabled "GALLEY_CHUNK_DONE"
  | some r =>
    if r.done.contains chunk || !r.written.contains chunk then notEnabled "GALLEY_CHUNK_DONE"
    else
      let mark (s : State) : State := s.modRec die ch rec (fun y =>
        let y := { y with done := y.done ++ [chunk] }
        if y.done.length = y.chunks ∧ y.st = .running then { y with st := .finishing 1 } else y)
      let va := r.cobj + 16 + 8 * (chunk / 64)
      if r.cobj = 0 then .next (mark s)
      else
        match s.endPage (engineQuad die ch) r va with
        | .write s =>
          let old := (s.readVa r.kick.ctx va 8).2
          .next (mark ((s.writeVa r.kick.ctx va 8 (old ||| 2 ^ (chunk % 64))).shadowEngine r.kick va))
        | .leave s =>
          .next (mark (s.abandon die ch rec va))
        | .wait va =>
          if r.ends.contains (pageOf va) then notEnabled "GALLEY_CHUNK_DONE"
          else
            .next ((s.openFault r.kick.ctx va 5 r.kick.core).modRec die ch rec (fun y => { y with
              ends := y.ends ++ [pageOf va] }))
        | .busy => notEnabled "GALLEY_CHUNK_DONE"

/-- A fault of a page is answered for the galley records and chains of a context: for what the record's run waits on, and for
what its end writes wait on (R254, R256). -/
def GRec.answer (r : GRec) (ctx page : Nat) (runs resolve : Bool) : GRec :=
  if r.kick.ctx ≠ ctx then r
  else
    let run := r.faults.contains page
    let l := r.faults.filter (fun p => decide (p ≠ page))
    let skip := if r.ends.contains page ∧ !resolve then r.skip ++ [page] else r.skip
    let r := { r with faults := l, ends := r.ends.filter (fun p => decide (p ≠ page)), skip := skip }
    if !run then r
    else
      match r.st with
      | .suspFault =>
        { r with st := (if !resolve then .finishing 5 else if l ≠ [] then .suspFault else if runs then .running
            else .finishing 3) }
      | .finishing 2 => { r with st := (if resolve then .finishing 2 else .finishing 5) }
      | _ => r

def Channel.answer (c : Channel) (ctx page : Nat) (runs resolve : Bool) : Channel :=
  let c := { c with recs := c.recs.map (fun (r : GRec) => r.answer ctx page runs resolve) }
  match c.chain with
  | some k =>
    if k.ctx = ctx ∧ c.waitFault = some page then
      (if resolve then { c with waitFault := none } else c.endChain c.serial)
    else c
  | none => c

/-- The abandoned writes that a declined fault counts on a die (R254). -/
def Channel.lost (c : Channel) (ctx page : Nat) : Nat :=
  (c.recs.filter (fun r => decide (r.kick.ctx = ctx) && r.ends.contains page && !r.skip.contains page)).length +
    (match c.chain with | some k => if k.ctx = ctx ∧ c.waitFault = some page then 1 else 0 | none => 0)

/-- What a saved context's channel keeps of a chain whose page is answered. -/
def ChanSave.answer (c : ChanSave) (page : Nat) (resolve : Bool) : ChanSave :=
  if c.waitFault = some page then { c with waitFault := none, chain := (if resolve then c.chain else none) } else c

def State.answerGalleys (s : State) (ctx page : Nat) (resolve : Bool) : State :=
  let s := [0, 1, 2, 3].foldl (fun (s : State) (d : Nat) =>
    let saved := ((s.ctx ctx).chans.filter (fun x => decide (x.1 / 64 = d ∧ x.2.waitFault = some page))).length
    let n : Nat := if resolve then 0
      else ((s.die d).chans.map (fun x => x.2.lost ctx page)).foldl (· + ·) saved
    let s := s.modDie d (fun k => { k with chans := k.chans.map (fun x =>
      (x.1, x.2.answer ctx page (s.ctxRuns ctx) resolve)) })
    if n = 0 then s else s.countDie d 0x4001 0 n) s
  s.modCtx ctx (fun x => { x with chans := x.chans.map (fun y => (y.1, y.2.answer page resolve)) })

/-! ## Channels of a saved context (R250) -/

/-- What a channel holds for a context. -/
def Channel.kept (y : Channel) (c : Nat) : Option ChanSave :=
  let kicks := y.kicks.filter (fun k => decide (k.ctx = c))
  let chain := y.chain.filter (fun k => decide (k.ctx = c))
  if kicks = [] ∧ chain = none then none
  else some { kicks := kicks, chain := chain, serial := y.serial, next := y.next,
              waitFault := (if chain = none then none else y.waitFault) }

/-- A channel without what it holds for a context. -/
def Channel.without (y : Channel) (c : Nat) : Channel :=
  let y := { y with kicks := y.kicks.filter (fun k => decide (k.ctx ≠ c)) }
  match y.chain with
  | some k => if k.ctx = c then y.endChain y.serial else y
  | none => y

/-- The kick queues and chains of a context are saved with it (R250, R363). -/
def State.saveChans (s : State) (c : Nat) : State :=
  let kept := s.dies.flatMap (fun d => d.2.chans.filterMap (fun y => (y.2.kept c).map (fun k => (d.1 * 64 + y.1, k))))
  let s : State := { s with dies := s.dies.map (fun d => (d.1, { d.2 with chans := d.2.chans.map (fun y =>
    (y.1, y.2.without c)) })) }
  s.modCtx c (fun x => { x with chans := kept.foldl (fun t k => tset t k.1 k.2) x.chans })

/-- A channel takes up what was saved of it. -/
def Channel.takeUp (y : Channel) (k : ChanSave) : Channel :=
  { y with kicks := k.kicks ++ y.kicks, chain := k.chain, serial := k.serial, next := k.next, waitFault := k.waitFault }

/-- The channels that a running context holds take up what was saved of them under their numbers (R250). -/
def State.restoreChans (s : State) (c : Nat) : State :=
  if !s.ctxRuns c then s
  else
    let ready (k : Nat × ChanSave) : Bool :=
      let y := s.chan (k.1 / 64) (k.1 % 64)
      decide (y.holder = some c) && y.chain.isNone
    let l := (s.ctx c).chans
    let s := (l.filter ready).foldl (fun s k => s.modChan (k.1 / 64) (k.1 % 64) (fun y => y.takeUp k.2)) s
    s.modCtx c (fun x => { x with chans := l.filter (fun k => !ready k) })

/-! ## Sweep engines (R257) -/

/-- Whether a line lies in a page of a sweep's range that is present and untracked, and overlaps the range. -/
def State.inSweep (s : State) (r : SweepReq) (line : Nat) : Bool :=
  let a := r.start.toNat
  decide (r.len ≠ 0) && (List.range ((a + r.len - 1) / 65536 - a / 65536 + 1)).any (fun i =>
    let va := (a / 65536 + i) * 65536
    match s.walk r.ctx va with
    | .leaf lv p _ _ =>
      let pa := leafPa lv p va
      let at' := va + (128 * line - pa)
      !pteT p && decide (pa ≤ 128 * line ∧ 128 * line < pa + 65536 ∧ a < at' + 128 ∧ at' < a + r.len)
    | .absent .. => false)

/-- The leaves of the pages that a sweep passes have A set by its walks (R273). -/
def State.sweepWalks (s : State) (r : SweepReq) : State :=
  let a := r.start.toNat
  if r.len = 0 then s
  else
    (List.range ((a + r.len - 1) / 65536 - a / 65536 + 1)).foldl (fun s i =>
      match s.reach r.ctx ((a / 65536 + i) * 65536) false with
      | some (s, _) => s
      | none => s) s

/-- The untracked lines of a core within a sweep's range. -/
def State.sweepLines (s : State) (r : SweepReq) (c : Nat) : List L1Line :=
  (s.core c).l1.filter (fun x => decide (x.st = .raw) && s.inSweep r x.line)

/-- Dirty bytes of a core within the range that are on their way to the home. -/
def State.sweepWaits (s : State) (r : SweepReq) (c : Nat) : Bool :=
  s.net.any (fun m => decide (m.src = c) && (match m.kind with | .rawWriteBack .. => true | _ => false) &&
    s.inSweep r m.line)

/-- One line of a core swept: its dirty bytes are merged at the home, which an engine of the forme's quadrant asks for
(R281). -/
def State.sweepLine (s : State) (r : SweepReq) (fid c : Nat) (x : L1Line) : State :=
  let s := if r.wb ∧ x.dirty ≠ 0 then
      (s.homeRequest x.home x.line r.ctx (some (formeDie fid, formeQuad fid))).mergeHome x.home x.line x.data x.dirty else s
  if r.inv then s.modCore c (fun k => k.delLine x.line)
  else if r.wb then
    s.modCore c (fun k => { k with l1 := k.l1.map (fun y => if y.line = x.line then { y with dirty := 0 } else y) })
  else s

/-- The unit of the barrier that a sweep arrives at. -/
def sweepUnit (fid kind : Nat) : Nat := if kind = 1 then fid else formeDie fid

/-- SWEEP: a sweep engine takes a request, sweeps one core, and after the last arrives at its barrier (R257). What
fetches of the range under way bring afterwards is read anew (R318, R331). The arrival counts at the barrier that stands
under the index when the sweep ends (log 30). -/
def execSweep (fid : Nat) (s : State) : Host.Outcome State Fault Refusal :=
  let f := s.forme fid
  let taken : Option (State × SweepReq) :=
    match f.sweeping, f.sweeps with
    | some r, _ => some (s, r)
    | none, r :: rest =>
      let r := { r with left := unitCores r.kind (sweepUnit fid r.kind) }
      some ((s.setForme fid { f with sweeps := rest, sweeping := some r }).fire (fun w => decide (w = .sweepEntry fid)), r)
    | none, [] => none
  match taken with
  | none => notEnabled "SWEEP"
  | some (s, r) =>
    match r.left with
    | c :: l =>
      let s := s.sweepWalks r
      let lines := s.sweepLines r c
      if s.sweepWaits r c || lines.any (fun x => (s.core c).pinned x.line) then notEnabled "SWEEP"
      else
        let s := (lines.foldl (fun s x => s.sweepLine r fid c x) s).refetchFor c (fun _ => true) (fun y => s.inSweep r y.line)
        if l = [] then
          .next ((s.modForme fid (fun f => { f with sweeping := none })).engineArrive r.kind (sweepUnit fid r.kind) r.idx)
        else .next (s.modForme fid (fun f => { f with sweeping := some { r with left := l } }))
    | [] => .next ((s.modForme fid (fun f => { f with sweeping := none })).engineArrive r.kind (sweepUnit fid r.kind) r.idx)

/-! ## Instructions -/

/-- Whether `n` bytes from an address lie in paged memory (R20). -/
def rangePaged (a n : Nat) : Bool :=
  decide ((0x100000000 ≤ a ∧ a + n ≤ 2 ^ 54) ∨ (2 ^ 64 - 2 ^ 54 ≤ a ∧ a + n ≤ 2 ^ 64))

/-- A range instruction (R263). -/
def State.rangeOp (s : State) (rs1 rlen : BitVec 4) (kind : BitVec 2) (idx : BitVec 6) (nb : BitVec 1) (wb inv : Bool) :
    State :=
  let a := s.me.reg rs1
  let len := (s.me.reg rlen).toNat
  let k := kind.toNat
  let c := s.myCore
  let f := coreForme c
  if !canonical a.toNat then s.trapMe .access a 0
  else if 2 ^ 40 < len ∨ (len ≠ 0 ∧ !rangePaged a.toNat len) then s.complete nb .denied
  else if !s.holdsBar k idx.toNat || decide ((s.bar k (unitOf k c) idx.toNat).expected = 0) then s.complete nb .denied
  else
    let (s, ok) := s.releaseStep 0
    if !ok then s.notReady nb .nr (.release 0)
    else if 8 ≤ (s.forme f).sweeps.length then s.notReady nb .full (.sweepEntry f)
    else
      let r : SweepReq := { uid := s.cur, gid := s.me.gid, ctx := s.myCtx, core := c, start := a, len := len, wb := wb,
                            inv := inv, kind := k, idx := idx.toNat, left := [] }
      ((s.modForme f (fun q => { q with sweeps := q.sweeps ++ [r] })).modMe Thread.released).completeP nb .rdy

def execRngWb (rs1 rlen : BitVec 4) (kind : BitVec 2) (idx : BitVec 6) (nb : BitVec 1) (s : State) :
    Host.Outcome State Fault Refusal := .next (s.rangeOp rs1 rlen kind idx nb true false)
def execRngInv (rs1 rlen : BitVec 4) (kind : BitVec 2) (idx : BitVec 6) (nb : BitVec 1) (s : State) :
    Host.Outcome State Fault Refusal := .next (s.rangeOp rs1 rlen kind idx nb false true)
def execRngWbinv (rs1 rlen : BitVec 4) (kind : BitVec 2) (idx : BitVec 6) (nb : BitVec 1) (s : State) :
    Host.Outcome State Fault Refusal := .next (s.rangeOp rs1 rlen kind idx nb true true)

/-- `gx.kick` (R261). -/
def execGxKick (rs1 : BitVec 4) (c8 : BitVec 6) (nb : BitVec 1) (s : State) : Host.Outcome State Fault Refusal :=
  let h := s.me.reg rs1
  let d := s.myDie
  let ch := c8.toNat
  if h.toNat % 64 ≠ 0 ∨ !inPaged h.toNat then .next (s.trapMe .access h 0)
  else if (s.chan d ch).holder ≠ some s.myCtx then .next (s.complete nb .denied)
  else
    let (s, ok) := s.releaseStep 2
    if !ok then .next (s.notReady nb .nr (.release 2))
    else if 4 ≤ (s.chan d ch).kicks.length then .next (s.notReady nb .full (.kick d ch))
    else
      let s := s.modMe Thread.released
      let t := s.me
      let k : Kick := { va := h, uid := s.cur, gid := t.gid, ctx := s.myCtx, core := t.core, tids := s.myKer.tids,
                        pc := t.pc, agent := t.agent, interval := t.interval, epoch := t.epoch }
      .next ((s.modChan d ch (fun c => { c with kicks := c.kicks ++ [k] })).completeP nb .rdy)

/-- `cbit.test` (R262). -/
def execCbitTest (rd rs1 rs2 : BitVec 4) (nb : BitVec 1) (s : State) : Host.Outcome State Fault Refusal :=
  let a := s.me.reg rs1
  let mask := s.me.reg rs2
  if a.toNat % 8 ≠ 0 ∨ !inPaged a.toNat then .next (s.trapMe .access a 0)
  else
    match s.attempt .cbit a 8 8 true (allBytes 8) with
    | .trap s c va x => .next (s.trapMe c va x)
    | .denied s => .next (s.complete nb .denied)
    | .stop s c w => .next (s.notReady nb c w)
    | .ok s p =>
      let w : Word := BitVec.ofNat 64 (s.readAt p a 8)
      let s := ((s.touch p).endOp a).modMe (fun t => t.setReg rd w)
      if w &&& mask ≠ mask then .next (s.notReady nb .nr (.lineWritten (p.pa / 128)))
      else .next (((s.acquireStep s.myCore 2).shadowAcquireWork a 2).completeP nb .rdy)

/-- The VA of an entry of the launch's identifier table. -/
def State.entryVa (s : State) (n : Nat) : Word := s.myKer.tids + BitVec.ofNat 64 (64 * n)

/-- The store of `n` bytes to a table entry, as a store of the thread (R259, R260). -/
def State.storeEntry (s : State) (va : Word) (n v : Nat) (nb : BitVec 1) (after : State → State) : State :=
  match s.attempt .entry va n n true (allBytes n) with
  | .trap s c va x => s.trapMe c va x
  | .denied s => s.complete nb .denied
  | .stop s c w => s.notReady nb c w
  | .ok s p => (after ((s.writeAt p va n v (allBytes n) (s.homeAt va)).endOp va)).completeP nb .rdy

/-- `ti.load` (R259). -/
def execTiLoad (rs1 : BitVec 4) (c8 : BitVec 8) (nb : BitVec 1) (s : State) : Host.Outcome State Fault Refusal :=
  let a := s.me.reg rs1
  if a.toNat % 64 ≠ 0 ∨ !inPaged a.toNat then .next (s.trapMe .access a 0)
  else if s.myKer.tids = 0 then .next (s.complete nb .denied)
  else
    match s.attempt .load a 64 64 true (allBytes 64) with
    | .trap s c va x => .next (s.trapMe c va x)
    | .denied s => .next (s.complete nb .denied)
    | .stop s c w => .next (s.notReady nb c w)
    | .ok s p =>
      let v := s.readAt p a 64
      let s := s.touch p
      if !idOk c8.toNat ((List.range 8).map (fun i => BitVec.ofNat 64 (v / 2 ^ (64 * i)))) then
        .next ((s.endOp a).complete nb .denied)
      else .next (s.storeEntry (s.entryVa c8.toNat) 64 v nb (fun s => s.endOp a))

/-- `ti.inv` (R260). -/
def execTiInv (c8 : BitVec 8) (nb : BitVec 1) (s : State) : Host.Outcome State Fault Refusal :=
  if s.myKer.tids = 0 then .next (s.complete nb .denied)
  else .next (s.storeEntry (s.entryVa c8.toNat + 8) 8 0 nb id)

end Sys2Proof.Machine
end

