-- ==== Sys2Proof/Machine/Press.lean ====
section
/-! DEFINITION. The press (R212 to R243): queues, arbitration, planes and holders, the commands unit by unit, and the
three instructions that threads drive it with. -/

namespace Sys2Proof.Machine

open Sys2Proof

/-! ## Command words (R47, R232) -/

def pwOp (w0 : Nat) : Nat := w0 % 256
def pwFlag (w0 i : Nat) : Bool := w0.testBit i
def pwFlags (w0 : Nat) : Nat := w0 / 256 % 256
def pwSource (w0 : Nat) : Nat := w0 / 512 % 4
def pwMode (w0 : Nat) : Nat := w0 / 2048 % 8
def pwType (w0 : Nat) : Nat := w0 / 65536 % 16
def pwM (w0 : Nat) : Nat := w0 / 2 ^ 24 % 256
def pwRows (w0 : Nat) : Nat := if pwM w0 = 0 then 64 else pwM w0
def pwAcc (w0 : Nat) : Nat := w0 / 2 ^ 32 % 65536
def pwAux (w0 : Nat) : Nat := w0 / 2 ^ 48 % 65536

/-- The types a command accepts. -/
def pressTypes (op : Nat) : List Nat :=
  match op with
  | 1 | 3 => [0, 4, 8, 9, 10, 11, 12, 13]
  | 2 | 8 | 9 => [0]
  | 4 | 6 | 7 => [2, 10, 11]
  | 5 => List.range 14
  | _ => []

/-- The flags a command takes. -/
def pressFlags (op : Nat) : Nat :=
  match op with
  | 1 => 0x07
  | 3 => 0x1F
  | 5 => 0xFF
  | 7 => 0x01
  | _ => 0

def usesRows (op : Nat) : Bool := decide (3 ≤ op ∧ op ≤ 7)
def usesOperand (op : Nat) : Bool := decide (op = 1 ∨ op = 3 ∨ op = 5 ∨ op = 7)
def isFp8 (t : Nat) : Bool := decide (t = 12 ∨ t = 13)

/-- Whether a command works on row pairs (R214, R232). -/
def usesPairs (w0 : Nat) : Bool :=
  if pwOp w0 = 5 then decide (pwSource w0 = 2) else decide (pwType w0 = 11)

/-- Accumulator rows that a command spans. -/
def pressSpan (w0 : Nat) : Nat := if usesPairs w0 then 2 * pwRows w0 else pwRows w0

/-- Rows of a window operand, and bytes of each (R220). -/
def operandRows (w0 : Nat) : Nat × Nat :=
  let n := typeBytes (pwType w0)
  match pwOp w0 with
  | 1 => (96 / n, 128 * n)
  | 3 => (pwRows w0, 96)
  | 5 => (pwRows w0, 128 * n)
  | _ => (pwRows w0, if pwType w0 = 11 then 1024 else 512)

/-- Whether each row lies within one region of the LM window or the forme window, and, for a write, off the identity
words (R221). -/
def State.windowOk (s : State) (a rows stride n : Nat) (write : Bool) : Bool :=
  (List.range rows).all (fun i => match s.span s.cur (BitVec.ofNat 64 (a + i * stride)) n write with
    | .lm _ => true
    | _ => false)

/-- The checks of `pq.push` on a command word (R48, R221, R223, R232). -/
def State.pressWordOk (s : State) (w0 w1 w2 w3 : Nat) : Bool :=
  let op := pwOp w0
  let typ := pwType w0
  let n := typeBytes typ
  let tensor := usesOperand op && pwFlag w0 8
  let src := pwSource w0
  let rows := s.myGrp.rows
  let opnd := operandRows w0
  (pressTypes op).contains typ && decide (w0 / 2 ^ 20 % 16 = 0) && decide (pwFlags w0 &&& pressFlags op = pwFlags w0) &&
    decide (pwM w0 ≤ 64) && (usesRows op || decide (pwM w0 = 0 ∧ pwAcc w0 = 0)) &&
    (decide (op = 8) || decide (pwAux w0 / (if tensor then 256 else 1) = 0)) &&
    (if op = 1 then
      decide (src ≠ 3) && (decide (src = 0) || isFp8 typ) && (tensor || decide (src ≠ 2)) &&
        (if src = 1 then decide (w3 / 2 ^ 32 = 0) else decide (w3 = 0))
    else if op = 3 then
      decide (src ≠ 3) && ((decide (src = 0) && !pwFlag w0 11) || isFp8 typ) && (tensor || decide (src ≠ 2)) &&
        (if src = 1 then decide (w3 / 2 ^ 25 = 0 ∧ w3 % 4 = 0) && s.windowOk w3 (pwRows w0) 4 4 false
        else decide (w3 = 0))
    else if op = 5 then
      decide (src ≠ 3 ∧ pwMode w0 ≤ 4) && decide (w3 / 2 ^ 10 = 0 ∧ w3 / 256 % 4 ≠ 3)
    else decide (w3 = 0)) &&
    (if usesOperand op then
      (if tensor then decide (w2 = 0)
      else
        decide (w1 / 2 ^ 25 = 0 ∧ w2 / 2 ^ 18 = 0 ∧ w1 % n = 0 ∧ w2 % n = 0) &&
          s.windowOk w1 opnd.1 w2 opnd.2 (decide (op = 5)))
    else if op = 9 then decide (w1 / 256 = 0 ∧ w2 = 0)
    else if op = 6 then decide (w1 / 65536 = 0 ∧ w2 = 0 ∧ w1 + pressSpan w0 ≤ rows)
    else decide (w1 = 0 ∧ w2 = 0)) &&
    (!usesRows op || decide (pwAcc w0 + pressSpan w0 ≤ rows))

/-! ## Queues -/

def State.pq (s : State) (c : Nat) : PQueue := tget PQueue.fresh (s.forme (coreForme c)).press.queues (corePos c)

def State.modPress (s : State) (f : Nat) (g : Press → Press) : State :=
  s.modForme f (fun k => { k with press := g k.press })

def State.setPq (s : State) (c : Nat) (q : PQueue) : State :=
  s.modPress (coreForme c) (fun p => { p with queues := tset p.queues (corePos c) q })

/-! ## Planes and accumulators -/

/-- The bytes of a plane: `role` 0 active, 1 shadow. Element (k, n) of size z stands at 96 n + z k (R212). -/
def planeByte (f role : Nat) : Nat := (2 * f + role) * 2 ^ 14
def planeBytes : Nat := 12288

def accKey (c row col : Nat) : Nat := (c * 1024 + row) * 128 + col
def State.accGet (s : State) (c row col : Nat) : Nat := (tget 0 s.acc (accKey c row col)).toNat
def State.accSet (s : State) (c row col v : Nat) : State :=
  { s with acc := tset s.acc (accKey c row col) (BitVec.ofNat 32 v) }

/-- Rows set to zero bits. -/
def State.accClear (s : State) (c row n : Nat) : State :=
  { s with acc := s.acc.filter (fun x => decide (x.1 < accKey c row 0 ∨ accKey c (row + n) 0 ≤ x.1)) }

/-- An element of a row, or of a row pair (R214). -/
def State.accElem (s : State) (c row col : Nat) (pair : Bool) : Nat :=
  if pair then s.accGet c row col + 2 ^ 32 * s.accGet c (row + 1) col else s.accGet c row col

def State.accPut (s : State) (c row col v : Nat) (pair : Bool) : State :=
  if pair then (s.accSet c row col (v % 2 ^ 32)).accSet c (row + 1) col (v / 2 ^ 32) else s.accSet c row col v

/-- The byte of the local memories behind a window address of a core (R20, R22). -/
def State.windowByte (s : State) (c a : Nat) : Nat :=
  if a < 0x40000 then lmByte c a
  else
    match s.groupOn c with
    | some g => lmByte (((s.grp g).cores[(a - 0x1000000) / 0x40000]?).getD c) (a % 0x40000)
    | none => lmByte c a

/-- Saved planes are put back into the roles that are free on their press (R229). -/
def State.reinstallOn (s : State) (f gid : Nat) : State :=
  (s.grp gid).reinstall.foldl (fun s x =>
    let k := (s.forme f).press
    let role := if x.2.1 then 1 else 0
    let free := if x.2.1 then k.shadow.owner.isNone else k.active.owner.isNone && k.holders.isEmpty
    if free then
      let s := { s with planes := mpaste (mcut s.planes (planeByte f role) planeBytes) (planeByte f role) x.2.2.2 }
      let s := s.modPress f (fun p =>
        if x.2.1 then { p with shadow := x.2.2.1 }
        else { p with active := x.2.2.1, holders := (List.range 8).filter (fun i => x.1.testBit i) })
      s.modGrp gid (fun g => { g with reinstall := g.reinstall.filter (fun y => decide (y ≠ x)) })
    else s) s

/-- The planes of a press have changed: groups on the forme that wait to reinstall theirs try again. -/
def State.planesFreed (s : State) (f : Nat) : State :=
  (((List.range 8).filterMap (fun p => s.groupOn (8 * f + p))).dedup).foldl (fun s g => s.reinstallOn f g) s

/-- A position leaves the holder set; with the last, the active plane has no owner (R218). -/
def Press.release (k : Press) (p : Nat) : Press :=
  let h := k.holders.filter (fun x => decide (x ≠ p))
  { k with holders := h, active := (if h = [] then { k.active with owner := none } else k.active) }

/-- Changes the command at the head of a queue. -/
def State.modHead (s : State) (c : Nat) (f : Cmd → Cmd) : State :=
  let q := s.pq c
  match q.cmds with
  | x :: l => s.setPq c { q with cmds := f x :: l }
  | [] => s

def Cmd.op (x : Cmd) : Nat := pwOp x.w0.toNat

/-- The head of a queue leaves it; an LSTAT that leaves without being DONE gives up the shadow, also one that its group
has still to put back (R218, R229). -/
def State.dropHead (s : State) (c : Nat) : State :=
  let q := s.pq c
  match q.cmds with
  | x :: l =>
    let s := s.setPq c { q with cmds := l }
    let s := if x.op = 1 ∧ (s.forme (coreForme c)).press.shadow.owner = some (corePos c) ∧
        !(s.forme (coreForme c)).press.shadow.loaded then
      (s.modPress (coreForme c) (fun p => { p with shadow := Plane.fresh })).planesFreed (coreForme c) else s
    let s := match s.groupOn c with
      | some g => if x.op = 1 then s.modGrp g (fun y => { y with reinstall := y.reinstall.filter (fun e =>
          !(e.2.1 && !e.2.2.1.loaded && decide (e.2.2.1.owner = some (corePos c)))) }) else s
      | none => s
    s.fire (fun w => decide (w = .pressEntry c))
  | [] => s

/-! ## The three instructions (R233 to R235) -/

def execPqPush (rs1 : BitVec 4) (nb : BitVec 1) (s : State) : Host.Outcome State Fault Refusal :=
  let a := s.me.reg rs1
  let c := s.myCore
  let lm := s.myGrp.lm
  if lm ≤ a.toNat then .next (s.trapMe .access a 0)
  else if a.toNat % 32 ≠ 0 then .next (s.trapMe (if lm < a.toNat + 32 then .window else .access) a 0)
  else
    let word (i : Nat) : Nat := mload s.lm (lmByte c (a.toNat + 8 * i)) 8
    if !s.pressWordOk (word 0) (word 1) (word 2) (word 3) then
      .next (s.trapMe .pressError a (BitVec.ofNat 64 (word 0)))
    else
      let w0 := word 0
      let w1 := word 1
      let w2 := word 2
      let w3 := word 3
      let (s, ok) := s.releaseStep 1
      if !ok then .next (s.notReady nb .nr (.release 1))
      else if 8 ≤ (s.pq c).cmds.length then .next (s.notReady nb .full (.pressEntry c))
      else
        let s := s.modMe Thread.released
        let t := s.me
        let x : Cmd :=
          { w0 := BitVec.ofNat 64 w0, w1 := BitVec.ofNat 64 w1, w2 := BitVec.ofNat 64 w2, w3 := BitVec.ofNat 64 w3,
            phase := (if pwOp w0 = 5 ∧ w3 / 256 % 4 = 1 then t.dphase.toNat % 256 else 0), uid := s.cur, pc := t.pc,
            agent := t.agent, interval := t.interval, epoch := t.epoch, tids := s.myKer.tids, entry := none,
            st := .queued, unit := 0, ahead := [], faultVa := 0 }
        let q := s.pq c
        .next ((s.setPq c { q with cmds := q.cmds ++ [x] }).completeP nb .rdy)

/-- Whether a MARK with a ticket is queued. -/
def PQueue.marked (q : PQueue) (t : Nat) : Bool :=
  q.cmds.any (fun x => decide (x.op = 8 ∧ pwAux x.w0.toNat = t))

/-- The acquire of `pq.done` (R224), and the detector's entry for the thread that pushed the MARK (R326). -/
def State.pressAcquire (s : State) (q : PQueue) (rdy : Bool) : State :=
  let s := s.acquireStep s.myCore 1
  if rdy ∧ (s.ctx s.myCtx).race ≠ 0 ∧ q.markAgent ≠ s.me.agent then
    let (t, lost) := s.me.acquireFrom q.markAgent ((q.markInterval + 1) % 2 ^ 20) 1
    let s := s.setThr s.cur t
    if lost then s.countMe 0x7001 else s
  else s

def execPqDone (rs1 : BitVec 4) (nb : BitVec 1) (s : State) : Host.Outcome State Fault Refusal :=
  let t := (s.me.reg rs1).toNat % 65536
  let c := s.myCore
  let q := s.pq c
  let last : State :=
    if q.lastMark = some t then (s.pressAcquire q true).completeP nb .rdy
    else (s.pressAcquire q false).completeP nb .stale
  match q.cmds with
  | [] => .next last
  | x :: _ =>
    match x.st with
    | .stoppedDeclined => .next (s.trapMe .unresolvable x.faultVa 0)
    | .stoppedPoison pa => .next (s.trapMe .machineCheck 0 (BitVec.ofNat 64 pa))
    | .stoppedFault =>
      .next (if q.marked t then s.notReady nb .faulted (.pressResolved c) else last)
    | .resolved | .stoppedError => .next (if q.marked t then s.complete nb .denied else last)
    | .queued | .started => .next (if q.marked t then s.notReady nb .nr (.ticket c t) else last)

def execPqResume (nb : BitVec 1) (s : State) : Host.Outcome State Fault Refusal :=
  let c := s.myCore
  match (s.pq c).cmds with
  | [] => .next (s.completeP nb .rdy)
  | x :: _ =>
    match x.st with
    | .queued | .started => .next (s.completeP nb .rdy)
    | .stoppedFault => .next (s.notReady nb .faulted (.pressResolved c))
    | .resolved => .next ((s.modHead c (fun x => { x with st := .queued })).completeP nb .rdy)
    | .stoppedError => .next ((s.dropHead c).completeP nb .rdy)
    | .stoppedPoison pa => .next (s.trapMe .machineCheck 0 (BitVec.ofNat 64 pa))
    | .stoppedDeclined => .next (s.trapMe .unresolvable x.faultVa 0)

/-! ## Arbitration (R216, R218) -/

/-- The plane condition of a command at position `p` (R218). -/
def Press.allows (k : Press) (p : Nat) (op : Nat) : Bool :=
  match op with
  | 1 => decide (k.shadow.owner = none ∨ k.shadow.owner = some p)
  | 2 => decide (k.shadow.owner = some p) && k.shadow.loaded && decide (k.holders = [] ∨ k.holders = [p])
  | 3 => k.holders.contains p
  | _ => true

/-- Whether the press may start commands of a core's group (R229). -/
def State.pressRuns (s : State) (c : Nat) : Bool :=
  match s.groupOn c with
  | some g => !s.asleep g && (s.grp g).reinstall.isEmpty
  | none => false

/-- Whether the head command of position `p` is eligible (R216). -/
def State.pressEligible (s : State) (f p : Nat) : Bool :=
  match (s.pq (8 * f + p)).cmds with
  | [] => false
  | x :: _ => decide (x.st = .queued) && s.pressRuns (8 * f + p) && (s.forme f).press.allows p x.op

/-- The weighted round robin: the position that starts a command next, its count in the round, and the weights of the
round, from position `pos` with `cnt` started (R216). -/
def pressChoose (el : Nat → Bool) (fresh : List Nat) : Nat → Nat → Nat → List Nat → Option (Nat × Nat × List Nat)
  | 0, _, _, _ => none
  | n + 1, pos, cnt, ws =>
    if el pos && decide (cnt < ws.getD pos 0) then some (pos, cnt + 1, ws)
    else if pos < 7 then pressChoose el fresh n (pos + 1) 0 ws
    else pressChoose el fresh n 0 0 fresh

/-- The agent that a command is for the race detector (R326). -/
def Cmd.agentOf (x : Cmd) (c : Nat) : Agent :=
  { uid := x.uid, number := x.agent, interval := x.interval, epoch := x.epoch, core := c, unit := 1,
    quad := formeQuad (coreForme c), pc := x.pc }

/-- Where no head is eligible, the rounds of a press go on with none started: the next command starts in a round of its
own, which reads the weights anew (R216). -/
def State.pressIdle (s : State) (f : Nat) : State :=
  if (List.range 8).any (fun p => s.pressEligible f p) then s
  else s.modPress f (fun k => { k with pos := 0, count := 0, weights := [] })

/-- A queue stops: what waits on a ticket of it wakes (R226, R234). -/
def State.stopHead (s : State) (c : Nat) (st : CmdSt) (va : Nat) : State :=
  let s := s.modHead c (fun x => { x with st := st, faultVa := BitVec.ofNat 64 va })
  let s := (s.modPress (coreForme c) (fun p => { p with running := none })).pressIdle (coreForme c)
  s.fire (fun w => match w with | .ticket c' _ => decide (c' = c) | _ => false)

/-- A command stops on a page that is not present, and the press reports it: the fault request names the core, the
command's w0 and its cursor (R228). -/
def State.faultHead (s : State) (c ctx va : Nat) : State :=
  let s := s.openFault ctx va 4 c
  let s := match (s.pq c).cmds with
    | x :: _ =>
      { s with faults := s.faults.map (fun (f : FaultReq) =>
          if f.ctx = ctx ∧ f.page = pageOf va then { f with reports := f.reports ++ [(c, x.w0, x.unit)] } else f) }
    | [] => s
  s.stopHead c .stoppedFault va

/-- The context of a core's group. -/
def State.coreCtx (s : State) (c : Nat) : Nat :=
  match s.groupOn c with
  | some g => (s.grp g).ctx
  | none => 0

/-- PRESS_ARBITRATION: the chosen head starts, with its identifier entry read (R216, R218, R248). -/
def execPressArbitration (fid : Nat) (s : State) : Host.Outcome State Fault Refusal :=
  let k := (s.forme fid).press
  let fresh := (List.range 8).map (fun p => (s.core (8 * fid + p)).pweight.toNat)
  match k.running, pressChoose (s.pressEligible fid) fresh 17 k.pos k.count (if k.weights = [] then fresh else k.weights) with
  | none, some (p, cnt, ws) =>
    let c := 8 * fid + p
    match (s.pq c).cmds with
    | [] => notEnabled "PRESS_ARBITRATION"
    | x :: _ =>
      let ctx := s.coreCtx c
      let start (s : State) : State :=
        let s := s.modPress fid (fun q => { q with
          pos := p, count := cnt, weights := ws, running := some p,
          shadow := (if x.op = 1 then { q.shadow with owner := some p, loaded := false } else q.shadow) })
        (s.modHead c (fun y => { y with st := .started })).count c (s.ctxOf x.uid) 0x3001 1
      if usesOperand x.op && pwFlag x.w0.toNat 8 && x.entry.isNone then
        match s.readEntry ctx x.tids (pwAux x.w0.toNat % 256) true (fid / 32, formeQuad fid) with
        | .words s e => .next ((start s).modHead c (fun y => { y with entry := some e }))
        | .absent va => .next ((start s).faultHead c ctx va)
        | .poison s pa => .next ((start s).stopHead c (.stoppedPoison pa) 0)
        | .busy => notEnabled "PRESS_ARBITRATION"
      else .next (start s)
  | _, _ => notEnabled "PRESS_ARBITRATION"

/-! ## Units (R226) -/

/-- What a unit of a command ends in. -/
inductive UnitRes where
  | done (s : State)
  | fault (s : State) (va : Nat)
  | error (s : State)
  | poison (s : State) (pa : Nat)
  | busy

/-- The units of a command. -/
def Cmd.units (x : Cmd) : Nat := if usesRows x.op && decide (x.op ≠ 6) then pwRows x.w0.toNat else 1

/-- What the end of the last unit does: holds and planes (R218), the auto phase (R239), the mark (R242). -/
def State.lastUnit (s : State) (c : Nat) (x : Cmd) : State :=
  let f := coreForme c
  let p := corePos c
  let w0 := x.w0.toNat
  match x.op with
  | 2 =>
    let s := { s with planes := mpaste (mcut s.planes (planeByte f 0) planeBytes) (planeByte f 0)
                                  (mslice s.planes (planeByte f 1) planeBytes) }
    (s.modPress f (fun k => { k with active := { k.shadow with owner := some p }, holders := [p],
                                     shadow := Plane.fresh })).planesFreed f
  | 3 => if pwFlag w0 12 then (s.modPress f (fun k => k.release p)).planesFreed f else s
  | 5 =>
    if pwMode w0 = 4 ∧ x.w3.toNat / 256 % 4 = 2 then
      let q := s.pq c
      s.setPq c { q with auto := (q.auto + 0x35) % 256 }
    else s
  | 8 =>
    let q := s.pq c
    let s := s.setPq c { q with lastMark := some (pwAux w0), markAgent := x.agent, markInterval := x.interval }
    let s := s.fire (fun w => decide (w = .ticket c (pwAux w0)))
    match s.groupOn c with
    | some g => s.progress g
    | none => s
  | _ => s

/-- One unit of the running command, whose op the event names. -/
def State.runUnit (s : State) (f op : Nat) (name : String) (act : State → Nat → Cmd → UnitRes) :
    Host.Outcome State Fault Refusal :=
  match (s.forme f).press.running with
  | none => notEnabled name
  | some p =>
    let c := 8 * f + p
    match (s.pq c).cmds with
    | [] => notEnabled name
    | x :: _ =>
      if x.op ≠ op ∨ x.st ≠ .started then notEnabled name
      else
        match act s c x with
        | .done s =>
          if x.unit + 1 < x.units then .next (s.modHead c (fun y => { y with unit := x.unit + 1 }))
          else
            let s := (s.modPress f (fun k => { k with running := none })).lastUnit c x
            .next ((s.dropHead c).pressIdle f)
        | .fault s va => .next (s.faultHead c (s.coreCtx c) va)
        | .error s => .next (s.stopHead c .stoppedError 0)
        | .poison s pa => .next (s.stopHead c (.stoppedPoison pa) 0)
        | .busy => notEnabled name

/-! ## Operands (R220 to R223) -/

/-- Whether a tensor operand may be used (R222, R247). -/
def Cmd.tensorOk (x : Cmd) : Bool :=
  let e := x.entry.getD []
  idOk (pwAux x.w0.toNat % 256) e && decide (idKind e = 1 ∧ idType e = pwType x.w0.toNat)

/-- A start coordinate. -/
def Cmd.start (x : Cmd) (d : Nat) : Nat := x.w1.toNat / 65536 ^ d % 65536

/-- Where one element of an operand stands. -/
inductive Place1 where
  | lm (byte : Nat)
  | va (a : Nat)
  | none
  deriving DecidableEq, Repr

/-- The element at column `i`, row `j` of an operand (R220 to R222). -/
def State.operandAt (s : State) (c : Nat) (x : Cmd) (i j : Nat) : Place1 :=
  let w0 := x.w0.toNat
  let n := typeBytes (pwType w0)
  if pwFlag w0 8 then
    match idElement (x.entry.getD []) [x.start 0 + i, x.start 1 + j, x.start 2, x.start 3] with
    | some a => .va a
    | none => .none
  else .lm (s.windowByte c (x.w1.toNat + j * x.w2.toNat) + i * n)

/-- The accesses in paged memory that elements make. -/
def vasOf (l : List Place1) (n : Nat) : List (Nat × Nat) :=
  l.filterMap (fun p => match p with | .va a => some (a, n) | _ => none)

/-- One element read; an element outside the sizes reads as zero bits. -/
def State.readElem (s : State) (ctx n : Nat) (p : Place1) : Nat :=
  match p with
  | .lm b => mload s.lm b n
  | .va a => (s.readVa ctx a n).2
  | .none => 0

/-- The lines that elements read are recalled to be shared at the home (R426). -/
def State.shareElems (s : State) (ctx : Nat) (l : List (Nat × Nat)) : State :=
  l.foldl (fun s x => (s.readVa ctx x.1 x.2).1) s

/-- One element written. -/
def State.writeElem (s : State) (ctx n : Nat) (p : Place1) (v : Nat) : State :=
  match p with
  | .lm b => { s with lm := mstore s.lm b v n }
  | .va a => s.writeVa ctx a n v
  | .none => s

/-- Reads elements of `n` bytes and a scale word where there is one, then goes on with the values. -/
def State.readUnit (s : State) (c : Nat) (x : Cmd) (n : Nat) (l : List Place1) (scale : Place1)
    (k : State → List Nat → Nat → UnitRes) : UnitRes :=
  let ctx := s.coreCtx c
  let vas := vasOf l n ++ vasOf [scale] 4
  match s.agentAccess ctx (x.agentOf c) false vas with
  | .ok s =>
    let s := s.shareElems ctx vas
    k s (l.map (s.readElem ctx n)) (s.readElem ctx 4 scale)
  | .absent s va => .fault s va
  | .denied s => .error s
  | .poison s pa => .poison s pa
  | .busy => .busy

/-! ## The commands -/

/-- Where the scale of a command's tensor operand stands: the word of its block in the scale table (R223). -/
def Cmd.tableScale (x : Cmd) (j b0 b1 : Nat) : Place1 :=
  let e := x.entry.getD []
  .va (vaAdd (idScale e) (4 * scaleIndex e [x.start 0, x.start 1 + j, x.start 2, x.start 3] b0 b1 : Nat))

/-- The elements of a plane per column, for a type (R236). -/
def planeDepth (t : Nat) : Nat := 96 / typeBytes t

/-- LSTAT (R236): the shadow's elements, its type and its scale. -/
def lstatUnit (s : State) (c : Nat) (x : Cmd) : UnitRes :=
  let w0 := x.w0.toNat
  let t := pwType w0
  let n := typeBytes t
  let depth := planeDepth t
  let f := coreForme c
  let table := pwSource w0 = 2
  if pwFlag w0 8 && !x.tensorOk then .error s
  else if table && (decide (idScale (x.entry.getD []) = 0) || decide (x.start 0 % 128 ≠ 0 ∨ x.start 1 % depth ≠ 0)) then
    .error s
  else
    let keys := (List.range depth).flatMap (fun k => (List.range 128).map (fun col => (k, col)))
    let scale := if table then x.tableScale 0 128 depth else .none
    s.readUnit c x n (keys.map (fun q => s.operandAt c x q.2 q.1)) scale (fun s vals sc =>
      let base := planeByte f 1
      let m := (keys.zip vals).foldl (fun m q => mstore m (base + 96 * q.1.2 + n * q.1.1) q.2 n)
        (mcut s.planes base planeBytes)
      let ws := if table then sc else if pwSource w0 = 1 then x.w3.toNat % 2 ^ 32 else 0x3F800000
      .done (State.modPress { s with planes := m } f (fun k => { k with
        shadow := { k.shadow with loaded := true, type := t, wscale := BitVec.ofNat 32 ws } })))

/-- Whether a stream type pairs with a plane type (R237). -/
def typesPair (plane stream : Nat) : Bool :=
  if isFp8 plane then isFp8 stream
  else if plane = 0 ∨ plane = 4 then decide (stream = 0 ∨ stream = 4)
  else decide (plane = stream)

/-- The floating format of a type code. -/
def fmtOf (t : Nat) : Fmt :=
  match type4 t with
  | some (.flt f) => f
  | _ => fp32

/-- One pass: a column's weights and a row's activations into an accumulator element (R174 to R177). -/
def pressPass (plane stream : Nat) (acts weights : List Nat) (scale : FVal) (acc : Nat) : Nat :=
  if plane = 0 ∨ plane = 4 then
    passInt ((acts.zip weights).map (fun q => toInt (decide (stream = 0)) 8 q.1 * toInt (decide (plane = 0)) 8 q.2))
      (toInt true 32 acc)
  else
    let prods := (acts.zip weights).map (fun q => (exactMul (fdecode (fmtOf stream) q.1) (fdecode (fmtOf plane) q.2)).v)
    if isFp8 plane then passFp8 prods scale (fdecode fp32 acc)
    else if plane = 11 then passWide fp64 111 prods (fdecode fp64 acc)
    else passWide fp32 47 prods (fdecode fp32 acc)

/-- STREAM (R237): one activation row against the active plane. -/
def streamUnit (s : State) (c : Nat) (x : Cmd) : UnitRes :=
  let w0 := x.w0.toNat
  let t := pwType w0
  let n := typeBytes t
  let depth := planeDepth t
  let f := coreForme c
  let i := x.unit
  let plane := (s.forme f).press.active
  let table := pwSource w0 = 2
  if pwFlag w0 8 && !x.tensorOk then .error s
  else if !typesPair plane.type t then .error s
  else if table && (decide (idScale (x.entry.getD []) = 0) || decide (x.start 0 % depth ≠ 0)) then .error s
  else
    let scale : Place1 :=
      if table then x.tableScale i depth 1
      else if pwSource w0 = 1 then .lm (s.windowByte c (x.w3.toNat % 2 ^ 25 + 4 * i)) else .none
    s.readUnit c x n ((List.range depth).map (fun k => s.operandAt c x k i)) scale (fun s acts sc =>
      let a := if pwSource w0 = 0 then 0x3F800000 else sc
      let factor := if pwFlag w0 11 then round32 (exactMul (fdecode fp32 a) (fdecode fp32 plane.wscale.toNat))
        else .fin false 1 0
      let pair := usesPairs w0
      let row := pwAcc w0 + (if pair then 2 * i else i)
      .done ((List.range 128).foldl (fun s col =>
        let ws := (List.range depth).map (fun k => mload s.planes (planeByte f 0 + 96 * col + n * k) n)
        s.accPut c row col (pressPass plane.type t acts ws factor (s.accElem c row col pair)) pair) s))

/-- The type of an accumulator format (R239). -/
def accType (fmt : Nat) : NumT :=
  match fmt with
  | 0 => .flt fp32
  | 1 => .int true 32
  | _ => .flt fp64

/-- The phase of a dithering DRAIN (R239). -/
def State.drainPhase (s : State) (c : Nat) (x : Cmd) : Nat :=
  match x.w3.toNat / 256 % 4 with
  | 0 => x.w3.toNat % 256
  | 1 => x.phase
  | _ => (s.pq c).auto

/-- The naturally aligned word that an element stands in. -/
def Place1.word : Place1 → Option (Bool × Nat)
  | .lm b => some (false, b / 8)
  | .va a => some (true, a / 8)
  | .none => Option.none

/-- Whether the later rows of a window operand of `n`-byte elements share no word with the row of the unit. -/
def State.rowsApart (s : State) (c : Nat) (x : Cmd) (n : Nat) : Bool :=
  let at' (i : Nat) : Nat := s.windowByte c (x.w1.toNat + i * x.w2.toNat)
  let b := at' x.unit
  !pwFlag x.w0.toNat 8 && decide (b % 8 = 0) && (List.range (x.units - x.unit - 1)).all (fun i =>
    let d := at' (x.unit + 1 + i)
    decide (d % 8 = 0 ∧ (b + 128 * n ≤ d ∨ d + 128 * n ≤ b)))

/-- The elements that a unit of a DRAIN writes, row and column, in the order of the rows: those of its row that no earlier
unit has written, and those of later rows that stand in a word with them, so that one step writes what the command writes
of each word (R221, R225, R255). -/
def State.drainElems (s : State) (c : Nat) (x : Cmd) (n : Nat) : List ((Nat × Nat) × Place1) :=
  let row (i : Nat) : List ((Nat × Nat) × Place1) :=
    ((List.range 128).map (fun col => ((i, col), s.operandAt c x col i))).filter (fun y => !x.ahead.contains y.1)
  let own := row x.unit
  if 8 ≤ n || s.rowsApart c x n then own
  else
    let words := own.filterMap (fun y => y.2.word)
    own ++ ((List.range (x.units - x.unit - 1)).flatMap (fun i => (row (x.unit + 1 + i)).filter (fun y =>
      match y.2.word with | some w => words.contains w | none => false)))

/-- DRAIN (R239): one row converted and written to the operand, and cleared where asked. -/
def drainUnit (s : State) (c : Nat) (x : Cmd) : UnitRes :=
  let w0 := x.w0.toNat
  let dt := (type4 (pwType w0)).getD (.int true 8)
  let n := typeBytes (pwType w0)
  let i := x.unit
  let ctx := s.coreCtx c
  if pwFlag w0 8 && !x.tensorOk then .error s
  else
    let elems := s.drainElems c x n
    match s.agentAccess ctx (x.agentOf c) true (vasOf (elems.map (·.2)) n) with
    | .absent s va => .fault s va
    | .denied s => .error s
    | .poison s pa => .poison s pa
    | .busy => .busy
    | .ok s =>
      let pair := usesPairs w0
      let row (i : Nat) : Nat := pwAcc w0 + (if pair then 2 * i else i)
      let rnd (i col : Nat) : Rnd :=
        { mode := pwMode w0, ovf8 := pwFlag w0 14, thr := ditherThr (i % 16) (col % 16) (s.drainPhase c x) }
      let val (q : Nat × Nat) : Nat :=
        (convert (accType (pwSource w0)) dt (rnd q.1 q.2) (s.accElem c (row q.1) q.2 pair)).1
      let vals := elems.map (fun y => val y.1)
      let s := (elems.zip vals).foldl (fun s q => s.writeElem ctx n q.1.2 q.2) s
      let later := (elems.map (·.1)).filter (fun q => decide (q.1 ≠ i))
      let s := if later = [] then s else s.modHead c (fun y => { y with ahead := y.ahead ++ later })
      .done (if pwFlag w0 15 then s.accClear c (row i) (if pair then 2 else 1) else s)

/-- ACLR (R238): one row, or pair, of zero bits. -/
def aclrUnit (s : State) (c : Nat) (x : Cmd) : UnitRes :=
  let w0 := x.w0.toNat
  let k := if usesPairs w0 then 2 else 1
  .done (s.accClear c (pwAcc w0 + k * x.unit) k)

/-- ACOPY (R240): every source row is read before any row is written, so the rows are copied together. -/
def acopyUnit (s : State) (c : Nat) (x : Cmd) : UnitRes :=
  let w0 := x.w0.toNat
  let dst := x.w1.toNat % 65536
  let cells := (List.range (pressSpan w0)).flatMap (fun r => (List.range 128).map (fun col => (r, col)))
  .done (cells.foldl (fun s' q => s'.accSet c (dst + q.1) q.2 (s.accGet c (pwAcc w0 + q.1) q.2)) s)

/-- ALOAD (R241): one row, or pair, from the operand, bit for bit. -/
def aloadUnit (s : State) (c : Nat) (x : Cmd) : UnitRes :=
  let w0 := x.w0.toNat
  let n := typeBytes (pwType w0)
  let i := x.unit
  if pwFlag w0 8 && !x.tensorOk then .error s
  else
    s.readUnit c x n ((List.range 128).map (fun col => s.operandAt c x col i)) .none (fun s vals _ =>
      let pair := usesPairs w0
      let row := pwAcc w0 + (if pair then 2 * i else i)
      .done (((List.range 128).zip vals).foldl (fun s q => s.accPut c row q.1 q.2 pair) s))

/-- SHARE (R218, R243): positions join the holders, where the owner holds the plane and the group holds each of them. -/
def shareUnit (s : State) (c : Nat) (x : Cmd) : UnitRes :=
  let f := coreForme c
  let p := corePos c
  let k := (s.forme f).press
  let ps := (List.range 8).filter (fun i => x.w1.toNat.testBit i)
  let mine (i : Nat) : Bool := decide (s.groupOn (8 * f + i) = s.groupOn c)
  if k.active.owner = some p ∧ k.holders.contains p ∧ ps.all mine then
    .done (s.modPress f (fun k => { k with holders := k.holders ++ ps.filter (fun i => !k.holders.contains i) }))
  else .error s

def execLstat (fid : Nat) (s : State) : Host.Outcome State Fault Refusal := s.runUnit fid 1 "LSTAT" lstatUnit
def execFlip (fid : Nat) (s : State) : Host.Outcome State Fault Refusal :=
  s.runUnit fid 2 "FLIP" (fun s _ _ => .done s)
def execStream (fid : Nat) (s : State) : Host.Outcome State Fault Refusal := s.runUnit fid 3 "STREAM" streamUnit
def execAclr (fid : Nat) (s : State) : Host.Outcome State Fault Refusal := s.runUnit fid 4 "ACLR" aclrUnit
def execDrain (fid : Nat) (s : State) : Host.Outcome State Fault Refusal := s.runUnit fid 5 "DRAIN" drainUnit
def execAcopy (fid : Nat) (s : State) : Host.Outcome State Fault Refusal := s.runUnit fid 6 "ACOPY" acopyUnit
def execAload (fid : Nat) (s : State) : Host.Outcome State Fault Refusal := s.runUnit fid 7 "ALOAD" aloadUnit
def execPressMark (fid : Nat) (s : State) : Host.Outcome State Fault Refusal :=
  s.runUnit fid 8 "PRESS_MARK" (fun s _ _ => .done s)
def execShare (fid : Nat) (s : State) : Host.Outcome State Fault Refusal := s.runUnit fid 9 "SHARE" shareUnit

/-! ## The end of a group's press work (R218, R230) -/

/-- A core's position leaves the press: its holds and ownerships end (R230), and with the last head that could start, the
round (R216). -/
def State.pressLeave (s : State) (c : Nat) : State :=
  let p := corePos c
  let f := coreForme c
  let s := State.planesFreed (f := f) <| s.modPress f (fun k =>
    let k := if k.holders.contains p then k.release p else k
    { k with
      active := (if k.active.owner = some p then { k.active with owner := none } else k.active)
      shadow := (if k.shadow.owner = some p then Plane.fresh else k.shadow) })
  if (s.forme f).press.running.isNone then s.pressIdle f else s

end Sys2Proof.Machine
end

