-- ==== Sys2Proof/Machine/Page.lean ====
section
/-! DEFINITION. The page (R264 to R288) and the services of the Lantern kernel that answer for it (R369, R370): walks,
the fault ring, verdicts and the replay of side logs, shootdowns, thaws, recalls, assignments and trap verdicts. -/

namespace Sys2Proof.Machine

open Sys2Proof

/-! ## Walks (R271 to R273) -/

/-- A TLB of `n` entries takes one in front; the last entry that `keep` does not hold gives way. -/
def tlbPut (n : Nat) (keep : TlbEntry → Bool) (l : List TlbEntry) (e : TlbEntry) : List TlbEntry :=
  let l := e :: l.filter (fun x => decide (x.asid ≠ e.asid ∨ x.level ≠ e.level ∨ x.vpn ≠ e.vpn))
  if l.length ≤ n then l
  else
    match l.reverse.findIdx? (fun x => !keep x) with
    | some i => l.eraseIdx (l.length - 1 - i)
    | none => l

/-- Entries of a core TLB that a claim covers stay (R85). -/
def State.pinsTlb (s : State) (c : Nat) (e : TlbEntry) : Bool :=
  (s.core c).claims.any (fun x => e.hits (s.ctxOf x.uid) x.ea.toNat)

def State.fillCore (s : State) (c : Nat) (e : TlbEntry) : State :=
  s.modCore c (fun k => { k with tlb := tlbPut 64 (fun x => decide (x = e) || s.pinsTlb c x) k.tlb e })

def State.fillForme (s : State) (f : Nat) (e : TlbEntry) : State :=
  s.modForme f (fun k => { k with tlb := tlbPut 2048 (fun x => decide (x = e)) k.tlb e })

/-- The claims of a requester that await the translation of a page. -/
def State.walkers (s : State) (m : Miss) : List Claim :=
  (s.core m.core).claims.filter (fun x => decide (x.uid = m.uid ∧ x.stage = .walking) &&
    decide (pageOf x.ea.toNat = pageOf m.va.toNat))

/-- Answers one miss with a held translation. -/
def State.answerMiss (s : State) (m : Miss) : State :=
  (s.walkers m).foldl (fun s x => s.advance m.core x m.asid) s

/-- A slot waits for the page of its fetch (R56). The thread's armed wake stays as it is (R83). -/
def State.waitFetch (s : State) (u : Nat) : State :=
  { s with wakeSeq := s.wakeSeq + 1 }.modThr u (fun t => { t with
    st := .waiting, wait := .fetch (pageOf t.pc.toNat), waitFrom := s.wakeSeq })

/-- Answers one miss on a page that is not present: the claim's wake fires, and its next attempt is answered by R275; a
fetch opens the fault and its slot waits (R56). -/
def State.answerAbsent (s : State) (m : Miss) : State :=
  if m.kind = 3 then
    let s := s.openFault m.asid m.va.toNat 3 m.core
    let t := s.thr m.uid
    if t.st = .ready ∧ t.pc = m.va then s.waitFetch m.uid else s
  else
    (s.walkers m).foldl (fun s x =>
      (s.modCore m.core (fun k => { k with claims := k.claims.map (fun y =>
        if y.sameOp x.uid x.pc x.word x.ea then { y with stage := .absent } else y) })).claimReady m.core x.uid x.pc x.ea) s

/-- TABLE_WALK: the oldest miss of a forme is answered, with the others of its page and ASID: from the forme TLB where
it holds the page, else by a walk, which sets A, and D for a write through an entry whose D is 0 (R272, R273). -/
def execTableWalk (fid : Nat) (s : State) : Host.Outcome State Fault Refusal :=
  let f := s.forme fid
  match f.misses with
  | [] => notEnabled "TABLE_WALK"
  | m :: _ =>
    let va := m.va.toNat
    let same (x : Miss) : Bool := decide (x.asid = m.asid ∧ pageOf x.va.toNat = pageOf va)
    let mine := f.misses.filter same
    let dirty := mine.any (fun x => x.write && (s.tlbHit x.core x.asid va).isSome)
    let s := s.setForme fid { f with misses := f.misses.filter (fun x => !same x) }
    let fill (s : State) (e : TlbEntry) : State :=
      let s := (mine.map (fun x => x.core)).dedup.foldl (fun s c => s.fillCore c e) s
      mine.foldl State.answerMiss s
    match (if dirty then none else f.tlb.find? (fun e => e.hits m.asid va)) with
    | some e => .next (fill s e)
    | none =>
      if s.walkHeld m.asid va then notEnabled "TABLE_WALK"
      else
      match s.walk m.asid va with
      | .absent .. => .next (mine.foldl State.answerAbsent s)
      | .leaf lv p entry homes =>
        let d := dirty && pteW p && !pteMG p
        let pte := p ||| 128 ||| (if d then 256 else 0)
        let e : TlbEntry := { asid := m.asid, level := lv, vpn := va % 2 ^ 55 / 2 ^ levelBits lv,
                              pte := BitVec.ofNat 64 pte, homes := homes }
        .next (fill (((s.markMask m.asid p).markEntry entry p d).fillForme fid e) e)

/-! ## The fault ring (R369) -/

/-- The 32 bytes of a fault request. -/
def FaultReq.bytes (f : FaultReq) : Nat :=
  f.va.toNat + 2 ^ 64 * (f.seq % 2 ^ 32 * 2 ^ 32 + f.level % 256 * 256 + (if f.malformed then 128 else 0) + f.kind % 16)
    + 2 ^ 128 * f.core

/-- FAULT_RING_WRITE: the oldest waiting request of a context is written where the ring has room (R369). -/
def execFaultRingWrite (ctx : Nat) (s : State) : Host.Outcome State Fault Refusal :=
  let x := s.ctx ctx
  match s.faults.find? (fun f => decide (f.ctx = ctx) && !f.written) with
  | none => notEnabled "FAULT_RING_WRITE"
  | some f =>
    if !s.quietAll (x.pa + 104) 8 then notEnabled "FAULT_RING_WRITE"
    else
      let head := s.peek (x.pa + 108) 4
      match s.reach ctx ((x.fring.toNat + 32 * (x.ftail % 2 ^ x.flg)) % 2 ^ 64) true with
      | none => notEnabled "FAULT_RING_WRITE"
      | some (s, pa) =>
        if 2 ^ x.flg ≤ (x.ftail + 2 ^ 32 - head) % 2 ^ 32 ∨ !s.quietAll pa 32 then notEnabled "FAULT_RING_WRITE"
        else
          let tail := (x.ftail + 1) % 2 ^ 32
          let s := (s.homeWrite pa 32 f.bytes).homeWrite (x.pa + 104) 4 tail
          .next (State.modCtx { s with faults := s.faults.map (fun g => if g = f then { g with written := true } else g) }
            ctx (fun y => { y with ftail := tail }))

/-! ## Replay of side logs (R278, R279) -/

/-- A trap that a discarded entry leaves for a thread is taken: at once in a wait, else at its next instruction boundary
(R279). A thread of a saved group takes it when its group is restored. -/
def State.lateTrapNow (s : State) (u : Nat) : State :=
  let t := s.thr u
  match t.late with
  | l :: rest =>
    if t.wait ≠ .none ∧ (t.st = .waiting ∨ t.st = .parked) ∧ !t.saved then
      (s.modThr u (fun t => { t with late := rest })).trap u l.cls t.pc l.va l.extra (s.nextWord u)
    else s
  | [] => s

/-- A discarded entry traps its thread (R279). -/
def State.discardTrap (s : State) (e : SideEntry) (cls : TrapClass) : State :=
  let t := s.thr e.uid
  if t.st = .exited ∨ t.ending then s
  else (s.modThr e.uid (fun t => { t with late := t.late ++ [{ cls := cls, va := e.va, extra := e.pc }] })).lateTrapNow e.uid

/-- Whether a replayed store may be performed now. -/
def State.replayable (s : State) (c : Nat) (pa : Nat) (tracked mg : Bool) : Bool :=
  let line := pa / 128
  !mg && s.quiet line && (!tracked || !s.pendingWrite c line) &&
    decide ((s.core c).busyWays line < 8)

/-- The agent of a replayed store for the race detector (R326). -/
def State.entryAgent (s : State) (c : Nat) (e : SideEntry) : Agent :=
  let t := s.thr e.uid
  { uid := e.uid, number := t.agent, interval := t.interval, epoch := t.epoch, core := c, unit := 0,
    quad := formeQuad (coreForme c), pc := e.pc }

/-- The check of a replayed store. That of a store which an `fnc rel` or `fnc full` made a release is no check: it writes the
shadow of its sector (R315, R326, R327). -/
def State.replayCheck (s : State) (c : Nat) (e : SideEntry) (tracked : Bool) : RaceRes :=
  if !e.sync then s.raceCheck e.ctx (s.entryAgent c e) e.va.toNat (sectorsOf e.va.toNat e.width) true tracked
  else if (s.ctx e.ctx).race = 0 then .ok s
  else
    match s.reach e.ctx (s.shadowVa e.ctx e.va.toNat) true with
    | some (s, pa) => .ok (s.plantWord pa 8 (shadowWord (s.entryAgent c e) tracked))
    | none =>
      let sv := s.shadowVa e.ctx e.va.toNat
      .absent (s.openFault e.ctx sv 2 c) (pageOf sv)

/-- A replayed store, made by the core that holds the log: into its copy in M of a tracked line, into its untracked
copy, or at a home on another die (R114, R278). A line that it has not is asked for as by any access of the core (R281). -/
def State.replayStore (s : State) (c : Nat) (e : SideEntry) (pte pa home : Nat) : State :=
  let line := pa / 128
  let off := pa % 128
  let v := e.data.toNat
  let s := s.noteStore pa e.width
  if !pteT pte then
    let s := s.dropAlias c line true
    let x := ((s.core c).line line).getD { line := line, st := .raw, data := 0, valid := 0, dirty := 0, home := home }
    let m := maskRange off e.width
    let s := s.install c { x with data := lineSet x.data off e.width v, valid := x.valid ||| m, dirty := x.dirty ||| m }
    (s.patchCopies c line (fun d => lineSet d off e.width v)).wrote line
  else if coreDie home ≠ coreDie c then (s.homeRequest home line e.ctx none).homeWrite pa e.width v
  else
    let held : Bool := match (s.core c).line line with | some x => servesNeed .excl x.st | none => false
    let s := if held then s
      else
        let s := (s.homeRequest home line e.ctx (some (coreDie c, formeQuad (coreForme c)))).recallAll line
        let s := s.install c { line := line, st := .m, data := s.homeLine line, valid := 0, dirty := 0, home := home }
        s.setEntry line { DirEntry.fresh with st := .ex, holders := [c], home := home }
    match (s.core c).line line with
    | some x => (s.modCore c (fun k => k.putLine { x with st := .m, data := lineSet x.data off e.width v })).wrote line
    | none => s

/-- Removes entries from a core's log. -/
def State.dropEntries (s : State) (c : Nat) (p : SideEntry → Bool) : State :=
  s.modCore c (fun k => { k with side := k.side.filter (fun e => !p e) })

/-- An entry that cannot be performed is discarded with the later ones of its thread and page, and its thread traps
(R279); so is a store that the race detector stops in trap mode (R328). -/
def State.discardFrom (s : State) (c : Nat) (e : SideEntry) (cls : TrapClass) : State :=
  (s.dropEntries c (fun x => decide (x.uid = e.uid ∧ pageOf x.va.toNat = pageOf e.va.toNat))).discardTrap e cls

/-- Replays one entry of a core's log. Where its page or its shadow page is not present it stays; `none` where it cannot be
performed yet. Its walk sets A (R273). -/
def State.replayEntry (s : State) (c : Nat) (e : SideEntry) : Option State :=
  match s.walk e.ctx e.va.toNat with
  | .absent .. => some s
  | .leaf lv p entry homes =>
    let pa := leafPa lv p e.va.toNat
    let home := (homes[pa / 128 % homes.length]?).getD 0
    if !pteW p ∨ paClass pa = .device then some ((s.markVa e.ctx e.va.toNat false).discardFrom c e .access)
    else if !s.replayable c pa (pteT p) (pteMG p) then none
    else
      match s.replayCheck c e (pteT p) with
      | .absent s _ => some s
      | .conflict s => some (s.discardFrom c e .race)
      | .ok s =>
        let s := ((s.markMask e.ctx p).markEntry entry p true).replayStore c e p pa home
        some (s.dropEntries c (fun x => decide (x = e)))

/-- Replays entries of a core's log, in order: one that an earlier one discarded is passed over, and so are those behind an
entry of their page that stays. -/
def State.replayLog (s : State) (c : Nat) : List SideEntry → Option State
  | [] => some s
  | e :: l =>
    let k := (s.core c).side
    if !k.contains e then State.replayLog s c l
    else if k.any (fun x => decide (x.seq < e.seq ∧ x.ctx = e.ctx ∧ pageOf x.va.toNat = pageOf e.va.toNat)) then
      State.replayLog s c l
    else
      match s.replayEntry c e with
      | some s => State.replayLog s c l
      | none => none

/-- The entries of a core's log that a context's answered requests leave to be performed: those of pages with no open
request. -/
def State.dueEntries (s : State) (c ctx : Nat) : List SideEntry :=
  (s.core c).side.filter (fun e => decide (e.ctx = ctx) && !s.faultOpen ctx (pageOf e.va.toNat))

/-- The cores whose logs hold entries of a context. -/
def State.logCores (s : State) (ctx : Nat) : List Nat :=
  (s.cores.filter (fun k => k.2.side.any (fun e => decide (e.ctx = ctx)))).map (·.1)

/-- The entries that an answered request leaves to be performed, core by core (R278, log 26). -/
def State.replayAll (s : State) (ctx : Nat) : List Nat → Option State
  | [] => some s
  | c :: l =>
    match s.replayLog c (s.dueEntries c ctx) with
    | some s => State.replayAll s ctx l
    | none => none

/-- Whether a core's log holds an entry for a page of a context. -/
def State.pageLogged (s : State) (ctx page : Nat) : Bool :=
  s.cores.any (fun k => k.2.side.any (fun e => decide (e.ctx = ctx ∧ pageOf e.va.toNat = page)))

/-- Whether a page of a context is not present. -/
def State.pageAbsent (s : State) (ctx page : Nat) : Bool :=
  match s.walk ctx (page * 65536) with | .absent .. => true | _ => false

/-- Whether an access of a thread, or a fetch, waits for a page. -/
def State.pageWaited (s : State) (ctx page : Nat) : Bool :=
  s.threads.any (fun x => x.2.armed (fun w => match w with | .fault c p _ => decide (c = ctx ∧ p = page) | _ => false) ||
    (decide (x.2.wait = .fetch page) && decide (s.ctxOf x.1 = ctx)))

/-- Entries of a page that a verdict has left not present wait for its next request. An access that the verdict wakes opens it
(R276); where none waited, the log's own core does (log 26). -/
def State.reopen (s : State) (ctx page : Nat) : State :=
  if s.pageAbsent ctx page then
    let mine (e : SideEntry) : Bool := decide (e.ctx = ctx ∧ pageOf e.va.toNat = page)
    match s.cores.findSome? (fun k => (k.2.side.find? mine).map (fun e => (k.1, e))) with
    | some (c, e) => s.openFault ctx e.va.toNat 2 c
    | none => s
  else s

/-- Claims that the entries of their threads held back look again (R277). -/
def State.drained (s : State) : State := (s.cores.map (·.1)).foldl (fun s c => s.lookAgain c (fun x => decide (x.line = 0))) s

/-- The releases of held trap records go on: where the side log holds nothing more of its thread, the write-backs of what was
performed from there start (R110, R132). -/
def State.heldReleases (s : State) : State :=
  s.heldTraps.foldl (fun s x => x.2.foldl (fun s r => if s.logged r.uid then s else s.trapRelease x.1 r.uid) s) s

/-- Entries of cores have freed or drained: those who wait on that wake (R277). -/
def State.logsFreed (s : State) (cores : List Nat) : State :=
  (s.fireIf (fun u _ w => match w with
    | .sideLog c => cores.contains c && decide ((s.core c).side.length < 32)
    | .drain p => !s.cores.any (fun k => k.2.side.any (fun e => decide (e.uid = u ∧ pageOf e.va.toNat = p)))
    | _ => false)).drained.heldReleases.fireReleases

/-! ## Verdicts (R228, R256, R276, R279, R370) -/

/-- A press command stopped on the page is answered (R228). -/
def PQueue.answer (q : PQueue) (page : Nat) (resolve : Bool) : PQueue :=
  match q.cmds with
  | x :: l =>
    if x.st = .stoppedFault ∧ pageOf x.faultVa.toNat = page then
      { q with cmds := { x with st := (if resolve then .resolved else .stoppedDeclined) } :: l }
    else q
  | [] => q

/-- The verdict reaches the press queues of a context, also those that are saved, and the wakes that wait on it (R228,
R361). -/
def State.answerPresses (s : State) (ctx page : Nat) (resolve : Bool) : State :=
  let cores := (s.groups.filter (fun g => decide (g.2.ctx = ctx ∧ (g.2.st = .running ∨ g.2.st = .ending)))).flatMap (fun g => g.2.cores)
  let hit := cores.filter (fun c => decide ((s.pq c).answer page resolve ≠ s.pq c))
  let stopped (r : RankSave) : Bool := decide (r.queue.answer page resolve ≠ r.queue)
  let ranks := (s.groups.filter (fun g => decide (g.2.ctx = ctx))).flatMap (fun g =>
    (g.2.cores.zip g.2.save).filterMap (fun x => if stopped x.2 then some (g.1, x.1) else none))
  let s := hit.foldl (fun s c => s.setPq c ((s.pq c).answer page resolve)) s
  let saved (g : Nat × Group) : Nat × Group :=
    if g.2.ctx = ctx then
      (g.1, { g.2 with save := g.2.save.map (fun (r : RankSave) => { r with queue := r.queue.answer page resolve }) })
    else g
  let s : State := { s with groups := s.groups.map saved }
  s.fireIf (fun _ t w => match w with
    | .pressResolved c => if t.saved then ranks.contains (t.gid, c) else hit.contains c
    | _ => false)

/-! ## Shootdowns (R284, R370) -/

/-- Whether a TLB entry maps any byte of a range. -/
def TlbEntry.overlaps (e : TlbEntry) (ctx va len : Nat) : Bool :=
  let lo := e.vpn * 2 ^ levelBits e.level
  let a := va % 2 ^ 55
  decide (e.asid = ctx ∧ lo < a + len ∧ a < lo + 2 ^ levelBits e.level)

/-- The threads of a context on a core. -/
def State.ctxThreads (s : State) (c ctx : Nat) : List Nat :=
  (s.threads.filter (fun x => decide (x.2.core = c ∧ x.2.st ≠ .exited ∧ (s.grp x.2.gid).ctx = ctx))).map (·.1)

/-- A core passes its shootdown point: its threads of the context are fenced, its claims in the range end, and its TLB
entries and, where asked, instruction lines go, with its forme's TLB entries. `none` where it is not its turn. -/
def State.shootPoint (s : State) (die c : Nat) : Option State :=
  match (s.die die).shoot with
  | none => none
  | some h =>
    let us := s.ctxThreads c h.ctx
    if !h.left.contains c || !us.all s.fenced then none
    else
      let s := us.foldl State.shootFence s
      let inRange (ea : Nat) : Bool :=
        decide (h.va % 2 ^ 55 / 65536 ≤ pageOf ea ∧ pageOf ea * 65536 < h.va % 2 ^ 55 + h.len)
      let s := s.endClaims c (fun x => decide (s.ctxOf x.uid = h.ctx) && inRange x.ea.toNat)
      let s := s.modCore c (fun k => { k with
        tlb := k.tlb.filter (fun e => !e.overlaps h.ctx h.va h.len)
        icache := (if h.icache then [] else k.icache) })
      let s := s.modForme (coreForme c) (fun f => { f with tlb := f.tlb.filter (fun e => !e.overlaps h.ctx h.va h.len) })
      let left := h.left.filter (fun x => decide (x ≠ c))
      some (s.modDie die (fun d => { d with shoot := (if left = [] then none else some { h with left := left }) }))

/-- SHOOT: a shootdown of a context's range starts; it is complete when every core has passed its point (R284): each core
that has been in use, and each whose forme's TLB holds an entry of the range. -/
def execShoot (die ctx va len : Nat) (icache : Bool) (s : State) : Host.Outcome State Fault Refusal :=
  if (s.die die).shoot.isSome then notEnabled "SHOOT"
  else
    let old : List Nat := (s.formes.filter (fun (f : Nat × Forme) => f.2.tlb.any (fun e => e.overlaps ctx va len))).flatMap (fun f =>
      (List.range 8).map (fun p => 8 * f.1 + p))
    let left : List Nat := (s.cores.map (·.1) ++ old).dedup
    .next (s.modDie die (fun d => { d with
      shootVa := BitVec.ofNat 64 va, shootLen := BitVec.ofNat 64 len,
      shoot := (if left.isEmpty then none else some { ctx := ctx, va := va, len := len, icache := icache, left := left }) }))

/-! ## Changes of a mapping (R283 to R287) -/

/-- PAGE_THAW: MG is cleared in the leaf, no TLB keeps an entry with MG, and the wakes of the leaf's frozen stores fire
(R271, R274, R283). -/
def execPageThaw (ctx va : Nat) (s : State) : Host.Outcome State Fault Refusal :=
  match s.walk ctx va with
  | .leaf lv p entry _ =>
    if !pteMG p then notEnabled "PAGE_THAW"
    else
      let stale (e : TlbEntry) : Bool := pteMG e.pte.toNat && e.hits ctx va
      let core (k : Nat × Core) : Nat × Core := (k.1, { k.2 with tlb := k.2.tlb.filter (fun e => !stale e) })
      let forme (k : Nat × Forme) : Nat × Forme := (k.1, { k.2 with tlb := k.2.tlb.filter (fun e => !stale e) })
      let s : State := { s with mem := mstore s.mem entry (p - 512) 8, cores := s.cores.map core,
                                formes := s.formes.map forme }
      let leaf (page : Nat) : Bool := decide (page * 65536 / 2 ^ levelBits lv = va % 2 ^ 55 / 2 ^ levelBits lv)
      let s := s.fire (fun w => match w with | .thaw c page => decide (c = ctx) && leaf page | _ => false)
      let mine (x : Claim) : Bool := x.write && decide (s.ctxOf x.uid = ctx) && leaf (pageOf x.ea.toNat)
      .next ((s.cores.map (·.1)).foldl (fun s c => s.lookAgain c mine) s)
  | .absent .. => notEnabled "PAGE_THAW"

/-- The dirty untracked copies of a line: core and copy. -/
def State.rawCopies (s : State) (line : Nat) : List (Nat × L1Line) :=
  s.cores.filterMap (fun k => match k.2.line line with
    | some x => if x.st = .raw then some (k.1, x) else none
    | none => none)

/-- One line of a page recalled: tracked copies to the home, which discards its entry; untracked copies written back and
dropped, an attribute-conflict event where two carry one byte dirty (R285, R286). They merge in the order of the cores,
which the spec leaves open (log 57). -/
def State.recallLine (s : State) (line : Nat) : State :=
  let raws := s.rawCopies line
  let r := raws.foldl (fun (r : BitVec 128 × Bool) x => (r.1 ||| x.2.dirty, r.2 || decide (r.1 &&& x.2.dirty ≠ 0))) (0, false)
  let s := s.recallAll line
  let s := raws.foldl (fun s x =>
    let s := if x.2.dirty = 0 then s
      else { s with mem := mstoreMask s.mem (128 * line) x.2.data.toNat x.2.dirty.toNat 128 }
    s.modCore x.1 (fun k => k.delLine line)) s
  let s := if r.1 = 0 then s else s.wrote line
  if r.2 then s.logEvent (128 * line / 0x2000000000 % 4) 0x2005 (128 * line) else s

/-- HOME_PAGE_RECALL: the caches of a frame are emptied (R285, R286). -/
def execHomePageRecall (pa len : Nat) (s : State) : Host.Outcome State Fault Refusal :=
  if len = 0 ∨ !s.quietAll pa len then notEnabled "HOME_PAGE_RECALL"
  else .next (((linesOf pa len).foldl State.recallLine s).forgetFrames pa len)

/-! ## Assignments and trap verdicts (R370, R371) -/

/-- The holder that an assignment names: 0xFFFF names none. -/
def assigned (ctx : Nat) : Option Nat := if ctx = 0xFFFF then none else some ctx

/-- ASSN_DIE_BARRIER: the barrier is reset and has the new holder (R148, R370). -/
def execAssnDieBarrier (die ctx idx : Nat) (s : State) : Host.Outcome State Fault Refusal :=
  if idx < 64 then .next (s.setBar 2 die idx { Bar.fresh with holder := assigned ctx })
  else notEnabled "ASSN_DIE_BARRIER"

/-- ASSN_GALLEY_CHANNEL (R250, R370): a channel that a running context takes goes on with what was saved of it. -/
def execAssnGalleyChannel (die ctx ch : Nat) (s : State) : Host.Outcome State Fault Refusal :=
  if ch < 64 then .next ((s.modChan die ch (fun c => { c with holder := assigned ctx })).restoreChans ctx)
  else notEnabled "ASSN_GALLEY_CHANNEL"

/-- The thread that is TRAPPED with a trap record of a context. -/
def State.trappedBy (s : State) (ctx seq : Nat) : Option (Nat × TrapRec) :=
  s.threads.findSome? (fun x =>
    match x.2.trap with
    | some r => if x.2.st = .trapped ∧ r.seq = seq ∧ (s.grp x.2.gid).ctx = ctx then some (x.1, r) else none
    | none => none)

/-- Whether a trap was taken by `pq.done` or `pq.resume` on a stopped queue (R234, R235). -/
def TrapRec.pressStop (r : TrapRec) : Bool :=
  decide (r.insn / 2 ^ 24 = 0x51 ∨ r.insn / 2 ^ 24 = 0x52) && decide (r.insn % 128 = 0x5B) &&
    (decide (r.cls = .unresolvable) || decide (r.cls = .machineCheck))

/-- Whether the head of a queue is the stopped command that a trap was taken for (R234). -/
def PQueue.stoppedFor (q : PQueue) (r : TrapRec) : Bool :=
  match q.cmds with
  | x :: _ =>
    match x.st with
    | .stoppedDeclined => decide (r.cls = .unresolvable ∧ r.va = x.faultVa)
    | .stoppedPoison pa => decide (r.cls = .machineCheck ∧ r.extra = BitVec.ofNat 64 pa)
    | _ => false
  | [] => false

/-- The stopped head and every later command of a queue discarded (R234). -/
def State.discardQueue (s : State) (c : Nat) : State :=
  let s := s.dropHead c
  s.setPq c { s.pq c with cmds := [] }

/-- A saved queue without its commands; an LSTAT among them that was stopped gives up the shadow (R218). -/
def RankSave.discard (k : RankSave) : RankSave :=
  let lstat : Bool := match k.queue.cmds with | x :: _ => decide (x.op = 1) | [] => false
  { k with
    queue := { k.queue with cmds := [] }
    shadow := (if lstat then k.shadow.filter (fun p => p.1.loaded) else k.shadow) }

/-- The queue for whose stopped head a thread trapped is discarded, where it is still stopped: its core's, or, for a thread
of a saved group, the saved one of its rank (R234). -/
def State.discardStopped (s : State) (u : Nat) (r : TrapRec) : State :=
  let t := s.thr u
  if t.saved then
    let g := s.grp t.gid
    let one (x : Nat × RankSave) : RankSave := if x.1 = t.core ∧ x.2.queue.stoppedFor r then x.2.discard else x.2
    s.modGrp t.gid (fun y => { y with save := (g.cores.zip g.save).map one })
  else if (s.pq t.core).stoppedFor r then s.discardQueue t.core
  else s

/-- TRES_RESUME: the trapped thread resumes at a PC; an ECALL's answer is written to `a0` and `a1`; the queue that
stopped a `pq.done` or `pq.resume` is discarded first (R65, R234, R370, R371). -/
def execTresResume (die ctx seq : Nat) (pc a0 a1 : Word) (s : State) : Host.Outcome State Fault Refusal :=
  match s.trappedBy ctx seq with
  | none => notEnabled "TRES_RESUME"
  | some (u, r) =>
    let s := if r.pressStop then s.discardStopped u r else s
    let s := if r.cls = .ecall then s.modThr u (fun t => (t.setReg 10 a0).setReg 11 a1) else s
    .next ((s.resume u pc).modDie die (fun d => { d with tresPc := pc }))

/-- TRES_END: the trapped thread ends (R300, R370). -/
def execTresEnd (_die ctx seq : Nat) (s : State) : Host.Outcome State Fault Refusal :=
  match s.trappedBy ctx seq with
  | none => notEnabled "TRES_END"
  | some (u, _) => .next (s.endThread u)

end Sys2Proof.Machine
end

