-- ==== Sys2Proof/Machine/Queue.lean ====
section
/-! DEFINITION. Queues (R336 to R344): descriptors, the head of a queue, its dependence, cancellation, and `ksub`
(R353). -/

namespace Sys2Proof.Machine

open Sys2Proof

/-! ## Descriptors (R336) -/

/-- A queue descriptor as read at its home: its address and its eight words. -/
structure QDesc where
  pa : Nat
  words : List Nat
  deriving DecidableEq, Repr

def QDesc.word (d : QDesc) (i : Nat) : Nat := (d.words[i]?).getD 0
def QDesc.ring (d : QDesc) : Nat := d.word 0
def QDesc.widx (d : QDesc) : Nat := d.word 1 % 2 ^ 32
def QDesc.ridx (d : QDesc) : Nat := d.word 2 % 2 ^ 32
def QDesc.cidx (d : QDesc) : Nat := d.word 3 % 2 ^ 32
def QDesc.prio (d : QDesc) : Nat := d.word 4 % 8
def QDesc.en (d : QDesc) : Bool := decide (d.word 4 / 8 % 2 = 1)
def QDesc.serial (d : QDesc) : Bool := decide (d.word 4 / 16 % 2 = 1)
def QDesc.fpol (d : QDesc) : Nat := d.word 4 / 32 % 2
def QDesc.lg (d : QDesc) : Nat := d.word 4 / 256 % 16
def QDesc.die (d : QDesc) : Nat := d.word 4 / 4096 % 4
def QDesc.stat (d : QDesc) : Nat := d.word 5

/-- Records held, modulo 2^32. -/
def QDesc.held (d : QDesc) : Nat := (d.widx + 2 ^ 32 - d.ridx) % 2 ^ 32

/-- The VA of a record and of a status entry of a ring index. -/
def QDesc.recVa (d : QDesc) (i : Nat) : Nat := (d.ring + 128 * (i % 2 ^ d.lg)) % 2 ^ 64
def QDesc.statVa (d : QDesc) (i : Nat) : Nat := (d.stat + 16 * (i % 2 ^ d.lg)) % 2 ^ 64

/-- Whether the partition of a context holds a unit of a die. -/
def State.holdsDie (s : State) (ctx die : Nat) : Bool := (List.range 8).any (fun u => s.inPart ctx (8 * die + u))

/-- A well-formed descriptor. -/
def State.descOk (s : State) (ctx : Nat) (d : QDesc) : Bool :=
  decide (d.word 1 < 2 ^ 32 ∧ d.word 2 < 2 ^ 32 ∧ d.word 3 < 2 ^ 32) &&
    decide (d.word 4 < 2 ^ 14 ∧ d.word 4 / 64 % 4 = 0 ∧ d.word 6 < 8 ∧ d.word 7 = 0) &&
    decide (d.lg ≠ 0 ∧ d.ring % 4096 = 0 ∧ d.stat % 16 = 0) && s.holdsDie ctx d.die

/-- The VA of a queue's descriptor. -/
def State.descVa (s : State) (ctx q : Nat) : Nat := ((s.ctx ctx).qtab.toNat + 64 * q) % 2 ^ 64

/-- The descriptor of a queue, where it can be read now, and with `write` written too. -/
def State.descAt (s : State) (ctx q : Nat) (write : Bool) : Option QDesc :=
  match s.look ctx (s.descVa ctx q) write false with
  | .hit pa _ _ _ =>
    if q < 64 then some { pa := pa, words := (List.range 8).map (fun i => s.peek (pa + 8 * i) 8) } else none
  | _ => none

/-- The descriptor of a queue, where the scheduler can read and write it now. -/
def State.qdesc (s : State) (ctx q : Nat) : Option QDesc := s.descAt ctx q true

/-- The leaf of a queue's descriptor with A and D set, as the scheduler's walk for its reads and writes leaves it (R273). -/
def State.markDesc (s : State) (ctx q : Nat) : State := s.markVa ctx (s.descVa ctx q) true

def State.qs (s : State) (ctx q : Nat) : QSched := tget QSched.fresh (s.ctx ctx).queues q
def State.modQs (s : State) (ctx q : Nat) (f : QSched → QSched) : State :=
  s.modCtx ctx (fun x => { x with queues := tset x.queues q (f (tget QSched.fresh x.queues q)) })

def QState.code : QState → Nat
  | .disabled => 0 | .empty => 1 | .dependent => 2 | .ready => 3 | .stopped => 4

/-- A queue's state, kept and written to its descriptor. A queue that is DISABLED or STOPPED waits on no page. -/
def State.setQ (s : State) (ctx q : Nat) (d : QDesc) (st : QState) : State :=
  (s.homeWrite (d.pa + 48) 8 st.code).modQs ctx q (fun x => { x with
    st := st, wait := (match st with | .disabled | .stopped => none | _ => x.wait) })

/-- A queue that stops for its descriptor or a page counts one queue-malformed event (R336). -/
def State.stopQ (s : State) (ctx q : Nat) (d : QDesc) : State := (s.setQ ctx q d .stopped).countDie d.die 0x7003 0 1

/-! ## Launch records (R345) -/

def recWord (r : List Word) (i : Nat) : Nat := ((r[i]?).getD 0).toNat
def recSpan (r : List Word) : Bool := decide (recWord r 1 / 2 ^ 40 % 2 = 1)
def recTpg (r : List Word) : Nat := recWord r 1 / 2 ^ 32 % 256
def recGroups (r : List Word) : Nat := recWord r 1 % 2 ^ 32
def recAcc (r : List Word) : Nat := recWord r 2 / 2 ^ 40 % 2048
def recLm (r : List Word) : Nat := recWord r 2 % 2 ^ 19
def recDkind (r : List Word) : Nat := recWord r 5 / 2 ^ 62
def recDbar (r : List Word) : Nat := recWord r 5 / 2 ^ 16 % 64
def recTarget (r : List Word) : Nat := recWord r 5 % 2 ^ 16
def recDsem (r : List Word) : Nat := recWord r 6
def recCsem (r : List Word) : Nat := recWord r 7
def recPhint (r : List Word) : Nat := recWord r 12 / 256 % 8
def recHcount (r : List Word) : Nat := recWord r 12 % 128

/-- A record within its ranges, alignments and reserved fields (R244, R345). -/
def recOk (r : List Word) : Bool :=
  let w := recWord r
  decide (w 0 % 4 = 0 ∧ w 1 < 2 ^ 41 ∧ recGroups r ≠ 0 ∧ 1 ≤ recTpg r ∧ recTpg r ≤ (if recSpan r then 128 else 16)) &&
    decide (w 2 < 2 ^ 51 ∧ w 2 / 2 ^ 19 % 2 ^ 21 = 0 ∧ recAcc r ≤ 1024) &&
    decide (2048 ≤ recLm r ∧ recLm r ≤ 262144 ∧ recLm r % 2048 = 0) &&
    decide (w 3 % 8 = 0 ∧ w 4 % 16384 = 0 ∧ w 5 / 2 ^ 22 % 2 ^ 40 = 0 ∧ recDkind r ≠ 3) &&
    (decide (recDkind r = 2) || decide (recDbar r = 0)) &&
    (if recDkind r = 1 then decide (recDsem r ≠ 0) else decide (recDsem r = 0)) &&
    (decide (recDkind r ≠ 0) || decide (recTarget r = 0)) &&
    decide (w 8 < 2 ^ 48 ∧ w 9 % 16 = 0 ∧ w 10 < 2 ^ 32 ∧ w 10 % 16 = 0 ∧ w 11 % 8 = 0) &&
    decide (w 12 < 2 ^ 11 ∧ w 12 / 128 % 2 = 0 ∧ recHcount r ≤ 64) && decide (w 13 = 0 ∧ w 14 = 0 ∧ w 15 = 0)

/-- The words of a record from its 128 bytes. -/
def recOf (v : Nat) : List Word := (List.range 16).map (fun i => BitVec.ofNat 64 (v / 2 ^ (64 * i)))

/-! ## Kernel states (R347) -/

/-- The key of a kernel: a kernel id is one of its context. -/
def kernelKey (ctx kid : Nat) : Nat := kid + 2 ^ 64 * ctx

def KState.number : KState → Nat
  | .pending => 0 | .dependent => 1 | .admitted => 2 | .placing => 3 | .running => 4 | .draining => 5 | .done => 6
  | .faulted => 7 | .cancelled => 8

/-- A kernel's state changes, with its trace record (R383, R384). -/
def State.setKState (s : State) (kid : Nat) (st : KState) : State :=
  let k := s.ker kid
  (s.modKer kid (fun k => { k with st := st })).traceHw (256 * k.die)
    { tick := s.gtick, kind := 6, ctx := k.ctx, core := 256 * k.die, slot := 0, index := 0, pc := BitVec.ofNat 64 kid,
      value := BitVec.ofNat 64 st.number }

/-- The kernel id of a ring index (R346). -/
def kernelId (die q i : Nat) : Nat := 2 ^ 40 + die % 4 * 2 ^ 38 + q % 64 * 2 ^ 32 + i % 2 ^ 32

/-- The kernel of a ring index goes to a state that it has before its admission, or is CANCELLED before it (R343, R344,
R347). A kernel not listed is PENDING. -/
def State.noteKernel (s : State) (ctx q die i : Nat) (st : KState) : State :=
  let key := kernelKey ctx (kernelId die q i)
  let k := s.ker key
  if k.st = st ∧ st ≠ .cancelled then s
  else (s.setKer key { k with ctx := ctx, die := die, q := q, idx := i }).setKState key st

/-! ## Dependences (R343) -/

/-- What a semaphore's word reads, for the scheduler. -/
inductive SemLook where
  | word (pa w : Nat)
  | bad                 -- malformed, or not to be read
  | absent
  | busy

def State.lookSem (s : State) (ctx va : Nat) (write : Bool) : SemLook :=
  if va % 8 ≠ 0 then .bad
  else
    match s.look ctx va write false with
    | .hit pa _ _ _ => if semMalformed (s.peek pa 8) then .bad else .word pa (s.peek pa 8)
    | .absent => .absent
    | .denied => .bad
    | .poison _ | .busy => .busy

/-- A phase at or past a target. -/
def phaseMet (phase target : Nat) : Bool := decide ((phase + 2 ^ 16 - target) % 2 ^ 16 < 32768)

/-- The leaf of a semaphore that a walk found, as a read leaves it (R273): a misaligned word is not walked to. -/
def State.markSem (s : State) (ctx va : Nat) : State := if va % 8 ≠ 0 then s else s.markWalk ctx va

/-- What the scheduler makes of a record's dependence; `bad`: it is malformed, or its barrier is not the context's, and the
record gets code 3. -/
inductive Dep where
  | met | unmet | bad
  deriving DecidableEq, Repr

/-- A record's dependence judged, and the state with the fault that the judgement opens. `none` where the semaphore cannot
be read now. -/
def State.depMet (s : State) (ctx die : Nat) (r : List Word) : Option (State × Dep) :=
  let judged (met : Bool) : Dep := if met then .met else .unmet
  match recDkind r with
  | 0 => some (s, .met)
  | 1 =>
    if recDsem r = 0 then some (s, .bad)
    else
      match s.lookSem ctx (recDsem r) false with
      | .word _ w =>
        some (s.markSem ctx (recDsem r), judged (!semUnconfigured w && phaseMet (semPhase w) (recTarget r)))
      | .absent => some (s.openFault ctx (recDsem r) 1 (256 * die), .unmet)
      | .busy => none
      | .bad => some (s.markSem ctx (recDsem r), .bad)
  | 2 =>
    let b := s.bar 2 die (recDbar r)
    some (s, if b.holder ≠ some ctx then .bad else judged (decide (b.expected ≠ 0) && phaseMet b.phase (recTarget r)))
  | _ => some (s, .bad)

/-! ## The head (R337, R340) -/

/-- Whether the scheduler checks dependences of a context (R340). -/
def State.schedules (s : State) (ctx : Nat) : Bool :=
  match (s.ctx ctx).st with
  | .runnable | .running | .preempting => true
  | _ => false

/-- What giving an index its status and passing it meets (R337). -/
inductive Passed where
  | ok (s : State)
  | wait (s : State)    -- the page of the status array is not present
  | stop (s : State)
  | busy

/-- The status entry of the index at ridx is written first, then ridx, whose advance wakes the submitters (R337,
R353). -/
def State.passIndex (s : State) (ctx q : Nat) (d : QDesc) (kid code : Nat) : Passed :=
  let va := d.statVa d.ridx
  match s.look ctx va true false with
  | .hit pa p e _ =>
    let s := (s.markEntry e p true).homeWrite pa 16 (kid + 2 ^ 64 * code)
    let s := s.homeWrite (d.pa + 16) 8 ((d.ridx + 1) % 2 ^ 32)
    let s := s.modQs ctx q (fun x => { x with newHead := true, skipped := x.skipped.filter (fun y => decide (y.1 ≠ d.ridx)) })
    .ok (s.fire (fun w => decide (w = .ring ctx q)))
  | .absent =>
    .wait ((s.openFault ctx va 2 (256 * d.die)).modQs ctx q (fun x => { x with wait := some (pageOf va) }))
  | .denied => .stop (s.stopQ ctx q d)
  | .poison _ | .busy => .busy

/-- The descriptor after ridx has advanced. -/
def QDesc.next (d : QDesc) : QDesc := { d with words := d.words.set 2 ((d.ridx + 1) % 2 ^ 32) }

/-- What the head of a queue reads. -/
inductive HeadLook where
  | record (s : State) (r : List Word)
  | wait (s : State)
  | stop (s : State)
  | busy

def State.readHead (s : State) (ctx q : Nat) (d : QDesc) : HeadLook :=
  let va := d.recVa d.ridx
  match s.look ctx va false false with
  | .hit pa p e _ =>
    let (s, v) := (s.markEntry e p false).homeRead pa 128
    .record s (recOf v)
  | .absent =>
    .wait ((s.openFault ctx va 1 (256 * d.die)).modQs ctx q (fun x => { x with wait := some (pageOf va) }))
  | .denied => .stop (s.stopQ ctx q d)
  | .poison _ | .busy => .busy

/-- The judged head gives its queue a state, and its kernel one (R340, R347). -/
def State.setHead (s : State) (ctx q : Nat) (d : QDesc) (met : Bool) : State :=
  let s := (s.setQ ctx q d (if met then .ready else .dependent)).modQs ctx q (fun x => { x with newHead := false })
  if met then
    let c := s.ctx ctx
    (s.modQs ctx q (fun x => { x with
      since := (match c.st with | .saved | .migrating => c.savedAt | _ => s.gtick) })).noteKernel ctx q d.die d.ridx .pending
  else s.noteKernel ctx q d.die d.ridx .dependent

/-- A descriptor that stops its queue, and what it leaves then (R336): a malformed one with en set, and one that holds too
many records. -/
def State.descStops (s : State) (ctx q : Nat) (d : QDesc) : Option State :=
  if !s.descOk ctx d then some (if d.en then s.stopQ ctx q d else s)
  else if 2 ^ d.lg < d.held then some (s.setQ ctx q d .stopped)
  else none

/-- The state a queue's head gives it (R340), past the heads already cancelled and those whose dependence is malformed. A
READY head that is not a new one stays so, and one that is still to be looked at for an upstream fault is not judged. `none`
where memory cannot answer now. -/
def State.judge (s : State) (ctx q : Nat) (d : QDesc) : Nat → Option State
  | 0 => some s
  | n + 1 =>
    let x := s.qs ctx q
    let pass (s : State) (code : Nat) : Option State :=
      match s.passIndex ctx q d 0 code with
      | .ok s => State.judge s ctx q d.next n
      | .wait s | .stop s => some s
      | .busy => none
    match s.descStops ctx q d with
    | some s => some s
    | none =>
      if d.held = 0 then some ((s.setQ ctx q d .empty).modQs ctx q (fun x => { x with newHead := false }))
      else
        match x.skipped.find? (fun y => decide (y.1 = d.ridx)) with
        | some y => pass s y.2
        | none =>
          if (x.st = .ready ∧ !x.newHead) ∨ x.due.any (fun y => decide (y.1 = d.ridx)) then some s
          else
            match s.readHead ctx q d with
            | .busy => none
            | .wait s | .stop s => some s
            | .record s r =>
              if recDkind r ≠ 0 ∧ !s.schedules ctx then some (s.setHead ctx q d false)
              else
                match s.depMet ctx d.die r with
                | none => none
                | some (s, .bad) => pass s 3
                | some (s, .met) => some (s.setHead ctx q d true)
                | some (s, .unmet) => some (s.setHead ctx q d false)

/-- The head of a queue is judged; `moved`: it is a new one. -/
def State.settleQueue (s : State) (ctx q : Nat) (d : QDesc) (moved : Bool) : Option State :=
  (s.modQs ctx q (fun x => { x with wait := none, newHead := x.newHead || moved })).judge ctx q d (d.held + 1)

/-- The records in the ring, by index. -/
def QDesc.indices (d : QDesc) : List Nat := (List.range (min d.held (2 ^ d.lg))).map (fun k => (d.ridx + k) % 2 ^ 32)

/-- The records that a cancel index reaches: those in the ring at that moment (R343). -/
def QDesc.cut (d : QDesc) (c : Nat) : List Nat :=
  d.indices.filter (fun i =>
    decide (1 ≤ (c + 2 ^ 32 - i) % 2 ^ 32 ∧ (c + 2 ^ 32 - i) % 2 ^ 32 ≤ 2 ^ 31))

/-- Records are given a code before they are heads: their kernels are CANCELLED (R343, R344, R347). -/
def State.skipRecords (s : State) (ctx q : Nat) (d : QDesc) (l : List Nat) (code : Nat) : State :=
  let s := s.modQs ctx q (fun x => { x with skipped := x.skipped ++ l.map (fun i => (i, code)) })
  l.foldl (fun s i => s.noteKernel ctx q d.die i .cancelled) s

def State.cutQueue (s : State) (ctx q : Nat) (d : QDesc) (c : Nat) : State :=
  let x := s.qs ctx q
  (s.modQs ctx q (fun x => { x with cidx := none })).skipRecords ctx q d
    ((d.cut c).filter (fun i => !x.skipped.any (fun y => decide (y.1 = i)))) 2

/-- A DISABLED queue is enabled (R340): a cancel index written while it was DISABLED applies now. -/
def State.enableQueue (s : State) (ctx q : Nat) (d : QDesc) : Option State :=
  let s := s.modQs ctx q (fun y => { y with skipped := y.skipped.filter (fun z => d.indices.contains z.1) })
  (match (s.qs ctx q).cidx with | some c => s.cutQueue ctx q d c | none => s).settleQueue ctx q d true

/-! ## Upstream faults (R344) -/

/-- The queues of a context as the scheduler finds them; `none` where a descriptor cannot be read now. A descriptor whose page
is not present names no records that it could look at. -/
def State.descs (s : State) (ctx : Nat) : Option (List (Nat × QDesc)) :=
  if (List.range 64).any (fun q => match s.look ctx (s.descVa ctx q) true false with
      | .busy | .poison _ => true
      | _ => false) then none
  else some ((List.range 64).filterMap (fun q => (s.qdesc ctx q).map (fun d => (q, d))))

/-- A semaphore's phase as it is now can be read, or its page is not present or forbidden. -/
def State.semReady (s : State) (ctx va : Nat) : Bool :=
  match s.look ctx va false false with
  | .busy | .poison _ => false
  | _ => true

/-- A kernel with this completion semaphore has ended FAULTED, or a record with it has been skipped for such a fault: every
record of the queues with fpol 0 is to be looked at, against the semaphore's phase at this moment. A phase that cannot be
read, on a page that is not present, meets no target (log 22). -/
def State.owe (s : State) (ctx csem : Nat) (qs : List (Nat × QDesc)) : State :=
  if csem = 0 then s
  else
    let phase := match s.look ctx csem false false with
      | .hit pa _ _ _ => some (semPhase (s.peek pa 8))
      | _ => none
    qs.foldl (fun s x =>
      if x.2.fpol = 1 || !s.descOk ctx x.2 then s
      else s.modQs ctx x.1 (fun y => { y with due := y.due ++ x.2.indices.map (fun i => (i, csem, phase)) }))
      (s.markSem ctx csem)

/-- What a look at a record finds: the record is to be skipped, the look is over, or it cannot be made now. -/
inductive Examined where
  | skip (s : State) (csem : Nat)
  | over (s : State)
  | later (s : State)

def State.examine (s : State) (ctx q : Nat) (d : QDesc) (y : Nat × Nat × Option Nat) : Examined :=
  if !d.indices.contains y.1 || (s.qs ctx q).skipped.any (fun z => decide (z.1 = y.1)) then .over s
  else
    match s.look ctx (d.recVa y.1) false false with
    | .hit pa p e _ =>
      let (s, v) := (s.markEntry e p false).homeRead pa 128
      let r := recOf v
      let met : Bool := match y.2.2 with | some phase => phaseMet phase (recTarget r) | none => false
      if recDkind r = 1 ∧ recDsem r = y.2.1 ∧ !met then
        (if s.semReady ctx (recCsem r) then .skip s (recCsem r) else .later s)
      else .over s
    | .absent => .later (s.openFault ctx (d.recVa y.1) 1 (256 * d.die))
    | .denied => .over s
    | .poison _ | .busy => .later s

/-- The looks that are due in the queues, each once: a record skipped makes its own dependents due (R344). -/
def State.lookRound (s : State) (ctx : Nat) (qs : List (Nat × QDesc)) : State :=
  qs.foldl (fun s x =>
    let l := (s.qs ctx x.1).due
    let s := s.modQs ctx x.1 (fun y => { y with due := [] })
    l.foldl (fun s y =>
      match s.examine ctx x.1 x.2 y with
      | .over s => s
      | .later s => s.modQs ctx x.1 (fun z => { z with due := z.due ++ [y] })
      | .skip s csem => (s.skipRecords ctx x.1 x.2 [y.1] 5).owe ctx csem qs) s) s

def State.lookRounds (s : State) (ctx : Nat) (qs : List (Nat × QDesc)) : Nat → State
  | 0 => s
  | n + 1 => (s.lookRound ctx qs).lookRounds ctx qs n

/-- Every look that can be made is made: each round but the last skips a record of the rings. -/
def State.lookDue (s : State) (ctx : Nat) (qs : List (Nat × QDesc)) : State :=
  if (s.ctx ctx).queues.all (fun x => decide (x.2.due = [])) then s
  else s.lookRounds ctx qs ((qs.map (fun x => x.2.indices.length)).foldl (· + ·) 1)

/-! ## Heads to be judged -/

/-- A queue whose head is to be judged: it is a new one, or it has been skipped or is to be looked at. -/
def State.headOpen (s : State) (ctx q : Nat) (d : QDesc) : Bool :=
  let x := s.qs ctx q
  x.newHead || x.skipped.any (fun y => decide (y.1 = d.ridx)) || x.due.any (fun y => decide (y.1 = d.ridx))

/-- A queue that takes part in scheduling and waits on no page. -/
def QSched.live (x : QSched) : Bool := decide (x.st ≠ .disabled ∧ x.st ≠ .stopped) && x.wait.isNone

/-- Whether a queue of a context has a head to be judged. -/
def State.anyOpen (s : State) (ctx : Nat) : Bool :=
  (s.ctx ctx).queues.any (fun x => decide (x.2.due ≠ []) ||
    (x.2.live && (match s.qdesc ctx x.1 with | some d => s.headOpen ctx x.1 d | none => false)))

/-- The looks that are due are made, and the heads to be judged are judged, where memory can answer. -/
def State.settleOpen (s : State) (ctx : Nat) : State :=
  match s.descs ctx with
  | none => s
  | some qs =>
    qs.foldl (fun s x =>
      if (s.qs ctx x.1).live && s.headOpen ctx x.1 x.2 then
        ((s.markDesc ctx x.1).settleQueue ctx x.1 x.2 false).getD s
      else s) (s.lookDue ctx qs)

/-- A kernel with this completion semaphore has ended FAULTED: its dependents are given code 5, and theirs in turn (R344);
`none` where the semaphore or a descriptor cannot be read now. -/
def State.cascade (s : State) (ctx csem : Nat) : Option State :=
  if csem = 0 then some s
  else if !s.semReady ctx csem then none
  else (s.descs ctx).map (fun qs => (s.owe ctx csem qs).settleOpen ctx)

/-! ## The events of queues -/

/-- A context that has queues. -/
def State.hasQueues (s : State) (ctx : Nat) : Bool :=
  match (s.ctx ctx).st with
  | .free | .building | .tornDown => false
  | _ => true

/-- An event of a queue: what the scheduler does with its descriptor. -/
def State.onQueue (s : State) (ctx q : Nat) (name : String) (f : State → QDesc → QSched → Option State) :
    Host.Outcome State Fault Refusal :=
  if !s.hasQueues ctx then notEnabled name
  else
    match s.qdesc ctx q with
    | none => notEnabled name
    | some d => match f (s.markDesc ctx q) d (s.qs ctx q) with | some s => .next s | none => notEnabled name

/-- QUEUE_DOORBELL: the scheduler is told of a write to widx (R338, R340). -/
def execQueueDoorbell (ctx q : Nat) (s : State) : Host.Outcome State Fault Refusal :=
  s.onQueue ctx q "QUEUE_DOORBELL" (fun s d x =>
    match x.st with
    | .disabled | .stopped => some s
    | .empty => s.settleQueue ctx q d true
    | _ =>
      match s.descStops ctx q d with
      | some s => some s
      | none => if x.live && s.headOpen ctx q d then s.settleQueue ctx q d false else some s)

/-- QUEUE_ENABLE: en was written 1 (R340). -/
def execQueueEnable (ctx q : Nat) (s : State) : Host.Outcome State Fault Refusal :=
  s.onQueue ctx q "QUEUE_ENABLE" (fun s d x =>
    if !d.en then none
    else if x.st ≠ .disabled then some s
    else s.enableQueue ctx q d)

/-- QUEUE_DISABLE: en was written 0 (R340). -/
def execQueueDisable (ctx q : Nat) (s : State) : Host.Outcome State Fault Refusal :=
  s.onQueue ctx q "QUEUE_DISABLE" (fun s d _ => if d.en then none else some (s.setQ ctx q d .disabled))

/-- QUEUE_CANCEL: cidx was written `c` (R343). -/
def execQueueCancel (ctx q c : Nat) (s : State) : Host.Outcome State Fault Refusal :=
  s.onQueue ctx q "QUEUE_CANCEL" (fun s d x =>
    if d.cidx ≠ c then none
    else
      match x.st with
      | .disabled => some (s.modQs ctx q (fun y => { y with cidx := some c }))
      | .empty | .stopped => some s
      | _ => if (d.cut c).contains d.ridx then (s.cutQueue ctx q d c).settleQueue ctx q d false
             else some (s.cutQueue ctx q d c))

/-- DEPENDENCE_MET: the dependence of the head of a DEPENDENT queue is met, or found to be malformed (R340, R343). -/
def execDependenceMet (ctx q : Nat) (s : State) : Host.Outcome State Fault Refusal :=
  s.onQueue ctx q "DEPENDENCE_MET" (fun s d x =>
    if x.st ≠ .dependent ∨ !s.schedules ctx then none
    else
      match s.settleQueue ctx q d true with
      | some s' =>
        if (s'.qs ctx q).st = .dependent ∧ s'.faults = s.faults ∧ (s'.qdesc ctx q).map QDesc.ridx = some d.ridx then none
        else some s'
      | none => none)

/-! ## `ksub` (R353) -/

/-- The page of an address is frozen (R274). -/
def State.frozen (s : State) (ctx va : Nat) : Bool :=
  match s.walk ctx va with
  | .leaf _ p _ _ => pteMG p
  | .absent .. => false

/-- What `ksub` does once its record is read: the write of the ring entry and of widx is one step at the home, which waits for
the thaw of a frozen page (R274). -/
def State.submit (s : State) (rd : BitVec 4) (r : Word) (q : Nat) (v : Nat) (p : Spot) (nb : BitVec 1) : State :=
  let ctx := s.myCtx
  let dva := s.descVa ctx q
  let ends (s : State) (x : Res) : State := match x with | .stop s c w => s.notReady nb c w | _ => s
  let again (s : State) (va : Nat) : State :=
    if s.frozen ctx va then
      let ea := BitVec.ofNat 64 va
      ends s (State.stopOn (s.claim ea .translation true 0 .blocked false 0) ea (.thaw ctx (pageOf va)) id)
    else
      ends s (State.stopClaim (s.claim r .share false (p.pa / 128) .waiting false (s.homeAt r)) r (fun s =>
        s.send { src := s.myCore, dst := s.myCore, line := p.pa / 128, kind := .own s.cur }))
  match s.qdesc ctx q with
  | none => again s dva
  | some d =>
    if 2 ^ d.lg ≤ d.held then s.notReady nb .full (.ring ctx q)
    else
      let va := d.recVa d.widx
      match s.look ctx va true false with
      | .absent => (s.openFault ctx va 2 s.myCore).notReady nb .faulted (.fault ctx (pageOf va) (some (BitVec.ofNat 64 va)))
      | .denied => (s.markWalk ctx va).trapMe .access (BitVec.ofNat 64 va) 0
      | .poison _ | .busy => again (s.markWalk ctx va) va
      | .hit pa pte e _ =>
        let s := ((s.markDesc ctx q).markEntry e pte true).homeWrite pa 128 v
        let s := s.homeWrite (d.pa + 8) 8 ((d.widx + 1) % 2 ^ 32)
        let s := (s.endOp (BitVec.ofNat 64 dva)).endOp (BitVec.ofNat 64 va)
        (s.modMe (fun t => (t.setReg rd (BitVec.ofNat 64 (kernelId d.die q d.widx))).released)).completeP nb .rdy

def execKsub (rd rs1 rs2 : BitVec 4) (nb : BitVec 1) (s : State) : Host.Outcome State Fault Refusal :=
  let r := s.me.reg rs1
  let q := (s.me.reg rs2).toNat
  let ctx := s.myCtx
  let dva := s.descVa ctx q
  if r.toNat % 128 ≠ 0 ∨ !inPaged r.toNat then .next (s.trapMe .access r 0)
  else if 63 < q then .next (s.complete nb .denied)
  else
    let s := s.markWalk ctx dva
    match s.look ctx dva false false, s.look ctx dva true false with
    | .absent, _ =>
      .next ((s.openFault ctx dva 2 s.myCore).notReady nb .faulted
        (.fault ctx (pageOf dva) (some (BitVec.ofNat 64 dva))))
    | .denied, _ | _, .denied => .next (s.trapMe .access (BitVec.ofNat 64 dva) 0)
    | _, _ =>
      -- a queue that is disabled, or STOPPED, or to be treated as STOPPED (R336)
      let closed : Bool := match s.descAt ctx q false with
        | some d => !d.en || decide (d.word 6 % 8 = 4) || !s.descOk ctx d || decide (2 ^ d.lg < d.held)
        | none => false
      if closed then .next (s.complete nb .denied)
      else
        let (s, ok) := s.releaseStep 3
        if !ok then .next (s.notReady nb .nr (.release 3))
        else
          match s.attempt .load r 128 128 true (allBytes 128) with
          | .trap s c va x => .next (s.trapMe c va x)
          | .denied s => .next (s.complete nb .denied)
          | .stop s c w => .next (s.notReady nb c w)
          | .ok s p =>
            let v := s.readAt p r 128
            .next (((s.touch p).endOp r).submit rd r q v p nb)

end Sys2Proof.Machine
end

