-- ==== Sys2Proof/Machine/Group.lean ====
section
/-! DEFINITION. Groups (R349 to R361): where a group is placed, its start, its end, its save and its restore. -/

namespace Sys2Proof.Machine

open Sys2Proof

/-! ## Places (R342, R349, R350, R354) -/

/-- The cores of a forme that are in service, in ascending position. -/
def State.inService (s : State) (f : Nat) : List Nat :=
  ((List.range 8).map (fun p => 8 * f + p)).filter (fun c => !(s.core c).retired)

/-- Whether a die takes groups. -/
def State.dieServes (s : State) (d : Nat) : Bool := (s.die d).started && decide ((s.dpow d).park = .inService)

/-- The forme of a place: a forme for span `forme`, else a core. -/
def placeForme (forme : Bool) (place : Nat) : Nat := if forme then place else coreForme place

/-- What a group asks of its place: its span, its ranks and its rows (R349, R354). -/
structure Ask where
  forme : Bool
  ranks : Nat
  rows : Nat
  deriving DecidableEq, Repr

def askOf (r : List Word) : Ask :=
  { forme := recSpan r, ranks := (if recSpan r then min (recTpg r) 8 else 1), rows := recAcc r }

def Group.ask (g : Group) : Ask := { forme := g.forme, ranks := (if g.forme then min g.tpg 8 else 1), rows := g.rows }

/-- Rows that the launches on a forme hold or have reserved, kernel `kid`'s reservation left out (R213). -/
def State.rowsHeld (s : State) (f : Nat) (kid : Option Nat) : Nat :=
  ((List.range 8).map (fun p => match s.groupOn (8 * f + p) with | some g => (s.grp g).rows | none => 0)).foldl (· + ·) 0 +
    (s.kernels.map (fun k =>
      match k.2.room with
      | some p =>
        if some k.1 ≠ kid ∧ placeForme (recSpan k.2.words) p = f then
          (if recSpan k.2.words then 8 * recAcc k.2.words else recAcc k.2.words) else 0
      | none => 0)).foldl (· + ·) 0

/-- Whether another kernel's admission has reserved a place that overlaps this one (R349). -/
def State.reserved (s : State) (forme : Bool) (place : Nat) (kid : Option Nat) : Bool :=
  s.kernels.any (fun k =>
    match k.2.room with
    | some p =>
      let wide := recSpan k.2.words
      decide (some k.1 ≠ kid) &&
        (if forme || wide then decide (placeForme wide p = placeForme forme place) else decide (p = place))
    | none => false)

/-- A place that could hold the group if the partition were idle. -/
def State.placeCould (s : State) (ctx die : Nat) (a : Ask) (place : Nat) : Bool :=
  let unit := coreUnit (if a.forme then 8 * place else place)
  !s.units.contains unit &&
  if a.forme then
    decide (formeDie place = die) && s.inPart ctx (coreUnit (8 * place)) &&
      decide (a.ranks ≤ (s.inService place).length ∧ 8 * a.rows ≤ 1024)
  else decide (coreDie place = die) && s.inPart ctx (coreUnit place) && !(s.core place).retired

/-- A place that is free for the group. -/
def State.placeFree (s : State) (ctx die : Nat) (a : Ask) (kid : Option Nat) (place : Nat) : Bool :=
  let f := placeForme a.forme place
  s.placeCould ctx die a place && s.dieServes die && !s.reserved a.forme place kid && (s.forme f).group.isNone &&
    (if a.forme then (List.range 8).all (fun p => (s.groupOn (8 * f + p)).isNone)
     else (s.groupOn place).isNone) &&
    decide (s.rowsHeld f kid + (if a.forme then 8 * a.rows else a.rows) ≤ 1024)

/-- The places of a die for a span. -/
def places (die : Nat) (forme : Bool) : List Nat :=
  if forme then (List.range 32).map (fun i => 32 * die + i) else (List.range 256).map (fun i => 256 * die + i)

/-- The hotness counts of the page behind a VA, at the home slices of a die (R281, R350). -/
def State.pageHeat (s : State) (ctx die va : Nat) : List Nat :=
  match s.walk ctx va with
  | .absent .. => [0, 0, 0, 0]
  | .leaf lv p _ homes =>
    let g := leafPa lv p va / 2 ^ levelBits lv
    let mine := homes.dedup.filter (fun c => decide (coreDie c = die))
    let l := mine.flatMap (fun c => (s.core c).hot.filter (fun x => decide (x.1 * 65536 / 2 ^ levelBits lv = g)))
    [0, 1, 2, 3].map (fun q => (l.map (fun x => x.2.getD q 0)).foldl (· + ·) 0)

/-- The counts of a record's hint list. A list page that is not present gives none (R350). -/
def State.hintHeat (s : State) (ctx die : Nat) (r : List Word) : List Nat :=
  let vas := if recWord r 11 = 0 then [] else (List.range (recHcount r)).filterMap (fun i =>
    (s.vaPa ctx ((recWord r 11 + 8 * i) % 2 ^ 64)).map (fun pa => s.peek pa 8))
  vas.foldl (fun (a : List Nat) va => (a.zip (s.pageHeat ctx die va)).map (fun x => x.1 + x.2)) [0, 0, 0, 0]

/-- The walks of a hint list's reads leave A set in the leaves of the list and of the pages it names (R273, R350). -/
def State.markHints (s : State) (ctx : Nat) (r : List Word) : State :=
  if recWord r 11 = 0 then s
  else (List.range (recHcount r)).foldl (fun s i =>
    match s.reach ctx ((recWord r 11 + 8 * i) % 2 ^ 64) false with
    | some (s, pa) => (match s.reach ctx (s.peek pa 8) false with | some (s, _) => s | none => s)
    | none => s) s

/-- The doubled centre of a quadrant, in forme columns and rows (R282). -/
def quadCentre (q : Nat) : Nat × Nat := ((if q % 2 = 1 then 11 else 3), (if q / 2 = 1 then 5 else 1))

/-- The squared distance of a quadrant's centre from the centre of gravity of counts, scaled by (2 Σ n)²; from the centre
of quadrant 0 where every count is zero (R282, R350). -/
def quadDist (heat : List Nat) (q : Nat) : Nat :=
  let n := heat.foldl (· + ·) 0
  let sum (f : Nat → Nat) : Nat := ((List.range 4).map (fun i => heat.getD i 0 * f i)).foldl (· + ·) 0
  let c : Nat × Nat × Nat := if n = 0 then (1, 3, 1) else (n, sum (fun i => (quadCentre i).1), sum (fun i => (quadCentre i).2))
  let dx : Int := ((quadCentre q).1 * c.1 : Nat) - (c.2.1 : Nat)
  let dy : Int := ((quadCentre q).2 * c.1 : Nat) - (c.2.2 : Nat)
  (dx * dx + dy * dy).toNat

/-- Quadrants from the nearest to the farthest, ties to the lower number. -/
def quadOrder (heat : List Nat) : List Nat := [0, 1, 2, 3].insertionSort (fun a b => quadDist heat a ≤ quadDist heat b)

/-- The snake index of a place and its quadrant. -/
def placeSnake (forme : Bool) (p : Nat) : Nat := if forme then snakeForme p else snakePos p
def placeQuad (forme : Bool) (p : Nat) : Nat := formeQuad (placeForme forme p)

/-- R350: the free place with the lowest snake index in the first quadrant of the order that has one. -/
def State.choosePlace (s : State) (ctx die : Nat) (r : List Word) (kid : Option Nat) : Option Nat :=
  let a := askOf r
  let free := (places die a.forme).filter (fun p => s.placeFree ctx die a kid p)
  (quadOrder (s.hintHeat ctx die r)).findSome? (fun q =>
    leastBy (placeSnake a.forme) (free.filter (fun p => decide (placeQuad a.forme p = q))))

/-! ## Start (R351, R352) -/

/-- Writes constant words of a core. -/
def State.putConst (s : State) (c n : Nat) (v : Word) : State :=
  { s with lm := mstore s.lm (lmByte c (8 * n)) v.toNat 8 }

/-- Words c224 to c226 of a core (R351). -/
def State.putPlaceWords (s : State) (c : Nat) : State :=
  let f := coreForme c
  ((s.putConst c 224 (BitVec.ofNat 64 (s.power.package % 64 * 256 + coreDie c % 4))).putConst c 225
    (BitVec.ofNat 64 (snakeForme f * 1024 + formeQuad f * 256 + f % 32))).putConst c 226 (BitVec.ofNat 64 (coreLocal c))

/-- The constant window of a core at a group's start (R351). -/
def State.putWindow (s : State) (c rank gid kid : Nat) : State :=
  let k := s.ker kid
  let g := s.grp gid
  let s := ((List.range 224).zip k.consts).foldl (fun s x => s.putConst c x.1 x.2)
    { s with lm := mcut s.lm (lmByte c 0) 2048 }
  let s := s.putPlaceWords c
  let l := [rank, g.index, recGroups k.words, g.tpg, kid, g.ctx, (s.ctx g.ctx).part, k.admitTick,
    0x1000000 + rank * 0x40000, (if g.forme then 1 else 0), g.lm, g.rows]
  ((List.range 12).zip l).foldl (fun s x => s.putConst c (227 + x.1) (BitVec.ofNat 64 x.2)) s

/-- Launched thread `t` of a group (R352, R354). -/
def State.startThread (s : State) (gid kid t : Nat) : State :=
  let k := s.ker kid
  let g := s.grp gid
  let rank := if g.forme then t % 8 else 0
  let c := (g.cores[rank]?).getD 0
  let n := g.index * g.tpg + t
  let sp := if recWord k.words 9 = 0 then 0 else recWord k.words 9 + (n + 1) * recWord k.words 10
  let u := s.nextUid
  let x : Thread := { Thread.fresh with
    st := .ready, core := c, slot := some (if g.forme then t / 8 else t), slotFrom := s.now (coreDie c), gid := gid,
    index := t, rank := rank, thrid := kid % 2 ^ 16 * 2 ^ 32 + n % 2 ^ 32, pc := BitVec.ofNat 64 (recWord k.words 0),
    agent := s.newAgent g.ctx u, epoch := tget 0 (s.ctx g.ctx).epochs g.die }
  State.setThr { s with nextUid := u + 1 } u (x.setReg 2 (BitVec.ofNat 64 sp))

/-- The default limit of a context's watchdogs (R356, R362). -/
def State.watchdogLimit (s : State) (kid : Nat) : Nat :=
  let k := s.ker kid
  if recWord k.words 8 ≠ 0 then recWord k.words 8
  else if (s.ctx k.ctx).wdog ≠ 0 then (s.ctx k.ctx).wdog else 2 ^ 32 - 1

/-- A hardware trace record of a group (R384): kinds 3 to 5. -/
def State.traceGroup (s : State) (gid kind : Nat) : State :=
  let g := s.grp gid
  let c := (g.cores[0]?).getD 0
  s.traceHw c { tick := s.gtick, kind := kind, ctx := g.ctx, core := c, slot := 0, index := 0,
                pc := BitVec.ofNat 64 g.index, value := 0 }

/-- Places and starts the next group of a kernel at a place: STARTING and RUNNING in one step (R351, R355). -/
def State.placeGroup (s : State) (kid place : Nat) : State :=
  let k := s.ker kid
  let a := askOf k.words
  let gid := s.nextGid
  let cores := if a.forme then (s.inService place).take a.ranks else [place]
  let tpg := recTpg k.words
  let g : Group := { Group.fresh with
    kid := kid, ctx := k.ctx, die := k.die, index := k.placed, forme := a.forme, tpg := tpg, lm := recLm k.words,
    rows := a.rows, st := .running, cores := cores, wdLimit := s.watchdogLimit kid }
  let s := State.setGrp { s with nextGid := gid + 1 } gid g
  let s := s.modKer kid (fun k => { k with placed := k.placed + 1, room := none })
  let bars (n m : Nat) : Tbl Bar := (List.range n).map (fun i => (i, { Bar.fresh with expected := m }))
  let s := if a.forme then s.modForme place (fun f => { f with group := some gid, bars := bars 16 tpg }) else s
  let s := cores.zipIdx.foldl (fun s (x : Nat × Nat) =>
    let n := if a.forme then (tpg + 7 - x.2) / 8 else tpg
    let s := s.modCore x.1 (fun c => { c with bars := bars 8 n })
    let s := (s.setPq x.1 PQueue.fresh).accClear x.1 0 1024
    (s.putWindow x.1 x.2 gid kid).acquireStep x.1 3) s
  let s := (List.range tpg).foldl (fun s t => s.startThread gid kid t) s
  s.traceGroup gid 3

/-! ## The end of a group (R230, R348, R355) -/

/-- A core's place in its press is given up, its queue discarded with one event where it held commands, and its rows
freed. -/
def State.clearCore (s : State) (c ctx : Nat) : State :=
  let s := if (s.pq c).cmds = [] then s else s.count c ctx 0x3002 1
  let s := if (s.pq c).cmds = [] then s else s.discardQueue c
  let s := (s.setPq c PQueue.fresh).accClear c 0 1024
  (s.modCore c (fun k => { k with bars := [] })).writeBackRaw c

/-- A group ENDS: its cores, rows, barriers and LM are freed, each core starts its release step, and the kernel counts
it (R348, R355). -/
def State.endGroup (s : State) (gid : Nat) : State :=
  let g := s.grp gid
  let placed : Bool := match g.st with | .saved | .unplaced | .ended => false | _ => true
  let s := if placed then g.cores.foldl (fun s c => s.clearCore c g.ctx) s else s
  let formes := (g.cores.map coreForme).dedup
  let s := if placed && g.forme then formes.foldl (fun s f => s.modForme f (fun k => { k with group := none, bars := [] })) s
    else s
  let s := if placed then s else
    g.save.foldl (fun s r => if r.queue.cmds = [] then s else s.count ((g.cores[0]?).getD 0) g.ctx 0x3002 1) s
  let s := s.modGrp gid (fun g => { g with st := .ended, save := [], formeBars := [], reinstall := [] })
  let s := if placed then g.cores.foldl (fun s c => s.pressLeave c) s else s
  let s := s.modKer g.kid (fun k => { k with ended := k.ended + 1 })
  let k := s.ker g.kid
  if k.st = .running ∧ k.ended = recGroups k.words then s.setKState g.kid .draining else s

/-- Every queue of the group's cores is empty or stopped (R230). -/
def State.queuesOver (s : State) (g : Group) : Bool :=
  g.cores.all (fun c =>
    match (s.pq c).cmds with
    | [] => true
    | x :: _ => match x.st with
      | .queued | .started => false
      | _ => true)

/-- GROUP_QUEUE_DISCARD: the queues of an ENDING group are empty or stopped: it ends (R230, R355). -/
def execGroupQueueDiscard (gid : Nat) (s : State) : Host.Outcome State Fault Refusal :=
  let g := s.grp gid
  if g.st = .ending ∧ s.queuesOver g then .next (s.endGroup gid) else notEnabled "GROUP_QUEUE_DISCARD"

/-- Whether a press runs a command of the group. -/
def State.pressBusy (s : State) (g : Group) : Bool :=
  g.cores.any (fun c => decide ((s.forme (coreForme c)).press.running = some (corePos c)))

/-- The live threads of a group. -/
def State.liveOf (s : State) (gid : Nat) : List Nat :=
  (s.threads.filter (fun x => decide (x.2.gid = gid ∧ x.2.st ≠ .exited))).map (·.1)

/-- A group is ended by a cancel or a fault mark: its threads end as the Lantern kernel ends a thread (R300, R355). One whose
granted places are not yet released leaves its slot at once. -/
def State.killGroup (s : State) (gid : Nat) : State :=
  let s := (s.liveOf gid).foldl (fun s u => (s.endThread u).leaveSlot u) s
  s.endGroup gid

/-! ## Save (R359) -/

/-- A barrier as a save keeps it: the releases of its phase are complete (R155, R156). -/
def quietBar (x : Nat × Bar) : Nat × Bar := (x.1, { x.2 with rel := [] })

/-- What one rank keeps. -/
def State.saveRank (s : State) (gid c : Nat) : RankSave :=
  let k := s.core c
  let f := coreForme c
  let p := corePos c
  let pr := (s.forme f).press
  let plane (role : Nat) : Memory := mslice s.planes (planeByte f role) planeBytes
  { lm := mslice s.lm (lmByte c 0) 0x40000,
    accRows := (s.acc.filter (fun x => decide (accKey c 0 0 ≤ x.1 ∧ x.1 < accKey c 1024 0))).map (fun x =>
      (x.1 - accKey c 0 0, x.2)),
    queue := s.pq c,
    active := (if pr.active.owner = some p then some (pr.active, plane 0) else none),
    shadow := (if pr.shadow.owner = some p then some (pr.shadow, plane 1) else none),
    holder := pr.holders.contains p, bars := k.bars.map quietBar, side := k.side.filter (fun e => decide ((s.thr e.uid).gid = gid)),
    mail := k.mail.filter (fun m => decide (m.gid = gid)),
    outq := k.outq.filter (fun m => decide (m.gid = gid ∧ m.st ≠ .accepted)) }

/-- A held core's untracked bytes are merged at their homes, and its untracked copies go (R359 step 3). -/
def State.mergeRaw (s : State) (c : Nat) : State :=
  let raw := (s.core c).l1.filter (fun x => decide (x.st = .raw))
  let s := raw.foldl (fun s x => if x.dirty = 0 then s else s.mergeHome x.home x.line x.data x.dirty) s
  s.modCore c (fun k => { k with l1 := k.l1.filter (fun x => decide (x.st ≠ .raw)) })

/-- The counts that a context's selections in mode 2 hold go to its totals (R387). -/
def State.takeCounts (s : State) (c ctx : Nat) : State :=
  (List.range 4).foldl (fun s i =>
    let k := s.core c
    let sel := (tget 0 k.pmsel i).toNat
    if sel / 65536 = 2 ∧ tget 0 k.pmselCtx i = ctx then
      let n := (tget 0 k.pmc i).toNat
      let s := s.modCtx ctx (fun x => { x with totals := tset x.totals (sel % 65536) (tget 0 x.totals (sel % 65536) + n) })
      s.modCore c (fun k => { k with pmc := tset k.pmc i 0 })
    else s) s

/-- A held core is left: what it held for the group goes. -/
def State.leaveCore (s : State) (gid ctx c : Nat) : State :=
  let s := (s.mergeRaw c).takeCounts c ctx
  let s := (s.setPq c PQueue.fresh).accClear c 0 1024
  let other (e : SideEntry) : Bool := decide ((s.thr e.uid).gid ≠ gid)
  s.modCore c (fun k => { k with bars := [], side := k.side.filter other, mail := k.mail.filter (fun m => decide (m.gid ≠ gid)),
                                 outq := k.outq.filter (fun m => decide (m.gid ≠ gid)) })

/-- Whether a held core's release of a barrier is still to come (R153). -/
def releaseAhead (cores : List Nat) (l : Tbl Bar) : Bool := l.any (fun x => x.2.rel.any (fun y => cores.contains y.1))

/-- Whether a group can be saved now: its moves, press commands, pushes, sweeps and barrier releases are complete (R80,
R129, R155, R156, R229, R359). -/
def State.canSave (s : State) (gid : Nat) : Bool :=
  let g := s.grp gid
  let raws := g.cores.flatMap (fun c => ((s.core c).l1.filter (fun x => decide (x.st = .raw))).map (fun x => x.line))
  !s.pressBusy g && g.cores.all (fun c => decide ((s.core c).pushes = [])) &&
    (s.liveOf gid).all (fun u => decide ((s.thr u).st ≠ .migrating ∧ (s.thr u).pushes = 0)) &&
    !g.cores.any (fun c => releaseAhead g.cores (s.core c).bars) &&
    !(g.forme && g.cores.any (fun c => releaseAhead g.cores (s.forme (coreForme c)).bars)) &&
    !s.formes.any (fun f => (f.2.sweeps ++ f.2.sweeping.toList).any (fun r => decide (r.gid = gid ∧ r.kind ≤ 1))) &&
    raws.all (fun l => !s.net.any (fun m => decide (m.line = l)))

/-- A thread of a group that is saved: its slot stays noted, and its cycles are counted. -/
def State.saveThread (s : State) (u : Nat) : State :=
  let s := (s.endAllClaims u).leaveTables u
  s.modThr u (fun t => { t with
    saved := true, prio := false, cycles := t.cycles + (if t.slot.isSome then s.now (coreDie t.core) - t.slotFrom else 0) })

/-- What a rank keeps of the planes that an earlier save left to be put back (R229). -/
def RankSave.keepPlanes (r : RankSave) (p : Nat) (l : List (Nat × Bool × Plane × Memory)) : RankSave :=
  l.foldl (fun (r : RankSave) x =>
    let mine := decide (x.2.2.1.owner = some p)
    { r with
      active := (if mine && !x.2.1 then some x.2.2 else r.active)
      shadow := (if mine && x.2.1 then some x.2.2 else r.shadow)
      holder := r.holder || (!x.2.1 && x.1.testBit p) }) r

/-- The whole save: SAVING and SAVED in one step (R355, R359). -/
def State.saveGroup (s : State) (gid : Nat) : State :=
  let g := s.grp gid
  let us := s.liveOf gid
  let s := us.foldl (fun s u => s.saveThread u) s
  let saves := g.cores.map (fun c => (s.saveRank gid c).keepPlanes (corePos c) g.reinstall)
  let fb := if g.forme then (s.forme (coreForme ((g.cores[0]?).getD 0))).bars.map quietBar else []
  let s := g.cores.foldl (fun s c => s.leaveCore gid g.ctx c) s
  let formes := (g.cores.map coreForme).dedup
  let s := if g.forme then formes.foldl (fun s f => s.modForme f (fun k => { k with group := none, bars := [] })) s else s
  let s := s.traceGroup gid 4
  let s := s.modGrp gid (fun g => { g with st := .saved, save := saves, formeBars := fb, reinstall := [] })
  let s := g.cores.foldl (fun s c => s.pressLeave c) s
  s.parkFreed g.ctx

/-- GROUP_SAVE: a RUNNING or ENDING group is preempted (R355, R359). -/
def execGroupSave (gid : Nat) (s : State) : Host.Outcome State Fault Refusal :=
  let g := s.grp gid
  if (g.st = .running ∨ g.st = .ending) ∧ s.canSave gid then .next (s.saveGroup gid) else notEnabled "GROUP_SAVE"

/-! ## Restore (R360, R361) -/

/-- The new number of a core or forme of a moved group. -/
def moved (l : List (Nat × Nat)) (c : Nat) : Nat := match l.find? (fun x => decide (x.1 = c)) with | some x => x.2 | none => c

/-- A wake condition under a group's new cores. -/
def WakeCond.move (l : List (Nat × Nat)) (w : WakeCond) : WakeCond :=
  let f (x : Nat) : Nat := match l.find? (fun y => decide (coreForme y.1 = x)) with | some y => coreForme y.2 | none => x
  let unit (kind x : Nat) : Nat := match kind with | 0 => moved l x | 1 => f x | _ => x
  match w with
  | .outbound c d => .outbound (moved l c) d
  | .sideLog c => .sideLog (moved l c)
  | .phase k u i => .phase k (unit k u) i
  | .barRelease k u i => .barRelease k (unit k u) i
  | .pressEntry c => .pressEntry (moved l c)
  | .ticket c t => .ticket (moved l c) t
  | .pressResolved c => .pressResolved (moved l c)
  | .sweepEntry x => .sweepEntry (f x)
  | .trace c => .trace (moved l c)
  | w => w

/-- A wake whose resource was the old core's: it counts as fired (R359). -/
def WakeCond.lost : WakeCond → Bool
  | .claim .. | .budget .. | .unpinned .. | .setFree .. | .tableEntry _ => true
  | _ => false

/-- A thread resumes on its rank's new core: an auto-retry wait and that of a fetch are over, a wait of `yield` or
`yield.n` that the preemption met ends, and a PARKED thread whose wake has fired is runnable (R80, R83, R97, R360, R361).
The core that it leaves may still send what its releases wait for (R132). -/
def State.resumeThread (s : State) (l : List (Nat × Nat)) (u : Nat) : State :=
  let t := s.thr u
  let c := moved l t.core
  let changed := decide (c ≠ t.core)
  let go (w : Wake) : Wake := { cond := w.cond.move l, fired := (if w.cond.lost then max 1 w.fired else w.fired) }
  let wake := t.wake.map go
  let fired : Bool := match wake with | some w => decide (0 < w.fired) | none => false
  let t := { t with
    saved := false, core := c, slotFrom := s.now (coreDie c), wake := wake, movedPending := t.movedPending || changed,
    moves := (if changed then t.moves + 1 else t.moves)
    trail := (if changed then (t.trail ++ [t.core]).dedup.filter (fun x => decide (x ≠ c)) else t.trail) }
  let seq := s.wakeSeq
  let set (s : State) (t : Thread) : State := State.setThr { s with wakeSeq := seq + 1 } u t
  match t.wait with
  | .retry => set s (Thread.ready seq { t with wake := none })
  | .fetch _ => set s (Thread.ready seq t)
  | .yield .. =>
    if t.movedPending then
      (set s (Thread.endWait seq .moved { t with movedPending := false })).count c (s.ctxOf u) 0x1009 1
    else set s (Thread.endWait seq .rdy { t with wake := none })
  | .none => set s (if t.st = .parked ∧ !t.runnable ∧ fired then Thread.ready seq t else t)
  | .sleep _ => set s t

/-- A rank's state goes to the core that now holds it. -/
def State.restoreRank (s : State) (l : List (Nat × Nat)) (r : RankSave) (c : Nat) : State :=
  let s := { s with lm := mpaste (mcut s.lm (lmByte c 0) 0x40000) (lmByte c 0) r.lm }
  let s := { s with acc := r.accRows.foldl (fun a (x : Nat × BitVec 32) => tset a (accKey c 0 0 + x.1) x.2) s.acc }
  let s := s.modCore c (fun k => { k with
    bars := r.bars, side := k.side ++ r.side, mail := k.mail ++ r.mail,
    outq := k.outq ++ r.outq.map (fun (m : OutMsg) => { m with core := moved l m.core, st := .flying }) })
  ((s.setPq c r.queue).putPlaceWords c).acquireStep c 3

/-- Whether the new cores and the park area have room for a saved group (R91, R280, R360). -/
def State.roomFor (s : State) (gid : Nat) (cores : List Nat) : Bool :=
  let g := s.grp gid
  let parked := (s.liveOf gid).filter (fun u => Thread.inPark { s.thr u with saved := false })
  decide (s.parkUsed g.ctx + parked.length ≤ (s.ctx g.ctx).pcap) &&
    (g.save.zip cores).all (fun (x : RankSave × Nat) =>
      decide ((s.core x.2).side.length + x.1.side.length ≤ 32 ∧ (s.core x.2).outq.length + x.1.outq.length ≤ 16 ∧
        (s.core x.2).mail.length + x.1.mail.length ≤ 32))

/-- The planes that a restored group has to put back (R229). -/
def planesToPut (saves : List RankSave) (cores : List Nat) : List (Nat × Bool × Plane × Memory) :=
  let mask := ((saves.zip cores).map (fun (x : RankSave × Nat) => if x.1.holder then 2 ^ corePos x.2 else 0)).foldl (· + ·) 0
  (saves.zip cores).flatMap (fun x =>
    (match x.1.active with
      | some (p, m) => [(mask, false, { p with owner := some (corePos x.2) }, m)]
      | none => []) ++
    (match x.1.shadow with
      | some (p, m) => [(0, true, { p with owner := some (corePos x.2) }, m)]
      | none => []))

/-- The entries of restored logs whose pages have been resolved meanwhile are performed, ahead of the first issue (R278, R280,
R361); `none` where one cannot be yet. -/
def State.replayRestored (s : State) (ctx : Nat) (cores : List Nat) : Option State :=
  (cores.foldl (fun (r : Option State) c => r.bind (fun s => s.replayLog c (s.dueEntries c ctx))) (some s)).map
    (fun s => (cores.flatMap (fun c => (s.dueEntries c ctx).map (fun e => pageOf e.va.toNat))).foldl (fun s p => s.reopen ctx p)
      (s.logsFreed cores))

/-- The whole restore: RESTORING and RUNNING, or ENDING, in one step (R355, R360). -/
def State.restoreGroup (s : State) (gid place : Nat) : Option State :=
  let g := s.grp gid
  let cores := if g.forme then (s.inService place).take g.ask.ranks else [place]
  let l := g.cores.zip cores
  let s := s.modGrp gid (fun g => { g with
    st := .running, cores := cores, save := [], formeBars := [], reinstall := planesToPut g.save cores })
  let s := if g.forme then s.modForme place (fun f => { f with group := some gid, bars := g.formeBars }) else s
  let s := (g.save.zip cores).foldl (fun s x => s.restoreRank l x.1 x.2) s
  let s := (s.liveOf gid).foldl (fun s u => s.resumeThread l u) s
  let s := if s.anyLive gid then s else s.modGrp gid (fun g => { g with st := .ending })
  let s := (s.planesFreed (placeForme g.forme place)).traceGroup gid 5
  let p := (s.ctx g.ctx).part
  let s : State := if (s.part p).unbegun then
      { s with parts := tset s.parts p { s.part p with sliceFrom := s.gtick, unbegun := false } }
    else s
  (s.replayRestored g.ctx cores).map (fun s => (s.liveOf gid).foldl State.lateTrapNow s)

/-- GROUP_RESTORE: a SAVED group of a running context resumes on a free place of its die (R360). -/
def execGroupRestore (gid place : Nat) (s : State) : Host.Outcome State Fault Refusal :=
  let g := s.grp gid
  let cores := if g.forme then (s.inService place).take g.ask.ranks else [place]
  if g.st = .saved ∧ s.ctxRuns g.ctx ∧ s.placeFree g.ctx g.die g.ask none place ∧ s.roomFor gid cores then
    match s.restoreGroup gid place with
    | some s => .next s
    | none => notEnabled "GROUP_RESTORE"
  else notEnabled "GROUP_RESTORE"

end Sys2Proof.Machine
end

