-- ==== Sys2Proof/Machine/Kernel.lean ====
section
/-! DEFINITION. Kernels (R341, R342, R345 to R351): admission, the placing of groups, the drain and its completion
arrival, cancellation and fault marks. -/

namespace Sys2Proof.Machine

open Sys2Proof

/-! ## The constant block (R351) -/

/-- Reads a kernel's constant block where its pages are present. `none` where a home cannot serve it now; `false` where a
page may not be read. -/
def State.loadConsts (s : State) (kid : Nat) : Option (State × Bool) :=
  let k := s.ker kid
  let va := recWord k.words 3
  if k.loaded then some (s, true)
  else if va = 0 then some (s.modKer kid (fun k => { k with loaded := true }), true)
  else
    let vas := (List.range 224).map (fun i => ((va + 8 * i) % 2 ^ 64, 8))
    match s.lookAll k.ctx false false none vas with
    | .ok s =>
      let s := vas.foldl (fun s x => (s.readVa k.ctx x.1 8).1) s
      let words := vas.map (fun x => BitVec.ofNat 64 (s.readVa k.ctx x.1 8).2)
      some (s.modKer kid (fun k => { k with loaded := true, consts := words, wait := none }), true)
    | .absent s va =>
      some ((s.openFault k.ctx va 1 (256 * k.die)).modKer kid (fun k => { k with wait := some (pageOf va) }), true)
    | .denied s => some (s, false)
    | .poison .. | .busy => none

/-! ## The end of a kernel (R344, R347) -/

/-- The groups of a kernel that have not ended. -/
def State.groupsOf (s : State) (kid : Nat) : List Nat :=
  (s.groups.filter (fun g => decide (g.2.kid = kid ∧ g.2.st ≠ .ended))).map (·.1)

/-- Every live thread of the kernel ends, its queues are discarded and its groups end; groups not yet placed never
are. -/
def State.killKernel (s : State) (kid : Nat) (st : KState) : State :=
  let s := (s.setKState kid st).modKer kid (fun k => { k with room := none, wait := none })
  (s.groupsOf kid).foldl (fun s g => s.killGroup g) s

/-- A kernel is FAULTED (R344, R347); `none` where a descriptor of its context cannot be read now. -/
def State.faultKernel (s : State) (kid : Nat) : Option State :=
  (s.killKernel kid .faulted).cascade (s.ker kid).ctx (recCsem (s.ker kid).words)

/-- A kernel is FAULTED by an event. -/
def State.faulted (s : State) (kid : Nat) (name : String) : Host.Outcome State Fault Refusal :=
  match s.faultKernel kid with
  | some s => .next s
  | none => notEnabled name

def KState.over : KState → Bool
  | .done | .faulted | .cancelled => true
  | _ => false

/-! ## Admission (R341, R342) -/

/-- What the scheduler makes of a READY head: skip it with a code, admit it at a place, or leave it. -/
inductive Verdict where
  | skip (code : Nat)
  | take (place : Nat)
  | leave
  deriving DecidableEq, Repr

/-- The semaphores that a record names. -/
def recSems (r : List Word) : List Nat :=
  (if recDkind r = 1 then [recDsem r] else []) ++ (if recCsem r = 0 then [] else [recCsem r])

/-- What admission makes of a READY head's record (R342, R343); `none` where a semaphore cannot be read now. -/
def State.judgeHead (s : State) (ctx : Nat) (d : QDesc) (r : List Word) : Option (State × Verdict) :=
  let a := askOf r
  let sems := recSems r
  let m := sems.foldl (fun s va => s.markSem ctx va) s
  if !recOk r then some (s, .skip 3)
  else if sems.any (fun va => match s.lookSem ctx va false with | .busy => true | _ => false) then none
  else if sems.any (fun va => match s.lookSem ctx va false with | .bad => true | _ => false) ||
      decide (recDkind r = 2 ∧ (s.bar 2 d.die (recDbar r)).holder ≠ some ctx) then some (m, .skip 3)
  else if !(places d.die a.forme).any (fun p => s.placeCould ctx d.die a p) then some (m, .skip 4)
  else
    match s.choosePlace ctx d.die r none with
    | some p => some (m, .take p)
    | none => some (m, .leave)

/-- A READY head: queue, descriptor, record and verdict. -/
structure Cand where
  q : Nat
  d : QDesc
  r : List Word
  v : Verdict

/-- What the scheduler of a die makes of the head of one queue: a candidate, if it is one (R341), or the stop or the fault
that its descriptor or its record meets (R336). `none` where memory cannot answer now. -/
def State.lookHead (s : State) (die ctx q : Nat) : Option (State × Option Cand) :=
  let x := s.qs ctx q
  if x.st ≠ .ready ∨ x.wait.isSome then some (s, none)
  else
    match s.look ctx (s.descVa ctx q) true false, s.qdesc ctx q with
    | .busy, _ | .poison _, _ => none
    | _, none => some (s, none)
    | _, some d =>
      let s := s.markDesc ctx q
      let blocked : Bool := d.serial && (match x.prev with | some k => !(s.ker k).st.over | none => false)
      match s.descStops ctx q d with
      | some s => some (s, none)
      | none =>
        if !d.en || decide (d.die ≠ die) || blocked || decide (d.held = 0) || s.headOpen ctx q d then some (s, none)
        else
          match s.readHead ctx q d with
          | .busy => none
          | .wait s | .stop s => some (s, none)
          | .record s r =>
            (s.judgeHead ctx d r).map (fun y =>
              (y.1, if y.2 = .leave then none else some { q := q, d := d, r := r, v := y.2 }))

/-- The heads among which the scheduler of a die chooses, each looked at in turn (R341). -/
def State.lookHeads (s : State) (die ctx : Nat) : Option (State × List Cand) :=
  (List.range 64).foldl (fun r q => r.bind (fun x =>
    (x.1.lookHead die ctx q).map (fun y => (y.1, x.2 ++ y.2.toList)))) (some (s, []))

/-- Ticks that a head has been READY. -/
def State.aged (s : State) (ctx q : Nat) : Nat := s.gtick - (s.qs ctx q).since

/-- The order of choice: the highest effective priority, then the longest wait, then the lowest index (R341). -/
def State.rankCand (s : State) (ctx : Nat) (x : Cand) : Nat :=
  let w := s.aged ctx x.q
  let e := min 7 (x.d.prio + w / 1000000)
  ((7 - e) * 2 ^ 64 + (2 ^ 64 - 1 - w % 2 ^ 64)) * 64 + x.q

/-- A kernel is ADMITTED: it takes its number, its reserved place and its constant block, or is FAULTED for a page of the
block that it may not read (R351). `none` where memory cannot answer now. -/
def State.admitHead (s : State) (ctx : Nat) (x : Cand) (place : Nat) : Option (State × Bool) :=
  let kid := kernelId x.d.die x.q x.d.ridx
  let key := kernelKey ctx kid
  let k : Kernel := { Kernel.fresh with
    ctx := ctx, die := x.d.die, q := x.q, idx := x.d.ridx, words := x.r, room := some place, admitTick := s.gtick,
    order := s.orders, spawned := recGroups x.r * recTpg x.r }
  let s := State.setKState (State.setKer { s with orders := s.orders + 1 } key k) key .admitted
  let s := (s.modQs ctx x.q (fun y => { y with prev := some key })).markHints ctx x.r
  match s.loadConsts key with
  | some (s, true) => some (s, true)
  | some (s, false) => (s.faultKernel key).map (fun s => (s, false))
  | none => none

/-- The head that R341 chooses is admitted, or skipped: its status entry is written, ridx advances, and the queue's next
head is judged, as the descriptor stands where the kernel's fault has passed heads of its own. -/
def State.takeHead (s : State) (ctx : Nat) (x : Cand) : Option State :=
  let pass (kid code : Nat) (after : State → Option (State × Option QDesc)) : Option State :=
    match (s.markDesc ctx x.q).passIndex ctx x.q x.d kid code with
    | .ok s => (after s).map (fun y => match y.2 with
      | some d => (y.1.settleQueue ctx x.q d true).getD y.1
      | none => y.1)
    | .wait s | .stop s => some s
    | .busy => none
  match x.v with
  | .skip code => pass 0 code (fun s => some (s, some x.d.next))
  | .take place =>
    pass (kernelId x.d.die x.q x.d.ridx) 1 (fun s => (s.admitHead ctx x place).map (fun y =>
      (y.1, if y.2 then some x.d.next else y.1.qdesc ctx x.q)))
  | .leave => none

/-- KERNEL_ADMIT: the scheduler of a die judges the heads that are to be judged, looks at the READY ones, and admits, or
skips, the one that R341 chooses (R336, R337, R340 to R342). -/
def execKernelAdmit (die ctx : Nat) (s : State) : Host.Outcome State Fault Refusal :=
  if !s.ctxRuns ctx ∨ !s.dieServes die then notEnabled "KERNEL_ADMIT"
  else
    let news := s.anyOpen ctx
    let s := if news then s.settleOpen ctx else s
    match s.lookHeads die ctx with
    | none => if news then .next s else notEnabled "KERNEL_ADMIT"
    | some (m, l) =>
      match leastBy (m.rankCand ctx) l with
      | none => if news ∨ (m.ctx ctx).queues ≠ (s.ctx ctx).queues then .next m else notEnabled "KERNEL_ADMIT"
      | some x =>
        match m.takeHead ctx x with
        | some s => .next s
        | none => notEnabled "KERNEL_ADMIT"

/-! ## Placement (R347, R349, R366) -/

/-- Whether a kernel has a group that awaits placement. -/
def Kernel.awaits (k : Kernel) : Bool :=
  decide (k.st = .admitted ∨ k.st = .placing) && k.loaded && decide (k.placed < recGroups k.words)

/-- The place that a kernel's next group takes, chosen as it is placed (R350): its reservation keeps one free (R349). -/
def State.nextPlace (s : State) (kid : Nat) : Option Nat :=
  let k := s.ker kid
  s.choosePlace k.ctx k.die k.words (some kid)

/-- Whether kernel `a` places before kernel `b` on their die: of one context the higher phint, then the earlier
admission; of two contexts of one tenant the lesser virtual time (R349, R366). -/
def State.placesBefore (s : State) (a b : Kernel) : Bool :=
  let x := s.ctx a.ctx
  let y := s.ctx b.ctx
  if a.ctx = b.ctx then
    decide (recPhint b.words < recPhint a.words ∨ (recPhint a.words = recPhint b.words ∧ a.order < b.order))
  else decide (x.part = y.part ∧ x.tenant = y.tenant ∧ x.vtime < y.vtime)

/-- GROUP_PLACE: a kernel's next group is placed and started (R347, R349 to R352). -/
def execGroupPlace (kid : Nat) (s : State) : Host.Outcome State Fault Refusal :=
  let k := s.ker kid
  if !s.ctxRuns k.ctx ∨ !decide (k.st = .admitted ∨ k.st = .placing) ∨ k.wait.isSome then notEnabled "GROUP_PLACE"
  else
    match s.loadConsts kid with
    | none => notEnabled "GROUP_PLACE"
    | some (s, false) => s.faulted kid "GROUP_PLACE"
    | some (s, true) =>
      let k := s.ker kid
      if !k.awaits then (if k.wait.isSome then .next s else notEnabled "GROUP_PLACE")
      else if s.kernels.any (fun o => decide (o.1 ≠ kid ∧ o.2.die = k.die) && o.2.awaits && s.ctxRuns o.2.ctx &&
          s.placesBefore o.2 k && (s.nextPlace o.1).isSome) then notEnabled "GROUP_PLACE"
      else
        match s.nextPlace kid with
        | none => notEnabled "GROUP_PLACE"
        | some p =>
          let s := (s.markHints k.ctx k.words).placeGroup kid p
          let st : KState := if k.placed + 1 = recGroups k.words then .running else .placing
          .next (if st = k.st then s else s.setKState kid st)

/-! ## The drain (R348) -/

/-- Whether a thread is of a kernel. -/
def State.inKernel (s : State) (kid uid : Nat) : Bool := decide ((s.grp (s.thr uid).gid).kid = kid)

/-- Whether a chain or a record kicked by a kernel's threads has not ended, on a die or in a saved context. -/
def State.galleysOpen (s : State) (kid : Nat) : Bool :=
  let mine (k : Kick) : Bool := decide ((s.grp k.gid).kid = kid)
  s.ctxs.any (fun c => c.2.chans.any (fun x => x.2.kicks.any mine || x.2.chain.toList.any mine)) ||
  s.dies.any (fun d => d.2.chans.any (fun c =>
    c.2.kicks.any mine || c.2.chain.toList.any mine ||
      c.2.recs.any (fun r => mine r.kick && (match r.st with | .ended _ => false | _ => true))))

def State.sweepsOpen (s : State) (kid : Nat) : Bool :=
  s.formes.any (fun f => (f.2.sweeps ++ f.2.sweeping.toList).any (fun r => decide ((s.grp r.gid).kid = kid)))

/-- Whether the writes of a kernel's threads and cores are not all performed. -/
def State.writesOpen (s : State) (kid : Nat) : Bool :=
  let cores := (s.groups.filter (fun g => decide (g.2.kid = kid))).flatMap (fun g => g.2.cores)
  s.net.any (fun m => match m.kind with
    | .claimReturn u (some _) => s.inKernel kid u
    | .writeBack .. | .uCopy .. | .rawWriteBack .. => cores.contains m.src
    | _ => false) ||
    s.cores.any (fun k => k.2.side.any (fun e => s.inKernel kid e.uid) || k.2.pushes.any (fun p => s.inKernel kid p.2)) ||
    s.dies.any (fun d => d.2.places.any (fun p => match p.2.owner with
      | some u => decide (p.2.st = .granted ∧ (s.thr u).st = .exited) && s.inKernel kid u
      | none => false))

/-- KERNEL_DRAIN_COMPLETE: the drain is complete, and the kernel arrives once at its completion semaphore (R348). -/
def execKernelDrainComplete (kid : Nat) (s : State) : Host.Outcome State Fault Refusal :=
  let k := s.ker kid
  let va := recCsem k.words
  if k.st ≠ .draining ∨ k.wait.isSome ∨ s.galleysOpen kid ∨ s.sweepsOpen kid ∨ s.writesOpen kid then
    notEnabled "KERNEL_DRAIN_COMPLETE"
  else if va = 0 then .next (s.setKState kid .done)
  else
    match s.lookSem k.ctx va true with
    | .busy => notEnabled "KERNEL_DRAIN_COMPLETE"
    | .absent =>
      .next ((s.openFault k.ctx va 2 (256 * k.die)).modKer kid (fun k => { k with wait := some (pageOf va) }))
    | .bad => (s.markSem k.ctx va).faulted kid "KERNEL_DRAIN_COMPLETE"
    | .word pa w =>
      let s := s.markVa k.ctx va true
      if semUnconfigured w then s.faulted kid "KERNEL_DRAIN_COMPLETE"
      else
        match s.binding pa w with
        | .proxy _ pkg entry =>
          .next (State.setKState { s with podOut := s.podOut ++ [.arrival pkg entry (hardwareUid + s.bindingEntry pa)] } kid .done)
        | _ =>
          let r := semArrive w
          let s := s.homeWrite pa 8 r.1
          .next ((if r.2 then s.tellProxies pa r.1 else s).setKState kid .done)

/-! ## Services (R347) -/

/-- Whether a press runs a command of one of a kernel's groups: such a command completes or stops first. -/
def State.kernelPressBusy (s : State) (kid : Nat) : Bool :=
  (s.groupsOf kid).any (fun g => decide ((s.grp g).st ≠ .saved) && s.pressBusy (s.grp g))

/-- KERNEL_CANCEL: the cancel service (R347); a DRAINING kernel stays as it is. -/
def execKernelCancel (kid : Nat) (s : State) : Host.Outcome State Fault Refusal :=
  match (s.ker kid).st with
  | .admitted | .placing | .running =>
    if s.kernelPressBusy kid then notEnabled "KERNEL_CANCEL" else .next (s.killKernel kid .cancelled)
  | .draining => .next s
  | _ => notEnabled "KERNEL_CANCEL"

/-- KERNEL_FAULT_MARK: the Lantern kernel marks a kernel FAULTED (R344, R347). -/
def execKernelFaultMark (kid : Nat) (s : State) : Host.Outcome State Fault Refusal :=
  match (s.ker kid).st with
  | .placing | .running | .draining =>
    if s.kernelPressBusy kid then notEnabled "KERNEL_FAULT_MARK" else s.faulted kid "KERNEL_FAULT_MARK"
  | _ => notEnabled "KERNEL_FAULT_MARK"

end Sys2Proof.Machine
end

