-- ==== Sys2Proof/Machine/Context.lean ====
section
/-! DEFINITION. Contexts and partitions (R362 to R368): publication, slices, fault marks, teardown, migration, and the
token buckets. -/

namespace Sys2Proof.Machine

open Sys2Proof

/-! ## The record (R362) -/

/-- A context as its record of sixteen words describes it. -/
def ctxOfRecord (pa : Nat) (w : Nat → Nat) : Ctx :=
  { Ctx.fresh with
    pa := pa, root := w 0, weight := w 1 / 2 ^ 44 % 256, part := w 1 / 2 ^ 39 % 32, tenant := w 1 / 2 ^ 36 % 8,
    race := w 1 / 2 ^ 34 % 4, qtab := BitVec.ofNat 64 (w 2), park := BitVec.ofNat 64 (w 3), pcap := w 4 / 2 ^ 32,
    wdog := w 4 % 2 ^ 32, tring := BitVec.ofNat 64 (w 5), fring := BitVec.ofNat 64 (w 6), save := BitVec.ofNat 64 (w 7),
    shadow := BitVec.ofNat 64 (w 8), masks := BitVec.ofNat 64 (w 9), raceLog := BitVec.ofNat 64 (w 10),
    flg := w 11 / 2 ^ 12 % 16, tlg := w 11 / 2 ^ 8 % 16, ttail := w 12 % 2 ^ 32, ftail := w 13 % 2 ^ 32 }

/-- A record with a reserved bit set, a reserved race value or a ring length of 0 is refused. -/
def ctxRecordOk (w : Nat → Nat) : Bool :=
  decide (w 1 % 2 ^ 34 = 0 ∧ w 1 / 2 ^ 34 % 4 ≠ 3 ∧ w 11 / 2 ^ 16 = 0 ∧ w 11 % 2 ^ 8 = 0 ∧ w 14 = 0 ∧ w 15 = 0) &&
    decide (w 11 / 2 ^ 12 % 16 ≠ 0 ∧ w 11 / 2 ^ 8 % 16 ≠ 0)

def State.recordWord (s : State) (pa i : Nat) : Nat := s.peek (pa + 8 * i) 8

/-- What the HA-4 reads again of a record at each restore: all of it but the tails that it has written itself. -/
def Ctx.reload (old new : Ctx) : Ctx :=
  { new with
    st := old.st, ttail := old.ttail, ftail := old.ftail, tseq := old.tseq,
    fseq := old.fseq, rseq := old.rseq, vtime := old.vtime, epochs := old.epochs, queues := old.queues,
    totals := old.totals, chans := old.chans, savedAt := old.savedAt, after := old.after }

/-- Whether the record at a PA is one of the context (R362). -/
def State.recordFor (s : State) (pa c : Nat) : Bool :=
  ctxRecordOk (s.recordWord pa) && decide (s.recordWord pa 1 / 2 ^ 52 = c)

/-- The contexts of a tenant. -/
def State.tenantCtxs (s : State) (p t : Nat) (ok : CtxSt → Bool) : List Nat :=
  (s.ctxs.filter (fun x => decide (x.2.part = p ∧ x.2.tenant = t) && ok x.2.st)).map (·.1)

/-- The least virtual time among a tenant's running contexts, but not below `v` (R366). -/
def State.runnableTime (s : State) (p t v : Nat) : Nat :=
  match leastBy id ((s.tenantCtxs p t (fun x => decide (x = .running))).map (fun c => (s.ctx c).vtime)) with
  | some m => max v m
  | none => v

/-- CONTEXT_PUBLISH: the record at a PA is read, and its context leaves BUILDING (R362, R363). -/
def execContextPublish (pa : Nat) (s : State) : Host.Outcome State Fault Refusal :=
  let w := s.recordWord pa
  let c := w 1 / 2 ^ 52
  if pa % 128 ≠ 0 ∨ !s.quietAll pa 128 ∨ (s.ctx c).st ≠ .building then notEnabled "CONTEXT_PUBLISH"
  else if !ctxRecordOk w then .next s
  else
    let x := ctxOfRecord pa w
    .next (s.setCtx c { x with st := .runnable, vtime := s.runnableTime x.part x.tenant 0 })

/-! ## Slices (R363, R366) -/

/-- The time at which a context was saved does not count as READY for its heads (R341). -/
def Ctx.resumeAging (x : Ctx) (now : Nat) : Ctx :=
  { x with queues := x.queues.map (fun q => (q.1, { q.2 with since := q.2.since + (now - x.savedAt) })) }

/-- A context begins to run: a saved one reads its record again, its READY heads age on from where they stood, its channels
take up what was saved of them, and its suspended galley records run again at their cursors (R250, R256, R340, R362). -/
def State.runCtx (s : State) (c : Nat) : State :=
  let x := s.ctx c
  let x := if x.st = .saved then
      (if s.recordFor x.pa c then x.reload (ctxOfRecord x.pa (s.recordWord x.pa)) else x).resumeAging s.gtick
    else x
  let s := s.setCtx c { x with st := .running }
  let again (r : GRec) : GRec := if r.kick.ctx = c ∧ r.st = .suspPreempt then { r with st := .running } else r
  State.restoreChans { s with dies := s.dies.map (fun d => (d.1, { d.2 with chans := d.2.chans.map (fun y =>
      (y.1, { y.2 with recs := y.2.recs.map again })) })) } c

/-- A RUNNING context goes to PREEMPTING: its running galley records are to be suspended (R256, R363). -/
def State.preempt (s : State) (c : Nat) (after : CtxSt) : State :=
  let s := s.modCtx c (fun x => { x with st := .preempting, after := after })
  let stop (r : GRec) : GRec := if r.kick.ctx = c ∧ r.st = .running then
    (if r.entered then { r with st := .finishing 3 } else r) else r
  { s with dies := s.dies.map (fun d => (d.1, { d.2 with chans := d.2.chans.map (fun y =>
      (y.1, { y.2 with recs := y.2.recs.map stop })) })) }

/-- Whether a tenant has work for its turn. -/
def State.tenantRuns (s : State) (p t : Nat) : Bool :=
  decide (s.tenantCtxs p t (fun x => decide (x = .runnable ∨ x = .running ∨ x = .saved)) ≠ [])

/-- TENANT_SLICE_END: the running tenant's contexts go to PREEMPTING, and the next tenant's contexts run (R366). -/
def execTenantSliceEnd (part : Nat) (s : State) : Host.Outcome State Fault Refusal :=
  let p := s.part part
  let cur := p.current
  let n := max 1 p.tenants
  let due := !p.unbegun && decide ((p.slices[cur]?).getD 0 ≤ s.gtick - p.sliceFrom)
  match ((List.range (n - 1)).map (fun i => (cur + 1 + i) % n)).find? (fun t => s.tenantRuns part t) with
  | none => notEnabled "TENANT_SLICE_END"
  | some t =>
    if !due && s.tenantRuns part cur then notEnabled "TENANT_SLICE_END"
    else
      let s := (s.tenantCtxs part cur (fun x => decide (x = .running))).foldl (fun s c => s.preempt c .saved) s
      let cs := s.tenantCtxs part t (fun x => decide (x = .runnable ∨ x = .saved))
      let resumes := s.groups.any (fun g => cs.contains g.2.ctx && decide (g.2.st = .saved))
      let s := cs.foldl (fun s c => s.runCtx c) s
      .next { s with parts := tset s.parts part { p with current := t, sliceFrom := s.gtick, unbegun := resumes } }

/-- A slice begins for a context of the tenant whose turn it is (R363). Where none of the tenant's contexts runs yet its slice
time starts here, or with the first restore (R366). -/
def State.sliceBegin (s : State) (c : Nat) : Option State :=
  let x := s.ctx c
  let p := s.part x.part
  if (x.st = .runnable ∨ x.st = .saved) ∧ p.current = x.tenant then
    let idle := decide (s.tenantCtxs x.part x.tenant (fun y => decide (y = .running)) = [])
    let resumes := s.groups.any (fun g => decide (g.2.ctx = c ∧ g.2.st = .saved))
    let s := s.runCtx c
    some (if idle then { s with parts := tset s.parts x.part { p with sliceFrom := s.gtick, unbegun := resumes } } else s)
  else none

/-- A preempt request of the Lantern kernel (R355, R363). -/
def State.preemptRequest (s : State) (c : Nat) : Option State :=
  if (s.ctx c).st = .running then some (s.preempt c .saved) else none

/-! ## Teardown and fault marks (R363) -/

/-- A context's pages are unmapped: the Lantern kernel clears its level-0 table, and no TLB keeps a leaf of it (R363). A
context in BUILDING has published no table. -/
def State.unmapAll (s : State) (c : Nat) : State :=
  let tlb (l : List TlbEntry) : List TlbEntry := l.filter (fun e => decide (e.asid ≠ c))
  let none := decide ((s.ctx c).st = .building)
  let shared := s.ctxs.any (fun x => decide (x.1 ≠ c ∧ x.2.root = (s.ctx c).root) && (match x.2.st with
    | .free | .building | .tornDown => false
    | _ => true))
  { s with
    mem := (if none || shared then s.mem else mcut s.mem (s.ctx c).root 65536)
    cores := s.cores.map (fun (k : Nat × Core) => (k.1, { k.2 with tlb := tlb k.2.tlb }))
    formes := s.formes.map (fun (k : Nat × Forme) => (k.1, { k.2 with tlb := tlb k.2.tlb })) }

/-- The live threads end, the queues become DISABLED, the die barriers and galley channels are unassigned, what the galleys
held for the context goes, and its pages are unmapped (R363). -/
def State.tearDown (s : State) (c : Nat) : State :=
  let s := (List.range 64).foldl (fun s q =>
    if (s.qs c q).st = .disabled then s
    else
      match s.qdesc c q with
      | some d => s.setQ c q d .disabled
      | none => s.modQs c q (fun x => { x with st := .disabled })) s
  let kids := (s.kernels.filter (fun k => decide (k.2.ctx = c) && !k.2.st.over)).map (·.1)
  let s := kids.foldl (fun s k => s.killKernel k .cancelled) s
  let bar (x : Nat × Bar) : Nat × Bar := if x.2.holder = some c then (x.1, Bar.fresh) else x
  let chan (x : Nat × Channel) : Nat × Channel :=
    let y := x.2
    (x.1, { y with
      holder := (if y.holder = some c then none else y.holder)
      kicks := y.kicks.filter (fun k => decide (k.ctx ≠ c))
      chain := y.chain.filter (fun k => decide (k.ctx ≠ c))
      recs := y.recs.filter (fun r => decide (r.kick.ctx ≠ c)) })
  let s : State := { s with dies := s.dies.map (fun d =>
    (d.1, { d.2 with bars := d.2.bars.map bar, chans := d.2.chans.map chan })) }
  (s.unmapAll c).modCtx c (fun x => { x with st := .tornDown, chans := [] })

/-- A context reaches the state that follows its save. -/
def State.afterSave (s : State) (c : Nat) (st : CtxSt) : State :=
  let s := (s.saveChans c).modCtx c (fun x => { x with savedAt := s.gtick })
  if st = .tornDown then s.tearDown c else s.modCtx c (fun x => { x with st := st })

/-- A PREEMPTING context is saved: its groups are, and its galley records are suspended (R363). -/
def State.saveComplete (s : State) (c : Nat) : Option State :=
  let x := s.ctx c
  let out := s.groups.any (fun g => decide (g.2.ctx = c) && (match g.2.st with
    | .unplaced | .saved | .ended => false
    | _ => true))
  let runs := s.dies.any (fun d => d.2.chans.any (fun y => y.2.recs.any (fun r => decide (r.kick.ctx = c) &&
    (match r.st with | .finishing _ => true | .running => r.entered | _ => false))))
  if x.st = .preempting ∧ !out ∧ !runs then some (s.afterSave c x.after) else none

/-- A TORN-DOWN context becomes FREE once every resource is freed (R363). -/
def State.freed (s : State) (c : Nat) : Option State :=
  let x := s.ctx c
  let held (p : Place) : Bool := decide (p.st ≠ .free ∧ p.ctx = c)
  if x.st = .tornDown ∧ !s.groups.any (fun g => decide (g.2.ctx = c ∧ g.2.st ≠ .ended)) ∧
      !s.threads.any (fun t => t.2.ending && decide (s.ctxOf t.1 = c)) ∧
      !s.dies.any (fun d => d.2.places.any (fun p => held p.2)) ∧ !s.faults.any (fun f => decide (f.ctx = c)) then
    some { s with
      ctxs := tdel s.ctxs c,
      quoins := s.quoins.map (fun (q : Nat × Quoin) =>
        (q.1, { q.2 with names := q.2.names.filter (fun n => decide (n.1 ≠ c)) })),
      heldTraps := tdel s.heldTraps c }
  else none

/-- CONTEXT_FAULT_MARK (R363). -/
def execContextFaultMark (ctx : Nat) (s : State) : Host.Outcome State Fault Refusal :=
  match (s.ctx ctx).st with
  | .runnable | .saved => .next (s.modCtx ctx (fun x => { x with st := .faulted }))
  | .running => .next (s.preempt ctx .faulted)
  | .preempting => .next (s.modCtx ctx (fun x => { x with after := .faulted }))
  | _ => notEnabled "CONTEXT_FAULT_MARK"

/-- CONTEXT_TEARDOWN (R363). -/
def execContextTeardown (ctx : Nat) (s : State) : Host.Outcome State Fault Refusal :=
  match (s.ctx ctx).st with
  | .building | .runnable | .saved | .faulted => .next (s.tearDown ctx)
  | .running => .next (s.preempt ctx .tornDown)
  | .preempting => .next (s.modCtx ctx (fun x => { x with after := .tornDown }))
  | _ => notEnabled "CONTEXT_TEARDOWN"

/-! ## Migration (R363, R368) -/

/-- CONTEXT_MIGRATE (R363): the context's image is what it is saved as (log 54). -/
def execContextMigrate (ctx : Nat) (s : State) : Host.Outcome State Fault Refusal :=
  match (s.ctx ctx).st with
  | .runnable => .next (s.modCtx ctx (fun x => { x with st := .migrating, savedAt := s.gtick }))
  | .saved => .next (s.modCtx ctx (fun x => { x with st := .migrating }))
  | _ => notEnabled "CONTEXT_MIGRATE"

/-- Whether a quoin's queue holds places of the context and of one that is not migrating (R368). -/
def State.mixedQuoin (s : State) (c : Nat) : Bool :=
  s.quoins.any (fun q =>
    let owners := q.2.places.map (fun e => (s.place q.2.die e).ctx)
    owners.contains c && owners.any (fun x => decide ((s.ctx x).st ≠ .migrating)))

/-- A wake condition of a context under its new number. -/
def WakeCond.renumber (a b : Nat) (w : WakeCond) : WakeCond :=
  let f (c : Nat) : Nat := if c = a then b else c
  match w with
  | .park c => .park (f c)
  | .fault c p va => .fault (f c) p va
  | .thaw c p => .thaw (f c) p
  | .ring c q => .ring (f c) q
  | w => w

/-- A kick of a context under its new number. -/
def Kick.renumber (a b : Nat) (k : Kick) : Kick := { k with ctx := (if k.ctx = a then b else k.ctx) }

/-- What the package holds for a context goes to another context number. -/
def State.renumber (s : State) (a b : Nat) : State :=
  let f (c : Nat) : Nat := if c = a then b else c
  let key (c k : Nat) : Nat := if c = a then k % 2 ^ 64 + 2 ^ 64 * b else k
  let side (e : SideEntry) : SideEntry := { e with ctx := f e.ctx }
  let grp (g : Nat × Group) : Nat × Group :=
    (g.1, { g.2 with
      kid := key g.2.ctx g.2.kid, ctx := f g.2.ctx
      save := g.2.save.map (fun (r : RankSave) => { r with side := r.side.map side }) })
  let thr (t : Nat × Thread) : Nat × Thread :=
    if s.ctxOf t.1 = a then
      (t.1, { t.2 with wake := t.2.wake.map (fun (w : Wake) => { w with cond := w.cond.renumber a b }) })
    else t
  let chan (x : Nat × Channel) : Nat × Channel :=
    (x.1, { x.2 with
      kicks := x.2.kicks.map (Kick.renumber a b), chain := x.2.chain.map (Kick.renumber a b)
      recs := x.2.recs.map (fun (r : GRec) => { r with kick := r.kick.renumber a b }) })
  let sweep (r : SweepReq) : SweepReq := { r with ctx := f r.ctx }
  { s with
    threads := s.threads.map thr
    groups := s.groups.map grp
    kernels := s.kernels.foldl (fun t (k : Nat × Kernel) => tset t (key k.2.ctx k.1) { k.2 with ctx := f k.2.ctx }) []
    cores := s.cores.map (fun (k : Nat × Core) => (k.1, { k.2 with side := k.2.side.map side }))
    formes := s.formes.map (fun (k : Nat × Forme) =>
      (k.1, { k.2 with sweeps := k.2.sweeps.map sweep, sweeping := k.2.sweeping.map sweep }))
    quoins := s.quoins.map (fun (q : Nat × Quoin) => (q.1, { q.2 with names := q.2.names.map (fun n => (f n.1, n.2)) }))
    faults := s.faults.map (fun (x : FaultReq) => { x with ctx := f x.ctx })
    heldTraps := tset (tdel s.heldTraps a) b (tget [] s.heldTraps a)
    dies := s.dies.map (fun (d : Nat × Die) => (d.1, { d.2 with
      chans := d.2.chans.map chan
      places := d.2.places.map (fun (p : Nat × Place) => (p.1, { p.2 with ctx := f p.2.ctx })) })) }

/-- The count that a restored total of an event code takes: one that the HA-4 does not implement is unavailable (R77, R368,
R386). -/
def restoredTotal (x : Nat × Nat) : Nat × Nat := (x.1, if coreEvent x.1 then x.2 else 2 ^ 64 - 1)

/-- The context that an image makes of the record at its target: what the image carries of the source's queues, kick queues,
epochs, totals and sequence numbers is its own (R368). -/
def Ctx.imaged (new old : Ctx) (dst now vtime : Nat) : Ctx :=
  let old := old.resumeAging now
  { new with
    st := .runnable, vtime := vtime, tseq := old.tseq, fseq := old.fseq, rseq := old.rseq, epochs := old.epochs
    totals := old.totals.map restoredTotal, chans := old.chans.map (fun (x : Nat × ChanSave) => (x.1, { x.2 with
      kicks := x.2.kicks.map (fun k => { k with ctx := dst }), chain := x.2.chain.map (fun k => { k with ctx := dst }) }))
    queues := old.queues.map (fun (q : Nat × QSched) =>
      (q.1, { q.2 with prev := q.2.prev.map (fun k => k % 2 ^ 64 + 2 ^ 64 * dst) })) }

/-- IMAGE_RESTORE: a MIGRATING context's image is restored under the number of the target, whose record stands at a PA, or
refused, which returns the context to SAVED (R362, R363, R368). -/
def execImageRestore (src : Nat) (dst : Nat × Nat) (version : Nat) (s : State) : Host.Outcome State Fault Refusal :=
  let x := s.ctx src
  let y := s.ctx dst.1
  let free := decide (y.st = .free ∨ y.st = .building) && decide (src ≠ dst.1)
  if x.st ≠ .migrating ∨ dst.2 % 128 ≠ 0 ∨ !s.quietAll dst.2 128 then notEnabled "IMAGE_RESTORE"
  else if version ≠ 1 ∨ s.mixedQuoin src ∨ !free ∨ !s.recordFor dst.2 dst.1 then
    .next (s.modCtx src (fun x => { x with st := .saved }))
  else
    let new := ctxOfRecord dst.2 (s.recordWord dst.2)
    let s := s.renumber src dst.1
    let y := new.imaged x dst.1 s.gtick (s.runnableTime new.part new.tenant x.vtime)
    .next ((s.setCtx dst.1 y).tearDown src)

/-! ## Images that leave the package or come into it (R368) -/

/-- A pod joins at most 64 packages (R1). -/
def packageCount : Nat := 64

/-- The header of an image whose eight sections have these lengths (R368). -/
def imageHeader (lengths : List Nat) : List Word :=
  ([1, 24 + 16 * lengths.length + lengths.foldl (· + ·) 0, lengths.length] ++
    (List.range lengths.length).flatMap (fun i => [i + 1, lengths.getD i 0])).map (BitVec.ofNat 64)

/-- The linked places of a context, by die and entry. -/
def State.linkedPlaces (s : State) (c : Nat) : List ((Nat × Nat) × Place) :=
  s.dies.flatMap (fun d => d.2.places.filterMap (fun p =>
    if p.2.st ≠ .free ∧ p.2.ctx = c then some ((d.1, p.1), p.2) else none))

/-- The image of a MIGRATING context. The lengths of its sections are free values, since R368 gives their contents and no
layout (log 54). -/
def State.imageOf (s : State) (c : Nat) : Image :=
  let mine (g : Nat) : Bool := decide ((s.grp g).ctx = c)
  { header := imageHeader ((List.range 8).map (fun i => (Config.freeValue (s.clockFree + i)).toNat))
    ctx := s.ctx c, groups := s.groups.filter (fun g => mine g.1)
    threads := s.threads.filter (fun t => mine t.2.gid && decide (t.2.st ≠ .exited))
    kernels := s.kernels.filter (fun k => decide (k.2.ctx = c)), faults := s.faults.filter (fun f => decide (f.ctx = c))
    places := s.linkedPlaces c, quoins := s.quoins.filter (fun q => q.2.names.any (fun n => decide (n.1 = c)))
    traps := tget [] s.heldTraps c }

/-- A MIGRATING context's image leaves for another package. A quoin whose queue holds places of a context that does not
migrate refuses the restore (R368). -/
def State.imageOut (s : State) (c pkg : Nat) : Option State :=
  if (s.ctx c).st ≠ .migrating ∨ packageCount ≤ pkg ∨ pkg = s.power.package then none
  else if s.mixedQuoin c then some (s.modCtx c (fun x => { x with st := .saved }))
  else some { s with clockFree := s.clockFree + 8, podOut := s.podOut ++ [.image pkg c (s.imageOf c)] }

/-- What the package held for a context that another package has restored is gone, its places freed. -/
def State.forget (s : State) (c : Nat) : State :=
  let held := s.linkedPlaces c
  let mine (g : Nat) : Bool := decide ((s.grp g).ctx = c)
  let quoin (q : Nat × Quoin) : Nat × Quoin :=
    (q.1, { q.2 with
      places := q.2.places.filter (fun e => !held.any (fun p => decide (p.1 = (q.2.die, e)))),
      names := q.2.names.filter (fun n => decide (n.1 ≠ c)) })
  let s : State := { s with
    quoins := s.quoins.map quoin, threads := s.threads.filter (fun t => !mine t.2.gid)
    groups := s.groups.filter (fun g => !mine g.1), kernels := s.kernels.filter (fun k => decide (k.2.ctx ≠ c))
    faults := s.faults.filter (fun f => decide (f.ctx ≠ c)), heldTraps := tdel s.heldTraps c }
  held.foldl (fun s p => s.freePlace p.1.1 p.1.2) s

/-- The other package has restored a context's image, or refused it (R363, R368). -/
def State.imageAway (s : State) (c : Nat) (done : Bool) : Option State :=
  if (s.ctx c).st ≠ .migrating then none
  else if done then some ((s.forget c).tearDown c)
  else some (s.modCtx c (fun x => { x with st := .saved }))

/-- Whether an image holds one saved context `src`, under numbers of threads and groups that are not in use here; a quoin that
is here already stands in the same queue. -/
def State.imageSound (s : State) (src : Nat) (m : Image) : Bool :=
  let saved (g : GState) : Bool := decide (g = .unplaced ∨ g = .saved ∨ g = .ended)
  let fresh (q : Nat × Quoin) : Bool :=
    !s.quoins.any (fun x => decide (x.1 = q.1)) || decide ((s.quoin q.1).die = q.2.die ∧ (s.quoin q.1).places ⊆ q.2.places)
  m.groups.all (fun g => decide (g.2.ctx = src ∧ s.nextGid ≤ g.1) && saved g.2.st) &&
    m.threads.all (fun t => decide (s.nextUid ≤ t.1) && m.groups.any (fun g => decide (g.1 = t.2.gid))) &&
    m.kernels.all (fun k => decide (k.2.ctx = src ∧ k.1 / 2 ^ 64 = src)) && m.faults.all (fun f => decide (f.ctx = src)) &&
    m.places.all (fun p => decide (p.1.1 < 4 ∧ p.2.ctx = src)) && m.quoins.all fresh

/-- What an image holds, as a state of nothing else, under the number that the context has here. -/
def State.unpack (s : State) (src dst : Nat) (m : Image) : State :=
  let die (t : Tbl Die) (p : (Nat × Nat) × Place) : Tbl Die :=
    let d := tget Die.fresh t p.1.1
    tset t p.1.1 { d with places := tset d.places p.1.2 p.2 }
  State.renumber { s with
    threads := m.threads, groups := m.groups, kernels := m.kernels, cores := [], formes := [], faults := m.faults,
    quoins := m.quoins, heldTraps := [(src, m.traps)], dies := m.places.foldl die [] } src dst

/-- Every section of an image is rebuilt: places return to their die, entry and generation, and a queue holds the places
of its order that are linked here (R368). -/
def State.rebuild (s : State) (src dst : Nat) (m : Image) : State :=
  let x := s.unpack src dst m
  let s : State := { s with
    threads := x.threads.foldl (fun t y => tset t y.1 y.2) s.threads, groups := x.groups.foldl (fun t y => tset t y.1 y.2) s.groups
    kernels := x.kernels.foldl (fun t y => tset t y.1 y.2) s.kernels, faults := s.faults ++ x.faults
    heldTraps := tset s.heldTraps dst m.traps
    nextUid := x.threads.foldl (fun n t => max n (t.1 + 1)) s.nextUid
    nextGid := x.groups.foldl (fun n g => max n (g.1 + 1)) s.nextGid }
  let s := m.places.foldl (fun s p => s.setPlace p.1.1 p.1.2 (x.place p.1.1 p.1.2)) s
  x.quoins.foldl (fun s q =>
    let old := (s.quoin q.1).names
    s.setQuoin q.1 { q.2 with
      places := q.2.places.filter (fun e => decide ((s.place q.2.die e).st ≠ .free ∧ (s.place q.2.die e).key = q.1)),
      names := (if s.quoins.any (fun x => decide (x.1 = q.1)) then (old ++ q.2.names).dedup else q.2.names), pa := none }) s

/-- An image of another package arrives for the context whose record stands at `pa`: it is restored, or refused for an unknown
version, a record that does not take it or an entry that is not free, and the other package is told which (R362, R368). -/
def State.imageIn (s : State) (pkg src dst pa : Nat) (m : Image) : Option State :=
  let y := s.ctx dst
  let free := decide (y.st = .free ∨ y.st = .building) && s.recordFor pa dst
  let taken := m.places.any (fun p => decide ((s.place p.1.1 p.1.2).st ≠ .free))
  let answer (s : State) (done : Bool) : State := { s with podOut := s.podOut ++ [.restored pkg src done] }
  if packageCount ≤ pkg ∨ pa % 128 ≠ 0 ∨ !s.quietAll pa 128 ∨ s.power.stage ≠ .full ∨ !s.imageSound src m then none
  else if m.header.head? ≠ some 1 ∨ !free ∨ taken then some (answer s false)
  else
    let new := ctxOfRecord pa (s.recordWord pa)
    let z := new.imaged m.ctx dst s.gtick (s.runnableTime new.part new.tenant m.ctx.vtime)
    some (answer ((s.rebuild src dst m).setCtx dst z) true)

/-! ## Token buckets (R367) -/

/-- The buckets of a home slice that are in use: those assigned, and the default one. -/
def State.bucketsAt (s : State) (core : Nat) : List Nat :=
  (List.range 17).filter (fun i => decide (i = 16) || s.buckets.any (fun b => decide (b.1 = 17 * core + i)))

/-- Each bucket of a home slice gains its rate, up to its depth. -/
def State.refillSlice (s : State) (core : Nat) : State :=
  let s := (s.bucketsAt core).foldl (fun (s : State) i =>
    let b := tget Bucket.fresh s.buckets (17 * core + i)
    { s with buckets := tset s.buckets (17 * core + i) { b with tokens := min b.depth (b.tokens + b.rate) } }) s
  s.modCore core (fun k => { k with refills := k.refills + 1 })

/-- BUCKET_REFILL: 1,024 core cycles after the last. -/
def execBucketRefill (core : Nat) (s : State) : Host.Outcome State Fault Refusal :=
  if s.now (coreDie core) < ((s.core core).refills + 1) * 1024 then notEnabled "BUCKET_REFILL"
  else .next (s.refillSlice core)

/-- A slice whose buckets have been set and are due to be refilled (R367). -/
def State.refillDue (s : State) : Option Nat :=
  (s.buckets.find? (fun b => decide ((s.core (b.1 / 17)).refills < s.now (coreDie (b.1 / 17)) / 1024))).map (fun b => b.1 / 17)

/-- The Lantern kernel reads and clears a hotness entry (R281). -/
def State.clearHot (s : State) (core granule : Nat) : State :=
  let l := ((s.core core).hot.filter (fun x => decide (x.1 = granule))).flatMap (fun x => x.2)
  let s := s.modCore core (fun k => { k with hot := k.hot.filter (fun x => decide (x.1 ≠ granule)) })
  { s with answers := s.answers ++ [{ what := 4, addr := granule, data := l.map (fun n => BitVec.ofNat 64 n) }] }

end Sys2Proof.Machine
end

