-- ==== Sys2Proof/Machine/Link.lean ====
section
/-! DEFINITION. Device links (R372 to R376) and port rings (R379 to R381). -/

namespace Sys2Proof.Machine

open Sys2Proof

/-! ## Replay (R374) -/

/-- Sends new data flits while the window has room. -/
def Link.pump (k : Link) (now : Nat) : Nat → Link
  | 0 => k
  | n + 1 =>
    match k.source with
    | [] => k
    | x :: rest =>
      if !k.sends then k
      else
        let f := dataFlit x.1 k.nextSeq x.2
        Link.pump { k with
          source := rest, window := k.window ++ [{ flit := f, again := 0 }], wire := k.wire ++ [f], nextSeq := k.nextSeq + 1,
          sent := k.sent + 1, lastAck := (if k.window = [] then now else k.lastAck) } now n

def State.pumpLink (s : State) (l : Nat) : State :=
  let k := s.link l
  s.setLink l (k.pump s.gtick k.source.length)

/-- Traffic handed to a link. Over a die-to-die link that is DOWN it goes through the I/O die (R376). -/
def State.handLink (s : State) (l : Nat) (x : BitVec 448 × Option Nat) : State :=
  let e := linkEnds l
  let t := if l < 12 ∧ (s.link l).st = .down then (12 + 2 * e.1, (x.1, some (13 + 2 * e.2))) else (l, x)
  State.pumpLink (s.setLink t.1 { s.link t.1 with source := (s.link t.1).source ++ [t.2] }) t.1

/-- The flits of a window from a sequence number on. -/
def Link.since (k : Link) (e : BitVec 12) : List Sent := k.window.dropWhile (fun f => decide (f.flit.seq ≠ e))

/-- What a direction still has to deliver, in order: the flits of its window that the receiver has not accepted, and what
waits at its source. -/
def Link.undelivered (k : Link) : List (BitVec 448 × Option Nat) :=
  (k.since k.expect).map (fun f => (f.flit.payload, f.flit.next)) ++ k.source

/-- The path that the traffic of a direction takes once its link is DOWN: the links through the I/O die for a die pair,
another pod link to the same package for one that leaves the package (R376). -/
def State.detour (s : State) (l : Nat) : Option Nat :=
  if l < 12 then some (12 + 2 * (linkEnds l).1)
  else if 20 ≤ l ∧ l % 2 = 0 then
    ((List.range 12).map (fun i => 20 + 2 * i)).find? (fun o =>
      decide (o ≠ l ∧ tget 0 s.peers o = tget 0 s.peers l) && (s.link o).st.carries)
  else none

/-- Whether every die has joined or is out of service (R393). -/
def State.allJoined (s : State) : Bool :=
  (List.range 4).all (fun d => (s.die d).started || decide ((s.dpow d).park = .out))

/-- The stage of a start, as the dies that have joined or gone out of service leave it: FULL once every die has, with one of
them started (R393, log 41). -/
def State.restage (s : State) : State :=
  if (s.power.stage = .lantern ∨ s.power.stage = .dies) ∧ (List.range 4).any (fun d => (s.die d).started) then
    { s with power := { s.power with stage := (if s.allJoined then .full else .dies) } }
  else s

/-- A die goes out of service: it holds no partition unit (R393). -/
def State.dieOut (s : State) (d : Nat) : State :=
  let keep : Nat := 2 ^ 32 - 1 - 255 * 2 ^ (8 * d)
  State.restage { s.modDpow d (fun p => { p with park := .out }) with
    parts := s.parts.map (fun p => (p.1, { p.2 with units := p.2.units &&& keep })) }

/-- A link DOWN: what a direction has not delivered goes first on the path that its traffic takes now, in seq order, or
waits at its source; an I/O-die link takes its compute die out of service (R376). -/
def State.linkDown (s : State) (l : Nat) : State :=
  (bothWays l).foldl (fun s i =>
    let k := s.link i
    let left := k.undelivered
    let down : Link := { k with
      st := .down, window := [], wire := [], back := [], waiting := none, ackDue := none, nackSent := false, nextSeq := 0,
      expect := 0, source := left, swapping := false, drainAfter := false }
    let s := s.setLink i down
    let s := match s.detour i with
      | some path =>
        let via (x : BitVec 448 × Option Nat) : BitVec 448 × Option Nat :=
          if i < 12 then (x.1, some (13 + 2 * (linkEnds i).2)) else x
        let s := s.setLink i { down with source := [] }
        (s.setLink path { s.link path with source := left.map via ++ (s.link path).source }).pumpLink path
      | none => s
    if 12 ≤ i ∧ i < 20 then s.dieOut ((i - 12) / 2) else s) s

/-- A state of a link, in both directions. -/
def State.linkGoes (s : State) (l : Nat) (f : Link → Link) : State :=
  (bothWays l).foldl (fun s i => s.setLink i (f (s.link i))) s

/-- A link stops to be trained again: the flits on their way are lost, and the windows stay (R376). -/
def Link.retrain (k : Link) : Link :=
  { k with st := .retraining, wire := [], back := [], waiting := none, ackDue := none, tries := 0, swapping := false,
           drainAfter := false }

/-- The replay limit, or a lane lost (R375). -/
def State.linkFails (s : State) (l : Nat) : State :=
  if (s.link l).st = .draining then s.linkDown l else s.linkGoes l Link.retrain

/-- A resend of the flits from a place of the window on. A flit that has been resent 32 times without acceptance retrains the
link (R374). -/
def State.resend (s : State) (l : Nat) (fs : List Sent) : State :=
  let k := s.link l
  if fs.any (fun f => decide (32 ≤ f.again)) then s.linkFails l
  else
    let kept := k.window.take (k.window.length - fs.length)
    (s.setLink l { k with
      window := kept ++ fs.map (fun f => { f with again := f.again + 1 }), wire := k.wire ++ fs.map Sent.flit,
      waiting := none, resent := k.resent + fs.length, lastAck := s.gtick }).pumpLink l

/-- The receiver of a direction discards a flit: the first discard after an acceptance sends one NACK (R374). -/
def Link.discard (k : Link) : Link :=
  if k.nackSent then k
  else { k with back := k.back ++ [controlFlit 2 k.expect], nackSent := true, nacks := k.nacks + 1 }

/-- A flit whose CRC fails is counted, and discarded (R373, R374). -/
def Link.spoiled (k : Link) : Link := { k with crcErrors := k.crcErrors + 1 }.discard

/-- The flits before the one named leave the window. -/
def Link.acknowledge (k : Link) (e : BitVec 12) (now : Nat) : Link :=
  if k.window.any (fun x => decide (x.flit.seq = e)) then { k with window := k.since e, lastAck := now }
  else if k.nextSeq = e then { k with window := [], lastAck := now }
  else { k with lastAck := now }

/-- An ACK reaches the sender of a direction (R374). -/
def State.takeAck (s : State) (l : Nat) (f : Flit) : State :=
  (s.setLink l ((s.link l).acknowledge (f.ref + 1) s.gtick)).pumpLink l

/-- A NACK reaches the sender of a direction: the back-off begins (R374). -/
def State.takeNack (s : State) (l : Nat) (f : Flit) : State :=
  let k := (s.link l).acknowledge f.ref s.gtick
  s.setLink l { k with waiting := some (s.gtick + k.backoff, f.ref) }

/-- A data flit reaches the receiver of a direction, whose queue has room or not: it is accepted and delivered, or discarded
(R374). -/
def State.takeData (s : State) (l : Nat) (f : Flit) (room : Bool) : State :=
  let k := s.link l
  if room && decide (f.seq = k.expect) then
    let k := { k with expect := k.expect + 1, nackSent := false, ackDue := some (k.ackDue.getD s.gtick) }
    match f.next with
    | some n => State.handLink (s.setLink l k) n (f.payload, none)
    | none => s.setLink l { k with delivered := k.delivered ++ [f.payload] }
  else s.setLink l k.discard

/-- A flit reaches the receiver of a direction. One of a reserved kind is discarded (R373). -/
def State.takeFlit (s : State) (l : Nat) (f : Flit) (room : Bool) : State :=
  match f.kind.toNat with
  | 0 => s.takeData l f room
  | 1 => s.takeAck (otherWay l) f
  | 2 => s.takeNack (otherWay l) f
  | 3 => s
  | _ => s.setLink l (s.link l).discard

/-- LINK_DATA_FLIT: the next flit of a direction is received, with the bits of `flip` changed by the wire (R373, R374). -/
def execLinkDataFlit (link : Nat) (flip : BitVec 512) (room : Bool) (s : State) : Host.Outcome State Fault Refusal :=
  let k := s.link link
  match k.wire with
  | [] => notEnabled "LINK_DATA_FLIT"
  | f :: rest =>
    if !k.st.carries then notEnabled "LINK_DATA_FLIT"
    else
      let k := { k with wire := rest }
      match f.received flip with
      | none => .next (s.setLink link k.spoiled)
      | some f => .next ((s.setLink link k).takeFlit link f room)

/-- A flit on its way back to the sender of a direction is received by the die that the other direction leads to. -/
def State.flitBack (s : State) (link : Nat) (kind : BitVec 4) (flip : BitVec 512) (name : String) :
    Host.Outcome State Fault Refusal :=
  let k := s.link link
  match k.back with
  | f :: rest =>
    if f.kind ≠ kind ∨ !k.st.carries then notEnabled name
    else
      let s := s.setLink link { k with back := rest }
      match f.received flip with
      | none => .next (s.setLink (otherWay link) (s.link (otherWay link)).spoiled)
      | some f => .next (s.takeFlit (otherWay link) f false)
  | [] => notEnabled name

/-- LINK_ACK: every flit up to the one named is acknowledged (R374). -/
def execLinkAck (link : Nat × BitVec 512) (s : State) : Host.Outcome State Fault Refusal :=
  s.flitBack link.1 1 link.2 "LINK_ACK"

/-- LINK_NACK: the flits before the one named are acknowledged, and the back-off begins (R374). -/
def execLinkNack (link : Nat × BitVec 512) (s : State) : Host.Outcome State Fault Refusal :=
  s.flitBack link.1 2 link.2 "LINK_NACK"

/-- LINK_BACKOFF_EXPIRY: the flits from the one named on are resent, in order (R374). -/
def execLinkBackoffExpiry (link : Nat) (s : State) : Host.Outcome State Fault Refusal :=
  let k := s.link link
  match k.waiting with
  | some x =>
    if x.1 ≤ s.gtick ∧ k.st.carries then .next (s.resend link (k.since x.2)) else notEnabled "LINK_BACKOFF_EXPIRY"
  | none => notEnabled "LINK_BACKOFF_EXPIRY"

/-- LINK_REPLAY_TIMEOUT: 4,096 ticks without an ACK or a NACK (R374). -/
def execLinkReplayTimeout (link : Nat) (s : State) : Host.Outcome State Fault Refusal :=
  let k := s.link link
  if k.window ≠ [] ∧ k.waiting.isNone ∧ k.st.carries ∧ k.lastAck + 4096 ≤ s.gtick then .next (s.resend link k.window)
  else notEnabled "LINK_REPLAY_TIMEOUT"

/-! ## Link states (R375, R376) -/

/-- LINK_ENABLE (R375). -/
def execLinkEnable (link : Nat) (s : State) : Host.Outcome State Fault Refusal :=
  if linkCount ≤ link then notEnabled "LINK_ENABLE"
  else if (s.link link).st = .down then .next (s.linkGoes link (fun k => { k with st := .training, tries := 0 }))
  else .next s

/-- A direction that training leaves UP or DEGRADED, with `lanes` of its data and spare lanes passing: a spare that stands in
for a data lane is no longer free; its flits go on from the oldest (R374 to R376). -/
def Link.trained (k : Link) (l lanes now : Nat) : Link :=
  { k with
    st := (if dataLanes l ≤ lanes then .up else .degraded)
    lanes := min lanes (dataLanes l), spares := min (lanes - dataLanes l) (spareLanes l), tries := 0
    backoff := (if l < 20 then 32 else 256), waiting := none, wire := k.window.map Sent.flit
    window := k.window.map (fun f => { f with again := 0 }), resent := k.resent + k.window.length, lastAck := now
    swapping := false, drainAfter := false }

/-- LINK_TRAINING_DONE: `lanes` lanes of each direction pass, spares among them (R375). -/
def execLinkTrainingDone (link lanes : Nat) (s : State) : Host.Outcome State Fault Refusal :=
  let k := s.link link
  if linkCount ≤ link then notEnabled "LINK_TRAINING_DONE"
  else if k.st ≠ .training ∧ k.st ≠ .retraining then .next s
  else if dataLanes link ≤ 2 * lanes then
    .next ((bothWays link).foldl (fun s l => (s.setLink l ((s.link l).trained l lanes s.gtick)).pumpLink l) s)
  else if 2 ≤ k.tries then .next (s.linkDown link)
  else .next (s.linkGoes link (fun k => { k with tries := k.tries + 1 }))

/-- Whether a lane's corrected errors exceed the threshold (R375). -/
def Link.marginal (k : Link) (lane : Nat) : Bool := decide (k.threshold < tget 0 k.laneErrs lane)

/-- LANE_MARGINAL: with a spare of the lane's direction free the link goes to SPARING (R375, R376). -/
def execLaneMarginal (link lane : Nat) (s : State) : Host.Outcome State Fault Refusal :=
  let k := s.link link
  if !k.marginal lane then notEnabled "LANE_MARGINAL"
  else if (k.st = .up ∨ k.st = .degraded) ∧ k.spares ≠ 0 then
    let s := s.linkGoes link (fun k => { k with st := .sparing })
    .next (s.setLink link { s.link link with swapping := true, laneErrs := tdel k.laneErrs lane })
  else .next s

/-- LANE_LOST, or the replay limit (R375, R376). -/
def execLaneLost (link : Nat) (s : State) : Host.Outcome State Fault Refusal :=
  match (s.link link).st with
  | .up | .degraded | .sparing | .draining => .next (s.linkFails link)
  | _ => .next s

/-- LINK_DRAIN_REQUEST (R375). -/
def execLinkDrainRequest (link : Nat) (s : State) : Host.Outcome State Fault Refusal :=
  match (s.link link).st with
  | .up | .degraded => .next (s.linkGoes link (fun k => { k with st := .draining }))
  | .sparing => .next (s.linkGoes link (fun k => { k with drainAfter := true }))
  | .training | .retraining => .next (s.linkDown link)
  | _ => .next s

/-- LINK_WINDOW_DRAINED (R375). -/
def execLinkWindowDrained (link : Nat) (s : State) : Host.Outcome State Fault Refusal :=
  if (s.link link).st ≠ .draining then .next s
  else if (bothWays link).all (fun l => decide ((s.link l).window = [])) then .next (s.linkDown link)
  else notEnabled "LINK_WINDOW_DRAINED"

/-- SPARE_SWAP_COMPLETE (R375, R376). -/
def execSpareSwapComplete (link : Nat) (s : State) : Host.Outcome State Fault Refusal :=
  if (s.link link).st ≠ .sparing then .next s
  else
    .next (s.linkGoes link (fun k => { k with
      st := (if k.drainAfter then .draining else if k.lanes = dataLanes link then .up else .degraded),
      spares := (if k.swapping then k.spares - 1 else k.spares), swapping := false, drainAfter := false }))

/-! ## Port rings (R379) -/

def State.ringOf (s : State) (r : Nat) : PortRing := tget PortRing.fresh s.rings r
def State.modRing (s : State) (r : Nat) (f : PortRing → PortRing) : State :=
  { s with rings := tset s.rings r (f (s.ringOf r)) }

/-- What an access of a port within one line meets: as any agent's, once the links between the I/O die and the home's die take
new traffic (R374, R376). -/
def State.portLook (s : State) (ctx va : Nat) (write : Bool) : Look :=
  match s.look ctx va write false with
  | .hit pa p e home => if s.ioOpen (coreDie home) then .hit pa p e home else .busy
  | r => r

/-- What the accesses of a port to a range meet. -/
def State.portAll (s : State) (ctx : Nat) (write : Bool) (l : List (Nat × Nat)) : Acc :=
  let shut (va : Nat) : Bool := match s.look ctx va write false with
    | .hit _ _ _ home => !s.ioOpen (coreDie home)
    | _ => false
  if l.any (fun x => shut x.1) then .busy else s.lookAll ctx write false none l

/-- The words of a ring's descriptor, where the port can read and write it now. -/
def State.ringDesc (s : State) (r : Nat) : Option QDesc :=
  let x := s.ringOf r
  match s.portLook x.ctx x.desc.toNat true with
  | .hit pa _ _ _ => some { pa := pa, words := (List.range 8).map (fun i => s.peek (pa + 8 * i) 8) }
  | _ => none

/-- The leaf of a ring's descriptor with A and D set, as the port's walk for its reads and writes leaves it (R273). -/
def State.markRing (s : State) (r : Nat) : State := s.markVa (s.ringOf r).ctx (s.ringOf r).desc.toNat true

/-- A version-1 descriptor of a kind. -/
def ringDescOk (d : QDesc) : Bool :=
  decide (d.word 0 % 4096 = 0 ∧ d.word 3 % 16 = 1) &&
    decide (d.word 3 / 256 % 16 ≠ 0 ∧ (d.word 3 / 16 % 16 = 1 ∨ d.word 3 / 16 % 16 = 2)) &&
    decide (d.word 5 = 0 ∧ d.word 6 = 0 ∧ d.word 7 = 0)

/-- PORT_RING_DOORBELL: the port reads widx; a descriptor of another version stays stopped (R379). -/
def execPortRingDoorbell (ring : Nat) (s : State) : Host.Outcome State Fault Refusal :=
  match s.ringDesc ring with
  | none => notEnabled "PORT_RING_DOORBELL"
  | some d =>
    let s := s.markRing ring
    if !ringDescOk d ∨ 2 ^ (d.word 3 / 256 % 16) < (d.widx + 2 ^ 32 - d.ridx) % 2 ^ 32 then
      .next (s.modRing ring (fun x => { x with stopped := true }))
    else .next (s.modRing ring (fun x => { x with stopped := false, seen := d.widx, ridx := d.ridx }))

/-- The VA of the record at ridx. -/
def QDesc.portVa (d : QDesc) : Nat := (d.word 0 + 64 * (d.ridx % 2 ^ (d.word 3 / 256 % 16))) % 2 ^ 64

/-- What the record at the ring's ridx reads. -/
inductive PortRec where
  | words (d : QDesc) (w : List Nat)
  | fault (va : Nat)
  | none

/-- The record that a port may take up now, of a ring of a kind. -/
def State.portRec (s : State) (ring kind : Nat) : PortRec :=
  let x := s.ringOf ring
  match s.ringDesc ring with
  | Option.none => .none
  | some d =>
    if x.stopped ∨ d.ridx = x.seen ∨ d.word 3 / 16 % 16 ≠ kind then .none
    else
      match s.portLook x.ctx d.portVa true with
      | .hit pa _ _ _ => .words d ((List.range 8).map (fun i => s.peek (pa + 8 * i) 8))
      | .absent => .fault d.portVa
      | _ => .none

/-- A port opens a fault for a page that it waits on. `none` where one is open. -/
def State.portFault (s : State) (ctx va kind : Nat) : Option State :=
  if s.faultOpen ctx (pageOf va) then none else some (s.openFault ctx va kind 0)

/-- The arrival of a port at a semaphore, where one is named (R379): a word that is malformed, forbidden or not configured
is not arrived at. -/
def State.arriveFor (s : State) (ctx va : Nat) : State :=
  if va = 0 then s
  else
    match s.lookSem ctx va true with
    | .word pa w =>
      let s := s.markVa ctx va true
      if semUnconfigured w then s
      else
        match s.binding pa w with
        | .proxy _ pkg entry => { s with podOut := s.podOut ++ [PodMsg.arrival pkg entry (hardwareUid + s.bindingEntry pa)] }
        | _ =>
          let r := semArrive w
          let s := s.homeWrite pa 8 r.1
          if r.2 then s.tellProxies pa r.1 else s
    | .bad => s.markSem ctx va
    | .absent | .busy => s

/-- A record ends: its status byte, or the status bytes of a storage record, then ridx, then the arrival (R379). -/
def State.endRecord (s : State) (ring : Nat) (d : QDesc) (word : Nat) (n : Nat := 1) : State :=
  let x := s.ringOf ring
  let s := (s.markRing ring).writeVa x.ctx (d.portVa + 56) n word
  let s := s.homeWrite (d.pa + 16) 8 ((d.ridx + 1) % 2 ^ 32)
  (s.modRing ring (fun y => { y with ridx := (d.ridx + 1) % 2 ^ 32, inFlight := Option.none })).arriveFor x.ctx (d.word 4)

/-- A record's end is reached where its semaphore can be arrived at: one on a page that is not present opens a fault, and the
end waits for it. `none` where it cannot be reached now. -/
def State.closeRecord (s : State) (ring : Nat) (d : QDesc) (word : Nat) (n : Nat := 1) : Option State :=
  let ctx := (s.ringOf ring).ctx
  let va := d.word 4
  if va = 0 ∨ va % 8 ≠ 0 then some (s.endRecord ring d word n)
  else
    match s.portLook ctx va true with
    | .absent => s.portFault ctx va 2
    | .busy | .poison _ => none
    | .hit .. | .denied => some (s.endRecord ring d word n)

/-- An event of a port. -/
def portEvent (name : String) : Option State → Host.Outcome State Fault Refusal
  | some s => .next s
  | none => notEnabled name

/-- The words of a range, or its bytes where it is not aligned to words. -/
def spanVas (va n : Nat) : List (Nat × Nat) :=
  if va % 8 = 0 ∧ n % 8 = 0 then (List.range (n / 8)).map (fun i => ((va + 8 * i) % 2 ^ 64, 8))
  else (List.range n).map (fun i => ((va + i) % 2 ^ 64, 1))

/-- The low `n` bytes of a value, and the value of bytes. -/
def bytesOf (v n : Nat) : List Byte := (List.range n).map (fun i => BitVec.ofNat 8 (v / 256 ^ i))
def valueOf (l : List Byte) : Nat := l.foldr (fun b a => b.toNat + 256 * a) 0

/-- The bytes of a range read in order. -/
def State.readSpan (s : State) (ctx va n : Nat) : State × List Byte :=
  (spanVas va n).foldl (fun r x =>
    let y := r.1.readVa ctx x.1 x.2
    (y.1, r.2 ++ bytesOf y.2 x.2)) (s, [])

/-- The bytes of a range written in order. -/
def State.writeSpan (s : State) (ctx va : Nat) (l : List Byte) : State :=
  ((spanVas va l.length).foldl (fun r x => (r.1.writeVa ctx x.1 x.2 (valueOf (r.2.take x.2)), r.2.drop x.2)) (s, l)).1

/-- Whether a package can be reached, over a pod link that is not DOWN, and whether one of them sends now (R376). -/
def State.reaches (s : State) (pkg : Nat) : Bool :=
  (List.range 12).any (fun i => decide (tget 0 s.peers (20 + 2 * i) = pkg ∧ (s.link (20 + 2 * i)).st ≠ .down))
def State.podOpen (s : State) (pkg : Nat) : Bool :=
  (List.range 12).any (fun i => decide (tget 0 s.peers (20 + 2 * i) = pkg) && (s.link (20 + 2 * i)).sends)

/-- A window of this package: its context, base and length (R380). -/
def State.windowOf (s : State) (w : Nat) : Option (Nat × Word × Nat) :=
  (s.windows.find? (fun x => decide (x.1 = w))).map (·.2)

/-- Writes into a window of this package (R380); a range outside it is denied. -/
def State.windowWrite (s : State) (w off : Nat) (l : List Byte) : Acc :=
  match s.windowOf w with
  | none => .denied s
  | some (ctx, base, len) =>
    if len < off + l.length then .denied s
    else
      let va := (base.toNat + off) % 2 ^ 64
      match s.portAll ctx true (spanVas va l.length) with
      | .ok s => .ok (s.writeSpan ctx va l)
      | r => r

/-- A network write into a window of this package: the writes, then the arrival at the semaphore of a proxy's binding
entry, 255 for none (R380). -/
def State.windowSend (s : State) (w off entry : Nat) (l : List Byte) : Acc :=
  match s.windowWrite w off l with
  | .ok s =>
    .ok (match tget Binding.none s.bindings entry with
      | .proxy _ p e => if entry = 255 then s else { s with podOut := s.podOut ++ [PodMsg.arrival p e (hardwareUid + entry)] }
      | _ => s)
  | r => r

/-- A network write of another package arrives: it is answered once it is done or denied, and waits on a page that is not
present. `none` where it cannot be done now. -/
def State.podWrite (s : State) (w off entry : Nat) (l : List Byte) : Option State :=
  let answer (s : State) (done : Bool) : State := { s with podOut := s.podOut ++ [PodMsg.written w off done] }
  match s.windowSend w off entry l with
  | .ok s => some (answer s true)
  | .denied s => some (answer s false)
  | .absent s va => (s.windowOf w).bind (fun x => s.portFault x.1 va 2)
  | .poison .. | .busy => none

/-- The copy that a record of one package sends: into a window of this one, or to another, whose answer ends the record
(R376, R380). -/
def State.sendCopy (s : State) (ring : Nat) (d : QDesc) (pkg w off entry : Nat) (l : List Byte) : Option State :=
  if pkg = s.power.package then
    match s.windowSend w off entry l with
    | .ok s => s.closeRecord ring d 1
    | .denied s => s.closeRecord ring d 4
    | .absent s va => (s.windowOf w).bind (fun x => s.portFault x.1 va 2)
    | .poison .. | .busy => none
  else if !s.podOpen pkg then none
  else
    some (State.modRing { s with podOut := s.podOut ++ [PodMsg.write pkg w off l] ++
      (if entry = 255 then [] else [PodMsg.signal pkg entry]) } ring (fun y => { y with inFlight := some d.ridx }))

/-- NETWORK_SEND: a record copies local bytes into a window, here or in another package; it ends unreachable where no link
to the package remains (R376, R380). -/
def execNetworkSend (ring : Nat) (s : State) : Host.Outcome State Fault Refusal :=
  let x := s.ringOf ring
  portEvent "NETWORK_SEND" (match s.portRec ring 1 with
    | .none => none
    | .fault va => s.portFault x.ctx va 1
    | .words d w =>
      let g (i : Nat) : Nat := w.getD i 0
      let pkg := g 1 / 2 ^ 32 % 256
      let len := g 1 % 2 ^ 32
      if len % 8 ≠ 0 ∨ g 1 / 2 ^ 40 ≠ 0 ∨ 2 ^ 16 ≤ g 2 ∨ 256 ≤ g 4 then s.closeRecord ring d 0x10
      else if pkg ≠ s.power.package ∧ !s.reaches pkg then s.closeRecord ring d 0x06
      else if x.inFlight.isSome then none
      else
        match s.portAll x.ctx false (spanVas (g 0) len) with
        | .absent s va => s.portFault x.ctx va 1
        | .denied s => s.closeRecord ring d 0x04
        | .poison .. | .busy => none
        | .ok s =>
          let r := s.readSpan x.ctx (g 0) len
          r.1.sendCopy ring d pkg (g 2) (g 3) (g 4 % 256) r.2)

/-- Another package answers a network write, which ends its record (R380). -/
def State.podWritten (s : State) (ring : Nat) (done : Bool) : Option State :=
  match s.portRec ring 1 with
  | .words d _ =>
    if (s.ringOf ring).inFlight = some d.ridx then s.closeRecord ring d (if done then 1 else 4) else none
  | _ => none

/-- A storage record is issued to its device: what the device is asked is among the answers (R381). -/
def State.issueNvme (s : State) (ring op : Nat) (name : String) : Host.Outcome State Fault Refusal :=
  let x := s.ringOf ring
  portEvent name (match s.portRec ring 2 with
    | .none => none
    | .fault va => s.portFault x.ctx va 1
    | .words d w =>
      let g (i : Nat) : Nat := w.getD i 0
      if x.inFlight.isSome then none
      else if g 0 % 256 = 0 ∨ 3 < g 0 % 256 ∨ 2 ^ 48 ≤ g 0 ∨ 1 < g 0 / 256 % 256 ∨ 2 ^ 32 ≤ g 2 then
        s.closeRecord ring d 0x10
      else if g 0 % 256 ≠ op then none
      else
        let s := (s.markVa x.ctx d.portVa false).modRing ring (fun y => { y with inFlight := some d.ridx })
        some { s with answers := s.answers ++ [{ what := 5, addr := ring, data := w.map (fun v => BitVec.ofNat 64 v) }] })

def execStorageRead (ring : Nat) (s : State) : Host.Outcome State Fault Refusal := s.issueNvme ring 1 "STORAGE_READ"
def execStorageWrite (ring : Nat) (s : State) : Host.Outcome State Fault Refusal := s.issueNvme ring 2 "STORAGE_WRITE"
def execStorageFlush (ring : Nat) (s : State) : Host.Outcome State Fault Refusal := s.issueNvme ring 3 "STORAGE_FLUSH"

/-- The bytes that a storage record moves: those of its blocks (R381). A Flush moves none. -/
def State.nvmeBytes (s : State) (w : List Nat) : Nat :=
  let g (i : Nat) : Nat := w.getD i 0
  if g 0 % 256 = 3 then 0
  else g 2 % 2 ^ 32 * tget 512 s.blocks (g 0 / 256 % 256 * 2 ^ 32 + g 0 / 2 ^ 16 % 2 ^ 32)

/-- NVME_COMPLETION: the completion entry arrives. A Read has brought `data`, which goes to the record's buffer, up to the
bytes of its blocks; the bytes that a Write has taken from its buffer leave in an answer, as many words as `data` has. A
command that its status calls successful has moved all of its blocks. The status field is copied to the record (R379,
R381). -/
def execNvmeCompletion (ring status : Nat) (data : List (BitVec 64)) (s : State) : Host.Outcome State Fault Refusal :=
  let x := s.ringOf ring
  portEvent "NVME_COMPLETION" (match s.portRec ring 2 with
    | .words d w =>
      let op := w.getD 0 0 % 256
      let buf := w.getD 3 0
      let n := 8 * data.length
      if x.inFlight ≠ some d.ridx ∨ s.nvmeBytes w < n ∨ (status % 2 ^ 16 / 2 = 0 ∧ n ≠ s.nvmeBytes w) then none
      else
        let word (code : Nat) : Nat := status % 2 ^ 16 * 256 + code
        match s.portAll x.ctx (decide (op = 1)) (spanVas buf n) with
        | .ok s =>
          if op = 1 then
            (s.writeSpan x.ctx buf (data.flatMap (fun v => bytesOf v.toNat 8))).closeRecord ring d (word 1) 3
          else if n = 0 then s.closeRecord ring d (word 1) 3
          else
            let r := s.readSpan x.ctx buf n
            let sent := (List.range data.length).map (fun i => BitVec.ofNat 64 (valueOf ((r.2.drop (8 * i)).take 8)))
            State.closeRecord { r.1 with answers := r.1.answers ++ [{ what := 5, addr := ring, data := sent }] } ring d (word 1) 3
        | .denied s => s.closeRecord ring d (word 4) 3
        | .absent s va => s.portFault x.ctx va (if op = 1 then 2 else 1)
        | .poison .. | .busy => none
    | _ => none)

end Sys2Proof.Machine
end

