-- ==== Sys2Proof/Machine/Observe.lean ====
section
/-! DEFINITION. Observation (R382 to R390): the trace rings, interval snapshots, the stop on a tick, and the correction of
the tick counter. -/

namespace Sys2Proof.Machine

open Sys2Proof

/-! ## Rings of the observation registers (R389): base, lg, head -/

def ringFull (r : Nat × Nat × Nat) (tail : Nat) : Bool :=
  decide (r.2.1 = 0) || decide (2 ^ r.2.1 ≤ (tail + 2 ^ 32 - r.2.2) % 2 ^ 32)

/-- The 32 bytes of a trace record (R384). -/
def TraceRec.bytes (r : TraceRec) : Nat :=
  r.tick % 2 ^ 64 +
    2 ^ 64 * (r.kind % 256 * 2 ^ 56 + r.ctx % 4096 * 2 ^ 44 + coreDie r.core % 4 * 2 ^ 42 + coreLocal r.core * 2 ^ 34 +
      r.slot % 16 * 2 ^ 30 + (if r.kind ≤ 2 then r.index % 256 * 2 ^ 8 else 0)) +
    2 ^ 128 * r.pc.toNat + 2 ^ 192 * r.value.toNat

/-- TRACE_DRAIN: the oldest record of a core's buffer is written to its die's ring, a loss record first where records
were dropped (R383, R385). -/
def execTraceDrain (core : Nat) (s : State) : Host.Outcome State Fault Refusal :=
  let k := s.core core
  let d := coreDie core
  let ring := tget (0, 0, 0) s.observe.trRing d
  let tail := (s.die d).traceTail
  let pa := ring.1 + 32 * (tail % 2 ^ ring.2.1)
  match k.trace with
  | [] => notEnabled "TRACE_DRAIN"
  | r :: rest =>
    if ringFull ring tail || !s.quietAll pa 32 then notEnabled "TRACE_DRAIN"
    else
      let loss : TraceRec := { r with kind := 7, slot := 0, index := 0, pc := 0, value := BitVec.ofNat 64 k.lost }
      let s := s.homeWrite pa 32 (if k.lost = 0 then r else loss).bytes
      let s := s.modDie d (fun x => { x with traceTail := (tail + 1) % 2 ^ 32 })
      let s := s.modCore core (fun k => if k.lost = 0 then { k with trace := rest } else { k with lost := 0 })
      .next (if k.lost = 0 then s.fire (fun w => decide (w = .trace core)) else s)

/-! ## Snapshots (R388) -/

/-- A counter of a die. -/
def Die.counter (d : Die) (code unit : Nat) : Nat := tget 0 d.counters (code * 65536 + unit)

/-- The four counters of a link. -/
def State.linkCounts (s : State) (l : Nat) : List Nat :=
  let k := s.link l
  [k.sent, k.crcErrors, k.nacks, k.resent]

/-- The words of a die's record from +8 on; those that rest on timing are free values (log 2). -/
def State.snapWords (s : State) (d : Nat) : List Nat :=
  let x := s.die d
  let free (n : Nat) : List Nat := (List.range n).map (fun i => (Config.freeValue (s.clockFree + i)).toNat)
  let peers := (List.range 4).filter (fun p => decide (p ≠ d))
  [x.missed % 2 ^ 32 * 2 ^ 32 + d % 4, 0, 0, 0, 0, 0, 0] ++
    (List.range 256).flatMap (fun c => [x.counter 1 c, x.counter 2 c]) ++ free (64 + 64) ++
    (List.range 8).map (fun e => x.counter galleyBytes e) ++
    peers.flatMap (fun p => s.linkCounts (linkTo d p)) ++ s.linkCounts (12 + 2 * d)

/-- The words of the I/O die's record from +8 on. -/
def State.ioWords (s : State) : List Nat :=
  [s.observe.ioMissed % 2 ^ 32 * 2 ^ 32, 0, 0, 0, 0, 0, 0] ++ (List.range 12).flatMap (fun i => s.linkCounts (20 + 2 * i))

def wordsValue (l : List Nat) : Nat := l.foldr (fun w a => w % 2 ^ 64 + 2 ^ 64 * a) 0

/-- The dies that have started. -/
def State.startedDies (s : State) : List Nat := (List.range 4).filter (fun d => (s.die d).started)

/-- A die latches its counters (R388). A record that finds its ring full, or an earlier one not yet written, is missed:
the next record that is latched carries the number, and counting begins again with it. -/
def State.latchDie (s : State) (d : Nat) : State :=
  let ring := tget (0, 0, 0) s.observe.snapRing d
  let x := s.die d
  let s := s.modDie d (fun y => { y with latched := some s.gtick })
  if ring.2.1 = 0 then s
  else if ringFull ring x.snapTail || x.snap.isSome then s.modDie d (fun y => { y with missed := y.missed + 1 })
  else State.modDie { s with clockFree := s.clockFree + 128 } d (fun y => { y with snap := some (s.gtick :: s.snapWords d), missed := 0 })

def State.latchIo (s : State) : State :=
  let o := s.observe
  let ring := tget (0, 0, 0) o.snapRing 4
  { s with observe :=
      if ring.2.1 = 0 then { o with ioLatched := some s.gtick }
      else if ringFull ring o.ioSnapTail || o.ioSnap.isSome then { o with ioLatched := some s.gtick, ioMissed := o.ioMissed + 1 }
      else { o with ioLatched := some s.gtick, ioSnap := some (s.gtick :: s.ioWords), ioMissed := 0 } }

/-- Every die latches its counters. -/
def State.latchAll (s : State) : State := (s.startedDies.foldl (fun s d => s.latchDie d) s).latchIo

/-- The place of a ring's next record. -/
def ringPlace (ring : Nat × Nat × Nat) (slot tail : Nat) : Nat := ring.1 + slot * (tail % 2 ^ ring.2.1)

/-- A latched record of a die is written where its place in the ring can be written now. -/
def State.snapDie (s : State) (d : Nat) : State :=
  let x := s.die d
  let pa := ringPlace (tget (0, 0, 0) s.observe.snapRing d) 8192 x.snapTail
  match x.snap with
  | none => s
  | some l =>
    if s.quietAll pa 8192 then
      (s.homeWrite pa (8 * l.length) (wordsValue l)).modDie d (fun y => { y with
        snapTail := (y.snapTail + 1) % 2 ^ 32, snap := none })
    else s

def State.snapIo (s : State) : State :=
  let o := s.observe
  let pa := ringPlace (tget (0, 0, 0) o.snapRing 4) 512 o.ioSnapTail
  match o.ioSnap with
  | none => s
  | some l =>
    if s.quietAll pa 512 then
      { s.homeWrite pa (8 * l.length) (wordsValue l) with
        observe := { o with ioSnapTail := (o.ioSnapTail + 1) % 2 ^ 32, ioSnap := none } }
    else s

def State.snapAll (s : State) : State := (s.startedDies.foldl (fun s d => s.snapDie d) s).snapIo

/-- Whether this tick is one of those at which counters are latched, and they are not yet. -/
def State.snapDue (s : State) : Bool :=
  s.observe.snapEn && decide (s.gtick % 2 ^ s.observe.snapK = 0) &&
    (decide (s.observe.ioLatched ≠ some s.gtick) || s.startedDies.any (fun d => decide ((s.die d).latched ≠ some s.gtick)))

/-- Whether a latched record waits that can be written now. -/
def State.snapWaits (s : State) : Bool :=
  (List.range 4).any (fun d => (s.die d).snap.isSome && decide ((s.snapDie d).die d ≠ s.die d)) ||
    (s.observe.ioSnap.isSome && (s.snapIo).observe.ioSnap.isNone)

/-- SNAPSHOT: at its tick every die latches its counters; a latched record is written, and its ring's tail advances (R388). -/
def execSnapshot (s : State) : Host.Outcome State Fault Refusal :=
  if s.snapDue then .next s.latchAll.snapAll
  else if s.snapWaits then .next s.snapAll
  else notEnabled "SNAPSHOT"

/-- The ticks that pass, of at most `n`, before counters are latched again. -/
def State.snapRoom (s : State) (n : Nat) : Nat :=
  if s.observe.snapEn then min n (2 ^ s.observe.snapK - s.gtick % 2 ^ s.observe.snapK) else n

/-! ## Stop on tick (R390) -/

/-- The package stops. A snapshot of this tick is latched but not written. -/
def State.stopNow (s : State) : State :=
  let s := if s.snapDue then s.latchAll else s
  { s with power := { s.power with stopped := true } }

/-- Whether the stop tick is reached. -/
def State.stopDue (s : State) : Bool := s.observe.arm && decide (s.observe.stopTk ≤ s.gtick) && !s.power.stopped

/-- STOP_ON_TICK (R390). -/
def execStopOnTick (s : State) : Host.Outcome State Fault Refusal :=
  if s.stopDue then .next s.stopNow else notEnabled "STOP_ON_TICK"

/-- A write of `stopctl`; a stop tick that has passed stops the package at once (R389, R390). -/
def State.armStop (s : State) (v : Nat) : State :=
  let s := { s with observe := { s.observe with arm := decide (v % 2 = 1) } }
  if s.stopDue then s.stopNow else s

/-- STOPCTL_ARM. -/
def execStopctlArm (val : BitVec 64) (s : State) : Host.Outcome State Fault Refusal := .next (s.armStop val.toNat)

/-! ## Registers (R389) -/

/-- A field of a ring's registers: 0 base, 1 lg, 2 head. -/
def ringWrite (r : Nat × Nat × Nat) (field v : Nat) : Nat × Nat × Nat :=
  match field with
  | 0 => (v % 2 ^ 52 / 4096 * 4096, r.2)
  | 1 => (r.1, v % 16, r.2.2)
  | 2 => (r.1, r.2.1, v % 2 ^ 32)
  | _ => r

/-- A write to the observation registers. Read-only fields keep their value, and a write to an offset that the table does not
list is ignored (the model's choice, log 55). -/
def State.observeWrite (s : State) (off v : Nat) : State :=
  let o := s.observe
  let slot := (off - 0x40) % 32 / 8
  if off = 0 then
    let k := v % 32
    { s with observe := { o with snapEn := decide (v / 2 ^ 63 % 2 = 1), snapK := (if 10 ≤ k ∧ k ≤ 24 then k else o.snapK) } }
  else if off = 0x200 then { s with observe := { o with stopTk := v } }
  else if off = 0x208 then s.armStop v
  else if off % 8 ≠ 0 then s
  else if 0x40 ≤ off ∧ off < 0x40 + 160 then
    let d := (off - 0x40) / 32
    if slot = 3 then s
    else { s with observe := { o with snapRing := tset o.snapRing d (ringWrite (tget (0, 0, 0) o.snapRing d) slot v) } }
  else if 0x100 ≤ off ∧ off < 0x100 + 128 then
    let d := (off - 0x100) / 32
    let r := tget (0, 0, 0) o.trRing d
    match slot with
    | 0 => { s with observe := { o with trSel := tset o.trSel d (BitVec.ofNat 64 (v / 2 ^ 62 % 4 * 2 ^ 62 + v % 4096)) } }
    | 1 => { s with observe := { o with trRing := tset o.trRing d (ringWrite (ringWrite r 0 v) 1 v) } }
    | 2 => { s with observe := { o with trRing := tset o.trRing d (ringWrite r 2 v) } }
    | _ => s
  else s

/-- REGISTER_WRITE (R389). -/
def execRegisterWrite (pa : Nat) (val : BitVec 64) (s : State) : Host.Outcome State Fault Refusal :=
  if pa < 0x8040000000 ∨ 0x8040001000 ≤ pa then notEnabled "REGISTER_WRITE"
  else .next (s.observeWrite (pa - 0x8040000000) val.toNat)

/-! ## The tick counter (R382) -/

/-- GTICK_DISCIPLINE: one increment of the counter is doubled or held, at most one in 1,000 ticks. -/
def execGtickDiscipline (double : Bool) (s : State) : Host.Outcome State Fault Refusal :=
  let free : Bool := match s.observe.corrected with | some t => decide (t + 1000 ≤ s.gtick) | none => true
  if !free then notEnabled "GTICK_DISCIPLINE"
  else
    let s := { s with observe := { s.observe with corrected := some s.gtick } }
    .next (if double then (s.endTicks 1).1 else s)

end Sys2Proof.Machine
end

