-- ==== Sys2Proof/Machine/Power.lean ====
section
/-! DEFINITION. Start, power and life in service (R393 to R408). -/

namespace Sys2Proof.Machine

open Sys2Proof

/-! ## Start (R393 to R395) -/

/-- What memory holds of the host's own memory, which no power state of the package touches (R267). -/
def hostCells (m : Memory) : Memory := m.filter (fun c => decide (paClass c.1 = .host))

/-- The package from power-good: the staged start begins in SAFE. The fuses stay, and the host's memory; the agenda and the
answers are the model's own. -/
def State.startAgain (s : State) : State :=
  { State.reset with
    agenda := s.agenda, answers := s.answers, mem := hostCells s.mem
    power := { Power.reset with rating := s.power.rating, fusedMin := s.power.fusedMin } }

/-- POWER_GOOD (R393). -/
def execPowerGood (s : State) : Host.Outcome State Fault Refusal :=
  if s.power.stage = .off then .next s.startAgain else notEnabled "POWER_GOOD"

/-- POWER_GOOD_FALL: nothing is kept (R393). -/
def execPowerGoodFall (s : State) : Host.Outcome State Fault Refusal :=
  let t := s.startAgain
  if s.power.stage = .off then notEnabled "POWER_GOOD_FALL"
  else .next { t with power := { t.power with stage := .off } }

/-- A field of an image, which is its bytes as one number. -/
def imageField (image off n : Nat) : Nat := image / 2 ^ (8 * off) % 2 ^ (8 * n)

/-- The security version that an image carries (R394). -/
def imageVersion (image : Nat) : Nat := imageField image 8 4

/-- Whether an image's header is well-formed: format 1, a body of a multiple of 4,096 bytes, an LMS signature that the header
holds, and zeros after it (R394). -/
def headerHolds (image : Nat) : Bool :=
  let lms := imageField image 24 8
  decide (imageField image 0 8 = 1 ∧ imageField image 16 8 % 4096 = 0 ∧ lms ≤ 4096 - 128) &&
    decide (imageField image (128 + lms) (4096 - 128 - lms) = 0)

/-- The length of the signed message of an image, and the message: header bytes +0 to +31, followed by the body (R394). -/
def messageLength (image : Nat) : Nat := 32 + imageField image 16 8
def imageMessage (image : Nat) : Nat := imageField image 0 32 + 2 ^ 256 * imageField image 4096 (imageField image 16 8)

/-- Whether the two signatures of an image's header hold for its message (R394). -/
def ecdsaOk (image : Nat) : Bool :=
  Config.ecdsaHolds (imageMessage image) (messageLength image) (imageField image 32 48) (imageField image 80 48)
def lmsOk (image : Nat) : Bool :=
  let n := imageField image 24 8
  Config.lmsHolds (imageMessage image) (messageLength image) (imageField image 128 n) n

/-- The cause that refuses an image, 0 where it is accepted (R394, R398). -/
def State.imageCause (s : State) (image : Nat) : Nat :=
  if image = 0 then 1
  else if !headerHolds image then 5
  else if !ecdsaOk image then 2
  else if !lmsOk image then 3
  else if imageVersion image < s.power.fusedMin then 4
  else 0

/-- FIRMWARE_VERIFY: the package reaches LANTERN, or stays in SAFE with the cause (R394). -/
def execFirmwareVerify (image : Nat) (s : State) : Host.Outcome State Fault Refusal :=
  if s.power.stage ≠ .safe ∨ s.power.tripped then notEnabled "FIRMWARE_VERIFY"
  else
    let c := s.imageCause image
    if c = 0 then
      .next { s with power := { s.power with stage := .lantern, cause := 0, image := image,
                                             version := imageVersion image } }
    else .next { s with power := { s.power with cause := c } }

/-- The links of a die. -/
def linksOf (d : Nat) : List Nat :=
  (List.range 12).filter (fun l => decide ((linkEnds l).1 = d ∨ (linkEnds l).2 = d)) ++ [12 + 2 * d, 13 + 2 * d]

/-- A link that a die start leaves UP or DEGRADED (R395): one that carries flits stays as wide as it is, and another comes
up at full width, its unacknowledged flits with it. -/
def Link.bringUp (l now : Nat) (k : Link) : Link :=
  match k.st with
  | .up | .degraded => k
  | .sparing | .draining =>
    { k with st := (if k.lanes = dataLanes l then .up else .degraded), swapping := false, drainAfter := false }
  | .down | .training | .retraining => k.trained l (dataLanes l + spareLanes l) now

/-- A core at a die start: what stands beside it of its home slice stays, the requests at its port and the refills, and
whether it is retired (R404). -/
def Core.restart (k : Core) : Core := { Core.fresh with retired := k.retired, port := k.port, refills := k.refills }

/-- A line is taken from every holder to its home, whose remote pins and waiting requests stay (R114, R285, R404). A line
whose request is being served stays as it is. -/
def State.gather (s : State) (line : Nat) : State :=
  let e := s.entry line
  if e.req.isSome then s
  else (s.recallAll line).setEntry line { DirEntry.fresh with waitq := e.waitq, pins := e.pins, home := e.home }

/-- The lines of a die's directory. -/
def State.dirLines (s : State) (d : Nat) : List Nat :=
  (s.dir.filter (fun x => decide (coreDie x.2.home = d))).map (·.1)

/-- The state that a die start leaves (R395): its lines are gathered, so that its directory is empty of copies. `whole`:
also its place table and its barriers are cleared. -/
def State.startDie (s : State) (d : Nat) (whole : Bool) : State :=
  let s := (s.dirLines d).foldl State.gather s
  let s := (List.range 256).foldl (fun (s : State) i =>
    let c := 256 * d + i
    if s.cores.any (fun k => decide (k.1 = c)) then s.modCore c Core.restart else s) s
  let s : State := { s with
    formes := s.formes.filter (fun f => decide (formeDie f.1 ≠ d)),
    links := (linksOf d).foldl (fun t l => tset t l ((tget Link.fresh t l).bringUp l s.gtick)) s.links }
  let s := (linksOf d).foldl State.pumpLink s
  s.modDie d (fun x =>
    { x with
      started := true, bars := (if whole then [] else x.bars), places := (if whole then [] else x.places),
      tableQ := (if whole then [] else x.tableQ), tableRes := (if whole then [] else x.tableRes), backoff := 256,
      shoot := none, expansion := Config.expansionOf s.power.image })

/-- DIE_START: a die that passes training starts and joins; one that fails is out of service (R393, R395). -/
def execDieStart (die : Nat) (pass : Bool) (s : State) : Host.Outcome State Fault Refusal :=
  if 4 ≤ die ∨ (s.die die).started ∨ (s.power.stage ≠ .lantern ∧ s.power.stage ≠ .dies) ∨ (s.dpow die).park = .out then
    notEnabled "DIE_START"
  else if pass then .next ((s.startDie die true).modDpow die (fun p => { p with park := .inService })).restage
  else .next (s.dieOut die)

/-! ## Attestation (R396) -/

/-- The six words of a 48-byte field. -/
def digestWords (n : Nat) : List Nat := (List.range 6).map (fun i => n / 2 ^ (64 * i) % 2 ^ 64)

/-- A partition record as one number (R364). -/
def Partition.value (p : Partition) : Nat :=
  p.units + 2 ^ 32 * (p.tenants + 16 * ((if p.cap then 1 else 0) + 2 * p.slices.foldr (fun x a => x + 2 ^ 32 * a) 0))

/-- The words of a report before its signature. -/
def State.reportWords (s : State) (nonce part : Nat) : List Nat :=
  let die (d : Nat) : List Nat := digestWords (if (s.dpow d).park = .out then 0 else Config.sha384 (s.die d).expansion)
  [1 + 512 * 2 ^ 32] ++ digestWords nonce ++ [s.gtick] ++ digestWords (Config.sha384 s.power.image) ++
    [0, 1, 2, 3].flatMap die ++ [s.power.version % 2 ^ 32 + 2 ^ 32 * (part % 256)] ++
    digestWords (if part = 0xFF then 0 else Config.sha384 (s.part part).value) ++ List.replicate 7 0

/-- Whether an agent may ask for the report of a partition, 0xFF the whole package: the PF, function 0, and the Lantern
kernel, 64, which runs from LANTERN on, for each; a VF, 1 to 63, for the partition of its tenant (R364, R396). -/
def State.mayAsk (s : State) (who part : Nat) : Bool :=
  (decide (who = 0 ∨ (who = 64 ∧ s.power.stage ≠ .safe)) && decide (part < 32 ∨ part = 0xFF)) ||
    (decide (1 ≤ who ∧ who < 64 ∧ s.power.stage = .full ∧ part < 32) && (s.part part).vfs.contains who)

/-- ATTESTATION_REPORT: an agent asks for the report of a partition, with a nonce (R396). -/
def execAttestationReport (nonce : BitVec 384) (ask : Nat × Nat) (s : State) : Host.Outcome State Fault Refusal :=
  if s.power.stage = .off ∨ !s.mayAsk ask.1 ask.2 then notEnabled "ATTESTATION_REPORT"
  else
    let l := s.reportWords nonce.toNat ask.2
    let sig := Config.reportSignature (wordsValue l)
    let words := l ++ (List.range 12).map (fun i => sig / 2 ^ (64 * i) % 2 ^ 64)
    .next { s with answers := s.answers ++ [{ what := 2, addr := ask.2, data := words.map (fun w => BitVec.ofNat 64 w) }] }

/-! ## The management function (R390, R393, R401) -/

/-- MANAGEMENT_RESET: a stopped or tripped package begins a staged start. -/
def execManagementReset (s : State) : Host.Outcome State Fault Refusal :=
  if s.power.stopped ∨ s.power.tripped then .next s.startAgain else notEnabled "MANAGEMENT_RESET"

/-- What a scan shows: the tick; of each started die, then of the I/O die, the tick of its last latched snapshot and the
words of a record that is not written; and the trace records that stand in the cores' buffers. The rest of the state that
it makes visible is the state itself (log 43). -/
def State.scan (s : State) : List Nat :=
  let record (l : Option (List Nat)) : List Nat := match l with | some l => l.length :: l | none => [0]
  s.gtick :: (s.startedDies.flatMap (fun d => (s.die d).latched.getD 0 :: record (s.die d).snap)) ++
    (s.observe.ioLatched.getD 0 :: record s.observe.ioSnap) ++
    s.cores.flatMap (fun k => k.2.trace.flatMap (fun r => (List.range 4).map (fun i => r.bytes / 2 ^ (64 * i) % 2 ^ 64)))

/-- SCAN_OUT: the state of a stopped package is read (R390). -/
def execScanOut (s : State) : Host.Outcome State Fault Refusal :=
  if s.power.stopped then
    let l := s.scan
    .next { s with answers := s.answers ++ [{ what := 3, addr := 0, data := l.map (fun w => BitVec.ofNat 64 w) }] }
  else notEnabled "SCAN_OUT"

/-! ## P-states and the ceiling loop (R397 to R402) -/

/-- PWRCAP_WRITE: a ceiling outside 250 to 1,400 leaves the field unchanged (R398). -/
def execPwrcapWrite (val : BitVec 64) (s : State) : Host.Outcome State Fault Refusal :=
  let c := val.toNat % 2048
  .next (if 250 ≤ c ∧ c ≤ 1400 then { s with power := { s.power with ceiling := c } } else s)

/-- The P-state that a die is to be in: the highest-numbered of three (R400). -/
def DiePower.target (p : DiePower) : Nat := max p.preq (max p.loopP p.thermP)

/-- A die moves where it is not in its target. -/
def DiePower.settle (p : DiePower) : DiePower := { p with moving := decide (p.target ≠ p.pcur) }

/-- PREQ_WRITE (R398). -/
def execPreqWrite (die : Nat) (val : BitVec 64) (s : State) : Host.Outcome State Fault Refusal :=
  if 4 ≤ die then notEnabled "PREQ_WRITE"
  else .next (s.modDpow die (fun p => { p with preq := val.toNat % 8 }.settle))

/-- The voltage band of a P-state: 0 is the highest voltage (R397). -/
def bandOf (p : Nat) : Nat := p / 2

/-- A step of a transition: going down the frequency falls first, then the voltage band by band; going up the voltage
rises band by band, then the frequency (R397). -/
def DiePower.step (p : DiePower) : DiePower :=
  let b := bandOf p.target
  if p.pcur < p.target then { p with pcur := p.target }
  else if p.band < b then { p with band := p.band + 1 }
  else if b < p.band then { p with band := p.band - 1 }
  else { p with pcur := p.target }

/-- PSTATE_TRANSITION_DONE: the steps that are left have been made (R397). -/
def execPstateTransitionDone (die : Nat) (s : State) : Host.Outcome State Fault Refusal :=
  let p := s.dpow die
  if p.moving then .next (s.setDpow die { p with pcur := p.target, band := bandOf p.target, moving := false })
  else notEnabled "PSTATE_TRANSITION_DONE"

/-- A step of a transition that is in progress, before its last (R397). -/
def State.pstateStep (s : State) (die : Nat) : Option State :=
  if (s.dpow die).moving then some (s.modDpow die DiePower.step) else none

/-- A die's throttle for the next interval, and what follows from how long it has stood (R400): the interval that ends now
counts with the level that stood in it. -/
def DiePower.throttled (p : DiePower) (l : Nat) : DiePower :=
  let hot := if 8 ≤ p.throttle then p.hotRun + 1 else 0
  let cool := if p.throttle = 0 then p.coolRun + 1 else 0
  let p := { p with throttle := (if p.maxThrottle then 15 else l % 16), hotRun := hot, coolRun := cool }
  if 20 ≤ hot then { p with loopP := min 7 (p.pcur + 1), hotRun := 0 }.settle
  else if 1000 ≤ cool then { p with loopP := p.loopP - 1, coolRun := 0 }.settle
  else p

/-- What the loop allows the interval that ends now (R399). -/
def Power.allowance (p : Power) : Nat := 100 * p.enforced - p.history.foldl (· + ·) 0

/-- Whether this tick is a boundary at which the loop has not acted yet. -/
def State.boundaryDue (s : State) : Bool :=
  decide (s.gtick % 1000 = 0 ∧ s.gtick ≠ 0 ∧ s.power.boundary ≠ some s.gtick)

/-- The ticks that pass, of at most `n`, before the next boundary. -/
def State.boundaryRoom (s : State) (n : Nat) : Nat := min n (1000 - s.gtick % 1000)

/-- CEILING_BOUNDARY: the interval that ends has drawn `energy`; the ceiling that stands now is enforced, and each die takes
a throttle level (R399, R400). -/
def execCeilingBoundary (energy l0 l1 l2 l3 : Nat) (s : State) : Host.Outcome State Fault Refusal :=
  let p := s.power
  if p.stage = .off ∨ s.gtick % 1000 ≠ 0 ∨ p.boundary = some s.gtick ∨ p.allowance < energy then
    notEnabled "CEILING_BOUNDARY"
  else
    let sum := energy + p.history.foldl (· + ·) 0
    let s := { s with power := { p with
      boundary := some s.gtick, history := (energy :: p.history).take 99, mean := sum / 100,
      enforced := min p.ceiling p.rating } }
    .next ([(0, l0), (1, l1), (2, l2), (3, l3)].foldl (fun s x => s.modDpow x.1 (fun q => q.throttled x.2)) s)

/-- The boundary of an interval whose energy, and the throttle levels of the next, are not named: free values within what
the loop allows (log 42). -/
def State.freeBoundary (s : State) : State :=
  let v (i : Nat) : Nat := (Config.freeValue (s.clockFree + i)).toNat
  let t : State := { s with clockFree := s.clockFree + 5 }
  match execCeilingBoundary (v 0 % (s.power.allowance + 1)) (v 1) (v 2) (v 3) (v 4) t with
  | .next t => t
  | _ => t

/-- The trip: power leaves every compute die, and with it their memory; the package holds SAFE until the host resets it
(R401). -/
def State.trip (s : State) : State :=
  let t := s.startAgain
  { t with
    gtick := s.gtick, observe := s.observe
    mem := s.mem.filter (fun c => match paClass c.1 with | .dram _ => false | _ => true)
    power := { s.power with stage := .safe, tripped := true }
    diePower := [0, 1, 2, 3].map (fun d => (d, { DiePower.fresh with preq := (s.dpow d).preq, park := .out })) }

/-- THERMAL_SAMPLE, from power-good on (R393, R401). -/
def execThermalSample (die celsius : Nat) (s : State) : Host.Outcome State Fault Refusal :=
  if 4 ≤ die ∨ s.power.stage = .off ∨ s.power.tripped then notEnabled "THERMAL_SAMPLE"
  else if 120 ≤ celsius then .next s.trip
  else
    .next (s.modDpow die (fun p => { p with
      thermP := (if 110 ≤ celsius then 7 else if 100 ≤ celsius then 5 else 0), maxThrottle := decide (110 ≤ celsius),
      throttle := (if 110 ≤ celsius then 15 else p.throttle) }.settle))

/-- DROOP_DETECT: a forme's clock is stretched, or restored; no core cycle is lost (R402). -/
def execDroopDetect (fid : Nat) (stretch : Bool) (s : State) : Host.Outcome State Fault Refusal :=
  .next (s.modForme fid (fun f => { f with stretched := stretch }))

/-! ## Parking (R403, R404, R406) -/

/-- Whether a die holds a placed group. -/
def State.dieHolds (s : State) (d : Nat) : Bool :=
  s.groups.any (fun g => decide (g.2.die = d) && (match g.2.st with | .unplaced | .saved | .ended => false | _ => true))

/-- PARK (R403). -/
def execPark (die : Nat) (s : State) : Host.Outcome State Fault Refusal :=
  if die < 4 ∧ (s.die die).started ∧ (s.dpow die).park = .inService then
    .next (s.modDpow die (fun p => { p with park := .parking, parkBit := true }))
  else notEnabled "PARK"

/-- DIE_DRAIN (R406). -/
def execDieDrain (die : Nat) (s : State) : Host.Outcome State Fault Refusal :=
  if die < 4 ∧ (s.die die).started ∧ (s.dpow die).park = .inService then
    .next (s.modDpow die (fun p => { p with park := .parking, drainBit := true }))
  else notEnabled "DIE_DRAIN"

/-- The cores of a die that hold anything. -/
def State.dieCores (s : State) (d : Nat) : List Nat :=
  (s.cores.filter (fun k => decide (coreDie k.1 = d))).map (·.1)

/-- Whether a die's caches can be emptied now: no message of its cores or slices is in flight, no claim stands, and its
engines have finished their records. -/
def State.canEmpty (s : State) (d : Nat) : Bool :=
  !s.net.any (fun m => decide (coreDie (m.src % 1024) = d ∨ coreDie (m.dst % 1024) = d)) &&
    (s.dieCores d).all (fun c => decide ((s.core c).claims = [])) &&
    (s.die d).chans.all (fun c => c.2.recs.all (fun r => match r.st with
      | .finishing _ => false
      | .running => !r.entered
      | _ => true))

/-- A core's caches are emptied: tracked copies go home, untracked dirty bytes are written back, and the TLB goes. -/
def State.emptyCore (s : State) (c : Nat) : State :=
  let lines := ((s.core c).l1.filter (fun x => decide (x.st ≠ .raw))).map (fun x => x.line)
  let s := lines.foldl State.gather s
  (s.mergeRaw c).modCore c (fun k => { k with l1 := [], icache := [], tlb := [] })

/-- PARK_SHUTDOWN_DONE: caches emptied, L1s and TLBs dropped: PARKED, or DRAINED (R403, R406). -/
def execParkShutdownDone (die : Nat) (s : State) : Host.Outcome State Fault Refusal :=
  let p := s.dpow die
  if p.park ≠ .parking ∨ !(p.parkBit || p.drainBit) ∨ s.dieHolds die ∨ !s.canEmpty die then notEnabled "PARK_SHUTDOWN_DONE"
  else
    let s := (s.dieCores die).foldl (fun s c => s.emptyCore c) s
    let s : State := { s with formes := s.formes.map (fun f =>
      if formeDie f.1 = die then (f.1, { f.2 with tlb := [], misses := [] }) else f) }
    .next (s.modDpow die (fun p => { p with park := (if p.parkBit then .parked else .drained) }))

/-- UNPARK (R403): from PARKED, UNPARKING; from PARKING, back in service once the groups are saved; from DRAINED, back in
service (R406). -/
def execUnpark (die : Nat) (s : State) : Host.Outcome State Fault Refusal :=
  match (s.dpow die).park with
  | .parked => .next (s.modDpow die (fun p => { p with park := .unparking, parkBit := false }))
  | .parking =>
    if s.dieHolds die then notEnabled "UNPARK"
    else .next (s.modDpow die (fun p => { p with park := .inService, parkBit := false, drainBit := false }))
  | .drained => .next (s.modDpow die (fun p => { p with park := .inService, drainBit := false, parkBit := false }))
  | _ => notEnabled "UNPARK"

/-- UNPARK_START_DONE: die start, except the place table and the barriers (R403). -/
def execUnparkStartDone (die : Nat) (s : State) : Host.Outcome State Fault Refusal :=
  if (s.dpow die).park = .unparking then .next ((s.startDie die false).modDpow die (fun p => { p with park := .inService }))
  else notEnabled "UNPARK_START_DONE"

/-! ## Updates and repairs (R405 to R408) -/

/-- FIRMWARE_HANDOVER: a new image takes control where it is verified, at or above the running version (R405). -/
def execFirmwareHandover (image : Nat) (s : State) : Host.Outcome State Fault Refusal :=
  if s.power.stage = .off ∨ s.power.stage = .safe then notEnabled "FIRMWARE_HANDOVER"
  else if s.imageCause image = 0 ∧ s.power.version ≤ imageVersion image then
    .next { s with power := { s.power with image := image, version := imageVersion image } }
  else .next s

/-- EXPANSION_TABLE_UPDATE: loaded and measured on a DRAINED die, which returns to service (R406). -/
def execExpansionTableUpdate (die table : Nat) (s : State) : Host.Outcome State Fault Refusal :=
  if (s.dpow die).park = .drained then
    .next ((s.modDie die (fun d => { d with expansion := table })).modDpow die (fun p => { p with
      park := .inService, drainBit := false, parkBit := false }))
  else notEnabled "EXPANSION_TABLE_UPDATE"

/-- The sixteen words of a poisoned line are free values. -/
def State.spoilLine (s : State) (line : Nat) : State :=
  (List.range 16).foldl (fun (s : State) i =>
    { s with mem := mstore s.mem (128 * line + 8 * i) (Config.freeValue s.clockFree).toNat 8, clockFree := s.clockFree + 1 }) s

/-- SOFT_ERROR: corrected and logged, or the line is poisoned (R61, R407). -/
def execSoftError (pa : Nat) (correctable : Bool) (s : State) : Host.Outcome State Fault Refusal :=
  if correctable then .next { s with answers := s.answers ++ [{ what := 6, addr := pa, data := [] }] }
  else
    let line := pa / 128
    let s := s.spoilLine line
    .next { s with poison := (if s.poison.contains line then s.poison else line :: s.poison) }

/-- A vault holds traffic from now on, for a free number of ticks up to a limit (R407). -/
def State.holdVault (s : State) (key limit : Nat) : State :=
  let n := (Config.freeValue s.clockFree).toNat % (limit + 1)
  { s with clockFree := s.clockFree + 1, heldUntil := tset s.heldUntil key (s.gtick + n) }

/-- ROW_SPARING: a row of a vault is remapped to a spare row; the vault holds traffic for at most 50 µs (R407). -/
def execRowSparing (die vault row : Nat) (s : State) : Host.Outcome State Fault Refusal :=
  if die < 4 ∧ vault < 64 ∧ !s.sparedRows.contains (die, vault, row) then
    .next ({ s with sparedRows := s.sparedRows ++ [(die, vault, row)] }.holdVault (die * 64 + vault) 50000)
  else notEnabled "ROW_SPARING"

/-- VAULT_RECALIBRATION: the vault holds traffic for at most 10 µs, at most once every 100 ms (R407). -/
def execVaultRecalibration (die vault : Nat) (s : State) : Host.Outcome State Fault Refusal :=
  let key := die * 64 + vault
  let recent := s.hold.any (fun x => decide (x.1 = key ∧ s.gtick < x.2 + 100000000))
  if die < 4 ∧ vault < 64 ∧ !recent then .next ({ s with hold := tset s.hold key s.gtick }.holdVault key 10000)
  else notEnabled "VAULT_RECALIBRATION"

/-- VAULT_SPARING: the copy into the die's spare vault begins, or the switch is made; a second failing vault takes its
partition unit out of service (R15, R407). -/
def execVaultSparing (die vault : Nat) (switch : Bool) (s : State) : Host.Outcome State Fault Refusal :=
  let held := s.sparedVault.find? (fun x => decide (x.1 = die))
  if 4 ≤ die ∨ 64 ≤ vault then notEnabled "VAULT_SPARING"
  else
    match held, switch with
    | none, false => .next { s with sparedVault := tset s.sparedVault die (vault, false) }
    | some x, true =>
      if x.2 = (vault, false) then .next { s with sparedVault := tset s.sparedVault die (vault, true) }
      else notEnabled "VAULT_SPARING"
    | some x, false =>
      if x.2.1 = vault then notEnabled "VAULT_SPARING"
      else .next { s with units := (8 * die + vault / 8) :: s.units }
    | none, true => notEnabled "VAULT_SPARING"

/-- CORE_RETIRE: once no group is on its forme, the core is marked retired (R408). -/
def execCoreRetire (core : Nat) (s : State) : Host.Outcome State Fault Refusal :=
  let f := coreForme core
  if 1024 ≤ core ∨ (s.core core).retired ∨ (List.range 8).any (fun p => (s.groupOn (8 * f + p)).isSome) then
    notEnabled "CORE_RETIRE"
  else .next (s.modCore core (fun k => { k with retired := true }))

/-- CORE_RETURN_TO_SERVICE: the core takes its per-core reset values (R69, R408). -/
def execCoreReturnToService (core : Nat) (s : State) : Host.Outcome State Fault Refusal :=
  if (s.core core).retired then
    .next (s.modCore core (fun k => { k with
      retired := false, pushq := 64, pweight := 8, pmsel := [], pmselCtx := [], pmc := [] }))
  else notEnabled "CORE_RETURN_TO_SERVICE"

/-- POD_JOIN: the package number in `dieid` is set (R77). -/
def execPodJoin (pkg : Nat) (s : State) : Host.Outcome State Fault Refusal :=
  .next { s with power := { s.power with package := pkg % 64 } }

/-- FUSED_MINIMUM_RAISE: it never falls (R394). -/
def execFusedMinimumRaise (version : Nat) (s : State) : Host.Outcome State Fault Refusal :=
  .next { s with power := { s.power with fusedMin := max s.power.fusedMin version } }

end Sys2Proof.Machine
end

