-- ==== Sys2Proof/Machine/Verdict.lean ====
section
/-! DEFINITION. The verdicts of the Lantern kernel on fault requests (R276, R370): what each waiting agent does. -/

namespace Sys2Proof.Machine

open Sys2Proof

def State.findFault (s : State) (ctx seq : Nat) : Option FaultReq :=
  s.faults.find? (fun f => decide (f.ctx = ctx ∧ f.seq = seq))

/-- The queues whose heads wait on the page: a resolved one is judged again, or enabled where it was being enabled; a declined
one stops (R336). `none` where memory cannot answer now. -/
def State.answerQueues (s : State) (ctx page die : Nat) (resolve : Bool) : Option State :=
  (((s.ctx ctx).queues.filter (fun x => decide (x.2.wait = some page))).map (·.1)).foldl (fun (r : Option State) q =>
    r.bind (fun s =>
      let s := s.modQs ctx q (fun y => { y with wait := none })
      match s.look ctx (s.descVa ctx q) true false, s.qdesc ctx q with
      | .busy, _ => none
      | _, some d =>
        if !resolve then some (s.stopQ ctx q d)
        else if (s.qs ctx q).st = .disabled then (s.markDesc ctx q).enableQueue ctx q d
        else (s.markDesc ctx q).settleQueue ctx q d false
      | _, none =>
        some (if resolve then s else (s.modQs ctx q (fun y => { y with st := .stopped })).countDie die 0x7003 0 1))) (some s)

/-- The kernels that wait on the page with their constant block or their completion semaphore: declined, they are
FAULTED (R348, R351). -/
def State.answerKernels (s : State) (ctx page : Nat) (resolve : Bool) : Option State :=
  ((s.kernels.filter (fun k => decide (k.2.ctx = ctx ∧ k.2.wait = some page))).map (·.1)).foldl (fun (r : Option State) k =>
    r.bind (fun s => if resolve then some (s.modKer k (fun x => { x with wait := none })) else s.faultKernel k)) (some s)

/-- What the schedulers do on an answer, the looks for upstream faults among it (R344). -/
def State.answerScheduler (s : State) (ctx page die : Nat) (resolve : Bool) : Option State :=
  ((s.answerQueues ctx page die resolve).bind (fun s => s.answerKernels ctx page resolve)).map (fun s =>
    if (s.ctx ctx).queues.all (fun x => decide (x.2.due = [])) then s else s.settleOpen ctx)

/-- The FAULTED wakes of a context fire whose request has been answered and whose page's entries have been performed, or wait
for the next request because the page is still not present (R276, R278). -/
def State.wakeAnswered (s : State) (ctx : Nat) : State :=
  s.fire (fun w => match w with
    | .fault c p _ => decide (c = ctx) && !s.faultOpen ctx p && (!s.pageLogged ctx p || s.pageAbsent ctx p)
    | _ => false)

/-- FANS_RESOLVE: the request closes, the side logs are replayed, and then the wakes of the joined accesses fire; a
verdict that names no open request is ignored and counted (R276, R278, R370). -/
def execFansResolve (die ctx seq : Nat) (s : State) : Host.Outcome State Fault Refusal :=
  match s.findFault ctx seq with
  | none => .next (s.countDie die 0x7004 0 1)
  | some f =>
    let s := { s with faults := s.faults.filter (fun g => decide (g ≠ f)) }
    let cores := s.logCores ctx
    let waited := s.pageWaited ctx f.page
    match s.replayAll ctx cores with
    | none => notEnabled "FANS_RESOLVE"
    | some s =>
      let s := ((s.logsFreed cores).wakeAnswered ctx).wakeFetches ctx f.page
      let s := if waited then s else s.reopen ctx f.page
      let s := (s.answerPresses ctx f.page true).answerGalleys ctx f.page true
      match s.answerScheduler ctx f.page (coreDie f.core) true with
      | some s => .next s
      | none => notEnabled "FANS_RESOLVE"

/-- The threads that wait on a declined fault with an access that traps, or with a fetch (R56, R61, R276): thread, VA, and
whether an instruction waits. -/
def State.declined (s : State) (ctx page : Nat) : List (Nat × Word × Bool) :=
  s.threads.filterMap (fun x =>
    let t := x.2
    match t.wait with
    | .fetch p => if p = page ∧ s.ctxOf x.1 = ctx then some (x.1, t.pc, false) else none
    | .retry =>
      match t.wake with
      | some w =>
        match w.cond with
        | .fault c p (some va) => if c = ctx ∧ p = page ∧ w.fired = 0 then some (x.1, va, true) else none
        | _ => none
      | none => none
    | _ => none)

/-- A declined fault traps what waits on it: an access as a trap of its instruction, which counts in `instret` (R78). -/
def State.trapDeclined (s : State) (x : Nat × Word × Bool) : State :=
  let s' := s.trap x.1 .unresolvable (s.thr x.1).pc x.2.1 0 (if x.2.2 then s.nextWord x.1 else 0)
  if x.2.2 then s'.modThr x.1 (fun t => { t with instret := t.instret + 1 }) else s'

/-- Whether a declined page discards a side-log entry: it is the entry's own, or that of the shadow word which its replay
awaits (R279, R325). -/
def State.declines (s : State) (ctx page : Nat) (e : SideEntry) : Bool :=
  decide (e.ctx = ctx) && (decide (pageOf e.va.toNat = page) ||
    (decide ((s.ctx ctx).race ≠ 0) && !s.faultOpen ctx (pageOf e.va.toNat) && decide (pageOf (s.shadowVa ctx e.va.toNat) = page)))

/-- The entries that a declined page discards from the saves of a context's groups (R279, R280). -/
def State.dropSaved (s : State) (p : SideEntry → Bool) : State :=
  let rank (r : RankSave) : RankSave := { r with side := r.side.filter (fun e => !p e) }
  { s with groups := s.groups.map (fun (g : Nat × Group) => (g.1, { g.2 with save := g.2.save.map rank })) }

/-- FANS_DECLINE: waiting loads and fetches trap UNRESOLVABLE, the page's side-log entries are discarded with their
threads' traps, and the wakes of the others fire (R83, R276, R279). -/
def execFansDecline (die ctx seq : Nat) (s : State) : Host.Outcome State Fault Refusal :=
  match s.findFault ctx seq with
  | none => .next (s.countDie die 0x7004 0 1)
  | some f =>
    let s := { s with faults := s.faults.filter (fun g => decide (g ≠ f)) }
    let cores := s.logCores ctx
    let s := (s.declined ctx f.page).foldl State.trapDeclined s
    let out := s.declines ctx f.page
    let gone := s.cores.flatMap (fun k => k.2.side.filter out) ++
      s.groups.flatMap (fun g => g.2.save.flatMap (fun r => r.side.filter out))
    let s := (cores.foldl (fun s c => s.dropEntries c out) s).dropSaved out
    let firsts := (gone.map (fun e => e.uid)).dedup.filterMap (fun u => gone.find? (fun e => decide (e.uid = u)))
    let s := firsts.foldl (fun s e => s.discardTrap e .unresolvable) s
    let s := (s.logsFreed cores).wakeAnswered ctx
    let s := (s.answerPresses ctx f.page false).answerGalleys ctx f.page false
    match s.answerScheduler ctx f.page (coreDie f.core) false with
    | some s => .next s
    | none => notEnabled "FANS_DECLINE"

end Sys2Proof.Machine
end

