-- ==== Sys2Proof/Machine/Lantern.lean ====
section
/-! DEFINITION. What the Lantern cores reach: their SRAM (R16, R267), the registers of R370, R389 and R398 with the access codes
of R7, and memory at the home (R426). -/

namespace Sys2Proof.Machine

open Sys2Proof

/-! ## The map of the device range (R267, log 55) -/

/-- Lantern's 16 MiB of SRAM; the spec gives no base. -/
def sramBase : Nat := 0xFFFF000000

def inSram (pa : Nat) : Bool := decide (sramBase ≤ pa ∧ pa < sramBase + 0x1000000)

/-- Where a device register stands: the die and offset of a service register, or the offset of an observation or a power
register. -/
inductive Reg where
  | service (die off : Nat)
  | observe (off : Nat)
  | power (off : Nat)
  | other
  deriving DecidableEq, Repr

def regOf (pa : Nat) : Reg :=
  if pa < 0x8004000000 then .service ((pa - 0x8000000000) / 0x1000000) (pa % 0x1000000)
  else if 0x8040000000 ≤ pa ∧ pa < 0x8040001000 then .observe (pa - 0x8040000000)
  else if 0x8041000000 ≤ pa ∧ pa < 0x8041001000 then .power (pa - 0x8041000000)
  else .other

/-! ## Reads -/

def Stage.number : Stage → Nat
  | .off | .safe => 0 | .lantern => 1 | .dies => 2 | .full => 3

def ParkSt.number : ParkSt → Nat
  | .inService => 0 | .parking => 1 | .parked => 2 | .unparking => 3 | .drained => 4 | .out => 5

def bit (b : Bool) (n : Nat) : Nat := if b then 2 ^ n else 0

/-- A read of a power register (R398). An offset that the table does not list reads zero (the model's choice, log 55). -/
def State.powerRead (s : State) (off : Nat) : Nat :=
  let p := s.power
  if off = 0 then p.rating % 2048 * 65536 + p.ceiling
  else if 0x10 ≤ off ∧ off < 0x30 then (s.dpow ((off - 0x10) / 8)).preq
  else if 0x30 ≤ off ∧ off < 0x50 then
    let d := s.dpow ((off - 0x30) / 8)
    d.throttle * 256 + bit d.moving 4 + d.pcur
  else if 0x50 ≤ off ∧ off < 0x70 then
    let d := s.dpow ((off - 0x50) / 8)
    d.park.number * 16 + bit d.drainBit 1 + bit d.parkBit 0
  else if off = 0x70 then p.mean % 2 ^ 32
  else if off = 0x100 then p.cause * 256 + p.stage.number
  else 0

/-- A read of an observation register (R389). An offset that the table does not list reads zero (the model's choice, log
55). -/
def State.observeRead (s : State) (off : Nat) : Nat :=
  let o := s.observe
  let ring (r : Nat × Nat × Nat) (tail field : Nat) : Nat :=
    match field with | 0 => r.1 | 1 => r.2.1 | 2 => r.2.2 | _ => tail
  if off = 0 then bit o.snapEn 63 + o.snapK
  else if 0x40 ≤ off ∧ off < 0x40 + 160 then
    let d := (off - 0x40) / 32
    ring (tget (0, 0, 0) o.snapRing d) (if d = 4 then o.ioSnapTail else (s.die d).snapTail) ((off - 0x40) % 32 / 8)
  else if 0x100 ≤ off ∧ off < 0x100 + 128 then
    let d := (off - 0x100) / 32
    let r := tget (0, 0, 0) o.trRing d
    match (off - 0x100) % 32 / 8 with
    | 0 => (tget 0 o.trSel d).toNat
    | 1 => r.1 + r.2.1
    | 2 => r.2.2
    | _ => (s.die d).traceTail
  else if off = 0x200 then o.stopTk
  else if off = 0x208 then bit s.power.stopped 1 + bit o.arm 0
  else 0

/-- A read of a service register (R370): `fans`, `shoot`, `assn` and `tres` are write-only and read zero (R7); +0x010,
+0x018 and +0x038, for which the table gives no access code, read what was written last (log 55). -/
def State.serviceRead (s : State) (die off : Nat) : Nat :=
  let d := s.die die
  match off with
  | 0x10 => d.shootVa.toNat
  | 0x18 => d.shootLen.toNat
  | 0x20 => bit d.shoot.isSome 0
  | 0x38 => d.tresPc.toNat
  | _ => 0

/-- A read of a device register at a multiple of 8. -/
def State.deviceRead (s : State) (pa : Nat) : Nat :=
  match regOf pa with
  | .service d off => s.serviceRead d off
  | .observe off => s.observeRead off
  | .power off => s.powerRead off
  | .other => 0

/-! ## Writes -/

/-- What an event that a register write performs leaves: nothing where it does not apply. -/
def State.after (s : State) (o : Host.Outcome State Fault Refusal) : State :=
  match o with
  | .next t => t
  | _ => s

/-- A write of `parkctl`: both bits take what is written, and where they ask for a change of the die's park state it
begins (R398, R403, R406). A die in PARKING goes back to service once its groups are saved, where neither bit is left. -/
def State.parkWrite (s : State) (die v : Nat) : State :=
  let park := decide (v % 2 = 1)
  let drain := decide (v / 2 % 2 = 1)
  let bits (s : State) : State := s.modDpow die (fun p => { p with parkBit := park, drainBit := drain })
  let begins (s : State) : State := if park then s.after (execPark die s) else if drain then s.after (execDieDrain die s) else s
  match (s.dpow die).park with
  | .inService => bits (begins s)
  | .parking => if park || drain then bits s else (bits s).after (execUnpark die (bits s))
  | .parked => if park then bits s else bits (s.after (execUnpark die s))
  | .drained => if drain then bits s else bits (begins (s.after (execUnpark die s)))
  | .unparking | .out => bits s

/-- A write to the power registers (R398): read-only fields keep their value, and a write to an offset that the table does not
list is ignored (log 55). -/
def State.powerWrite (s : State) (off v : Nat) : State :=
  if off = 0 then s.after (execPwrcapWrite (BitVec.ofNat 64 v) s)
  else if 0x10 ≤ off ∧ off < 0x30 ∧ off % 8 = 0 then s.after (execPreqWrite ((off - 0x10) / 8) (BitVec.ofNat 64 v) s)
  else if 0x50 ≤ off ∧ off < 0x70 ∧ off % 8 = 0 then s.parkWrite ((off - 0x50) / 8) v
  else s

/-- A write to the service registers of a die (R370). `none`: a verdict or a shootdown cannot be performed yet. A verdict,
kind or action that the table does not list does nothing, and so does a `tres` that names no trapped thread (log 55). The
answer of an ECALL stands in the thread's saved `a0` and `a1` (R371). -/
def State.serviceWrite (s : State) (die off v : Nat) : Option State :=
  let ctx := v / 2 ^ 32 % 65536
  let seq := v % 2 ^ 32
  let sel := v / 2 ^ 62
  let now (o : Host.Outcome State Fault Refusal) : Option State := match o with | .next t => some t | _ => none
  match off with
  | 0x00 =>
    if sel = 1 then now (execFansResolve die ctx seq s)
    else if sel = 2 then now (execFansDecline die ctx seq s)
    else some s
  | 0x08 => now (execShoot die ctx (s.die die).shootVa.toNat (s.die die).shootLen.toNat (v.testBit 0) s)
  | 0x10 => some (s.modDie die (fun d => { d with shootVa := BitVec.ofNat 64 v }))
  | 0x18 => some (s.modDie die (fun d => { d with shootLen := BitVec.ofNat 64 v }))
  | 0x28 =>
    some (if sel = 1 then s.after (execAssnDieBarrier die ctx (v % 64) s)
      else if sel = 2 then s.after (execAssnGalleyChannel die ctx (v % 64) s)
      else s)
  | 0x30 =>
    let t := match s.trappedBy ctx seq with | some x => s.thr x.1 | none => Thread.fresh
    some (if sel = 1 then s.after (execTresResume die ctx seq (s.die die).tresPc (t.reg 10) (t.reg 11) s)
      else if sel = 2 then s.after (execTresEnd die ctx seq s)
      else s)
  | 0x38 => some (s.modDie die (fun d => { d with tresPc := BitVec.ofNat 64 v }))
  | _ => some s

/-- A write to a device register at a multiple of 8. -/
def State.deviceWrite (s : State) (pa v : Nat) : Option State :=
  match regOf pa with
  | .service d off => s.serviceWrite d off v
  | .observe off => some (s.observeWrite off v)
  | .power off => some (s.powerWrite off v)
  | .other => some s

/-! ## The accesses (R426) -/

/-- What an AMO of a Lantern core leaves: kinds add, and, or, xor, min, max, minu, maxu and swap. -/
def lanternAmo (k w a b : Nat) : Nat :=
  let x := toInt true w a
  let y := toInt true w b
  (match k with
  | 0 => a + b
  | 1 => a &&& b
  | 2 => a ||| b
  | 3 => a ^^^ b
  | 4 => if x ≤ y then a else b
  | 5 => if y ≤ x then a else b
  | 6 => min a b
  | 7 => max a b
  | _ => b) % 2 ^ w

/-- Memory that a Lantern core reaches within one line: DRAM and host memory at their homes, and the SRAM. -/
def lanternReach (pa size : Nat) : Bool :=
  hostReach pa size || (decide (1 ≤ size ∧ size ≤ 8 ∧ pa / 128 = (pa + size - 1) / 128) && inSram pa)

/-- HOST_READ: a function of the host endpoint reads at a PA; the management function, function 0, also `bootst` (R398). -/
def execHostRead (loc : Nat × Nat) (size : Nat) (s : State) : Host.Outcome State Fault Refusal :=
  let answer (s : State) (v : Nat) : Host.Outcome State Fault Refusal :=
    .next { s with answers := s.answers ++ [{ what := 0, addr := loc.2, data := [BitVec.ofNat 64 v] }] }
  if loc = (0, 0x8041000100) ∧ size = 8 then answer s (s.powerRead 0x100)
  else if hostReach loc.2 size && s.hostFunction loc.1 loc.2 && s.ioReaches loc.2 && s.quietAll loc.2 size then
    let (s, v) := s.homeRead loc.2 size
    answer s v
  else notEnabled "HOST_READ"

/-- An access within one device register. -/
def inRegister (pa size : Nat) : Bool :=
  decide (paClass pa = .device) && !inSram pa && decide (1 ≤ size ∧ pa / 8 = (pa + size - 1) / 8)

/-- LANTERN_CORE_ACCESS: op 0 a read, 1 a write, 2 a FENCE, 3 to 11 an AMO, of memory (R426), and the reads and writes of
device registers, those of fewer than 8 bytes as parts of the 8 (log 55). A FENCE orders the core's own accesses, each of
which is one step here. -/
def execLanternCoreAccess (op pa size : Nat) (val : BitVec 64) (s : State) : Host.Outcome State Fault Refusal :=
  let answer (s : State) (v : Nat) : State :=
    { s with answers := s.answers ++ [{ what := 1, addr := pa, data := [BitVec.ofNat 64 v] }] }
  let atHome := lanternReach pa size && s.ioReaches pa && s.quietAll pa size
  let reg := s.deviceRead (pa / 8 * 8)
  let low := 2 ^ (8 * (pa % 8))
  let width := 2 ^ (8 * size)
  match op with
  | 2 => .next s
  | 0 =>
    if inRegister pa size then .next (answer s (reg / low % width))
    else if atHome then
      let (s, v) := s.homeRead pa size
      .next (answer s v)
    else notEnabled "LANTERN_CORE_ACCESS"
  | 1 =>
    if inRegister pa size then
      match s.deviceWrite (pa / 8 * 8) (reg % low + low * (val.toNat % width) + low * width * (reg / (low * width))) with
      | some t => .next t
      | none => notEnabled "LANTERN_CORE_ACCESS"
    else if atHome then .next (s.homeWrite pa size val.toNat)
    else notEnabled "LANTERN_CORE_ACCESS"
  | k =>
    if atHome ∧ k ≤ 11 ∧ (size = 4 ∨ size = 8) ∧ pa % size = 0 then
      let (s, old) := s.homeRead pa size
      .next (answer (s.homeWrite pa size (lanternAmo (k - 3) (8 * size) old (val.toNat % 2 ^ (8 * size)))) old)
    else notEnabled "LANTERN_CORE_ACCESS"

end Sys2Proof.Machine
end

