-- ==== Sys2Proof/Machine/Scalar.lean ====
section
/-! DEFINITION. The scalar stream (R51 to R78): the 73 standard instructions and the CSR map. -/

namespace Sys2Proof.Machine

open Sys2Proof

/-! ## Shared forms -/

/-- A register result: rd ← f, and the PC moves on (R53: no flag, no outcome). -/
def State.write (s : State) (rd : BitVec 4) (f : Thread → Word) : State := s.plain (fun t => t.setReg rd (f t))

/-- A word result, sign-extended (R53). -/
def sextW (x : BitVec 32) : Word := x.signExtend 64

def lowW (x : Word) : BitVec 32 := x.truncate 32

/-- A jump or taken branch to a target: a target that is not a multiple of 4 traps ILLEGAL with the target as VA, and
no register is written (R27). -/
def State.jump (s : State) (target : Word) (f : Thread → Thread) : State :=
  if target.toNat % 4 ≠ 0 then s.trapMe .illegal target 0
  else s.modMe (fun t => { f t with pc := target, instret := t.instret + 1 })

/-- A BRANCH word: it enters the path signature (R392), and the target is checked only when taken (R53). -/
def State.branch (s : State) (taken : Bool) (imm : BitVec 12) : State :=
  if taken then s.jump (s.me.pc + branchOff imm) (fun t => t.sign 1 1)
  else s.plain (fun t => t.sign 0 1)

/-- Signed division rounded toward zero with the results of R54. -/
def divS (w : Nat) (a b : Nat) : Nat :=
  if b % 2 ^ w = 0 then 2 ^ w - 1 else wrapInt w (Int.tdiv (toInt true w a) (toInt true w b))
def divU (w : Nat) (a b : Nat) : Nat :=
  if b % 2 ^ w = 0 then 2 ^ w - 1 else (a % 2 ^ w) / (b % 2 ^ w)
def remS (w : Nat) (a b : Nat) : Nat :=
  if b % 2 ^ w = 0 then a % 2 ^ w else wrapInt w (Int.tmod (toInt true w a) (toInt true w b))
def remU (w : Nat) (a b : Nat) : Nat :=
  if b % 2 ^ w = 0 then a % 2 ^ w else (a % 2 ^ w) % (b % 2 ^ w)

/-- The high 64 bits of a product (R53). -/
def mulHigh (sa sb : Bool) (a b : Word) : Word :=
  BitVec.ofInt 64 (toInt sa 64 a.toNat * toInt sb 64 b.toNat / (2 ^ 64 : Nat))

/-! ## Upper immediates, jumps, branches -/

def execLui (rd : BitVec 4) (imm : BitVec 20) (s : State) : Host.Outcome State Fault Refusal :=
  .next (s.write rd (fun _ => upper20 imm))
def execAuipc (rd : BitVec 4) (imm : BitVec 20) (s : State) : Host.Outcome State Fault Refusal :=
  .next (s.write rd (fun t => t.pc + upper20 imm))
def execJal (rd : BitVec 4) (imm : BitVec 20) (s : State) : Host.Outcome State Fault Refusal :=
  .next (s.jump (s.me.pc + jumpOff imm) (fun t => t.setReg rd (t.pc + 4)))

/-- `jalr`: bit 0 of the sum is cleared, then the target rule applies; the target enters the signature (R53, R392). -/
def execJalr (rd rs1 : BitVec 4) (imm : BitVec 12) (s : State) : Host.Outcome State Fault Refusal :=
  let target := (s.me.reg rs1 + sext12 imm) &&& ~~~1
  .next (s.jump target (fun t => (t.setReg rd (t.pc + 4)).sign target.toNat 8))

def execBeq (rs1 rs2 : BitVec 4) (imm : BitVec 12) (s : State) : Host.Outcome State Fault Refusal :=
  .next (s.branch (decide (s.me.reg rs1 = s.me.reg rs2)) imm)
def execBne (rs1 rs2 : BitVec 4) (imm : BitVec 12) (s : State) : Host.Outcome State Fault Refusal :=
  .next (s.branch (decide (s.me.reg rs1 ≠ s.me.reg rs2)) imm)
def execBlt (rs1 rs2 : BitVec 4) (imm : BitVec 12) (s : State) : Host.Outcome State Fault Refusal :=
  .next (s.branch ((s.me.reg rs1).slt (s.me.reg rs2)) imm)
def execBge (rs1 rs2 : BitVec 4) (imm : BitVec 12) (s : State) : Host.Outcome State Fault Refusal :=
  .next (s.branch (!(s.me.reg rs1).slt (s.me.reg rs2)) imm)
def execBltu (rs1 rs2 : BitVec 4) (imm : BitVec 12) (s : State) : Host.Outcome State Fault Refusal :=
  .next (s.branch ((s.me.reg rs1).ult (s.me.reg rs2)) imm)
def execBgeu (rs1 rs2 : BitVec 4) (imm : BitVec 12) (s : State) : Host.Outcome State Fault Refusal :=
  .next (s.branch (!(s.me.reg rs1).ult (s.me.reg rs2)) imm)

/-! ## Immediate and register ALU -/

def execAddi (rd rs1 : BitVec 4) (imm : BitVec 12) (s : State) : Host.Outcome State Fault Refusal :=
  .next (s.write rd (fun t => t.reg rs1 + sext12 imm))
def execSlti (rd rs1 : BitVec 4) (imm : BitVec 12) (s : State) : Host.Outcome State Fault Refusal :=
  .next (s.write rd (fun t => if (t.reg rs1).slt (sext12 imm) then 1 else 0))
def execSltiu (rd rs1 : BitVec 4) (imm : BitVec 12) (s : State) : Host.Outcome State Fault Refusal :=
  .next (s.write rd (fun t => if (t.reg rs1).ult (sext12 imm) then 1 else 0))
def execXori (rd rs1 : BitVec 4) (imm : BitVec 12) (s : State) : Host.Outcome State Fault Refusal :=
  .next (s.write rd (fun t => t.reg rs1 ^^^ sext12 imm))
def execOri (rd rs1 : BitVec 4) (imm : BitVec 12) (s : State) : Host.Outcome State Fault Refusal :=
  .next (s.write rd (fun t => t.reg rs1 ||| sext12 imm))
def execAndi (rd rs1 : BitVec 4) (imm : BitVec 12) (s : State) : Host.Outcome State Fault Refusal :=
  .next (s.write rd (fun t => t.reg rs1 &&& sext12 imm))
def execSlli (rd rs1 : BitVec 4) (sh : BitVec 6) (s : State) : Host.Outcome State Fault Refusal :=
  .next (s.write rd (fun t => t.reg rs1 <<< sh.toNat))
def execSrli (rd rs1 : BitVec 4) (sh : BitVec 6) (s : State) : Host.Outcome State Fault Refusal :=
  .next (s.write rd (fun t => t.reg rs1 >>> sh.toNat))
def execSrai (rd rs1 : BitVec 4) (sh : BitVec 6) (s : State) : Host.Outcome State Fault Refusal :=
  .next (s.write rd (fun t => (t.reg rs1).sshiftRight sh.toNat))
def execAddiw (rd rs1 : BitVec 4) (imm : BitVec 12) (s : State) : Host.Outcome State Fault Refusal :=
  .next (s.write rd (fun t => sextW (lowW (t.reg rs1 + sext12 imm))))
def execSlliw (rd rs1 : BitVec 4) (sh : BitVec 5) (s : State) : Host.Outcome State Fault Refusal :=
  .next (s.write rd (fun t => sextW (lowW (t.reg rs1) <<< sh.toNat)))
def execSrliw (rd rs1 : BitVec 4) (sh : BitVec 5) (s : State) : Host.Outcome State Fault Refusal :=
  .next (s.write rd (fun t => sextW (lowW (t.reg rs1) >>> sh.toNat)))
def execSraiw (rd rs1 : BitVec 4) (sh : BitVec 5) (s : State) : Host.Outcome State Fault Refusal :=
  .next (s.write rd (fun t => sextW ((lowW (t.reg rs1)).sshiftRight sh.toNat)))

def execAdd (rd rs1 rs2 : BitVec 4) (s : State) : Host.Outcome State Fault Refusal :=
  .next (s.write rd (fun t => t.reg rs1 + t.reg rs2))
def execSub (rd rs1 rs2 : BitVec 4) (s : State) : Host.Outcome State Fault Refusal :=
  .next (s.write rd (fun t => t.reg rs1 - t.reg rs2))
def execSll (rd rs1 rs2 : BitVec 4) (s : State) : Host.Outcome State Fault Refusal :=
  .next (s.write rd (fun t => t.reg rs1 <<< ((t.reg rs2).toNat % 64)))
def execSlt (rd rs1 rs2 : BitVec 4) (s : State) : Host.Outcome State Fault Refusal :=
  .next (s.write rd (fun t => if (t.reg rs1).slt (t.reg rs2) then 1 else 0))
def execSltu (rd rs1 rs2 : BitVec 4) (s : State) : Host.Outcome State Fault Refusal :=
  .next (s.write rd (fun t => if (t.reg rs1).ult (t.reg rs2) then 1 else 0))
def execXorr (rd rs1 rs2 : BitVec 4) (s : State) : Host.Outcome State Fault Refusal :=
  .next (s.write rd (fun t => t.reg rs1 ^^^ t.reg rs2))
def execSrl (rd rs1 rs2 : BitVec 4) (s : State) : Host.Outcome State Fault Refusal :=
  .next (s.write rd (fun t => t.reg rs1 >>> ((t.reg rs2).toNat % 64)))
def execSra (rd rs1 rs2 : BitVec 4) (s : State) : Host.Outcome State Fault Refusal :=
  .next (s.write rd (fun t => (t.reg rs1).sshiftRight ((t.reg rs2).toNat % 64)))
def execOrr (rd rs1 rs2 : BitVec 4) (s : State) : Host.Outcome State Fault Refusal :=
  .next (s.write rd (fun t => t.reg rs1 ||| t.reg rs2))
def execAndr (rd rs1 rs2 : BitVec 4) (s : State) : Host.Outcome State Fault Refusal :=
  .next (s.write rd (fun t => t.reg rs1 &&& t.reg rs2))
def execAddw (rd rs1 rs2 : BitVec 4) (s : State) : Host.Outcome State Fault Refusal :=
  .next (s.write rd (fun t => sextW (lowW (t.reg rs1) + lowW (t.reg rs2))))
def execSubw (rd rs1 rs2 : BitVec 4) (s : State) : Host.Outcome State Fault Refusal :=
  .next (s.write rd (fun t => sextW (lowW (t.reg rs1) - lowW (t.reg rs2))))
def execSllw (rd rs1 rs2 : BitVec 4) (s : State) : Host.Outcome State Fault Refusal :=
  .next (s.write rd (fun t => sextW (lowW (t.reg rs1) <<< ((t.reg rs2).toNat % 32))))
def execSrlw (rd rs1 rs2 : BitVec 4) (s : State) : Host.Outcome State Fault Refusal :=
  .next (s.write rd (fun t => sextW (lowW (t.reg rs1) >>> ((t.reg rs2).toNat % 32))))
def execSraw (rd rs1 rs2 : BitVec 4) (s : State) : Host.Outcome State Fault Refusal :=
  .next (s.write rd (fun t => sextW ((lowW (t.reg rs1)).sshiftRight ((t.reg rs2).toNat % 32))))

/-! ## Multiply, divide, conditional zero -/

def execMul (rd rs1 rs2 : BitVec 4) (s : State) : Host.Outcome State Fault Refusal :=
  .next (s.write rd (fun t => t.reg rs1 * t.reg rs2))
def execMulh (rd rs1 rs2 : BitVec 4) (s : State) : Host.Outcome State Fault Refusal :=
  .next (s.write rd (fun t => mulHigh true true (t.reg rs1) (t.reg rs2)))
def execMulhsu (rd rs1 rs2 : BitVec 4) (s : State) : Host.Outcome State Fault Refusal :=
  .next (s.write rd (fun t => mulHigh true false (t.reg rs1) (t.reg rs2)))
def execMulhu (rd rs1 rs2 : BitVec 4) (s : State) : Host.Outcome State Fault Refusal :=
  .next (s.write rd (fun t => mulHigh false false (t.reg rs1) (t.reg rs2)))
def execDiv (rd rs1 rs2 : BitVec 4) (s : State) : Host.Outcome State Fault Refusal :=
  .next (s.write rd (fun t => BitVec.ofNat 64 (divS 64 (t.reg rs1).toNat (t.reg rs2).toNat)))
def execDivu (rd rs1 rs2 : BitVec 4) (s : State) : Host.Outcome State Fault Refusal :=
  .next (s.write rd (fun t => BitVec.ofNat 64 (divU 64 (t.reg rs1).toNat (t.reg rs2).toNat)))
def execRem (rd rs1 rs2 : BitVec 4) (s : State) : Host.Outcome State Fault Refusal :=
  .next (s.write rd (fun t => BitVec.ofNat 64 (remS 64 (t.reg rs1).toNat (t.reg rs2).toNat)))
def execRemu (rd rs1 rs2 : BitVec 4) (s : State) : Host.Outcome State Fault Refusal :=
  .next (s.write rd (fun t => BitVec.ofNat 64 (remU 64 (t.reg rs1).toNat (t.reg rs2).toNat)))
def execMulw (rd rs1 rs2 : BitVec 4) (s : State) : Host.Outcome State Fault Refusal :=
  .next (s.write rd (fun t => sextW (lowW (t.reg rs1) * lowW (t.reg rs2))))
def execDivw (rd rs1 rs2 : BitVec 4) (s : State) : Host.Outcome State Fault Refusal :=
  .next (s.write rd (fun t => sextW (BitVec.ofNat 32 (divS 32 (t.reg rs1).toNat (t.reg rs2).toNat))))
def execDivuw (rd rs1 rs2 : BitVec 4) (s : State) : Host.Outcome State Fault Refusal :=
  .next (s.write rd (fun t => sextW (BitVec.ofNat 32 (divU 32 (t.reg rs1).toNat (t.reg rs2).toNat))))
def execRemw (rd rs1 rs2 : BitVec 4) (s : State) : Host.Outcome State Fault Refusal :=
  .next (s.write rd (fun t => sextW (BitVec.ofNat 32 (remS 32 (t.reg rs1).toNat (t.reg rs2).toNat))))
def execRemuw (rd rs1 rs2 : BitVec 4) (s : State) : Host.Outcome State Fault Refusal :=
  .next (s.write rd (fun t => sextW (BitVec.ofNat 32 (remU 32 (t.reg rs1).toNat (t.reg rs2).toNat))))
def execCzeroEqz (rd rs1 rs2 : BitVec 4) (s : State) : Host.Outcome State Fault Refusal :=
  .next (s.write rd (fun t => if t.reg rs2 = 0 then 0 else t.reg rs1))
def execCzeroNez (rd rs1 rs2 : BitVec 4) (s : State) : Host.Outcome State Fault Refusal :=
  .next (s.write rd (fun t => if t.reg rs2 ≠ 0 then 0 else t.reg rs1))

/-! ## Loads and stores (R58): the DM access of the same width with nb = 0 -/

/-- The byte of a local memory at which a misaligned access begins: such an access is made byte by byte (R60). -/
def Spot.misaligned (p : Spot) (ea : Word) (n : Nat) : Option Nat :=
  match p with
  | .lm b => if ea.toNat % n ≠ 0 then some b else none
  | _ => none

/-- The end of a load that reads `v` at its spot. -/
def State.loaded (s : State) (rd : BitVec 4) (ea : Word) (p : Spot) (width : BitVec 3) (v : Nat) (nb : BitVec 1) : State :=
  (((s.touch p).endOp ea).modMe (fun t => { t.setReg rd (extendLoad width v) with bytes := none })).completeP nb .rdy

/-- A load (R134), and the outcome it ends with, none where it traps or has bytes to perform yet. -/
def State.loadRes (s : State) (rd : BitVec 4) (ea : Word) (width : BitVec 3) (nb : BitVec 1) : State × Option OCode :=
  let n := widthBytes width
  match s.attempt .load ea n n false (allBytes n) with
  | .trap s c va x => (s.trapMe c va x, none)
  | .denied s => (s.complete nb .denied, some .denied)
  | .stop s c w => (s.notReady nb c w, some c)
  | .ok s p =>
    match p.misaligned ea n with
    | none => (s.loaded rd ea p width (s.readAt p ea n) nb, some .rdy)
    | some b =>
      let (i, got) := s.me.bytesDone
      let v := got + 256 ^ i * mload s.lm (b + i) 1
      if i + 1 < n then (s.byteMade i v, none) else (s.loaded rd ea p width v nb, some .rdy)

/-- A store (R134). -/
def State.storeRes (s : State) (rs : BitVec 4) (ea : Word) (width : BitVec 3) (nb : BitVec 1) : State × Option OCode :=
  let n := widthBytes width
  let v := (s.me.reg rs).toNat % 2 ^ (8 * n)
  match s.attempt .store ea n n false (allBytes n) with
  | .trap s c va x => (s.trapMe c va x, none)
  | .denied s => (s.complete nb .denied, some .denied)
  | .stop s c w => (s.notReady nb c w, some c)
  | .ok s p =>
    match p.misaligned ea n with
    | none => (((s.writeAt p ea n v (allBytes n) (s.homeAt ea)).endOp ea).completeP nb .rdy, some .rdy)
    | some b =>
      let (i, _) := s.me.bytesDone
      let s := { s with lm := mstore s.lm (b + i) (v / 256 ^ i) 1 }
      if i + 1 < n then (s.byteMade i 0, none)
      else ((s.modMe (fun t => { t with bytes := none })).completeP nb .rdy, some .rdy)

def State.loadOp (s : State) (rd : BitVec 4) (ea : Word) (width : BitVec 3) (nb : BitVec 1) : State :=
  (s.loadRes rd ea width nb).1

def State.storeOp (s : State) (rs : BitVec 4) (ea : Word) (width : BitVec 3) (nb : BitVec 1) : State :=
  (s.storeRes rs ea width nb).1

def execLb (rd rs1 : BitVec 4) (imm : BitVec 12) (s : State) : Host.Outcome State Fault Refusal :=
  .next (s.loadOp rd (s.me.reg rs1 + sext12 imm) 0 0)
def execLh (rd rs1 : BitVec 4) (imm : BitVec 12) (s : State) : Host.Outcome State Fault Refusal :=
  .next (s.loadOp rd (s.me.reg rs1 + sext12 imm) 1 0)
def execLw (rd rs1 : BitVec 4) (imm : BitVec 12) (s : State) : Host.Outcome State Fault Refusal :=
  .next (s.loadOp rd (s.me.reg rs1 + sext12 imm) 2 0)
def execLd (rd rs1 : BitVec 4) (imm : BitVec 12) (s : State) : Host.Outcome State Fault Refusal :=
  .next (s.loadOp rd (s.me.reg rs1 + sext12 imm) 3 0)
def execLbu (rd rs1 : BitVec 4) (imm : BitVec 12) (s : State) : Host.Outcome State Fault Refusal :=
  .next (s.loadOp rd (s.me.reg rs1 + sext12 imm) 4 0)
def execLhu (rd rs1 : BitVec 4) (imm : BitVec 12) (s : State) : Host.Outcome State Fault Refusal :=
  .next (s.loadOp rd (s.me.reg rs1 + sext12 imm) 5 0)
def execLwu (rd rs1 : BitVec 4) (imm : BitVec 12) (s : State) : Host.Outcome State Fault Refusal :=
  .next (s.loadOp rd (s.me.reg rs1 + sext12 imm) 6 0)
def execSb (rs1 rs2 : BitVec 4) (imm : BitVec 12) (s : State) : Host.Outcome State Fault Refusal :=
  .next (s.storeOp rs2 (s.me.reg rs1 + sext12 imm) 0 0)
def execSh (rs1 rs2 : BitVec 4) (imm : BitVec 12) (s : State) : Host.Outcome State Fault Refusal :=
  .next (s.storeOp rs2 (s.me.reg rs1 + sext12 imm) 1 0)
def execSw (rs1 rs2 : BitVec 4) (imm : BitVec 12) (s : State) : Host.Outcome State Fault Refusal :=
  .next (s.storeOp rs2 (s.me.reg rs1 + sext12 imm) 2 0)
def execSd (rs1 rs2 : BitVec 4) (imm : BitVec 12) (s : State) : Host.Outcome State Fault Refusal :=
  .next (s.storeOp rs2 (s.me.reg rs1 + sext12 imm) 3 0)

/-! ## FENCE, ECALL, EBREAK (R63 to R66) -/

/-- The ordering of a `sys` fence on the core: with W in pred the release step and the core's side log drained, with R in
succ the acquire step; the state it starts and whether it is established (R63, R64). -/
def State.fenceStep (s : State) (predW succR : Bool) : State × Bool :=
  let scope := s.capScope 5
  let r := if predW then s.releaseStep scope else (s, true)
  let r := (r.1, r.2 && (!predW || (s.core s.myCore).side.isEmpty))
  if r.2 then ((if succR then r.1.acquireStep r.1.myCore scope else r.1), true) else r

/-- FENCE: no operation with an empty set; otherwise auto-retry until its ordering is established (R63). -/
def State.fence (s : State) (pred succ : Nat) : State :=
  let w (x : Nat) : Bool := decide (x % 2 = 1 ∨ x / 4 % 2 = 1)
  let r (x : Nat) : Bool := decide (x / 2 % 2 = 1 ∨ x / 8 % 2 = 1)
  if pred = 0 ∨ succ = 0 then s.plain id
  else
    let (s, ok) := s.fenceStep (w pred) (r succ)
    if ok then (s.clampCount 5).plain (fun t => if w pred then t.released else t) else s.notReady 0 .nr (.fenced (s.capScope 5))

def execFence (_rd _rs1 : BitVec 5) (pred succ : BitVec 4) (s : State) : Host.Outcome State Fault Refusal :=
  .next (s.fence pred.toNat succ.toNat)

/-- FENCE.TSO executes as FENCE rw,rw (R63). -/
def execFenceTso (_rd _rs1 : BitVec 5) (_pred _succ : BitVec 4) (s : State) : Host.Outcome State Fault Refusal :=
  .next (s.fence 3 3)

/-- ECALL: the effect of FENCE rw,rw, then a trap of class ECALL with the service number of a5 (R65, R109). -/
def execEcall (s : State) : Host.Outcome State Fault Refusal :=
  let (s, ok) := s.fenceStep true true
  if ok then .next (((s.clampCount 5).modMe Thread.released).trapMe .ecall 0 (s.me.reg 15))
  else .next (s.notReady 0 .nr (.fenced (s.capScope 5)))

/-- EBREAK (R66). -/
def execEbreak (s : State) : Host.Outcome State Fault Refusal :=
  let (s, ok) := s.fenceStep true true
  if ok then .next (((s.clampCount 5).modMe Thread.released).trapMe .ebreak 0 0) else .next (s.notReady 0 .nr (.fenced (s.capScope 5)))

/-! ## CSRs (R67 to R78) -/

/-- A CSR of the map. -/
inductive Csr where
  | oc | vmask | vrm | dphase | pushq | pushref | pweight | yldlim | pmsel (n : Nat)
  | cycle | time | instret | thrid | coreid | formeid | rank | groupid | dieid | gtick | moves | pmc (n : Nat)
  deriving DecidableEq, Repr

/-- The CSR of a number (R69). -/
def csrOf (n : Nat) : Option Csr :=
  match n with
  | 0x800 => some .oc | 0x801 => some .vmask | 0x802 => some .vrm | 0x803 => some .dphase | 0x804 => some .pushq
  | 0x805 => some .pushref | 0x806 => some .pweight | 0x807 => some .yldlim
  | 0x810 => some (.pmsel 0) | 0x811 => some (.pmsel 1) | 0x812 => some (.pmsel 2) | 0x813 => some (.pmsel 3)
  | 0xC00 => some .cycle | 0xC01 => some .time | 0xC02 => some .instret
  | 0xC80 => some .thrid | 0xC81 => some .coreid | 0xC82 => some .formeid | 0xC83 => some .rank
  | 0xC84 => some .groupid | 0xC85 => some .dieid | 0xC86 => some .gtick | 0xC87 => some .moves
  | 0xC90 => some (.pmc 0) | 0xC91 => some (.pmc 1) | 0xC92 => some (.pmc 2) | 0xC93 => some (.pmc 3)
  | _ => none

/-- Whether a CSR can be written (R69). -/
def Csr.writable : Csr → Bool
  | .oc | .vmask | .vrm | .dphase | .pushq | .pushref | .pweight | .yldlim | .pmsel _ => true
  | _ => false

/-- The value of a CSR as the thread in execution reads it. -/
def State.readCsr (s : State) (x : Csr) : Word :=
  let t := s.me
  let c := t.core
  let k := s.core c
  match x with
  | .oc => t.oc.zeroExtend 64
  | .vmask => t.vmask
  | .vrm => t.vrm.zeroExtend 64
  | .dphase => t.dphase.zeroExtend 64
  | .pushq => k.pushq.zeroExtend 64
  | .pushref => t.pushref
  | .pweight => k.pweight.zeroExtend 64
  | .yldlim => t.yldlim.zeroExtend 64
  | .pmsel n => (tget 0 k.pmsel n).zeroExtend 64
  | .cycle => BitVec.ofNat 64 (t.cycles + (if t.slot.isSome then s.now (coreDie c) - t.slotFrom else 0))
  | .time | .gtick => BitVec.ofNat 64 s.gtick
  | .instret => t.instret
  | .thrid => BitVec.ofNat 64 (s.myGrp.kid % 2 ^ 16 * 2 ^ 32 + t.thrid % 2 ^ 32)
  | .coreid => BitVec.ofNat 64 (coreLocal c)
  | .formeid => BitVec.ofNat 64 (snakeForme (coreForme c) * 1024 + formeQuad (coreForme c) * 256 + coreForme c % 32)
  | .rank => BitVec.ofNat 64 (t.rank % 8)
  | .groupid => BitVec.ofNat 64 (s.myGrp.index % 2 ^ 32)
  | .dieid => BitVec.ofNat 64 (s.power.package % 64 * 256 + coreDie c % 4)
  | .moves => t.moves
  | .pmc n => if coreEvent ((tget 0 k.pmsel n).toNat % 65536) then tget 0 k.pmc n else BitVec.allOnes 64

/-- The field rules of a write (R68, R70 to R76, R130). -/
def State.writeCsr (s : State) (x : Csr) (v : Word) : State :=
  let n := v.toNat
  match x with
  | .oc => s.modMe (fun t => { t with oc := BitVec.ofNat 4 n })
  | .vmask => s.modMe (fun t => { t with vmask := v, dirty := true })
  | .vrm => s.modMe (fun t =>
      let mode := if n / 32 % 8 ≤ 4 then n / 32 % 8 else t.mode
      { t with vrm := BitVec.ofNat 9 (n / 256 % 2 * 256 + mode * 32 + n % 32) })
  | .dphase => s.modMe (fun t => { t with dphase := BitVec.ofNat 9 n })
  | .pushq => s.modCore s.myCore (fun k => { k with pushq := BitVec.ofNat 10 (min 512 (n % 1024)) })
  | .pushref => s.modMe (fun t => { t with pushref := v })
  | .pweight => s.modCore s.myCore (fun k => { k with pweight := BitVec.ofNat 4 (max 1 (n % 16)) })
  | .yldlim => s.modMe (fun t => { t with yldlim := BitVec.ofNat 48 n })
  | .pmsel i =>
    let k := s.core s.myCore
    let old := (tget 0 k.pmsel i).toNat
    let mode := if n / 65536 % 4 = 3 then old / 65536 else n / 65536 % 4
    s.modCore s.myCore (fun k => { k with
      pmsel := tset k.pmsel i (BitVec.ofNat 18 (mode * 65536 + n % 65536)),
      pmselCtx := tset k.pmselCtx i s.myCtx,
      pmc := tset k.pmc i 0 })
  | _ => s

/-- A Zicsr instruction: a number absent from the map and a write of a read-only CSR trap ILLEGAL; the CSR is read
before it is written (R29, R67). A write of `oc` leaves the armed wake as it is, as every CSR access does (R83,
log 12). -/
def State.csrOp (s : State) (rd : BitVec 4) (csr : BitVec 12) (writes : Bool) (f : Word → Word) : State :=
  match csrOf csr.toNat with
  | none => s.trapMe .illegal 0 0
  | some x =>
    if writes && !x.writable then s.trapMe .illegal 0 0
    else
      let old := s.readCsr x
      let s := if writes then s.writeCsr x (f old) else s
      s.plain (fun t => t.setReg rd old)

def execCsrrw (rd rs1 : BitVec 4) (csr : BitVec 12) (s : State) : Host.Outcome State Fault Refusal :=
  .next (s.csrOp rd csr true (fun _ => s.me.reg rs1))
def execCsrrs (rd rs1 : BitVec 4) (csr : BitVec 12) (s : State) : Host.Outcome State Fault Refusal :=
  .next (s.csrOp rd csr (decide (rs1 ≠ 0)) (fun old => old ||| s.me.reg rs1))
def execCsrrc (rd rs1 : BitVec 4) (csr : BitVec 12) (s : State) : Host.Outcome State Fault Refusal :=
  .next (s.csrOp rd csr (decide (rs1 ≠ 0)) (fun old => old &&& ~~~ (s.me.reg rs1)))
def execCsrrwi (rd : BitVec 4) (csr : BitVec 12) (uimm : BitVec 5) (s : State) : Host.Outcome State Fault Refusal :=
  .next (s.csrOp rd csr true (fun _ => uimm.zeroExtend 64))
def execCsrrsi (rd : BitVec 4) (csr : BitVec 12) (uimm : BitVec 5) (s : State) : Host.Outcome State Fault Refusal :=
  .next (s.csrOp rd csr (decide (uimm ≠ 0)) (fun old => old ||| uimm.zeroExtend 64))
def execCsrrci (rd : BitVec 4) (csr : BitVec 12) (uimm : BitVec 5) (s : State) : Host.Outcome State Fault Refusal :=
  .next (s.csrOp rd csr (decide (uimm ≠ 0)) (fun old => old &&& ~~~ (uimm.zeroExtend 64)))

/-- ILLEGAL_INSTRUCTION_WORD (R28, R30): the word in execution traps ILLEGAL, and no state changes. -/
def execIllegalInstructionWord (s : State) : Host.Outcome State Fault Refusal := .next (s.trapMe .illegal 0 0)

end Sys2Proof.Machine
end

