-- ==== Sys2Proof/Machine/Line.lean ====
section
/-! DEFINITION. The instructions of the line (R133 to R145): probes, fused probes, load-acquire and store-release,
fences, atomics, update without result, pushes, line operations and constant words. -/

namespace Sys2Proof.Machine

open Sys2Proof

/-! ## Probes (R134 to R136) -/

def execPld (rd base : BitVec 4) (imm : BitVec 12) (width : BitVec 3) (nb : BitVec 1) (s : State) :
    Host.Outcome State Fault Refusal :=
  .next (s.loadOp rd (s.me.reg base + sext12 imm) width nb)

def execPst (rs base : BitVec 4) (imm : BitVec 12) (width : BitVec 3) (nb : BitVec 1) (s : State) :
    Host.Outcome State Fault Refusal :=
  .next (s.storeOp rs (s.me.reg base + sext12 imm) width nb)

/-- The branch of a fused probe: taken when the outcome is not RDY, never after a trap (R136). -/
def fuse (pc : Word) (off : BitVec 12) (r : State × Option OCode) : State :=
  match r.2 with
  | none => r.1
  | some .rdy => r.1
  | some _ => r.1.modMe (fun t => { t with pc := pc + fusedOff off })

def execPldBr (rd base : BitVec 4) (off : BitVec 12) (width : BitVec 3) (s : State) :
    Host.Outcome State Fault Refusal :=
  .next (fuse s.me.pc off (s.loadRes rd (s.me.reg base) width 1))

def execPstBr (rs base : BitVec 4) (off : BitVec 12) (width : BitVec 3) (s : State) :
    Host.Outcome State Fault Refusal :=
  .next (fuse s.me.pc off (s.storeRes rs (s.me.reg base) width 1))

/-! ## Load-acquire, store-release, fence (R137 to R139) -/

def execPlda (rd rs1 : BitVec 4) (width scope : BitVec 3) (nb : BitVec 1) (s : State) :
    Host.Outcome State Fault Refusal :=
  let n := widthBytes width
  let ea := s.me.reg rs1
  let sc := s.capScope scope.toNat
  match s.attempt .acq ea n n true (allBytes n) with
  | .trap s c va x => .next ((s.clampCount scope.toNat).trapMe c va x)
  | .denied s => .next ((s.clampCount scope.toNat).complete nb .denied)
  | .stop s c w => .next (s.clampedWait scope.toNat nb c w)
  | .ok s p =>
    let v := extendLoad width (s.readAt p ea n)
    let s := ((s.touch p).endOp ea).modMe (fun t => t.setReg rd v)
    let s := ((s.shadowAcquire ea sc).acquireStep s.myCore sc).clampCount scope.toNat
    .next (s.completeP nb .rdy)

/-- A release that covers refused pushes reports REFUSED once (R129, R138, R139). -/
def State.reportRefusal (s : State) : State × OCode :=
  if s.me.refusal then (s.modMe (fun t => { t with refusal := false }), .refused) else (s, .rdy)

def execPstr (rs rs1 : BitVec 4) (width scope : BitVec 3) (nb : BitVec 1) (s : State) :
    Host.Outcome State Fault Refusal :=
  let n := widthBytes width
  let ea := s.me.reg rs1
  let sc := s.capScope scope.toNat
  if ea.toNat % n ≠ 0 then .next (s.trapMe .access ea 0)
  else
    let (s, ok) := s.releaseStep sc
    if !ok then .next (s.clampedWait scope.toNat nb .nr (.release sc))
    else
      match s.attempt .storeRel ea n n true (allBytes n) with
      | .trap s c va x => .next ((s.clampCount scope.toNat).trapMe c va x)
      | .denied s => .next ((s.clampCount scope.toNat).complete nb .denied)
      | .stop s c w => .next (s.clampedWait scope.toNat nb c w)
      | .ok s p =>
        let s := (s.writeAt p ea n ((s.me.reg rs).toNat % 2 ^ (8 * n)) (allBytes n) (s.homeAt ea)).endOp ea
        let s := ((s.modMe Thread.released).shadowRelease ea).clampCount scope.toNat
        let (s, c) := s.reportRefusal
        .next (s.completeP nb c)

def execFnc (kind : BitVec 2) (scope : BitVec 3) (nb : BitVec 1) (s : State) : Host.Outcome State Fault Refusal :=
  let sc := s.capScope scope.toNat
  if kind = 0 then .next ((((s.fenceTake sc).acquireStep s.myCore sc).clampCount scope.toNat).complete nb .rdy)
  else
    let (s, ok) := s.releaseStep sc
    if !ok then .next (s.clampedWait scope.toNat nb .nr (.release sc))
    else
      let s := if kind = 2 then (s.fenceTake sc).acquireStep s.myCore sc else s
      let (s, c) := (s.fenceRelease.clampCount scope.toNat).reportRefusal
      .next (s.complete nb c)

/-! ## Atomics (R140) -/

/-- The amo family: release, read, combine, write, acquire; `f` gives the new value, `always` says that it is written
even when it equals the old. A value that is not written leaves its line in the state and the place it has (log 59). -/
def State.amo (s : State) (rd rs1 rs2 : BitVec 4) (width : BitVec 1) (scope : BitVec 3) (nb : BitVec 1)
    (f : Nat → Nat → Nat → Nat → Nat) (always : Bool) : State :=
  let n := if width = 1 then 4 else 8
  let w := 8 * n
  let ea := s.me.reg rs1
  let sc := s.capScope scope.toNat
  if ea.toNat % n ≠ 0 then s.trapMe .access ea 0
  else
    let (s, ok) := s.releaseStep sc
    if !ok then s.clampedWait scope.toNat nb .nr (.release sc)
    else
      match s.attempt .amo ea n n true (allBytes n) with
      | .trap s c va x => (s.clampCount scope.toNat).trapMe c va x
      | .denied s => (s.clampCount scope.toNat).complete nb .denied
      | .stop s c w => s.clampedWait scope.toNat nb c w
      | .ok s p =>
        let old := s.readAt p ea n % 2 ^ w
        let new := f w old ((s.me.reg rs2).toNat % 2 ^ w) ((s.me.reg rd).toNat % 2 ^ w) % 2 ^ w
        -- the shadow that its read finds is that of the release it synchronises with (R326)
        let s := s.shadowAcquire ea sc
        let s := (if always ∨ new ≠ old then s.writeAt p ea n new (allBytes n) (s.homeAt ea) else s).endOp ea
        let v : Word := BitVec.ofInt 64 (toInt true w old)
        let s := s.modMe (fun t => ((t.setReg rd v).sign v.toNat 8).released)
        let s := if always ∨ new ≠ old then s.shadowRelease ea else s
        ((s.acquireStep s.myCore sc).clampCount scope.toNat).completeP nb .rdy

def execAmoAdd (rd rs1 rs2 : BitVec 4) (width : BitVec 1) (scope : BitVec 3) (nb : BitVec 1) (s : State) :
    Host.Outcome State Fault Refusal :=
  .next (s.amo rd rs1 rs2 width scope nb (fun _ old b _ => old + b) true)
def execAmoAnd (rd rs1 rs2 : BitVec 4) (width : BitVec 1) (scope : BitVec 3) (nb : BitVec 1) (s : State) :
    Host.Outcome State Fault Refusal :=
  .next (s.amo rd rs1 rs2 width scope nb (fun _ old b _ => old &&& b) true)
def execAmoOr (rd rs1 rs2 : BitVec 4) (width : BitVec 1) (scope : BitVec 3) (nb : BitVec 1) (s : State) :
    Host.Outcome State Fault Refusal :=
  .next (s.amo rd rs1 rs2 width scope nb (fun _ old b _ => old ||| b) true)
def execAmoXor (rd rs1 rs2 : BitVec 4) (width : BitVec 1) (scope : BitVec 3) (nb : BitVec 1) (s : State) :
    Host.Outcome State Fault Refusal :=
  .next (s.amo rd rs1 rs2 width scope nb (fun _ old b _ => old ^^^ b) true)
def execAmoMin (rd rs1 rs2 : BitVec 4) (width : BitVec 1) (scope : BitVec 3) (nb : BitVec 1) (s : State) :
    Host.Outcome State Fault Refusal :=
  .next (s.amo rd rs1 rs2 width scope nb (fun w old b _ => if toInt true w b < toInt true w old then b else old) true)
def execAmoMax (rd rs1 rs2 : BitVec 4) (width : BitVec 1) (scope : BitVec 3) (nb : BitVec 1) (s : State) :
    Host.Outcome State Fault Refusal :=
  .next (s.amo rd rs1 rs2 width scope nb (fun w old b _ => if toInt true w old < toInt true w b then b else old) true)
def execAmoMinu (rd rs1 rs2 : BitVec 4) (width : BitVec 1) (scope : BitVec 3) (nb : BitVec 1) (s : State) :
    Host.Outcome State Fault Refusal :=
  .next (s.amo rd rs1 rs2 width scope nb (fun _ old b _ => min old b) true)
def execAmoMaxu (rd rs1 rs2 : BitVec 4) (width : BitVec 1) (scope : BitVec 3) (nb : BitVec 1) (s : State) :
    Host.Outcome State Fault Refusal :=
  .next (s.amo rd rs1 rs2 width scope nb (fun _ old b _ => max old b) true)
def execAmoSwap (rd rs1 rs2 : BitVec 4) (width : BitVec 1) (scope : BitVec 3) (nb : BitVec 1) (s : State) :
    Host.Outcome State Fault Refusal :=
  .next (s.amo rd rs1 rs2 width scope nb (fun _ _ b _ => b) true)

/-- A failed compare writes nothing and is still a release and an acquire (R140). -/
def execAmoCas (rd rs1 rs2 : BitVec 4) (width : BitVec 1) (scope : BitVec 3) (nb : BitVec 1) (s : State) :
    Host.Outcome State Fault Refusal :=
  .next (s.amo rd rs1 rs2 width scope nb (fun _ old b e => if old = e then b else old) false)

/-! ## Update without result (R141) -/

/-- One `red` into an update copy: a touched word combines, an untouched one starts (R124). -/
def State.redCopy (s : State) (line off k v : Nat) : State :=
  let c := s.myCore
  let w := redWidth k
  match (s.core c).line line with
  | none => s
  | some x =>
    let d := if x.valid.getLsbD off then redOp k (lineGet x.data off w) v else v
    s.modCore c (fun q => q.putLine { x with data := lineSet x.data off w d, valid := x.valid ||| maskRange off w })

/-- Whether a line of the core is an update-only copy. -/
def State.inU (s : State) (line : Nat) : Bool :=
  match (s.core s.myCore).line line with
  | some x => match x.st with | .u _ => true | _ => false
  | none => false

def execRed (rs1 rs2 : BitVec 4) (kind : BitVec 4) (nb : BitVec 1) (s : State) : Host.Outcome State Fault Refusal :=
  let k := kind.toNat
  let n := redWidth k
  let ea := s.me.reg rs1
  let v := (s.me.reg rs2).toNat % 2 ^ (8 * n)
  match s.attempt (.red k) ea n n true (allBytes n) with
  | .trap s c va x => .next (s.trapMe c va x)
  | .denied s => .next (s.complete nb .denied)
  | .stop s c w => .next (s.notReady nb c w)
  | .ok s p =>
    let direct (s : State) : State := s.storeAt p ea n (redOp k (s.readAt p ea n) v) (allBytes n) (s.homeAt ea)
    let s := match p with
      | .line line off => if s.inU line then s.redCopy line off k v else direct s
      | _ => direct s
    -- it may carry a release, and leaves the shadow as it is (R315, R327)
    .next ((s.endReleasing.endOp ea).completeP nb .rdy)

/-! ## Pushes (R126, R142, R143) -/

/-- The targets of a target-set word, as cores of a die; none where it is malformed (R126). -/
def pushTargets (die w : Nat) : Option (List Nat) :=
  let form := w / 2 ^ 62
  let count := w / 2 ^ 32 % 8
  let bits := w % 2 ^ 32
  if w / 2 ^ 35 % 2 ^ 27 ≠ 0 then none
  else
    match form with
    | 0 => if 1 ≤ count ∧ count ≤ 4 then some ((List.range count).map (fun i => 256 * die + bits / 256 ^ i % 256)) else none
    | 1 => if count = 0 then
        some (((List.range 32).filter (fun f => bits.testBit f)).flatMap
          (fun f => (List.range 8).map (fun p => 256 * die + 8 * f + p)))
      else none
    | 2 => if count = 0 ∧ bits / 2 ^ 13 = 0 then
        some (((List.range 8).filter (fun p => bits.testBit p)).map
          (fun p => 256 * die + 8 * (bits / 256 % 32) + p))
      else none
    | _ => none

/-- Push entries of a core that an attempt may take: in use or reserved for other claims they do not count (R142). -/
def State.pushEntryFree (s : State) (c : Nat) (ea : Word) : Bool :=
  let k := s.core c
  decide (k.pushes.length + (k.claims.filter (fun x => decide (x.need = .pushEntry ∧ x.stage = .ready) &&
    !x.sameOp s.cur s.me.pc s.ir ea)).length < 16)

/-- A push goes to the home (R142, R143): a line that the core holds in M is written back before a `psh.line`. -/
def State.sendPush (s : State) (ea : Word) (line off home : Nat) (targets : List Nat) (data : Option Word) (nb : BitVec 1) :
    State :=
  let c := s.myCore
  let s := match data, (s.core c).line line with
    | none, some x =>
      if x.st = LState.m then
        (s.modCore c (fun k => k.putLine { x with st := .s })).send
          { src := c, dst := homeAgent home, line := line, kind := .writeBack x.data true }
      else s
    | _, _ => s
  let m : Msg := { src := c, dst := homeAgent home, line := line,
                   kind := .pushWrite s.cur (data.map (fun _ => off)) (data.getD 0) targets }
  let s := (s.send m).modCore c (fun k => { k with pushes := k.pushes ++ [(line, s.cur)] })
  let s := s.modMe (fun t => { t with pushes := t.pushes + 1 })
  let s := if data.isSome ∧ s.me.releasing then (s.shadowRelease ea).endReleasing else s
  (s.endOp ea).completeP nb .rdy

/-- A push of the line at `ea`: `data` is the doubleword it stores, none for `psh.line`. -/
def State.push (s : State) (ea : Word) (c8 : BitVec 8) (data : Option Word) (nb : BitVec 1) : State :=
  let c := s.myCore
  let t := s.me
  let write := data.isSome
  let set := (s.constWord c c8.toNat).toNat
  if write && decide (ea.toNat % 8 ≠ 0) then s.trapMe .access ea 0
  else if inWindows ea then s.complete nb .denied
  else if !inPaged ea.toNat || (write && s.inShadow s.myCtx ea.toNat) then s.trapMe .access ea 0
  else if (pushTargets 0 set).isNone then s.complete nb .denied
  else
    match s.translate ea .pushEntry write with
    | .absent s =>
      (s.openFault s.myCtx ea.toNat (if write then 2 else 1) c).notReady nb .faulted
        (.fault s.myCtx (pageOf ea.toNat) none)
    | .wait (.stop s c w) => s.notReady nb c w
    | .wait _ => s
    | .held s e =>
      let p := e.pte.toNat
      let pa := leafPa e.level p ea.toNat
      let line := pa / 128
      let home := e.home line
      let stop (r : Res) : State := match r with | .stop s c w => s.notReady nb c w | _ => s
      let again (s : State) (stage : CStage) (f : State → State) : State :=
        stop (State.stopClaim (s.claim ea .pushEntry write line stage false home) ea f)
      let later (s : State) (w : WakeCond) : State :=
        stop (State.stopOn (s.claim ea .pushEntry write line .blocked false home) ea w id)
      if paClass pa = .device then s.trapMe .access ea 0
      else if !pteT p || !pteP p then (s.endOp ea).complete nb .denied
      else if (if write then !pteW p else !pteR p) then s.trapMe .access ea 0
      else if write && pteMG p then later s (.thaw s.myCtx (pageOf ea.toNat))
      else if write && !pteD p then again s .walking (fun s => s.missQueue c s.cur s.myCtx ea true 2)
      else if s.pendingWrite c line then later s (.linePerformed line)
      else if (s.core c).lineClaimed line then again s .blocked id
      else if !s.pushEntryFree c ea then again s .waiting id
      else
        let checked : RaceRes :=
          if write ∧ !s.me.releasing then s.raceCheck s.myCtx s.meAgent ea.toNat (sectorsOf ea.toNat 8) true true else .ok s
        match checked with
        | .conflict s => s.trapMe .race ea 0
        | .absent s page => s.notReady nb .faulted (.fault s.myCtx page none)
        | .ok s => s.sendPush ea line (pa % 128) home ((pushTargets (coreDie home) set).getD []) data nb

def execPshD (rs rs1 : BitVec 4) (c8 : BitVec 8) (nb : BitVec 1) (s : State) : Host.Outcome State Fault Refusal :=
  .next (s.push (s.me.reg rs1) c8 (some (s.me.reg rs)) nb)

def execPshLine (rs1 : BitVec 4) (c8 : BitVec 8) (nb : BitVec 1) (s : State) : Host.Outcome State Fault Refusal :=
  .next (s.push (s.me.reg rs1) c8 none nb)

/-! ## Line operations and constant words (R144, R145) -/

/-- What a line operation does to a copy of the core. -/
def State.lineAct (s : State) (c line : Nat) (wb inv : Bool) : State :=
  match (s.core c).line line with
  | none => s
  | some x =>
    let send (s : State) (k : MsgKind) : State := s.send { src := c, dst := homeAgent x.home, line := line, kind := k }
    let drop (s : State) : State := s.modCore c (fun k => k.delLine line)
    match x.st with
    | .s | .sp | .e => if inv then send (drop s) .evict else s
    | .m =>
      if inv then send (drop s) (.writeBack x.data false)
      else send (s.modCore c (fun k => { k with l1 := k.l1.map (fun y => if y.line = line then { y with st := .e } else y) }))
        (.writeBack x.data true)
    | .u k =>
      -- a copy that a claim holds stays, without touched words (R85)
      let s := if (s.core c).awaits line then
          s.modCore c (fun q => { q with l1 := q.l1.map (fun y => if y.line = line then { y with data := 0, valid := 0 } else y) })
        else drop s
      send s (.uCopy x.data x.valid k)
    | .raw =>
      let s := if wb then s.giveUpLine c x else s
      if inv then (drop s).refetchFor c (fun u => decide (u = s.cur)) (fun y => decide (y.line = line))
      else s.modCore c (fun k => { k with l1 := k.l1.map (fun y => if y.line = line then { y with dirty := 0 } else y) })

def State.lineOp (s : State) (ea : Word) (wb inv : Bool) (nb : BitVec 1) : State :=
  if inWindows ea then s.complete nb .rdy
  else if !inPaged ea.toNat then s.trapMe .access ea 0
  else
    match s.translate ea .translation false with
    | .absent s => s.complete nb .rdy
    | .wait (.stop s c w) => s.notReady nb c w
    | .wait _ => s
    | .held s e =>
      let line := leafPa e.level e.pte.toNat ea.toNat / 128
      let s := s.endOp ea
      let c := s.myCore
      if inv && (s.core c).awaits line then s.notReady nb .nr (.unpinned c line)
      else (s.lineAct c line wb inv).complete nb .rdy

def execLineWb (rs1 : BitVec 4) (nb : BitVec 1) (s : State) : Host.Outcome State Fault Refusal :=
  .next (s.lineOp (s.me.reg rs1) true false nb)
def execLineInv (rs1 : BitVec 4) (nb : BitVec 1) (s : State) : Host.Outcome State Fault Refusal :=
  .next (s.lineOp (s.me.reg rs1) false true nb)
def execLineWbinv (rs1 : BitVec 4) (nb : BitVec 1) (s : State) : Host.Outcome State Fault Refusal :=
  .next (s.lineOp (s.me.reg rs1) true true nb)

def execLc (rd : BitVec 4) (c8 : BitVec 8) (nb : BitVec 1) (s : State) : Host.Outcome State Fault Refusal :=
  .next ((s.modMe (fun t => t.setReg rd (s.constWord t.core c8.toNat))).complete nb .rdy)

end Sys2Proof.Machine
end

