-- ==== Sys2Proof/Machine/Quoin.lean ====
section
/-! DEFINITION. The quoin instructions (R302 to R310). -/

namespace Sys2Proof.Machine

open Sys2Proof

/-- Reaching a quoin at its home: the address checks of the entries, and the access to its page, an auto-retry wait
whatever nb holds (R299). Either the instruction has ended or waits, or the quoin is met at its physical address: its key,
and the core beside its home. -/
def State.reachQuoin (s : State) (ea : Word) (write : Bool) (nb : BitVec 1) : State ⊕ (State × Nat × Nat) :=
  let ctx := s.myCtx
  if ea.toNat % 32 ≠ 0 then .inl (s.trapMe .access ea 0)
  else if inWindows ea then .inl (s.complete nb .denied)
  else if !inPaged ea.toNat then .inl (s.trapMe .access ea 0)
  else
    match s.translate ea .translation write with
    | .absent s =>
      .inl ((s.openFault ctx ea.toNat (if write then 2 else 1) s.myCore).notReady 0 .faulted
        (.fault ctx (pageOf ea.toNat) (some ea)))
    | .wait (.stop s c w) => .inl (s.notReady 0 c w)
    | .wait _ => .inl s
    | .held s e =>
      let p := e.pte.toNat
      let pa := leafPa e.level p ea.toNat
      if paClass pa = .device ∨ !pteR p ∨ !pteW p then .inl (s.trapMe .access ea 0)
      else if !pteT p then .inl ((s.endOp ea).complete nb .denied)
      else if write && pteMG p then .inl (s.notReady 0 .nr (.thaw ctx (pageOf ea.toNat)))
      else if write && !pteD p then
        match State.stopClaim (s.claim ea .translation true 0 .walking false 0) ea
            (fun s => s.missQueue s.myCore s.cur ctx ea true 2) with
        | .stop s c w => .inl (s.notReady 0 c w)
        | _ => .inl s
      else
        let s := s.endOp ea
        if write && !s.quiet (pa / 128) then .inl (s.notReady 0 .nr (.lineQuiet (pa / 128)))
        else .inr (s.meetQuoin (s.quoinKey ctx ea pa) ctx pa ea, s.quoinKey ctx ea pa, e.home (pa / 128))

/-- VA[54:5] of a quoin (R293). -/
def quoinField (ea : Word) : Nat := ea.toNat % 2 ^ 55 / 32

def execQinit (rs1 : BitVec 4) (nb : BitVec 1) (s : State) : Host.Outcome State Fault Refusal :=
  let ea := s.me.reg rs1
  match s.reachQuoin ea true nb with
  | .inl s => .next s
  | .inr (s, key, _) =>
    let q := s.quoin key
    if q.places ≠ [] then .next ((s.rewriteQuoin key).complete nb .denied)
    else .next (((s.setQuoin key { q with die := 0, grants := 0, skips := 0 }).rewriteQuoin key).completeP nb .rdy)

/-- The test of a place (R305). -/
def State.testPlace (s : State) (h : Word) (nb : BitVec 1) : State :=
  match s.checkHandle h true with
  | .fail c => s.completeP nb c
  | .ok d e =>
    let s := s.rewriteQuoin (s.place d e).key
    if (s.place d e).st = .granted then (s.acquireStep s.myCore 2).completeP nb .rdy
    else s.notReady nb .nr (.grant d e)

/-- NRX: the thread joins the table queue of a die, keeping its place there; with nb = 1 it is parked where a runnable
thread is parked for its core (R298). Where the park area is full, that thread takes the slot in the same step, and the
parking is left out where this would not free an entry (log 21). -/
def State.tableFull (s : State) (d quoin : Nat) (nb : BitVec 1) : State :=
  let u := s.cur
  let c := s.myCore
  let put (l : List (Nat × Nat)) : List (Nat × Nat) :=
    if l.any (fun x => decide (x.1 = u)) then l.map (fun x => if x.1 = u then (u, quoin) else x) else l ++ [(u, quoin)]
  let s := s.modDie d (fun k => { k with tableQ := put k.tableQ })
  let s := s.notReady nb .nrx (.tableEntry d)
  let room := s.parkFree s.myCtx
  let next := leastBy (fun v => (s.thr v).wokenAt) (s.runnables c)
  let same : Bool := match next with | some v => decide (s.ctxOf v = s.myCtx) | none => false
  if nb = 1 ∧ next.isSome ∧ (room ∨ same) then
    let s := (s.leaveSlot u).modThr u (fun t => { t with st := .parked, runnable := false })
    if room then s else (s.swapIn c).getD s
  else s

/-- A place is linked for the thread in execution (R304). -/
def State.linkPlace (s : State) (rd : BitVec 4) (ea : Word) (key d e : Nat) (nb : BitVec 1) : State :=
  let q := s.quoin key
  let p := s.place d e
  let h := handleOf p.gen d e ea.toNat
  let first := decide (q.places = [])
  let s := s.setPlace d e { st := (if first then .granted else .waiting), gen := p.gen, owner := some s.cur,
                            ctx := s.myCtx, quoin := quoinField ea, key := key }
  let q := { q with die := d, places := q.places ++ [e], grants := (q.grants + (if first then 1 else 0)) % 2 ^ 64 }
  let s := s.setQuoin key q
  let s := (s.rewriteQuoin key).modMe (fun t => t.setReg rd h)
  if first then (s.acquireStep s.myCore 2).completeP nb .rdy
  else
    let s := if nb = 0 then s.modMe (fun t => { t with linked := some (t.pc, h) }) else s
    s.notReady nb .nr (.grant d e)

def execQacq (rd rs1 : BitVec 4) (nb : BitVec 1) (s : State) : Host.Outcome State Fault Refusal :=
  let ea := s.me.reg rs1
  match (if nb = 0 then s.me.linked.filter (fun x => decide (x.1 = s.me.pc)) else none) with
  | some (pc, h) =>
    let s := s.testPlace h nb
    .next (if s.me.pc = pc then s else s.modMe (fun t => { t with linked := none }))
  | none =>
    match s.reachQuoin ea true nb with
    | .inl s => .next s
    | .inr (s, key, home) =>
      let q := s.quoin key
      let d := if q.places = [] then coreDie home else q.die
      let k := s.die d
      let u := s.cur
      let mine := k.tableRes.any (fun x => decide (x.uid = u ∧ x.quoin = quoinField ea))
      if !mine && decide (placeCount ≤ k.usedPlaces + k.tableRes.length) then
        .next ((s.rewriteQuoin key).tableFull d (quoinField ea) nb)
      else
        match firstFree (fun e => decide ((s.place d e).st = .free)) 0 placeCount with
        | none => .next ((s.rewriteQuoin key).tableFull d (quoinField ea) nb)
        | some e =>
          let s := s.setDie d { k with tableQ := k.tableQ.filter (fun x => decide (x.1 ≠ u)),
                                       tableRes := k.tableRes.filter (fun x => decide (¬ (x.uid = u ∧ x.quoin = quoinField ea))) }
          .next (s.linkPlace rd ea key d e nb)

def execQwait (rs1 : BitVec 4) (nb : BitVec 1) (s : State) : Host.Outcome State Fault Refusal :=
  .next (s.testPlace (s.me.reg rs1) nb)

def execQgive (rs1 rs2 : BitVec 4) (nb : BitVec 1) (s : State) : Host.Outcome State Fault Refusal :=
  let h := s.me.reg rs1
  let a := s.me.reg rs2
  match s.checkHandle h true with
  | .fail c => .next (s.completeP nb c)
  | .ok d e =>
    match s.mailDest a with
    | none => .next ((s.rewriteQuoin (s.place d e).key).complete nb .denied)
    | some dest =>
      let (s, ok) := s.releaseStep 2
      if !ok then .next (s.notReady nb .nr (.release 2))
      else
        match s.outbound a dest with
        | .stop s c w => .next (s.notReady nb c w)
        | .ok s _ =>
          let p := s.place d e
          let s := ((s.setPlace d e { p with owner := some dest }).queueMail dest h 1).endOp a
          .next (((s.rewriteQuoin p.key).modMe Thread.released).completeP nb .rdy)
        | _ => .next s

/-- An operation that changes the words of a quoin: their rewrite is part of it, so that it waits, whatever nb holds, while
something stands against a write of their line (R90, R291). -/
def State.withWords (s : State) (key : Nat) (f : State → State) : State :=
  match s.quoinBusy key with
  | some line => s.notReady 0 .nr (.lineQuiet line)
  | none => f s

def execQswap (rs1 rs2 : BitVec 4) (nb : BitVec 1) (s : State) : Host.Outcome State Fault Refusal :=
  match s.checkHandle (s.me.reg rs1) true with
  | .fail c => .next (s.completeP nb c)
  | .ok d a =>
    match s.checkHandle (s.me.reg rs2) true with
    | .fail c => .next (s.completeP nb c)
    | .ok d' b =>
      let p := s.place d a
      let r := s.place d' b
      if d = d' ∧ a = b then .next ((s.rewriteQuoin p.key).completeP nb .rdy)
      else if p.quoin ≠ r.quoin ∨ p.key ≠ r.key ∨ p.st = .granted ∨ r.st = .granted then
        .next (((s.rewriteQuoin p.key).rewriteQuoin r.key).complete nb .denied)
      else
        .next (s.withWords p.key (fun s =>
          let q := s.quoin p.key
          let s := s.setQuoin p.key { q with
            places := q.places.map (fun e => if e = a then b else if e = b then a else e) }
          (s.rewriteQuoin p.key).completeP nb .rdy))

def execQdrop (rs1 : BitVec 4) (nb : BitVec 1) (s : State) : Host.Outcome State Fault Refusal :=
  match s.checkHandle (s.me.reg rs1) true with
  | .fail c => .next (s.completeP nb c)
  | .ok d e =>
    if (s.place d e).st = .granted then .next ((s.rewriteQuoin (s.place d e).key).complete nb .denied)
    else .next ((s.dropPlace d e).completeP nb .rdy)

def execQrel (rs1 : BitVec 4) (nb : BitVec 1) (s : State) : Host.Outcome State Fault Refusal :=
  match s.checkHandle (s.me.reg rs1) true with
  | .fail c => .next (s.completeP nb c)
  | .ok d e =>
    if (s.place d e).st ≠ .granted then .next ((s.rewriteQuoin (s.place d e).key).complete nb .denied)
    else
      let (s, ok) := s.releaseStep 2
      if !ok then .next (s.notReady nb .nr (.release 2))
      else .next (s.withWords (s.place d e).key (fun s => ((s.releasePlace d e).modMe Thread.released).completeP nb .rdy))

/-- What `qstat` reads of a place (R310). -/
def State.placeStatus (s : State) (d e : Nat) : Word :=
  let p := s.place d e
  let code := match p.st with | .granted => 1 | .dropped => 2 | _ => 0
  let ahead := if p.st = .waiting then
      ((((s.quoin p.key).places.takeWhile (fun x => decide (x ≠ e))).filter
        (fun x => decide ((s.place d x).st = .waiting))).length)
    else 0
  BitVec.ofNat 64 (p.gen * 2 ^ 48 + code * 2 ^ 46 + (if p.owner = some s.cur then 2 ^ 45 else 0) + e * 2 ^ 32 + ahead)

def execQstat (rd rs1 : BitVec 4) (nb : BitVec 1) (s : State) : Host.Outcome State Fault Refusal :=
  let v := s.me.reg rs1
  if v.getLsbD 45 then
    match s.checkHandle v false with
    | .fail c => .next (s.completeP nb c)
    | .ok d e =>
      .next (((s.rewriteQuoin (s.place d e).key).modMe (fun t => t.setReg rd (s.placeStatus d e))).completeP nb .rdy)
  else
    match s.reachQuoin v false nb with
    | .inl s => .next s
    | .inr (s, key, _) =>
      let s := s.rewriteQuoin key
      .next ((s.modMe (fun t => t.setReg rd (s.quoinWord0 (s.quoin key)))).completeP nb .rdy)

end Sys2Proof.Machine
end

