-- ==== Sys2Proof/Machine/Thread.lean ====
section
/-! DEFINITION. The instructions that act on the thread alone (R96 to R107), and the events of slots, the park area,
messages and trap records (R85, R91, R94, R110, R358). -/

namespace Sys2Proof.Machine

open Sys2Proof

/-! ## Branch on the outcome (R100) -/

/-- The test of a cond4 (R35). -/
def condTest (cond oc : Nat) : Bool :=
  if cond < 14 then decide (oc = cond) else if cond = 14 then decide (oc = 1 ∨ oc = 2) else decide (oc ≠ 0)

def execBo (off : BitVec 12) (cond : BitVec 4) (s : State) : Host.Outcome State Fault Refusal :=
  let go := condTest cond.toNat s.me.oc.toNat
  .next (s.modMe (fun t => { t with pc := t.pc + (if go then fusedOff off else 4), instret := t.instret + 1 }))

/-! ## Waits (R97 to R99) -/

/-- A completion of a wait instruction that leaves the armed wake as it is. -/
def State.endYield (s : State) (c : OCode) : State :=
  let s := s.modMe (fun t => { t with oc := BitVec.ofNat 4 c.code }.retire)
  if c = .rdy then s else s.countMe (0x1000 + c.code)

/-- `yield` (n = 1) and `yield.n` (R97, R98). -/
def State.yieldOp (s : State) (n : Nat) : State :=
  let t := s.me
  if t.movedPending then (s.modMe (fun t => { t with movedPending := false })).endYield .moved
  else
    match t.wake with
    | none => s.endYield .rdy
    | some w =>
      if (if w.cond.repeats then n else 1) ≤ w.fired then (s.modMe (fun t => { t with wake := none })).endYield .rdy
      else { s with wakeSeq := s.wakeSeq + 1 }.modMe (fun t => { t with
        st := .waiting, wait := .yield s.gtick n, waitFrom := s.wakeSeq })

def execYield (s : State) : Host.Outcome State Fault Refusal := .next (s.yieldOp 1)

def execYieldN (rs1 : BitVec 4) (s : State) : Host.Outcome State Fault Refusal :=
  .next (s.yieldOp (max 1 ((s.me.reg rs1).toNat % 2 ^ 32)))

def execSleep (rs1 : BitVec 4) (s : State) : Host.Outcome State Fault Refusal :=
  let n := min (s.me.reg rs1).toNat 0xFFFFFFFFFFFF
  if n = 0 then
    if s.me.movedPending then .next ((s.modMe (fun t => { t with movedPending := false })).endYield .moved)
    else .next (s.endYield .rdy)
  else
    .next ({ s with wakeSeq := s.wakeSeq + 1 }.modMe (fun t => { t with
      st := .waiting, wait := .sleep (s.gtick + n), waitFrom := s.wakeSeq }))

/-! ## Threads of the group (R101, R102) -/

/-- The mailbox index of a new thread of a group: the lowest free one at or above threads per group (R93). Where only lower
ones are free there is none to take (R101, log 53). -/
def State.freeIndex (s : State) (gid : Nat) : Option Nat :=
  let g := s.grp gid
  firstFree (fun i => (s.mailUid gid i).isNone) g.tpg (256 - g.tpg)

/-- The thread number of a spawned thread: the lowest at or above the floor that no live thread of the kernel holds
(R77). -/
def State.spawnNumber (s : State) (kid : Nat) : Nat :=
  let live := s.threads.filter (fun x => decide (x.2.st ≠ .exited ∧ (s.grp x.2.gid).kid = kid))
  (firstFree (fun n => !live.any (fun x => decide (x.2.thrid % 2 ^ 32 = n))) (s.ker kid).spawned
    (live.length + 1)).getD 0

/-- A new thread of the caller's group, on the caller's core, READY in a slot or PARKED runnable (R101). -/
def State.spawn (s : State) (pc arg : Word) (idx : Nat) (slot : Option Nat) : State :=
  let t := s.me
  let kid := s.myGrp.kid
  let u := s.nextUid
  let n : Thread := { Thread.fresh with
    st := (if slot.isSome then .ready else .parked), runnable := slot.isNone, wokenAt := s.wakeSeq, core := t.core,
    slot := slot, slotFrom := s.now (coreDie t.core), gid := t.gid, index := idx, rank := t.rank,
    thrid := kid % 2 ^ 16 * 2 ^ 32 + s.spawnNumber kid, pc := pc, agent := s.newAgent s.myCtx u, epoch := t.epoch }
  State.setThr { s with nextUid := u + 1, wakeSeq := s.wakeSeq + 1 } u (n.setReg 10 arg)

def execThrSpawn (rd rs1 rs2 : BitVec 4) (nb : BitVec 1) (s : State) : Host.Outcome State Fault Refusal :=
  let pc := s.me.reg rs1
  let slot := s.freeSlot s.myCore
  match s.freeIndex s.me.gid with
  | none => .next (s.complete nb .denied)
  | some idx =>
    if pc.toNat % 4 ≠ 0 then .next (s.complete nb .denied)
    else if slot.isNone && !s.parkFree s.myCtx then .next (s.notReady nb .full (.park s.myCtx))
    else
      let (s, ok) := s.releaseStep 0
      if !ok then .next (s.notReady nb .nr (.release 0))
      else
        let id := s.nextUid
        let s := s.spawn pc (s.me.reg rs2) idx slot
        let v := BitVec.ofNat 64 ((s.thr id).thrid % 2 ^ 32 * 2 ^ 32 + idx)
        .next ((s.modMe (fun t => (t.setReg rd v).released)).completeP nb .rdy)

def execThrExit (s : State) : Host.Outcome State Fault Refusal :=
  let (s, ok) := s.releaseStep 2
  if !ok then .next (s.notReady 0 .nr (.release 2))
  else .next ((s.modMe (fun t => t.released.retire)).endThread s.cur)

/-! ## Moving to a home (R103) -/

/-- A move to a target core, or the reason why none is made. -/
def State.goTo (s : State) (ea : Word) (target : Nat) : State :=
  let t := s.me
  let g := s.myGrp
  if target = t.core then (s.endOp ea).completeP 1 .rdy
  else if t.dirty || !g.forme || coreForme target ≠ coreForme t.core || !g.cores.contains target then
    (s.endOp ea).complete 1 .denied
  else
    let s := (s.endAllClaims s.cur).leaveSlot s.cur
    (s.modMe (fun t => { t with st := .migrating, target := target, wake := none, oc := 9 }.retire)).countMe 0x1009

def execGo (rs1 : BitVec 4) (s : State) : Host.Outcome State Fault Refusal :=
  let ea := s.me.reg rs1
  match s.span s.cur ea 1 false with
  | .access | .window => .next (s.trapMe .access ea 0)
  | .lm b => .next (s.goTo ea (b / 0x40000))
  | .paged =>
    match s.translate ea .translation false with
    | .absent s =>
      .next ((s.openFault s.myCtx ea.toNat 1 s.myCore).notReady 1 .faulted (.fault s.myCtx (pageOf ea.toNat) none))
    | .wait (.stop s c w) => .next (s.notReady 1 c w)
    | .wait _ => .next s
    | .held s e =>
      let p := e.pte.toNat
      let pa := leafPa e.level p ea.toNat
      if paClass pa = .device ∨ !pteR p then .next (s.trapMe .access ea 0)
      else if !pteT p then .next ((s.endOp ea).complete 1 .denied)
      else .next (s.goTo ea (e.home (pa / 128)))

/-! ## Messages (R104 to R106) -/

/-- `msend` (R104): the release step comes before the test of the outbound queue (log 53). -/
def execMsend (rs1 rs2 : BitVec 4) (nb : BitVec 1) (s : State) : Host.Outcome State Fault Refusal :=
  let a := s.me.reg rs1
  match s.mailDest a with
  | none => .next (s.complete nb .denied)
  | some dest =>
    let (s, ok) := s.releaseStep 1
    if !ok then .next (s.notReady nb .nr (.release 1))
    else
      match s.outbound a dest with
      | .stop s c w => .next (s.notReady nb c w)
      | .ok s _ =>
        .next ((((s.queueMail dest (s.me.reg rs2) 0).endOp a).modMe Thread.released).completeP nb .rdy)
      | _ => .next s

def execMrecv (rd : BitVec 4) (nb : BitVec 1) (s : State) : Host.Outcome State Fault Refusal :=
  let u := s.cur
  match (s.core s.myCore).mail.find? (fun m => decide (m.dest = u)) with
  | none => .next (s.notReady nb .empty .mail)
  | some m =>
    let s := s.modCore s.myCore (fun k => { k with mail := k.mail.eraseP (fun m => decide (m.dest = u)) })
    let s := s.modMe (fun t => { t.setReg rd m.payload with last := some (m.src, m.kind) })
    .next ((s.acquireStep s.myCore 1).completeP nb .rdy)

def execMfrom (rd : BitVec 4) (nb : BitVec 1) (s : State) : Host.Outcome State Fault Refusal :=
  let v : Word := match s.me.last with
    | some (src, kind) => BitVec.ofNat 64 (src + 256 * kind)
    | none => BitVec.allOnes 64
  .next ((s.modMe (fun t => t.setReg rd v)).completeP nb .rdy)

/-! ## The trace (R107) -/

def execMark (rs1 : BitVec 4) (nb : BitVec 1) (s : State) : Host.Outcome State Fault Refusal :=
  let t := s.me
  let c := t.core
  if !s.traced s.myCtx (coreDie c) then .next (s.completeP nb .rdy)
  else if (s.core c).trace.length < 32 then
    let r : TraceRec := { tick := s.gtick, kind := 1, ctx := s.myCtx, core := c, slot := t.slot.getD 0, index := t.index,
                          pc := t.pc, value := t.reg rs1 }
    .next ((s.modCore c (fun k => { k with trace := k.trace ++ [r] })).completeP nb .rdy)
  else
    let s := if nb = 1 then s.countMe 0x1013 else s
    .next (s.notReady nb .full (.trace c))

/-! ## Events of waits (R85, R97, R99) -/

/-- HOLD_WINDOW_CLOSE: a claim (kind 0), a reserved claim (1) or a reserved place-table entry (2) of a thread on a core
ends or passes on when its window closes (R85, R87, R298). -/
def execHoldWindowClose (kind core uid : Nat) (s : State) : Host.Outcome State Fault Refusal :=
  let now := s.now (coreDie core)
  let k := s.core core
  let late (x : Claim) : Bool := decide (x.uid = uid) && x.opened && decide (x.closes ≤ now)
  let due (x : Hold) : Bool := decide (x.op.uid = uid ∧ x.closes ≤ now) && x.opened
  let lapsed (x : TableHold) : Bool := decide (x.uid = uid ∧ x.closes ≤ now) && x.opened
  if kind = 0 ∧ k.claims.any late then .next (s.endClaims core late)
  else if kind = 1 ∧ k.reserved.any due then
    .next ((s.setCore core { k with reserved := k.reserved.filter (fun x => !due x) }).serveBudget core)
  else
    match [0, 1, 2, 3].find? (fun d => (s.die d).tableRes.any lapsed) with
    | some d =>
      if kind = 2 ∧ (s.thr uid).core = core then
        .next ((s.modDie d (fun x => { x with tableRes := x.tableRes.filter (fun y => !lapsed y) })).serveTable d)
      else notEnabled "HOLD_WINDOW_CLOSE"
    | none => notEnabled "HOLD_WINDOW_CLOSE"

/-- Whether a thread stands in a wait that time may end. -/
def Thread.waits (t : Thread) : Bool := !t.saved && (decide (t.st = .waiting) || decide (t.st = .parked))

/-- A wait of a thread ends with an outcome. -/
def State.endWaitOf (s : State) (u : Nat) (c : OCode) : State :=
  let t := s.thr u
  let s := { s with wakeSeq := s.wakeSeq + 1 }.modThr u (fun t => t.endWait s.wakeSeq c)
  if c = .rdy then s else s.count t.core (s.ctxOf u) (0x1000 + c.code) 1

/-- YIELD_TIMEOUT: the wake stays armed and the claims run on (R97). -/
def execYieldTimeout (uid : Nat) (s : State) : Host.Outcome State Fault Refusal :=
  let t := s.thr uid
  match t.wait with
  | .yield t0 _ =>
    if t.waits && decide (t.yldlim ≠ 0) && decide (t.yldlim.toNat ≤ (s.gtick + 2 ^ 64 - t0) % 2 ^ 64) then
      .next (s.endWaitOf uid .timeout)
    else notEnabled "YIELD_TIMEOUT"
  | _ => notEnabled "YIELD_TIMEOUT"

/-- SLEEP_END (R99). -/
def execSleepEnd (uid : Nat) (s : State) : Host.Outcome State Fault Refusal :=
  let t := s.thr uid
  match t.wait with
  | .sleep e =>
    if t.waits && decide (e ≤ s.gtick) then
      if t.movedPending then
        .next ((s.modThr uid (fun t => { t with movedPending := false })).endWaitOf uid .moved)
      else .next (s.endWaitOf uid .rdy)
    else notEnabled "SLEEP_END"
  | _ => notEnabled "SLEEP_END"

/-! ## Events of slots (R91, R103) -/

def execSwapIn (core : Nat) (s : State) : Host.Outcome State Fault Refusal :=
  match s.swapIn core with
  | some s => .next s
  | none => notEnabled "SWAP_IN"

/-- SWAP_OUT: the WAITING thread that has waited longest goes to the park area, where no slot is EMPTY and a runnable
thread is parked for the core. Where the park area has no free entry, the runnable thread takes the slot in the same
step, so that the entries in use never pass the area's size. -/
def execSwapOut (core : Nat) (s : State) : Host.Outcome State Fault Refusal :=
  let waiting := (s.threads.filter (fun x => decide (x.2.core = core ∧ x.2.st = .waiting) && x.2.slot.isSome &&
    !x.2.saved)).map (·.1)
  match leastBy (fun u => (s.thr u).waitFrom) waiting with
  | some u =>
    if (s.freeSlot core).isNone ∧ s.runnables core ≠ [] then
      let full := !s.parkFree (s.ctxOf u)
      let s := (s.leaveSlot u).modThr u (fun t => { t with st := .parked, runnable := false })
      let s := s.count core (s.ctxOf u) 0x1011 1
      if full then .next ((s.swapIn core).getD s) else .next s
    else notEnabled "SWAP_OUT"
  | none => notEnabled "SWAP_OUT"

/-- A discarded side-log entry traps a thread that arrives PARKED (R279). -/
def State.parkTrap (s : State) (u : Nat) : State :=
  match (s.thr u).late with
  | l :: _ => (s.modThr u (fun t => { t with late := t.late.drop 1 })).trap u l.cls (s.thr u).pc l.va l.extra (s.nextWord u)
  | [] => s

/-- MIGRATION_ARRIVAL: with its mailbox entries in order, in an EMPTY slot or PARKED runnable (R91, R95, R103). -/
def execMigrationArrival (uid : Nat) (s : State) : Host.Outcome State Fault Refusal :=
  let t := s.thr uid
  let c := t.target
  let mine := (s.core t.core).mail.filter (fun m => decide (m.dest = uid))
  let slot := s.freeSlot c
  if t.st = .migrating ∧ mine.length + (s.core c).mail.length ≤ 32 ∧ (slot.isSome ∨ s.parkFree (s.ctxOf uid)) then
    let s := s.modCore t.core (fun k => { k with mail := k.mail.filter (fun m => decide (m.dest ≠ uid)) })
    let s := s.modCore c (fun k => { k with mail := k.mail ++ mine })
    let rank := (s.grp t.gid).cores.findIdx (fun x => decide (x = c))
    let s := { s with wakeSeq := s.wakeSeq + 1 }.modThr uid (fun t => { t with
      core := c, rank := rank, moves := t.moves + 1, wokenAt := s.wakeSeq
      trail := (t.trail ++ [t.core]).dedup.filter (fun x => decide (x ≠ c)) })
    match slot with
    | some k => .next ((s.takeSlot uid k).modThr uid (fun t => { t with st := .ready }))
    | none => .next ((s.modThr uid (fun t => { t with st := .parked, runnable := true })).parkTrap uid)
  else notEnabled "MIGRATION_ARRIVAL"

/-! ## Events of messages (R94, R95, R361) -/

/-- MAILBOX_FLIT: message `k` of a core's outbound queue reaches the core it was sent to. -/
def execMailboxFlit (core k : Nat) (s : State) : Host.Outcome State Fault Refusal :=
  match (s.core core).outq[k]? with
  | none => notEnabled "MAILBOX_FLIT"
  | some m =>
    let t := s.thr m.dest
    let to' (s : State) (st : OutSt) : State := s.modCore core (fun q => q.setOut k st)
    let accepted (s : State) : State :=
      (to' s .accepted).fireIf (fun _ _ w => match w with
        | .outbound c d => decide (c = core ∧ (s.thr d).core = m.core)
        | _ => false)
    if m.st ≠ .flying ∨ (s.core core).earlierOut k m.dest then notEnabled "MAILBOX_FLIT"
    else if t.st = .exited then .next ((accepted s).count m.core (s.ctxOf m.dest) 0x1012 1)
    else if s.asleep t.gid ∨ t.st = .migrating ∨ t.core ≠ m.core ∨ 32 ≤ (s.core m.core).mail.length ∨ s.earlierMail m then
      .next (to' s .nacked)
    else
      let e : Mail := { gid := m.gid, dest := m.dest, src := m.src, kind := m.kind, payload := m.payload }
      let s := s.modCore m.core (fun q => { q with mail := q.mail ++ [e] })
      .next ((accepted s).fireOf m.dest .mail)

/-- MESSAGE_ACK: the entry is freed (R94). -/
def execMessageAck (core k : Nat) (s : State) : Host.Outcome State Fault Refusal :=
  match (s.core core).outq[k]? with
  | some m =>
    if m.st = .accepted then
      .next ((s.modCore core (fun q => { q with outq := q.outq.eraseIdx k })).serveEntry core .outbound)
    else notEnabled "MESSAGE_ACK"
  | none => notEnabled "MESSAGE_ACK"

/-- MESSAGE_NACK: the message and every later one to the same thread are to be sent again after the back-off, to the
core that the NACK names (R94, R95). -/
def execMessageNack (core k : Nat) (s : State) : Host.Outcome State Fault Refusal :=
  match (s.core core).outq[k]? with
  | some m =>
    if m.st = .nacked then
      let d := s.thr m.dest
      let due := s.now (coreDie core) + (s.die (coreDie core)).backoff
      let place := if d.st = .migrating then d.target else d.core
      let again (x : OutMsg) : OutMsg :=
        if x.dest = m.dest ∧ x.st ≠ .accepted then { x with st := .replay due, core := place } else x
      .next (s.modCore core (fun q => { q with outq := q.outq.take k ++ (q.outq.drop k).map again }))
    else notEnabled "MESSAGE_NACK"
  | none => notEnabled "MESSAGE_NACK"

/-- MESSAGE_REPLAY: the messages whose back-off has run out are sent again (R94). -/
def execMessageReplay (core k : Nat) (s : State) : Host.Outcome State Fault Refusal :=
  match (s.core core).outq[k]? with
  | some m =>
    let now := s.now (coreDie core)
    let due (x : OutMsg) : Bool := match x.st with | .replay t => decide (t ≤ now ∧ x.dest = m.dest) | _ => false
    if due m then
      .next (s.modCore core (fun q => { q with outq := q.outq.map (fun x => if due x then { x with st := .flying } else x) }))
    else notEnabled "MESSAGE_REPLAY"
  | none => notEnabled "MESSAGE_REPLAY"

/-! ## Events of traps (R110, R358) -/

/-- TRAP_RECORD_WRITE: the oldest held record of a context is written once the ring has room. -/
def execTrapRecordWrite (ctx : Nat) (s : State) : Host.Outcome State Fault Refusal :=
  match s.writeTrap ctx with
  | some s => .next s
  | none => notEnabled "TRAP_RECORD_WRITE"

/-- WATCHDOG_EXPIRY: the counter has reached its limit, and the tick ends with no progress of the group (R358). -/
def execWatchdogExpiry (gid : Nat) (s : State) : Host.Outcome State Fault Refusal :=
  if s.watchdogDue gid then .next (s.endTicks 1).1 else notEnabled "WATCHDOG_EXPIRY"

end Sys2Proof.Machine
end

