-- ==== Sys2Proof/Machine/Vector.lean ====
section
/-! DEFINITION. The vector instructions (R183 to R211). -/

namespace Sys2Proof.Machine

open Sys2Proof

/-! ## Lanes (R184, R185) -/

/-- Lane `k` of width `w`. -/
def laneGet (r : BitVec 512) (w k : Nat) : Nat := r.toNat / 2 ^ (w * k) % 2 ^ w

def laneSet (r : BitVec 512) (w k v : Nat) : BitVec 512 :=
  BitVec.ofNat 512 (r.toNat % 2 ^ (w * k) + 2 ^ (w * k) * (v % 2 ^ w) + 2 ^ (w * (k + 1)) * (r.toNat / 2 ^ (w * (k + 1))))

/-- The first `n` lanes of a register replaced where they are active, with the flags raised. -/
def mapLanes (w : Nat) (active : Nat → Bool) (f : Nat → Nat × BitVec 5) (old : BitVec 512) : Nat → BitVec 512 × BitVec 5
  | 0 => (old, 0)
  | n + 1 =>
    let r := mapLanes w active f old n
    if active n then (laneSet r.1 w n (f n).1, r.2 ||| (f n).2) else r

/-- Whether lane `k` is active (R185). -/
def Thread.active (t : Thread) (m : BitVec 1) (k : Nat) : Bool := decide (m = 0) || t.vmask.getLsbD k

/-- The first `c` lanes of vd of width `w` computed by `f`; `rounds` says that the instruction rounds (R190). -/
def Thread.lanes (t : Thread) (vd : BitVec 3) (w c : Nat) (m : BitVec 1) (rounds : Bool) (f : Nat → Nat × BitVec 5) :
    Thread :=
  let r := mapLanes w (t.active m) f (t.vreg vd) c
  ((t.setVreg vd r.1).raiseFlags r.2).stepPhase (rounds && (List.range c).any (t.active m))

def isFloat (et : Nat) : Bool := decide (4 ≤ et)

/-- A lanewise instruction: `fi` on the integers of width `w`, `ff` on floating values, rounded once. The operands
are lanes of vs1, vs2 and vd. -/
def Thread.arith (t : Thread) (vd vs1 vs2 : BitVec 3) (et : BitVec 3) (m : BitVec 1)
    (fi : Nat → Nat → Nat → Nat → Nat) (ff : Fmt → Rnd → Nat → Nat → Nat → Nat × BitVec 5) (rounds : Bool) : Thread :=
  let w := (etType et.toNat).width
  t.lanes vd w (512 / w) m (rounds && isFloat et.toNat) (fun k =>
    let a := laneGet (t.vreg vs1) w k
    let b := laneGet (t.vreg vs2) w k
    let c := laneGet (t.vreg vd) w k
    match etType et.toNat with
    | .int _ w => (fi w a b c, 0)
    | .flt f => ff f (t.rnd k) a b c)

/-- An exact function of values, rounded once (R190). -/
def once (g : Nat → FVal → FVal → FVal → Exact) (f : Fmt) (rd : Rnd) (a b c : Nat) : Nat × BitVec 5 :=
  deliver f rd (g rd.mode (fdecode f a) (fdecode f b) (fdecode f c))

/-- No floating form: the encoding refuses the types (R43). -/
def noFloat (_ : Fmt) (_ : Rnd) (_ _ _ : Nat) : Nat × BitVec 5 := (0, 0)
def noInt (_ _ _ _ : Nat) : Nat := 0

/-! ## Arithmetic (R190 to R196) -/

def execVadd (vd vs1 vs2 et : BitVec 3) (m : BitVec 1) (s : State) : Host.Outcome State Fault Refusal :=
  .next (s.plain (fun t => t.arith vd vs1 vs2 et m (fun _ a b _ => a + b) (once (fun md a b _ => exactSum md [a, b])) true))
def execVsub (vd vs1 vs2 et : BitVec 3) (m : BitVec 1) (s : State) : Host.Outcome State Fault Refusal :=
  .next (s.plain (fun t => t.arith vd vs1 vs2 et m (fun w a b _ => a + (2 ^ w - b))
    (once (fun md a b _ => exactSum md [a, b.negate])) true))
def execVmul (vd vs1 vs2 et : BitVec 3) (m : BitVec 1) (s : State) : Host.Outcome State Fault Refusal :=
  .next (s.plain (fun t => t.arith vd vs1 vs2 et m (fun _ a b _ => a * b) (once (fun _ a b _ => exactMul a b)) true))
def execVfma (vd vs1 vs2 et : BitVec 3) (m : BitVec 1) (s : State) : Host.Outcome State Fault Refusal :=
  .next (s.plain (fun t => t.arith vd vs1 vs2 et m (fun _ a b c => a * b + c)
    (once (fun md a b c => exactFma md a b c)) true))
def execVdiv (vd vs1 vs2 et : BitVec 3) (m : BitVec 1) (s : State) : Host.Outcome State Fault Refusal :=
  .next (s.plain (fun t => t.arith vd vs1 vs2 et m noInt (once (fun _ a b _ => exactDiv a b)) true))
def execVsqrt (vd vs1 et : BitVec 3) (m : BitVec 1) (s : State) : Host.Outcome State Fault Refusal :=
  .next (s.plain (fun t => t.arith vd vs1 vs1 et m noInt (once (fun _ a _ _ => exactSqrt a)) true))

def execVminu (vd vs1 vs2 et : BitVec 3) (m : BitVec 1) (s : State) : Host.Outcome State Fault Refusal :=
  .next (s.plain (fun t => t.arith vd vs1 vs2 et m (fun _ a b _ => min a b) noFloat false))
def execVmaxu (vd vs1 vs2 et : BitVec 3) (m : BitVec 1) (s : State) : Host.Outcome State Fault Refusal :=
  .next (s.plain (fun t => t.arith vd vs1 vs2 et m (fun _ a b _ => max a b) noFloat false))
def execVmin (vd vs1 vs2 et : BitVec 3) (m : BitVec 1) (s : State) : Host.Outcome State Fault Refusal :=
  .next (s.plain (fun t => t.arith vd vs1 vs2 et m (fun w a b _ => if toInt true w b < toInt true w a then b else a)
    (fun f _ a b _ => fminmax f false a b) false))
def execVmax (vd vs1 vs2 et : BitVec 3) (m : BitVec 1) (s : State) : Host.Outcome State Fault Refusal :=
  .next (s.plain (fun t => t.arith vd vs1 vs2 et m (fun w a b _ => if toInt true w a < toInt true w b then b else a)
    (fun f _ a b _ => fminmax f true a b) false))

/-- A sign-bit operation on a floating lane: a NaN gives the canonical NaN (R194). -/
def signOp (g : Fmt → Nat → Nat) (f : Fmt) (_ : Rnd) (a _ _ : Nat) : Nat × BitVec 5 :=
  let x := fdecode f a
  if x.isNan then (f.nan, sigFlag x) else (g f a, 0)

def execVabs (vd vs1 et : BitVec 3) (m : BitVec 1) (s : State) : Host.Outcome State Fault Refusal :=
  .next (s.plain (fun t => t.arith vd vs1 vs1 et m (fun w a _ _ => if toInt true w a < 0 then 2 ^ w - a else a)
    (signOp (fun f a => a % f.sign)) false))
def execVneg (vd vs1 et : BitVec 3) (m : BitVec 1) (s : State) : Host.Outcome State Fault Refusal :=
  .next (s.plain (fun t => t.arith vd vs1 vs1 et m (fun w a _ _ => 2 ^ w - a)
    (signOp (fun f a => if a / f.sign % 2 = 1 then a % f.sign else a + f.sign)) false))

def execVrcpe (vd vs1 et : BitVec 3) (m : BitVec 1) (s : State) : Host.Outcome State Fault Refusal :=
  .next (s.plain (fun t => t.arith vd vs1 vs1 et m noInt (fun f _ a _ _ => frcpe f a) false))
def execVrsqe (vd vs1 et : BitVec 3) (m : BitVec 1) (s : State) : Host.Outcome State Fault Refusal :=
  .next (s.plain (fun t => t.arith vd vs1 vs1 et m noInt (fun f _ a _ _ => frsqe f a) false))

def execVand (vd vs1 vs2 et : BitVec 3) (m : BitVec 1) (s : State) : Host.Outcome State Fault Refusal :=
  .next (s.plain (fun t => t.arith vd vs1 vs2 et m (fun _ a b _ => a &&& b) noFloat false))
def execVor (vd vs1 vs2 et : BitVec 3) (m : BitVec 1) (s : State) : Host.Outcome State Fault Refusal :=
  .next (s.plain (fun t => t.arith vd vs1 vs2 et m (fun _ a b _ => a ||| b) noFloat false))
def execVxor (vd vs1 vs2 et : BitVec 3) (m : BitVec 1) (s : State) : Host.Outcome State Fault Refusal :=
  .next (s.plain (fun t => t.arith vd vs1 vs2 et m (fun _ a b _ => a ^^^ b) noFloat false))
def execVshl (vd vs1 vs2 et : BitVec 3) (m : BitVec 1) (s : State) : Host.Outcome State Fault Refusal :=
  .next (s.plain (fun t => t.arith vd vs1 vs2 et m (fun w a b _ => a * 2 ^ (b % w)) noFloat false))
def execVshr (vd vs1 vs2 et : BitVec 3) (m : BitVec 1) (s : State) : Host.Outcome State Fault Refusal :=
  .next (s.plain (fun t => t.arith vd vs1 vs2 et m (fun w a b _ => a / 2 ^ (b % w)) noFloat false))
def execVsra (vd vs1 vs2 et : BitVec 3) (m : BitVec 1) (s : State) : Host.Outcome State Fault Refusal :=
  .next (s.plain (fun t => t.arith vd vs1 vs2 et m
    (fun w a b _ => wrapInt w (toInt true w a / (2 ^ (b % w) : Nat))) noFloat false))

/-! ## Compare, select, broadcast, move (R197 to R201) -/

/-- The mask of the first `n` lanes whose comparison holds. -/
def maskBits (f : Nat → Bool) : Nat → Nat
  | 0 => 0
  | n + 1 => maskBits f n + (if f n then 2 ^ n else 0)

/-- Flags of the first `n` lanes. -/
def orFlags (f : Nat → BitVec 5) : Nat → BitVec 5
  | 0 => 0
  | n + 1 => orFlags f n ||| f n

/-- `vcmp`: `ci` on integers, `cf` on patterns of a floating type (R197). -/
def Thread.compare (t : Thread) (vs1 vs2 et : BitVec 3) (m : BitVec 1) (ci : Nat → Nat → Nat → Bool)
    (cf : Fmt → Nat → Nat → Bool) : Thread :=
  let w := (etType et.toNat).width
  let a (k : Nat) := laneGet (t.vreg vs1) w k
  let b (k : Nat) := laneGet (t.vreg vs2) w k
  let r (k : Nat) : Bool := t.active m k && (match etType et.toNat with
    | .int _ w => ci w (a k) (b k)
    | .flt f => cf f (a k) (b k))
  let fl (k : Nat) : BitVec 5 :=
    match etType et.toNat with
    | .int .. => 0
    | .flt f => if t.active m k then sigFlag (fdecode f (a k)) ||| sigFlag (fdecode f (b k)) else 0
  { t.raiseFlags (orFlags fl (512 / w)) with vmask := BitVec.ofNat 64 (maskBits r (512 / w)), dirty := true }

def execVcmpEq (vs1 vs2 et : BitVec 3) (m : BitVec 1) (s : State) : Host.Outcome State Fault Refusal :=
  .next (s.plain (fun t => t.compare vs1 vs2 et m (fun _ a b => decide (a = b)) fltEq))
def execVcmpNe (vs1 vs2 et : BitVec 3) (m : BitVec 1) (s : State) : Host.Outcome State Fault Refusal :=
  .next (s.plain (fun t => t.compare vs1 vs2 et m (fun _ a b => decide (a ≠ b)) (fun f a b => !fltEq f a b)))
def execVcmpLt (vs1 vs2 et : BitVec 3) (m : BitVec 1) (s : State) : Host.Outcome State Fault Refusal :=
  .next (s.plain (fun t => t.compare vs1 vs2 et m (fun w a b => decide (toInt true w a < toInt true w b)) fltLess))
def execVcmpLe (vs1 vs2 et : BitVec 3) (m : BitVec 1) (s : State) : Host.Outcome State Fault Refusal :=
  .next (s.plain (fun t => t.compare vs1 vs2 et m (fun w a b => decide (toInt true w a ≤ toInt true w b))
    (fun f a b => fltLess f a b || fltEq f a b)))
def execVcmpLtu (vs1 vs2 et : BitVec 3) (m : BitVec 1) (s : State) : Host.Outcome State Fault Refusal :=
  .next (s.plain (fun t => t.compare vs1 vs2 et m (fun _ a b => decide (a < b)) (fun _ _ _ => false)))

def execVsel (vd vs1 vs2 et : BitVec 3) (s : State) : Host.Outcome State Fault Refusal :=
  .next (s.plain (fun t =>
    let w := (etType et.toNat).width
    t.lanes vd w (512 / w) 0 false (fun k => (laneGet (if t.vmask.getLsbD k then t.vreg vs1 else t.vreg vs2) w k, 0))))

def execVbc (vd : BitVec 3) (xs : BitVec 4) (et : BitVec 3) (m : BitVec 1) (s : State) :
    Host.Outcome State Fault Refusal :=
  .next (s.plain (fun t =>
    let w := (etType et.toNat).width
    t.lanes vd w (512 / w) m false (fun _ => ((t.reg xs).toNat, 0))))

def execVbcC (vd : BitVec 3) (c8 : BitVec 8) (et : BitVec 3) (s : State) : Host.Outcome State Fault Refusal :=
  let v := s.constWord s.myCore c8.toNat
  .next (s.plain (fun t =>
    let w := (etType et.toNat).width
    t.lanes vd w (512 / w) 0 false (fun _ => (v.toNat, 0))))

def execVmv (vd vs1 et : BitVec 3) (m : BitVec 1) (s : State) : Host.Outcome State Fault Refusal :=
  .next (s.plain (fun t =>
    let w := (etType et.toNat).width
    t.lanes vd w (512 / w) m false (fun k => (laneGet (t.vreg vs1) w k, 0))))

def execVmvClean (s : State) : Host.Outcome State Fault Refusal :=
  .next (s.plain (fun t => { t with vregs := [], vmask := 0, dirty := false }))

def execVext (vs1 : BitVec 3) (xs : BitVec 4) (et : BitVec 3) (s : State) : Host.Outcome State Fault Refusal :=
  .next (s.plain (fun t =>
    let w := (etType et.toNat).width
    let x := laneGet (t.vreg vs1) w ((t.reg xs).toNat % (512 / w))
    let v : Word := if isFloat et.toNat then BitVec.ofNat 64 x else BitVec.ofInt 64 (toInt true w x)
    { t.setReg xs v with dirty := true }))

/-! ## Conversions (R202, R203) -/

/-- Lanes converted from one type to another; `rounds` says that the conversion rounds (R72). -/
def Thread.convertLanes (t : Thread) (vd vs1 : BitVec 3) (src dst : NumT) (c : Nat) (m : BitVec 1) (rounds : Bool) :
    Thread :=
  t.lanes vd dst.width c m rounds (fun k => convert src dst (t.rnd k) (laneGet (t.vreg vs1) src.width k))

def execVcvt (vd vs1 src et : BitVec 3) (m : BitVec 1) (s : State) : Host.Outcome State Fault Refusal :=
  .next (s.plain (fun t =>
    let a := etType src.toNat
    let b := etType et.toNat
    t.convertLanes vd vs1 a b (min (512 / a.width) (512 / b.width)) m (isFloat src.toNat || isFloat et.toNat)))

def execVcvt8 (vd vs1 src et : BitVec 3) (m : BitVec 1) (s : State) : Host.Outcome State Fault Refusal :=
  .next (s.plain (fun t =>
    let b := etType et.toNat
    let n := 512 / b.width
    match src.toNat with
    | 0 => t.convertLanes vd vs1 (.flt e4m3) b n m false
    | 1 => t.convertLanes vd vs1 (.flt e5m2) b n m false
    | 2 => t.convertLanes vd vs1 b (.flt e4m3) n m true
    | _ => t.convertLanes vd vs1 b (.flt e5m2) n m true))

/-! ## Reductions, dot products, rearrangement (R204 to R207) -/

/-- One level of the tree: pairs combine, a lone active child passes up (R178). -/
def treeLevel (op : Nat → Nat → Nat × BitVec 5) : List (Option Nat) → List (Option Nat) × BitVec 5
  | a :: b :: l =>
    let r := treeLevel op l
    match a, b with
    | some x, some y => (some (op x y).1 :: r.1, r.2 ||| (op x y).2)
    | some x, none => (some x :: r.1, r.2)
    | none, y => (y :: r.1, r.2)
  | l => (l, 0)

/-- The tree over `n` levels. -/
def treeReduce (op : Nat → Nat → Nat × BitVec 5) : Nat → List (Option Nat) → Option Nat × BitVec 5
  | 0, l => (l.headD none, 0)
  | n + 1, l =>
    let r := treeLevel op l
    let q := treeReduce op n r.1
    (q.1, r.2 ||| q.2)

/-- A reduction: lane 0 of vd receives the result or `empty`, every other lane zero (R204). -/
def Thread.reduce (t : Thread) (vd vs1 et : BitVec 3) (m : BitVec 1) (op : Nat → Nat → Nat × BitVec 5) (empty : Nat)
    (rounds : Bool) : Thread :=
  let w := (etType et.toNat).width
  let n := 512 / w
  let l := (List.range n).map (fun k => if t.active m k then some (laneGet (t.vreg vs1) w k) else none)
  let r := treeReduce op (Nat.log2 n) l
  ((t.setVreg vd (BitVec.ofNat 512 (r.1.getD empty % 2 ^ w))).raiseFlags r.2).stepPhase
    (rounds && (List.range n).any (t.active m))

def execVredAdd (vd vs1 et : BitVec 3) (m : BitVec 1) (s : State) : Host.Outcome State Fault Refusal :=
  .next (s.plain (fun t =>
    match etType et.toNat with
    | .int _ w => t.reduce vd vs1 et m (fun a b => ((a + b) % 2 ^ w, 0)) 0 false
    | .flt f => t.reduce vd vs1 et m
        (fun a b => deliver f (t.rnd 0) (exactSum t.mode [fdecode f a, fdecode f b])) 0 true))

def execVredMax (vd vs1 et : BitVec 3) (m : BitVec 1) (s : State) : Host.Outcome State Fault Refusal :=
  .next (s.plain (fun t =>
    match etType et.toNat with
    | .int _ w => t.reduce vd vs1 et m (fun a b => (if toInt true w a < toInt true w b then b else a, 0)) (2 ^ (w - 1)) false
    | .flt f => t.reduce vd vs1 et m (fminmax f true) f.nan false))

def execVredMin (vd vs1 et : BitVec 3) (m : BitVec 1) (s : State) : Host.Outcome State Fault Refusal :=
  .next (s.plain (fun t =>
    match etType et.toNat with
    | .int _ w =>
      t.reduce vd vs1 et m (fun a b => (if toInt true w b < toInt true w a then b else a, 0)) (2 ^ (w - 1) - 1) false
    | .flt f => t.reduce vd vs1 et m (fminmax f false) f.nan false))

/-- A floating dot product: exact, one rounding; a NaN operand, an invalid product or opposite infinities give the
canonical NaN and NV (R180, R205). -/
def dotFloat (f g : Fmt) (rd : Rnd) (acc : Nat) (ps : List (Nat × Nat)) : Nat × BitVec 5 :=
  let prods := ps.map (fun p => exactMul (fdecode f p.1) (fdecode f p.2))
  let x := exactSum rd.mode (fdecode g acc :: prods.map Exact.v)
  if x.v.isNan then (g.nan, flNV) else deliver g rd x

/-- The lanes of vs1 and vs2 that enter lane `k` of vd. -/
def Thread.pairs (t : Thread) (vs1 vs2 : BitVec 3) (w c k : Nat) : List (Nat × Nat) :=
  (List.range c).map (fun i => (laneGet (t.vreg vs1) w (c * k + i), laneGet (t.vreg vs2) w (c * k + i)))

/-- An integer dot product, saturated. -/
def dotInt (w d acc : Nat) (ps : List (Nat × Nat)) : Nat :=
  wrapInt d (saturate true d (ps.foldl (fun x p => x + toInt true w p.1 * toInt true w p.2) (toInt true d acc)))

def execVdot (vd vs1 vs2 et : BitVec 3) (m : BitVec 1) (s : State) : Host.Outcome State Fault Refusal :=
  .next (s.plain (fun t =>
    let acc (d k : Nat) : Nat := laneGet (t.vreg vd) d k
    match etType et.toNat with
    | .int _ w =>
      let d := if w = 8 then 32 else 64
      t.lanes vd d (512 / d) m false (fun k => (dotInt w d (acc d k) (t.pairs vs1 vs2 w 4 k), 0))
    | .flt f =>
      let g := if f.width = 32 then fp64 else fp32
      t.lanes vd g.width (512 / g.width) m true
        (fun k => dotFloat f g (t.rnd k) (acc g.width k) (t.pairs vs1 vs2 f.width 2 k))))

def execVperm (vd vs1 vs2 et : BitVec 3) (m : BitVec 1) (s : State) : Host.Outcome State Fault Refusal :=
  .next (s.plain (fun t =>
    let w := (etType et.toNat).width
    t.lanes vd w (512 / w) m false
      (fun k => (laneGet (t.vreg vs1) w (laneGet (t.vreg vs2) w k % (512 / w)), 0))))

def execVslide (vd vs1 : BitVec 3) (xs : BitVec 4) (et : BitVec 3) (m : BitVec 1) (s : State) :
    Host.Outcome State Fault Refusal :=
  .next (s.plain (fun t =>
    let w := (etType et.toNat).width
    let d := (t.reg xs).toInt
    t.lanes vd w (512 / w) m false (fun k =>
      let j : Int := (k : Int) - d
      (if 0 ≤ j ∧ j < (512 / w : Nat) then laneGet (t.vreg vs1) w j.toNat else 0, 0))))

/-! ## Memory forms (R208 to R211) -/

/-- The active lanes of a memory form, in order. -/
def Thread.activeLanes (t : Thread) (m : BitVec 1) (n : Nat) : List Nat := (List.range n).filter (t.active m)

/-- The byte mask of lanes of `b` bytes. -/
def byteMask (b : Nat) : List Nat → Nat
  | [] => 0
  | k :: l => (2 ^ b - 1) * 2 ^ (b * k) + byteMask b l

/-- A thread that has performed lanes is vector-dirty (R186). -/
def State.soil (s : State) : State := s.modMe (fun t => { t with dirty := true })

/-- The class of a lane in the LM window, the constant window or a forme window: its byte, or the trap. -/
def State.laneByte (s : State) (ea : Word) (b : Nat) (write : Bool) : Nat ⊕ (TrapClass × Word) :=
  match s.span s.cur ea b write with
  | .lm x => .inl x
  | .window => .inr (.window, ea)
  | _ => .inr (.access, ea)

/-- The bytes of the active lanes, or the first trap. -/
def State.laneBytes (s : State) (ea : Word) (b : Nat) (write : Bool) : List Nat → List (Nat × Nat) ⊕ (TrapClass × Word)
  | [] => .inl []
  | k :: l =>
    match s.laneByte (ea + BitVec.ofNat 64 (b * k)) b write, State.laneBytes s ea b write l with
    | .inl x, .inl r => .inl ((k, x) :: r)
    | .inr e, _ => .inr e
    | _, .inr e => .inr e

/-- Lanes of `b` bytes in a local memory, each lane with its byte there: naturally aligned ones are performed whole,
others byte by byte in ascending order (R60, R208). -/
def State.lanesLm (s : State) (vd : BitVec 3) (b : Nat) (write : Bool) (nb : BitVec 1) (l : List (Nat × Nat)) : State :=
  let t := s.me
  let one (n : Nat) (s : State) (x : Nat × Nat) : State :=
    if write then { s with lm := mstore s.lm x.2 (laneGet (t.vreg vd) (8 * n) x.1) n }
    else s.modMe (fun t => t.setVreg vd (laneSet (t.vreg vd) (8 * n) x.1 (mload s.lm x.2 n)))
  if l.all (fun x => decide (x.2 % b = 0)) then (l.foldl (one b) s).soil.completeP nb .rdy
  else
    let bytes := l.flatMap (fun x => (List.range b).map (fun j => (b * x.1 + j, x.2 + j)))
    let i := t.bytesDone.1
    let s := match bytes[i]? with | some x => one 1 s x | none => s
    if i + 1 < bytes.length then s.soil.byteMade i 0
    else (s.modMe (fun t => { t with bytes := none })).soil.completeP nb .rdy

/-- `vld` and `vst` of lanes of `b` bytes at `ea` (R208). -/
def State.vectorMem (s : State) (vd : BitVec 3) (ea : Word) (b : Nat) (m nb : BitVec 1) (write : Bool) : State :=
  let t := s.me
  let w := 8 * b
  let lanes := t.activeLanes m (64 / b)
  if ea.toNat < 0x40000 ∨ (0x1000000 ≤ ea.toNat ∧ ea.toNat < 0x1200000) then
    match s.laneBytes ea b write lanes with
    | .inr (c, va) => s.trapMe c va 0
    | .inl l => s.lanesLm vd b write nb l
  else
    let mask := byteMask b lanes
    match s.attempt (if write then .vstore else .vload) ea 64 64 false mask with
    | .trap s c va x => s.trapMe c va x
    | .denied s => s.complete nb .denied
    | .stop s c w => if nb = 1 then s.soil.notReady nb c w else s.notReady nb c w
    | .ok s p =>
      if write then
        (((s.writeAt p ea 64 (t.vreg vd).toNat mask (s.homeAt ea)).endOp ea).soil).completeP nb .rdy
      else
        let v := BitVec.ofNat 512 (s.readAt p ea 64)
        let s := (s.touch p).endOp ea
        let r := lanes.foldl (fun r k => laneSet r w k (laneGet v w k)) (t.vreg vd)
        (s.modMe (fun t => t.setVreg vd r)).completeP nb .rdy

def execVld (vd : BitVec 3) (xs : BitVec 4) (lane : BitVec 2) (m nb : BitVec 1) (s : State) :
    Host.Outcome State Fault Refusal :=
  .next (s.vectorMem vd (s.me.reg xs) (2 ^ lane.toNat) m nb false)
def execVst (vd : BitVec 3) (xs : BitVec 4) (lane : BitVec 2) (m nb : BitVec 1) (s : State) :
    Host.Outcome State Fault Refusal :=
  .next (s.vectorMem vd (s.me.reg xs) (2 ^ lane.toNat) m nb true)

/-- The address of lane `k` of a gather or scatter (R209). -/
def Thread.laneEa (t : Thread) (vs1 : BitVec 3) (base : Word) (b k : Nat) : Word :=
  base + BitVec.ofNat 64 (laneGet (t.vreg vs1) (8 * b) k)

/-- The check that every active lane passes before any lane is performed (R209). -/
def State.laneFault (s : State) (ea : Word) (b : Nat) (write : Bool) : Option TrapClass :=
  match s.span s.cur ea b write with
  | .access => some .access
  | .window => some .window
  | .lm _ => none
  | .paged => if ea.toNat % b ≠ 0 then some .access else none

/-- One lane of a gather or scatter is performed where the access gives it. -/
def State.laneStep (s : State) (vd : BitVec 3) (ea : Word) (b k : Nat) (write : Bool) (p : Spot) : State :=
  let w := 8 * b
  if write then
    (s.writeAt p ea b (laneGet (s.me.vreg vd) w k) (allBytes b) (s.homeAt ea)).endOp ea
  else
    let v := s.readAt p ea b
    ((s.touch p).endOp ea).modMe (fun t => t.setVreg vd (laneSet (t.vreg vd) w k v))

/-- Lanes performed in ascending order up to the first that is not ready, which the cursor keeps (R210). `some` marks
that lane performed so far. -/
def State.laneWalk (s : State) (vd vs1 : BitVec 3) (base : Word) (b : Nat) (write : Bool) (nb : BitVec 1) :
    List Nat → Bool → State
  | [], _ => (s.modMe (fun t => { t with cursor := none, dirty := true })).completeP nb .rdy
  | k :: l, done =>
    let ea := s.me.laneEa vs1 base b k
    match s.attempt (if write then .vstore else .vload) ea b b false (allBytes b) with
    | .ok s p => State.laneWalk (s.laneStep vd ea b k write p) vd vs1 base b write nb l true
    | .stop s c w =>
      let s := s.modMe (fun t => { t with cursor := some (t.pc, k), dirty := t.dirty || done || decide (nb = 1) })
      s.notReady nb c w
    | .denied s => s.complete nb .denied
    | .trap s c va x =>
      (s.modMe (fun t => { t with cursor := some (t.pc, k), dirty := t.dirty || done })).trapMe c va x

/-- `vldx` and `vstx` (R209, R210). -/
def State.vectorIndexed (s : State) (vd vs1 : BitVec 3) (base : Word) (b : Nat) (m nb : BitVec 1) (write : Bool) :
    State :=
  let t := s.me
  let lanes := t.activeLanes m (64 / b)
  let bad := (lanes.map (t.laneEa vs1 base b)).filter (fun ea => (s.laneFault ea b write).isSome)
  match bad with
  | x :: l =>
    let ea := l.foldl (fun a y => if y.toNat < a.toNat then y else a) x
    s.trapMe ((s.laneFault ea b write).getD .access) ea 0
  | [] =>
    let j := match t.cursor with | some (pc, j) => if pc = t.pc then j else 0 | none => 0
    s.laneWalk vd vs1 base b write nb (lanes.filter (fun k => decide (j ≤ k))) false

def execVldx (vd vs1 : BitVec 3) (xs : BitVec 4) (lane : BitVec 2) (m nb : BitVec 1) (s : State) :
    Host.Outcome State Fault Refusal :=
  .next (s.vectorIndexed vd vs1 (s.me.reg xs) (2 ^ lane.toNat) m nb false)
def execVstx (vd vs1 : BitVec 3) (xs : BitVec 4) (lane : BitVec 2) (m nb : BitVec 1) (s : State) :
    Host.Outcome State Fault Refusal :=
  .next (s.vectorIndexed vd vs1 (s.me.reg xs) (2 ^ lane.toNat) m nb true)

end Sys2Proof.Machine
end

