-- ==== Sys2Proof/Machine/Dispatch.lean ====
section
/-! DEFINITION. What each instruction and event does: one arm per constructor, each a direct call of its meaning. -/

namespace Sys2Proof.Machine

open Sys2Proof

def exec (i : Instr) (s : State) : Host.Outcome State Fault Refusal :=
  match i with
  | .lui rd imm => Sys2Proof.Machine.execLui rd imm s
  | .auipc rd imm => Sys2Proof.Machine.execAuipc rd imm s
  | .jal rd imm => Sys2Proof.Machine.execJal rd imm s
  | .jalr rd rs1 imm => Sys2Proof.Machine.execJalr rd rs1 imm s
  | .beq rs1 rs2 imm => Sys2Proof.Machine.execBeq rs1 rs2 imm s
  | .bne rs1 rs2 imm => Sys2Proof.Machine.execBne rs1 rs2 imm s
  | .blt rs1 rs2 imm => Sys2Proof.Machine.execBlt rs1 rs2 imm s
  | .bge rs1 rs2 imm => Sys2Proof.Machine.execBge rs1 rs2 imm s
  | .bltu rs1 rs2 imm => Sys2Proof.Machine.execBltu rs1 rs2 imm s
  | .bgeu rs1 rs2 imm => Sys2Proof.Machine.execBgeu rs1 rs2 imm s
  | .lb rd rs1 imm => Sys2Proof.Machine.execLb rd rs1 imm s
  | .lh rd rs1 imm => Sys2Proof.Machine.execLh rd rs1 imm s
  | .lw rd rs1 imm => Sys2Proof.Machine.execLw rd rs1 imm s
  | .ld rd rs1 imm => Sys2Proof.Machine.execLd rd rs1 imm s
  | .lbu rd rs1 imm => Sys2Proof.Machine.execLbu rd rs1 imm s
  | .lhu rd rs1 imm => Sys2Proof.Machine.execLhu rd rs1 imm s
  | .lwu rd rs1 imm => Sys2Proof.Machine.execLwu rd rs1 imm s
  | .sb rs1 rs2 imm => Sys2Proof.Machine.execSb rs1 rs2 imm s
  | .sh rs1 rs2 imm => Sys2Proof.Machine.execSh rs1 rs2 imm s
  | .sw rs1 rs2 imm => Sys2Proof.Machine.execSw rs1 rs2 imm s
  | .sd rs1 rs2 imm => Sys2Proof.Machine.execSd rs1 rs2 imm s
  | .addi rd rs1 imm => Sys2Proof.Machine.execAddi rd rs1 imm s
  | .slti rd rs1 imm => Sys2Proof.Machine.execSlti rd rs1 imm s
  | .sltiu rd rs1 imm => Sys2Proof.Machine.execSltiu rd rs1 imm s
  | .xori rd rs1 imm => Sys2Proof.Machine.execXori rd rs1 imm s
  | .ori rd rs1 imm => Sys2Proof.Machine.execOri rd rs1 imm s
  | .andi rd rs1 imm => Sys2Proof.Machine.execAndi rd rs1 imm s
  | .slli rd rs1 sh => Sys2Proof.Machine.execSlli rd rs1 sh s
  | .srli rd rs1 sh => Sys2Proof.Machine.execSrli rd rs1 sh s
  | .srai rd rs1 sh => Sys2Proof.Machine.execSrai rd rs1 sh s
  | .addiw rd rs1 imm => Sys2Proof.Machine.execAddiw rd rs1 imm s
  | .slliw rd rs1 sh => Sys2Proof.Machine.execSlliw rd rs1 sh s
  | .srliw rd rs1 sh => Sys2Proof.Machine.execSrliw rd rs1 sh s
  | .sraiw rd rs1 sh => Sys2Proof.Machine.execSraiw rd rs1 sh s
  | .add rd rs1 rs2 => Sys2Proof.Machine.execAdd rd rs1 rs2 s
  | .sub rd rs1 rs2 => Sys2Proof.Machine.execSub rd rs1 rs2 s
  | .sll rd rs1 rs2 => Sys2Proof.Machine.execSll rd rs1 rs2 s
  | .slt rd rs1 rs2 => Sys2Proof.Machine.execSlt rd rs1 rs2 s
  | .sltu rd rs1 rs2 => Sys2Proof.Machine.execSltu rd rs1 rs2 s
  | .xorr rd rs1 rs2 => Sys2Proof.Machine.execXorr rd rs1 rs2 s
  | .srl rd rs1 rs2 => Sys2Proof.Machine.execSrl rd rs1 rs2 s
  | .sra rd rs1 rs2 => Sys2Proof.Machine.execSra rd rs1 rs2 s
  | .orr rd rs1 rs2 => Sys2Proof.Machine.execOrr rd rs1 rs2 s
  | .andr rd rs1 rs2 => Sys2Proof.Machine.execAndr rd rs1 rs2 s
  | .addw rd rs1 rs2 => Sys2Proof.Machine.execAddw rd rs1 rs2 s
  | .subw rd rs1 rs2 => Sys2Proof.Machine.execSubw rd rs1 rs2 s
  | .sllw rd rs1 rs2 => Sys2Proof.Machine.execSllw rd rs1 rs2 s
  | .srlw rd rs1 rs2 => Sys2Proof.Machine.execSrlw rd rs1 rs2 s
  | .sraw rd rs1 rs2 => Sys2Proof.Machine.execSraw rd rs1 rs2 s
  | .mul rd rs1 rs2 => Sys2Proof.Machine.execMul rd rs1 rs2 s
  | .mulh rd rs1 rs2 => Sys2Proof.Machine.execMulh rd rs1 rs2 s
  | .mulhsu rd rs1 rs2 => Sys2Proof.Machine.execMulhsu rd rs1 rs2 s
  | .mulhu rd rs1 rs2 => Sys2Proof.Machine.execMulhu rd rs1 rs2 s
  | .div rd rs1 rs2 => Sys2Proof.Machine.execDiv rd rs1 rs2 s
  | .divu rd rs1 rs2 => Sys2Proof.Machine.execDivu rd rs1 rs2 s
  | .rem rd rs1 rs2 => Sys2Proof.Machine.execRem rd rs1 rs2 s
  | .remu rd rs1 rs2 => Sys2Proof.Machine.execRemu rd rs1 rs2 s
  | .mulw rd rs1 rs2 => Sys2Proof.Machine.execMulw rd rs1 rs2 s
  | .divw rd rs1 rs2 => Sys2Proof.Machine.execDivw rd rs1 rs2 s
  | .divuw rd rs1 rs2 => Sys2Proof.Machine.execDivuw rd rs1 rs2 s
  | .remw rd rs1 rs2 => Sys2Proof.Machine.execRemw rd rs1 rs2 s
  | .remuw rd rs1 rs2 => Sys2Proof.Machine.execRemuw rd rs1 rs2 s
  | .czeroEqz rd rs1 rs2 => Sys2Proof.Machine.execCzeroEqz rd rs1 rs2 s
  | .czeroNez rd rs1 rs2 => Sys2Proof.Machine.execCzeroNez rd rs1 rs2 s
  | .fence rd rs1 pred succ => Sys2Proof.Machine.execFence rd rs1 pred succ s
  | .fenceTso rd rs1 pred succ => Sys2Proof.Machine.execFenceTso rd rs1 pred succ s
  | .ecall => Sys2Proof.Machine.execEcall s
  | .ebreak => Sys2Proof.Machine.execEbreak s
  | .csrrw rd rs1 csr => Sys2Proof.Machine.execCsrrw rd rs1 csr s
  | .csrrs rd rs1 csr => Sys2Proof.Machine.execCsrrs rd rs1 csr s
  | .csrrc rd rs1 csr => Sys2Proof.Machine.execCsrrc rd rs1 csr s
  | .csrrwi rd csr uimm => Sys2Proof.Machine.execCsrrwi rd csr uimm s
  | .csrrsi rd csr uimm => Sys2Proof.Machine.execCsrrsi rd csr uimm s
  | .csrrci rd csr uimm => Sys2Proof.Machine.execCsrrci rd csr uimm s
  | .pld rd base imm width nb => Sys2Proof.Machine.execPld rd base imm width nb s
  | .pst rs base imm width nb => Sys2Proof.Machine.execPst rs base imm width nb s
  | .pldBr rd base off width => Sys2Proof.Machine.execPldBr rd base off width s
  | .pstBr rs base off width => Sys2Proof.Machine.execPstBr rs base off width s
  | .bo off cond => Sys2Proof.Machine.execBo off cond s
  | .yield => Sys2Proof.Machine.execYield s
  | .yieldN rs1 => Sys2Proof.Machine.execYieldN rs1 s
  | .sleep rs1 => Sys2Proof.Machine.execSleep rs1 s
  | .thrSpawn rd rs1 rs2 nb => Sys2Proof.Machine.execThrSpawn rd rs1 rs2 nb s
  | .thrExit => Sys2Proof.Machine.execThrExit s
  | .go rs1 => Sys2Proof.Machine.execGo rs1 s
  | .msend rs1 rs2 nb => Sys2Proof.Machine.execMsend rs1 rs2 nb s
  | .mrecv rd nb => Sys2Proof.Machine.execMrecv rd nb s
  | .mfrom rd nb => Sys2Proof.Machine.execMfrom rd nb s
  | .mark rs1 nb => Sys2Proof.Machine.execMark rs1 nb s
  | .qinit rs1 nb => Sys2Proof.Machine.execQinit rs1 nb s
  | .qacq rd rs1 nb => Sys2Proof.Machine.execQacq rd rs1 nb s
  | .qwait rs1 nb => Sys2Proof.Machine.execQwait rs1 nb s
  | .qgive rs1 rs2 nb => Sys2Proof.Machine.execQgive rs1 rs2 nb s
  | .qswap rs1 rs2 nb => Sys2Proof.Machine.execQswap rs1 rs2 nb s
  | .qdrop rs1 nb => Sys2Proof.Machine.execQdrop rs1 nb s
  | .qrel rs1 nb => Sys2Proof.Machine.execQrel rs1 nb s
  | .qstat rd rs1 nb => Sys2Proof.Machine.execQstat rd rs1 nb s
  | .amoAdd rd rs1 rs2 width scope nb => Sys2Proof.Machine.execAmoAdd rd rs1 rs2 width scope nb s
  | .amoAnd rd rs1 rs2 width scope nb => Sys2Proof.Machine.execAmoAnd rd rs1 rs2 width scope nb s
  | .amoOr rd rs1 rs2 width scope nb => Sys2Proof.Machine.execAmoOr rd rs1 rs2 width scope nb s
  | .amoXor rd rs1 rs2 width scope nb => Sys2Proof.Machine.execAmoXor rd rs1 rs2 width scope nb s
  | .amoMin rd rs1 rs2 width scope nb => Sys2Proof.Machine.execAmoMin rd rs1 rs2 width scope nb s
  | .amoMax rd rs1 rs2 width scope nb => Sys2Proof.Machine.execAmoMax rd rs1 rs2 width scope nb s
  | .amoMinu rd rs1 rs2 width scope nb => Sys2Proof.Machine.execAmoMinu rd rs1 rs2 width scope nb s
  | .amoMaxu rd rs1 rs2 width scope nb => Sys2Proof.Machine.execAmoMaxu rd rs1 rs2 width scope nb s
  | .amoSwap rd rs1 rs2 width scope nb => Sys2Proof.Machine.execAmoSwap rd rs1 rs2 width scope nb s
  | .amoCas rd rs1 rs2 width scope nb => Sys2Proof.Machine.execAmoCas rd rs1 rs2 width scope nb s
  | .red rs1 rs2 kind nb => Sys2Proof.Machine.execRed rs1 rs2 kind nb s
  | .lineWb rs1 nb => Sys2Proof.Machine.execLineWb rs1 nb s
  | .lineInv rs1 nb => Sys2Proof.Machine.execLineInv rs1 nb s
  | .lineWbinv rs1 nb => Sys2Proof.Machine.execLineWbinv rs1 nb s
  | .pqPush rs1 nb => Sys2Proof.Machine.execPqPush rs1 nb s
  | .pqDone rs1 nb => Sys2Proof.Machine.execPqDone rs1 nb s
  | .pqResume nb => Sys2Proof.Machine.execPqResume nb s
  | .cbitTest rd rs1 rs2 nb => Sys2Proof.Machine.execCbitTest rd rs1 rs2 nb s
  | .ksub rd rs1 rs2 nb => Sys2Proof.Machine.execKsub rd rs1 rs2 nb s
  | .barArrive rd kind idx nb => Sys2Proof.Machine.execBarArrive rd kind idx nb s
  | .barWait rs1 kind idx nb => Sys2Proof.Machine.execBarWait rs1 kind idx nb s
  | .barAw rd kind idx nb => Sys2Proof.Machine.execBarAw rd kind idx nb s
  | .barCfg rs1 kind idx nb => Sys2Proof.Machine.execBarCfg rs1 kind idx nb s
  | .fnc kind scope nb => Sys2Proof.Machine.execFnc kind scope nb s
  | .plda rd rs1 width scope nb => Sys2Proof.Machine.execPlda rd rs1 width scope nb s
  | .pstr rs rs1 width scope nb => Sys2Proof.Machine.execPstr rs rs1 width scope nb s
  | .pshD rs rs1 c8 nb => Sys2Proof.Machine.execPshD rs rs1 c8 nb s
  | .pshLine rs1 c8 nb => Sys2Proof.Machine.execPshLine rs1 c8 nb s
  | .rngWb rs1 rlen kind idx nb => Sys2Proof.Machine.execRngWb rs1 rlen kind idx nb s
  | .rngInv rs1 rlen kind idx nb => Sys2Proof.Machine.execRngInv rs1 rlen kind idx nb s
  | .rngWbinv rs1 rlen kind idx nb => Sys2Proof.Machine.execRngWbinv rs1 rlen kind idx nb s
  | .gxKick rs1 c8 nb => Sys2Proof.Machine.execGxKick rs1 c8 nb s
  | .lc rd c8 nb => Sys2Proof.Machine.execLc rd c8 nb s
  | .tiLoad rs1 c8 nb => Sys2Proof.Machine.execTiLoad rs1 c8 nb s
  | .tiInv c8 nb => Sys2Proof.Machine.execTiInv c8 nb s
  | .vadd vd vs1 vs2 et m => Sys2Proof.Machine.execVadd vd vs1 vs2 et m s
  | .vsub vd vs1 vs2 et m => Sys2Proof.Machine.execVsub vd vs1 vs2 et m s
  | .vmul vd vs1 vs2 et m => Sys2Proof.Machine.execVmul vd vs1 vs2 et m s
  | .vfma vd vs1 vs2 et m => Sys2Proof.Machine.execVfma vd vs1 vs2 et m s
  | .vminu vd vs1 vs2 et m => Sys2Proof.Machine.execVminu vd vs1 vs2 et m s
  | .vmin vd vs1 vs2 et m => Sys2Proof.Machine.execVmin vd vs1 vs2 et m s
  | .vmax vd vs1 vs2 et m => Sys2Proof.Machine.execVmax vd vs1 vs2 et m s
  | .vabs vd vs1 et m => Sys2Proof.Machine.execVabs vd vs1 et m s
  | .vneg vd vs1 et m => Sys2Proof.Machine.execVneg vd vs1 et m s
  | .vdiv vd vs1 vs2 et m => Sys2Proof.Machine.execVdiv vd vs1 vs2 et m s
  | .vsqrt vd vs1 et m => Sys2Proof.Machine.execVsqrt vd vs1 et m s
  | .vrcpe vd vs1 et m => Sys2Proof.Machine.execVrcpe vd vs1 et m s
  | .vrsqe vd vs1 et m => Sys2Proof.Machine.execVrsqe vd vs1 et m s
  | .vmaxu vd vs1 vs2 et m => Sys2Proof.Machine.execVmaxu vd vs1 vs2 et m s
  | .vand vd vs1 vs2 et m => Sys2Proof.Machine.execVand vd vs1 vs2 et m s
  | .vor vd vs1 vs2 et m => Sys2Proof.Machine.execVor vd vs1 vs2 et m s
  | .vxor vd vs1 vs2 et m => Sys2Proof.Machine.execVxor vd vs1 vs2 et m s
  | .vshl vd vs1 vs2 et m => Sys2Proof.Machine.execVshl vd vs1 vs2 et m s
  | .vshr vd vs1 vs2 et m => Sys2Proof.Machine.execVshr vd vs1 vs2 et m s
  | .vsra vd vs1 vs2 et m => Sys2Proof.Machine.execVsra vd vs1 vs2 et m s
  | .vcmpEq vs1 vs2 et m => Sys2Proof.Machine.execVcmpEq vs1 vs2 et m s
  | .vcmpNe vs1 vs2 et m => Sys2Proof.Machine.execVcmpNe vs1 vs2 et m s
  | .vcmpLt vs1 vs2 et m => Sys2Proof.Machine.execVcmpLt vs1 vs2 et m s
  | .vcmpLe vs1 vs2 et m => Sys2Proof.Machine.execVcmpLe vs1 vs2 et m s
  | .vsel vd vs1 vs2 et => Sys2Proof.Machine.execVsel vd vs1 vs2 et s
  | .vcmpLtu vs1 vs2 et m => Sys2Proof.Machine.execVcmpLtu vs1 vs2 et m s
  | .vbc vd xs et m => Sys2Proof.Machine.execVbc vd xs et m s
  | .vbcC vd c8 et => Sys2Proof.Machine.execVbcC vd c8 et s
  | .vmv vd vs1 et m => Sys2Proof.Machine.execVmv vd vs1 et m s
  | .vmvClean => Sys2Proof.Machine.execVmvClean s
  | .vext vs1 xs et => Sys2Proof.Machine.execVext vs1 xs et s
  | .vcvt vd vs1 src et m => Sys2Proof.Machine.execVcvt vd vs1 src et m s
  | .vcvt8 vd vs1 src et m => Sys2Proof.Machine.execVcvt8 vd vs1 src et m s
  | .vredAdd vd vs1 et m => Sys2Proof.Machine.execVredAdd vd vs1 et m s
  | .vredMax vd vs1 et m => Sys2Proof.Machine.execVredMax vd vs1 et m s
  | .vredMin vd vs1 et m => Sys2Proof.Machine.execVredMin vd vs1 et m s
  | .vdot vd vs1 vs2 et m => Sys2Proof.Machine.execVdot vd vs1 vs2 et m s
  | .vperm vd vs1 vs2 et m => Sys2Proof.Machine.execVperm vd vs1 vs2 et m s
  | .vslide vd vs1 xs et m => Sys2Proof.Machine.execVslide vd vs1 xs et m s
  | .vld vd xs lane m nb => Sys2Proof.Machine.execVld vd xs lane m nb s
  | .vst vd xs lane m nb => Sys2Proof.Machine.execVst vd xs lane m nb s
  | .vldx vd vs1 xs lane m nb => Sys2Proof.Machine.execVldx vd vs1 xs lane m nb s
  | .vstx vd vs1 xs lane m nb => Sys2Proof.Machine.execVstx vd vs1 xs lane m nb s
  | .claimDataArrival n => Sys2Proof.Machine.execClaimDataArrival n s
  | .holdWindowClose kind core uid => Sys2Proof.Machine.execHoldWindowClose kind core uid s
  | .yieldTimeout uid => Sys2Proof.Machine.execYieldTimeout uid s
  | .sleepEnd uid => Sys2Proof.Machine.execSleepEnd uid s
  | .swapIn core => Sys2Proof.Machine.execSwapIn core s
  | .swapOut core => Sys2Proof.Machine.execSwapOut core s
  | .migrationArrival uid => Sys2Proof.Machine.execMigrationArrival uid s
  | .mailboxFlit core k => Sys2Proof.Machine.execMailboxFlit core k s
  | .messageAck core k => Sys2Proof.Machine.execMessageAck core k s
  | .messageNack core k => Sys2Proof.Machine.execMessageNack core k s
  | .messageReplay core k => Sys2Proof.Machine.execMessageReplay core k s
  | .trapRecordWrite ctx => Sys2Proof.Machine.execTrapRecordWrite ctx s
  | .watchdogExpiry gid => Sys2Proof.Machine.execWatchdogExpiry gid s
  | .readRequest n => Sys2Proof.Machine.execReadRequest n s
  | .exclusiveRequest n => Sys2Proof.Machine.execExclusiveRequest n s
  | .uRequest n => Sys2Proof.Machine.execURequest n s
  | .pushWrite n => Sys2Proof.Machine.execPushWrite n s
  | .evictionNotice n => Sys2Proof.Machine.execEvictionNotice n s
  | .writeBack n => Sys2Proof.Machine.execWriteBack n s
  | .acknowledgement n => Sys2Proof.Machine.execAcknowledgement n s
  | .invalidation n => Sys2Proof.Machine.execInvalidation n s
  | .shareRecall n => Sys2Proof.Machine.execShareRecall n s
  | .updateRecall n => Sys2Proof.Machine.execUpdateRecall n s
  | .pushFill n => Sys2Proof.Machine.execPushFill n s
  | .pushCompletion n => Sys2Proof.Machine.execPushCompletion n s
  | .claimCopyReturn n => Sys2Proof.Machine.execClaimCopyReturn n s
  | .untrackedWriteBack n => Sys2Proof.Machine.execUntrackedWriteBack n s
  | .hostWrite loc size val => Sys2Proof.Machine.execHostWrite loc size val s
  | .hostRead loc size => Sys2Proof.Machine.execHostRead loc size s
  | .barrierRelease kind unit idx core => Sys2Proof.Machine.execBarrierRelease kind unit idx core s
  | .semRemoteArrival entry pkg uid => Sys2Proof.Machine.execSemRemoteArrival entry pkg uid s
  | .semArrivalReply uid phase => Sys2Proof.Machine.execSemArrivalReply uid phase s
  | .semPhaseUpdate entry phase => Sys2Proof.Machine.execSemPhaseUpdate entry phase s
  | .pressArbitration fid => Sys2Proof.Machine.execPressArbitration fid s
  | .lstat fid => Sys2Proof.Machine.execLstat fid s
  | .flip fid => Sys2Proof.Machine.execFlip fid s
  | .stream fid => Sys2Proof.Machine.execStream fid s
  | .aclr fid => Sys2Proof.Machine.execAclr fid s
  | .drain fid => Sys2Proof.Machine.execDrain fid s
  | .acopy fid => Sys2Proof.Machine.execAcopy fid s
  | .aload fid => Sys2Proof.Machine.execAload fid s
  | .pressMark fid => Sys2Proof.Machine.execPressMark fid s
  | .share fid => Sys2Proof.Machine.execShare fid s
  | .groupQueueDiscard gid => Sys2Proof.Machine.execGroupQueueDiscard gid s
  | .galleyChain die ch => Sys2Proof.Machine.execGalleyChain die ch s
  | .copy die ch rec chunk => Sys2Proof.Machine.execCopy die ch rec chunk s
  | .compose die ch rec chunk => Sys2Proof.Machine.execCompose die ch rec chunk s
  | .scatter die ch rec chunk => Sys2Proof.Machine.execScatter die ch rec chunk s
  | .fill die ch rec chunk => Sys2Proof.Machine.execFill die ch rec chunk s
  | .convert die ch rec chunk => Sys2Proof.Machine.execConvert die ch rec chunk s
  | .galleyChunkDone die ch rec chunk => Sys2Proof.Machine.execGalleyChunkDone die ch rec chunk s
  | .sweep fid => Sys2Proof.Machine.execSweep fid s
  | .tableWalk fid => Sys2Proof.Machine.execTableWalk fid s
  | .faultRingWrite ctx => Sys2Proof.Machine.execFaultRingWrite ctx s
  | .queueDoorbell ctx q => Sys2Proof.Machine.execQueueDoorbell ctx q s
  | .queueEnable ctx q => Sys2Proof.Machine.execQueueEnable ctx q s
  | .queueDisable ctx q => Sys2Proof.Machine.execQueueDisable ctx q s
  | .queueCancel ctx q c => Sys2Proof.Machine.execQueueCancel ctx q c s
  | .dependenceMet ctx q => Sys2Proof.Machine.execDependenceMet ctx q s
  | .kernelAdmit die ctx => Sys2Proof.Machine.execKernelAdmit die ctx s
  | .groupPlace kid => Sys2Proof.Machine.execGroupPlace kid s
  | .kernelDrainComplete kid => Sys2Proof.Machine.execKernelDrainComplete kid s
  | .kernelCancel kid => Sys2Proof.Machine.execKernelCancel kid s
  | .kernelFaultMark kid => Sys2Proof.Machine.execKernelFaultMark kid s
  | .groupSave gid => Sys2Proof.Machine.execGroupSave gid s
  | .groupRestore gid place => Sys2Proof.Machine.execGroupRestore gid place s
  | .tenantSliceEnd part => Sys2Proof.Machine.execTenantSliceEnd part s
  | .contextPublish pa => Sys2Proof.Machine.execContextPublish pa s
  | .contextFaultMark ctx => Sys2Proof.Machine.execContextFaultMark ctx s
  | .contextTeardown ctx => Sys2Proof.Machine.execContextTeardown ctx s
  | .imageRestore src dst version => Sys2Proof.Machine.execImageRestore src dst version s
  | .bucketRefill core => Sys2Proof.Machine.execBucketRefill core s
  | .fansResolve die ctx seq => Sys2Proof.Machine.execFansResolve die ctx seq s
  | .fansDecline die ctx seq => Sys2Proof.Machine.execFansDecline die ctx seq s
  | .shoot die ctx va len icache => Sys2Proof.Machine.execShoot die ctx va len icache s
  | .assnDieBarrier die ctx idx => Sys2Proof.Machine.execAssnDieBarrier die ctx idx s
  | .assnGalleyChannel die ctx ch => Sys2Proof.Machine.execAssnGalleyChannel die ctx ch s
  | .tresResume die ctx seq pc a0 a1 => Sys2Proof.Machine.execTresResume die ctx seq pc a0 a1 s
  | .tresEnd die ctx seq => Sys2Proof.Machine.execTresEnd die ctx seq s
  | .linkDataFlit link flip room => Sys2Proof.Machine.execLinkDataFlit link flip room s
  | .linkAck link => Sys2Proof.Machine.execLinkAck link s
  | .linkNack link => Sys2Proof.Machine.execLinkNack link s
  | .linkBackoffExpiry link => Sys2Proof.Machine.execLinkBackoffExpiry link s
  | .linkReplayTimeout link => Sys2Proof.Machine.execLinkReplayTimeout link s
  | .linkEnable link => Sys2Proof.Machine.execLinkEnable link s
  | .linkTrainingDone link lanes => Sys2Proof.Machine.execLinkTrainingDone link lanes s
  | .laneMarginal link lane => Sys2Proof.Machine.execLaneMarginal link lane s
  | .laneLost link => Sys2Proof.Machine.execLaneLost link s
  | .linkDrainRequest link => Sys2Proof.Machine.execLinkDrainRequest link s
  | .linkWindowDrained link => Sys2Proof.Machine.execLinkWindowDrained link s
  | .spareSwapComplete link => Sys2Proof.Machine.execSpareSwapComplete link s
  | .portRingDoorbell ring => Sys2Proof.Machine.execPortRingDoorbell ring s
  | .networkSend ring => Sys2Proof.Machine.execNetworkSend ring s
  | .storageRead ring => Sys2Proof.Machine.execStorageRead ring s
  | .storageWrite ring => Sys2Proof.Machine.execStorageWrite ring s
  | .storageFlush ring => Sys2Proof.Machine.execStorageFlush ring s
  | .nvmeCompletion ring status data => Sys2Proof.Machine.execNvmeCompletion ring status data s
  | .traceDrain core => Sys2Proof.Machine.execTraceDrain core s
  | .snapshot => Sys2Proof.Machine.execSnapshot s
  | .stopOnTick => Sys2Proof.Machine.execStopOnTick s
  | .stopctlArm val => Sys2Proof.Machine.execStopctlArm val s
  | .registerWrite pa val => Sys2Proof.Machine.execRegisterWrite pa val s
  | .gtickDiscipline double => Sys2Proof.Machine.execGtickDiscipline double s
  | .powerGood => Sys2Proof.Machine.execPowerGood s
  | .powerGoodFall => Sys2Proof.Machine.execPowerGoodFall s
  | .firmwareVerify image => Sys2Proof.Machine.execFirmwareVerify image s
  | .dieStart die pass => Sys2Proof.Machine.execDieStart die pass s
  | .attestationReport nonce ask => Sys2Proof.Machine.execAttestationReport nonce ask s
  | .managementReset => Sys2Proof.Machine.execManagementReset s
  | .scanOut => Sys2Proof.Machine.execScanOut s
  | .pwrcapWrite val => Sys2Proof.Machine.execPwrcapWrite val s
  | .preqWrite die val => Sys2Proof.Machine.execPreqWrite die val s
  | .pstateTransitionDone die => Sys2Proof.Machine.execPstateTransitionDone die s
  | .ceilingBoundary energy l0 l1 l2 l3 => Sys2Proof.Machine.execCeilingBoundary energy l0 l1 l2 l3 s
  | .thermalSample die celsius => Sys2Proof.Machine.execThermalSample die celsius s
  | .droopDetect fid stretch => Sys2Proof.Machine.execDroopDetect fid stretch s
  | .park die => Sys2Proof.Machine.execPark die s
  | .parkShutdownDone die => Sys2Proof.Machine.execParkShutdownDone die s
  | .unpark die => Sys2Proof.Machine.execUnpark die s
  | .unparkStartDone die => Sys2Proof.Machine.execUnparkStartDone die s
  | .dieDrain die => Sys2Proof.Machine.execDieDrain die s
  | .firmwareHandover image => Sys2Proof.Machine.execFirmwareHandover image s
  | .expansionTableUpdate die table => Sys2Proof.Machine.execExpansionTableUpdate die table s
  | .softError pa correctable => Sys2Proof.Machine.execSoftError pa correctable s
  | .rowSparing die vault row => Sys2Proof.Machine.execRowSparing die vault row s
  | .vaultRecalibration die vault => Sys2Proof.Machine.execVaultRecalibration die vault s
  | .vaultSparing die vault switch => Sys2Proof.Machine.execVaultSparing die vault switch s
  | .coreRetire core => Sys2Proof.Machine.execCoreRetire core s
  | .illegalInstructionWord => Sys2Proof.Machine.execIllegalInstructionWord s
  | .lanternCoreAccess op pa size val => Sys2Proof.Machine.execLanternCoreAccess op pa size val s
  | .pageThaw ctx va => Sys2Proof.Machine.execPageThaw ctx va s
  | .homePageRecall pa len => Sys2Proof.Machine.execHomePageRecall pa len s
  | .contextMigrate ctx => Sys2Proof.Machine.execContextMigrate ctx s
  | .coreReturnToService core => Sys2Proof.Machine.execCoreReturnToService core s
  | .podJoin pkg => Sys2Proof.Machine.execPodJoin pkg s
  | .fusedMinimumRaise version => Sys2Proof.Machine.execFusedMinimumRaise version s

end Sys2Proof.Machine
end

