-- ==== Sys2Proof/WellFormed.lean ====
section
/-! DEFINITION. Which instructions are well-formed: the operand limits that R29, R30, R33, R39, R40, R42, R43, R189,
R203 and R209 put on the fields of a word. A word that breaks one encodes no instruction and traps ILLEGAL. -/

namespace Sys2Proof

/-- R33: a load takes width codes 0 to 6. -/
def loadWidth (w : BitVec 3) : Bool := decide (w.toNat < 7)

/-- R33: a store takes width codes 0 to 3. -/
def storeWidth (w : BitVec 3) : Bool := decide (w.toNat < 4)

/-- R39, R42: scope codes 0 `core` to 5 `sys`. -/
def scopeOk (s : BitVec 3) : Bool := decide (s.toNat < 6)

/-- R42: a core barrier index lies below 8, a forme barrier index below 16. -/
def barrierIndex (kind : BitVec 2) (idx : BitVec 6) : Bool :=
  match kind.toNat with
  | 0 => decide (idx.toNat < 8)
  | 1 => decide (idx.toNat < 16)
  | _ => true

/-- R41: a range instruction names a forme or a die barrier. -/
def sweepKind (kind : BitVec 2) : Bool := decide (kind.toNat = 1) || decide (kind.toNat = 2)

/-- R43: INT8 to INT64. -/
def intType (et : BitVec 3) : Bool := decide (et.toNat < 4)

/-- R43: FP16 to FP64. -/
def floatType (et : BitVec 3) : Bool := decide (4 ≤ et.toNat)

/-- R43: FP16, BF16, FP32. -/
def cvt8Type (et : BitVec 3) : Bool := decide (4 ≤ et.toNat) && decide (et.toNat < 7)

/-- R43: INT8, INT16, FP16, BF16, FP32. -/
def dotType (et : BitVec 3) : Bool := decide (et.toNat < 2) || cvt8Type et

/-- The operand limits of every instruction; an event has none here. -/
def Instr.wf : Instr → Bool
  | .lui .. => true
  | .auipc .. => true
  | .jal .. => true
  | .jalr .. => true
  | .beq .. => true
  | .bne .. => true
  | .blt .. => true
  | .bge .. => true
  | .bltu .. => true
  | .bgeu .. => true
  | .lb .. => true
  | .lh .. => true
  | .lw .. => true
  | .ld .. => true
  | .lbu .. => true
  | .lhu .. => true
  | .lwu .. => true
  | .sb .. => true
  | .sh .. => true
  | .sw .. => true
  | .sd .. => true
  | .addi .. => true
  | .slti .. => true
  | .sltiu .. => true
  | .xori .. => true
  | .ori .. => true
  | .andi .. => true
  | .slli .. => true
  | .srli .. => true
  | .srai .. => true
  | .addiw .. => true
  | .slliw .. => true
  | .srliw .. => true
  | .sraiw .. => true
  | .add .. => true
  | .sub .. => true
  | .sll .. => true
  | .slt .. => true
  | .sltu .. => true
  | .xorr .. => true
  | .srl .. => true
  | .sra .. => true
  | .orr .. => true
  | .andr .. => true
  | .addw .. => true
  | .subw .. => true
  | .sllw .. => true
  | .srlw .. => true
  | .sraw .. => true
  | .mul .. => true
  | .mulh .. => true
  | .mulhsu .. => true
  | .mulhu .. => true
  | .div .. => true
  | .divu .. => true
  | .rem .. => true
  | .remu .. => true
  | .mulw .. => true
  | .divw .. => true
  | .divuw .. => true
  | .remw .. => true
  | .remuw .. => true
  | .czeroEqz .. => true
  | .czeroNez .. => true
  | .fence .. => true
  | .fenceTso .. => true
  | .ecall => true
  | .ebreak => true
  | .csrrw .. => true
  | .csrrs .. => true
  | .csrrc .. => true
  | .csrrwi .. => true
  | .csrrsi .. => true
  | .csrrci .. => true
  | .pld _ _ _ width _ => loadWidth width
  | .pst _ _ _ width _ => storeWidth width
  | .pldBr _ _ _ width => loadWidth width
  | .pstBr _ _ _ width => storeWidth width
  | .bo .. => true
  | .yield => true
  | .yieldN .. => true
  | .sleep .. => true
  | .thrSpawn .. => true
  | .thrExit => true
  | .go .. => true
  | .msend .. => true
  | .mrecv .. => true
  | .mfrom .. => true
  | .mark .. => true
  | .qinit .. => true
  | .qacq .. => true
  | .qwait .. => true
  | .qgive .. => true
  | .qswap .. => true
  | .qdrop .. => true
  | .qrel .. => true
  | .qstat .. => true
  | .amoAdd _ _ _ _ scope _ => scopeOk scope
  | .amoAnd _ _ _ _ scope _ => scopeOk scope
  | .amoOr _ _ _ _ scope _ => scopeOk scope
  | .amoXor _ _ _ _ scope _ => scopeOk scope
  | .amoMin _ _ _ _ scope _ => scopeOk scope
  | .amoMax _ _ _ _ scope _ => scopeOk scope
  | .amoMinu _ _ _ _ scope _ => scopeOk scope
  | .amoMaxu _ _ _ _ scope _ => scopeOk scope
  | .amoSwap _ _ _ _ scope _ => scopeOk scope
  | .amoCas _ _ _ _ scope _ => scopeOk scope
  | .red _ _ kind _ => decide (kind.toNat < 13)
  | .lineWb .. => true
  | .lineInv .. => true
  | .lineWbinv .. => true
  | .pqPush .. => true
  | .pqDone .. => true
  | .pqResume .. => true
  | .cbitTest .. => true
  | .ksub .. => true
  | .barArrive _ kind idx _ => barrierIndex kind idx
  | .barWait _ kind idx _ => barrierIndex kind idx
  | .barAw _ kind idx _ => barrierIndex kind idx
  | .barCfg _ kind idx _ => barrierIndex kind idx
  | .fnc kind scope _ => decide (kind.toNat < 3) && scopeOk scope
  | .plda _ _ width scope _ => loadWidth width && scopeOk scope
  | .pstr _ _ width scope _ => storeWidth width && scopeOk scope
  | .pshD .. => true
  | .pshLine .. => true
  | .rngWb _ _ kind idx _ => sweepKind kind && barrierIndex kind idx
  | .rngInv _ _ kind idx _ => sweepKind kind && barrierIndex kind idx
  | .rngWbinv _ _ kind idx _ => sweepKind kind && barrierIndex kind idx
  | .gxKick .. => true
  | .lc .. => true
  | .tiLoad .. => true
  | .tiInv .. => true
  | .vadd .. => true
  | .vsub .. => true
  | .vmul .. => true
  | .vfma .. => true
  | .vminu _ _ _ et _ => intType et
  | .vmin .. => true
  | .vmax .. => true
  | .vabs .. => true
  | .vneg .. => true
  | .vdiv _ _ _ et _ => floatType et
  | .vsqrt _ _ et _ => floatType et
  | .vrcpe _ _ et _ => floatType et
  | .vrsqe _ _ et _ => floatType et
  | .vmaxu _ _ _ et _ => intType et
  | .vand _ _ _ et _ => intType et
  | .vor _ _ _ et _ => intType et
  | .vxor _ _ _ et _ => intType et
  | .vshl _ _ _ et _ => intType et
  | .vshr _ _ _ et _ => intType et
  | .vsra _ _ _ et _ => intType et
  | .vcmpEq .. => true
  | .vcmpNe .. => true
  | .vcmpLt .. => true
  | .vcmpLe .. => true
  | .vsel .. => true
  | .vcmpLtu _ _ et _ => intType et
  | .vbc .. => true
  | .vbcC .. => true
  | .vmv .. => true
  | .vmvClean => true
  | .vext .. => true
  | .vcvt .. => true
  | .vcvt8 _ _ src et _ => cvt8Type et && decide (src.toNat < 4)
  | .vredAdd .. => true
  | .vredMax .. => true
  | .vredMin .. => true
  | .vdot _ _ _ et _ => dotType et
  | .vperm .. => true
  | .vslide .. => true
  | .vld .. => true
  | .vst .. => true
  | .vldx vd vs1 _ _ _ _ => decide (vd ≠ vs1)
  | .vstx .. => true
  | .claimDataArrival .. => true
  | .holdWindowClose .. => true
  | .yieldTimeout .. => true
  | .sleepEnd .. => true
  | .swapIn .. => true
  | .swapOut .. => true
  | .migrationArrival .. => true
  | .mailboxFlit .. => true
  | .messageAck .. => true
  | .messageNack .. => true
  | .messageReplay .. => true
  | .trapRecordWrite .. => true
  | .watchdogExpiry .. => true
  | .readRequest .. => true
  | .exclusiveRequest .. => true
  | .uRequest .. => true
  | .pushWrite .. => true
  | .evictionNotice .. => true
  | .writeBack .. => true
  | .acknowledgement .. => true
  | .invalidation .. => true
  | .shareRecall .. => true
  | .updateRecall .. => true
  | .pushFill .. => true
  | .pushCompletion .. => true
  | .claimCopyReturn .. => true
  | .untrackedWriteBack .. => true
  | .hostWrite .. => true
  | .hostRead .. => true
  | .barrierRelease .. => true
  | .semRemoteArrival .. => true
  | .semArrivalReply .. => true
  | .semPhaseUpdate .. => true
  | .pressArbitration .. => true
  | .lstat .. => true
  | .flip .. => true
  | .stream .. => true
  | .aclr .. => true
  | .drain .. => true
  | .acopy .. => true
  | .aload .. => true
  | .pressMark .. => true
  | .share .. => true
  | .groupQueueDiscard .. => true
  | .galleyChain .. => true
  | .copy .. => true
  | .compose .. => true
  | .scatter .. => true
  | .fill .. => true
  | .convert .. => true
  | .galleyChunkDone .. => true
  | .sweep .. => true
  | .tableWalk .. => true
  | .faultRingWrite .. => true
  | .queueDoorbell .. => true
  | .queueEnable .. => true
  | .queueDisable .. => true
  | .queueCancel .. => true
  | .dependenceMet .. => true
  | .kernelAdmit .. => true
  | .groupPlace .. => true
  | .kernelDrainComplete .. => true
  | .kernelCancel .. => true
  | .kernelFaultMark .. => true
  | .groupSave .. => true
  | .groupRestore .. => true
  | .tenantSliceEnd .. => true
  | .contextPublish .. => true
  | .contextFaultMark .. => true
  | .contextTeardown .. => true
  | .imageRestore .. => true
  | .bucketRefill .. => true
  | .fansResolve .. => true
  | .fansDecline .. => true
  | .shoot .. => true
  | .assnDieBarrier .. => true
  | .assnGalleyChannel .. => true
  | .tresResume .. => true
  | .tresEnd .. => true
  | .linkDataFlit .. => true
  | .linkAck .. => true
  | .linkNack .. => true
  | .linkBackoffExpiry .. => true
  | .linkReplayTimeout .. => true
  | .linkEnable .. => true
  | .linkTrainingDone .. => true
  | .laneMarginal .. => true
  | .laneLost .. => true
  | .linkDrainRequest .. => true
  | .linkWindowDrained .. => true
  | .spareSwapComplete .. => true
  | .portRingDoorbell .. => true
  | .networkSend .. => true
  | .storageRead .. => true
  | .storageWrite .. => true
  | .storageFlush .. => true
  | .nvmeCompletion .. => true
  | .traceDrain .. => true
  | .snapshot => true
  | .stopOnTick => true
  | .stopctlArm .. => true
  | .registerWrite .. => true
  | .gtickDiscipline .. => true
  | .powerGood => true
  | .powerGoodFall => true
  | .firmwareVerify .. => true
  | .dieStart .. => true
  | .attestationReport .. => true
  | .managementReset => true
  | .scanOut => true
  | .pwrcapWrite .. => true
  | .preqWrite .. => true
  | .pstateTransitionDone .. => true
  | .ceilingBoundary .. => true
  | .thermalSample .. => true
  | .droopDetect .. => true
  | .park .. => true
  | .parkShutdownDone .. => true
  | .unpark .. => true
  | .unparkStartDone .. => true
  | .dieDrain .. => true
  | .firmwareHandover .. => true
  | .expansionTableUpdate .. => true
  | .softError .. => true
  | .rowSparing .. => true
  | .vaultRecalibration .. => true
  | .vaultSparing .. => true
  | .coreRetire .. => true
  | .illegalInstructionWord => true
  | .lanternCoreAccess .. => true
  | .pageThaw .. => true
  | .homePageRecall .. => true
  | .contextMigrate .. => true
  | .coreReturnToService .. => true
  | .podJoin .. => true
  | .fusedMinimumRaise .. => true

end Sys2Proof
end

