-- ==== Sys2Proof/Decode.lean ====
section
/-! DEFINITION. The decoder and the encoder of the 32-bit instruction words (R27 to R44, R71, R96, R133, R157, R188,
R189, R231, R258, R302, R353).

A word is read as a natural number below 2^32, little-endian in memory (R27, R4). `decode` rejects (answers `none`)
every word that encodes no instruction, by the reserved-field rule R30, the register rule R29 and the operand limits
of `Instr.wf`; the step then traps ILLEGAL. -/

namespace Sys2Proof

/-- Bits [lo + n - 1 : lo] of a word (R4). -/
def bits (w lo n : Nat) : Nat := w / 2 ^ lo % 2 ^ n

/-- The `n`-bit field of a word whose lowest bit is bit `lo`. -/
def fld (n w lo : Nat) : BitVec n := .ofNat n (bits w lo n)

/-- The instruction when the word's fixed fields hold, and nothing otherwise (R30). -/
def keep (b : Bool) (i : Instr) : Option Instr := if b then some i else none

/-- Major opcode 0x03, R53, R58. -/
def decodeLoad (w : Nat) : Option Instr :=
  match bits w 12 3 with
  | 0 => keep (bits w 19 1 == 0 && bits w 11 1 == 0) (.lb (fld 4 w 7) (fld 4 w 15) (fld 12 w 20))
  | 1 => keep (bits w 19 1 == 0 && bits w 11 1 == 0) (.lh (fld 4 w 7) (fld 4 w 15) (fld 12 w 20))
  | 2 => keep (bits w 19 1 == 0 && bits w 11 1 == 0) (.lw (fld 4 w 7) (fld 4 w 15) (fld 12 w 20))
  | 3 => keep (bits w 19 1 == 0 && bits w 11 1 == 0) (.ld (fld 4 w 7) (fld 4 w 15) (fld 12 w 20))
  | 4 => keep (bits w 19 1 == 0 && bits w 11 1 == 0) (.lbu (fld 4 w 7) (fld 4 w 15) (fld 12 w 20))
  | 5 => keep (bits w 19 1 == 0 && bits w 11 1 == 0) (.lhu (fld 4 w 7) (fld 4 w 15) (fld 12 w 20))
  | 6 => keep (bits w 19 1 == 0 && bits w 11 1 == 0) (.lwu (fld 4 w 7) (fld 4 w 15) (fld 12 w 20))
  | _ => none

/-- Major opcode 0x23, R53, R58. -/
def decodeStore (w : Nat) : Option Instr :=
  match bits w 12 3 with
  | 0 => keep (bits w 24 1 == 0 && bits w 19 1 == 0) (.sb (fld 4 w 15) (fld 4 w 20) (.ofNat 12 (bits w 7 5 + bits w 25 7 * 32)))
  | 1 => keep (bits w 24 1 == 0 && bits w 19 1 == 0) (.sh (fld 4 w 15) (fld 4 w 20) (.ofNat 12 (bits w 7 5 + bits w 25 7 * 32)))
  | 2 => keep (bits w 24 1 == 0 && bits w 19 1 == 0) (.sw (fld 4 w 15) (fld 4 w 20) (.ofNat 12 (bits w 7 5 + bits w 25 7 * 32)))
  | 3 => keep (bits w 24 1 == 0 && bits w 19 1 == 0) (.sd (fld 4 w 15) (fld 4 w 20) (.ofNat 12 (bits w 7 5 + bits w 25 7 * 32)))
  | _ => none

/-- Major opcode 0x63, R53. -/
def decodeBranch (w : Nat) : Option Instr :=
  match bits w 12 3 with
  | 0 => keep (bits w 24 1 == 0 && bits w 19 1 == 0) (.beq (fld 4 w 15) (fld 4 w 20) (.ofNat 12 (bits w 8 4 + bits w 25 6 * 16 + bits w 7 1 * 1024 + bits w 31 1 * 2048)))
  | 1 => keep (bits w 24 1 == 0 && bits w 19 1 == 0) (.bne (fld 4 w 15) (fld 4 w 20) (.ofNat 12 (bits w 8 4 + bits w 25 6 * 16 + bits w 7 1 * 1024 + bits w 31 1 * 2048)))
  | 4 => keep (bits w 24 1 == 0 && bits w 19 1 == 0) (.blt (fld 4 w 15) (fld 4 w 20) (.ofNat 12 (bits w 8 4 + bits w 25 6 * 16 + bits w 7 1 * 1024 + bits w 31 1 * 2048)))
  | 5 => keep (bits w 24 1 == 0 && bits w 19 1 == 0) (.bge (fld 4 w 15) (fld 4 w 20) (.ofNat 12 (bits w 8 4 + bits w 25 6 * 16 + bits w 7 1 * 1024 + bits w 31 1 * 2048)))
  | 6 => keep (bits w 24 1 == 0 && bits w 19 1 == 0) (.bltu (fld 4 w 15) (fld 4 w 20) (.ofNat 12 (bits w 8 4 + bits w 25 6 * 16 + bits w 7 1 * 1024 + bits w 31 1 * 2048)))
  | 7 => keep (bits w 24 1 == 0 && bits w 19 1 == 0) (.bgeu (fld 4 w 15) (fld 4 w 20) (.ofNat 12 (bits w 8 4 + bits w 25 6 * 16 + bits w 7 1 * 1024 + bits w 31 1 * 2048)))
  | _ => none

/-- Major opcode 0x13, R53: a shift has a 6-bit amount and fixed bits [31:26]. -/
def decodeOpImm (w : Nat) : Option Instr :=
  match bits w 12 3 with
  | 0 => keep (bits w 19 1 == 0 && bits w 11 1 == 0) (.addi (fld 4 w 7) (fld 4 w 15) (fld 12 w 20))
  | 1 => keep (bits w 26 6 == 0 && bits w 19 1 == 0 && bits w 11 1 == 0) (.slli (fld 4 w 7) (fld 4 w 15) (fld 6 w 20))
  | 2 => keep (bits w 19 1 == 0 && bits w 11 1 == 0) (.slti (fld 4 w 7) (fld 4 w 15) (fld 12 w 20))
  | 3 => keep (bits w 19 1 == 0 && bits w 11 1 == 0) (.sltiu (fld 4 w 7) (fld 4 w 15) (fld 12 w 20))
  | 4 => keep (bits w 19 1 == 0 && bits w 11 1 == 0) (.xori (fld 4 w 7) (fld 4 w 15) (fld 12 w 20))
  | 5 => (keep (bits w 26 6 == 0 && bits w 19 1 == 0 && bits w 11 1 == 0) (.srli (fld 4 w 7) (fld 4 w 15) (fld 6 w 20))).or (keep (bits w 26 6 == 16 && bits w 19 1 == 0 && bits w 11 1 == 0) (.srai (fld 4 w 7) (fld 4 w 15) (fld 6 w 20)))
  | 6 => keep (bits w 19 1 == 0 && bits w 11 1 == 0) (.ori (fld 4 w 7) (fld 4 w 15) (fld 12 w 20))
  | 7 => keep (bits w 19 1 == 0 && bits w 11 1 == 0) (.andi (fld 4 w 7) (fld 4 w 15) (fld 12 w 20))
  | _ => none

/-- Major opcode 0x1B, R53: a shift has a 5-bit amount, and bit [25] must be 0. -/
def decodeOpImm32 (w : Nat) : Option Instr :=
  match bits w 12 3 with
  | 0 => keep (bits w 19 1 == 0 && bits w 11 1 == 0) (.addiw (fld 4 w 7) (fld 4 w 15) (fld 12 w 20))
  | 1 => keep (bits w 25 7 == 0 && bits w 19 1 == 0 && bits w 11 1 == 0) (.slliw (fld 4 w 7) (fld 4 w 15) (fld 5 w 20))
  | 5 => (keep (bits w 25 7 == 0 && bits w 19 1 == 0 && bits w 11 1 == 0) (.srliw (fld 4 w 7) (fld 4 w 15) (fld 5 w 20))).or (keep (bits w 25 7 == 32 && bits w 19 1 == 0 && bits w 11 1 == 0) (.sraiw (fld 4 w 7) (fld 4 w 15) (fld 5 w 20)))
  | _ => none

/-- Major opcode 0x33, keyed by funct3 and funct7: RV64I, M and Zicond (R53 to R55). -/
def decodeOp (w : Nat) : Option Instr :=
  match bits w 12 3 + 8 * bits w 25 7 with
  | 0 => keep (bits w 24 1 == 0 && bits w 19 1 == 0 && bits w 11 1 == 0) (.add (fld 4 w 7) (fld 4 w 15) (fld 4 w 20))
  | 1 => keep (bits w 24 1 == 0 && bits w 19 1 == 0 && bits w 11 1 == 0) (.sll (fld 4 w 7) (fld 4 w 15) (fld 4 w 20))
  | 2 => keep (bits w 24 1 == 0 && bits w 19 1 == 0 && bits w 11 1 == 0) (.slt (fld 4 w 7) (fld 4 w 15) (fld 4 w 20))
  | 3 => keep (bits w 24 1 == 0 && bits w 19 1 == 0 && bits w 11 1 == 0) (.sltu (fld 4 w 7) (fld 4 w 15) (fld 4 w 20))
  | 4 => keep (bits w 24 1 == 0 && bits w 19 1 == 0 && bits w 11 1 == 0) (.xorr (fld 4 w 7) (fld 4 w 15) (fld 4 w 20))
  | 5 => keep (bits w 24 1 == 0 && bits w 19 1 == 0 && bits w 11 1 == 0) (.srl (fld 4 w 7) (fld 4 w 15) (fld 4 w 20))
  | 6 => keep (bits w 24 1 == 0 && bits w 19 1 == 0 && bits w 11 1 == 0) (.orr (fld 4 w 7) (fld 4 w 15) (fld 4 w 20))
  | 7 => keep (bits w 24 1 == 0 && bits w 19 1 == 0 && bits w 11 1 == 0) (.andr (fld 4 w 7) (fld 4 w 15) (fld 4 w 20))
  | 8 => keep (bits w 24 1 == 0 && bits w 19 1 == 0 && bits w 11 1 == 0) (.mul (fld 4 w 7) (fld 4 w 15) (fld 4 w 20))
  | 9 => keep (bits w 24 1 == 0 && bits w 19 1 == 0 && bits w 11 1 == 0) (.mulh (fld 4 w 7) (fld 4 w 15) (fld 4 w 20))
  | 10 => keep (bits w 24 1 == 0 && bits w 19 1 == 0 && bits w 11 1 == 0) (.mulhsu (fld 4 w 7) (fld 4 w 15) (fld 4 w 20))
  | 11 => keep (bits w 24 1 == 0 && bits w 19 1 == 0 && bits w 11 1 == 0) (.mulhu (fld 4 w 7) (fld 4 w 15) (fld 4 w 20))
  | 12 => keep (bits w 24 1 == 0 && bits w 19 1 == 0 && bits w 11 1 == 0) (.div (fld 4 w 7) (fld 4 w 15) (fld 4 w 20))
  | 13 => keep (bits w 24 1 == 0 && bits w 19 1 == 0 && bits w 11 1 == 0) (.divu (fld 4 w 7) (fld 4 w 15) (fld 4 w 20))
  | 14 => keep (bits w 24 1 == 0 && bits w 19 1 == 0 && bits w 11 1 == 0) (.rem (fld 4 w 7) (fld 4 w 15) (fld 4 w 20))
  | 15 => keep (bits w 24 1 == 0 && bits w 19 1 == 0 && bits w 11 1 == 0) (.remu (fld 4 w 7) (fld 4 w 15) (fld 4 w 20))
  | 61 => keep (bits w 24 1 == 0 && bits w 19 1 == 0 && bits w 11 1 == 0) (.czeroEqz (fld 4 w 7) (fld 4 w 15) (fld 4 w 20))
  | 63 => keep (bits w 24 1 == 0 && bits w 19 1 == 0 && bits w 11 1 == 0) (.czeroNez (fld 4 w 7) (fld 4 w 15) (fld 4 w 20))
  | 256 => keep (bits w 24 1 == 0 && bits w 19 1 == 0 && bits w 11 1 == 0) (.sub (fld 4 w 7) (fld 4 w 15) (fld 4 w 20))
  | 261 => keep (bits w 24 1 == 0 && bits w 19 1 == 0 && bits w 11 1 == 0) (.sra (fld 4 w 7) (fld 4 w 15) (fld 4 w 20))
  | _ => none

/-- Major opcode 0x3B (R53, R54). -/
def decodeOp32 (w : Nat) : Option Instr :=
  match bits w 12 3 + 8 * bits w 25 7 with
  | 0 => keep (bits w 24 1 == 0 && bits w 19 1 == 0 && bits w 11 1 == 0) (.addw (fld 4 w 7) (fld 4 w 15) (fld 4 w 20))
  | 1 => keep (bits w 24 1 == 0 && bits w 19 1 == 0 && bits w 11 1 == 0) (.sllw (fld 4 w 7) (fld 4 w 15) (fld 4 w 20))
  | 5 => keep (bits w 24 1 == 0 && bits w 19 1 == 0 && bits w 11 1 == 0) (.srlw (fld 4 w 7) (fld 4 w 15) (fld 4 w 20))
  | 8 => keep (bits w 24 1 == 0 && bits w 19 1 == 0 && bits w 11 1 == 0) (.mulw (fld 4 w 7) (fld 4 w 15) (fld 4 w 20))
  | 12 => keep (bits w 24 1 == 0 && bits w 19 1 == 0 && bits w 11 1 == 0) (.divw (fld 4 w 7) (fld 4 w 15) (fld 4 w 20))
  | 13 => keep (bits w 24 1 == 0 && bits w 19 1 == 0 && bits w 11 1 == 0) (.divuw (fld 4 w 7) (fld 4 w 15) (fld 4 w 20))
  | 14 => keep (bits w 24 1 == 0 && bits w 19 1 == 0 && bits w 11 1 == 0) (.remw (fld 4 w 7) (fld 4 w 15) (fld 4 w 20))
  | 15 => keep (bits w 24 1 == 0 && bits w 19 1 == 0 && bits w 11 1 == 0) (.remuw (fld 4 w 7) (fld 4 w 15) (fld 4 w 20))
  | 256 => keep (bits w 24 1 == 0 && bits w 19 1 == 0 && bits w 11 1 == 0) (.subw (fld 4 w 7) (fld 4 w 15) (fld 4 w 20))
  | 261 => keep (bits w 24 1 == 0 && bits w 19 1 == 0 && bits w 11 1 == 0) (.sraw (fld 4 w 7) (fld 4 w 15) (fld 4 w 20))
  | _ => none

/-- Major opcode 0x0F, keyed by fm: FENCE and FENCE.TSO; FENCE.I and other fm are refused (R29). -/
def decodeFence (w : Nat) : Option Instr :=
  match bits w 28 4 with
  | 0 => keep (bits w 12 3 == 0) (.fence (fld 5 w 7) (fld 5 w 15) (fld 4 w 24) (fld 4 w 20))
  | 8 => keep (bits w 12 3 == 0) (.fenceTso (fld 5 w 7) (fld 5 w 15) (fld 4 w 24) (fld 4 w 20))
  | _ => none

/-- Major opcode 0x73: ECALL, EBREAK and Zicsr (R29). -/
def decodeSystem (w : Nat) : Option Instr :=
  match bits w 12 3 with
  | 0 => (keep (bits w 7 5 == 0 && bits w 15 17 == 0) (.ecall)).or (keep (bits w 7 5 == 0 && bits w 15 17 == 32) (.ebreak))
  | 1 => keep (bits w 19 1 == 0 && bits w 11 1 == 0) (.csrrw (fld 4 w 7) (fld 4 w 15) (fld 12 w 20))
  | 2 => keep (bits w 19 1 == 0 && bits w 11 1 == 0) (.csrrs (fld 4 w 7) (fld 4 w 15) (fld 12 w 20))
  | 3 => keep (bits w 19 1 == 0 && bits w 11 1 == 0) (.csrrc (fld 4 w 7) (fld 4 w 15) (fld 12 w 20))
  | 5 => keep (bits w 11 1 == 0) (.csrrwi (fld 4 w 7) (fld 12 w 20) (fld 5 w 15))
  | 6 => keep (bits w 11 1 == 0) (.csrrsi (fld 4 w 7) (fld 12 w 20) (fld 5 w 15))
  | 7 => keep (bits w 11 1 == 0) (.csrrci (fld 4 w 7) (fld 12 w 20) (fld 5 w 15))
  | _ => none

/-- DM, custom-0, keyed by S (R33). -/
def decodeDM (w : Nat) : Option Instr :=
  match bits w 15 1 with
  | 0 => some (.pld (fld 4 w 8) (fld 4 w 16) (fld 12 w 20) (fld 3 w 12) (fld 1 w 7))
  | 1 => some (.pst (fld 4 w 8) (fld 4 w 16) (fld 12 w 20) (fld 3 w 12) (fld 1 w 7))
  | _ => none

/-- DB, custom-1, keyed by K and S (R34). -/
def decodeDB (w : Nat) : Option Instr :=
  match bits w 7 1 + 2 * bits w 15 1 with
  | 0 => some (.pldBr (fld 4 w 8) (fld 4 w 16) (fld 12 w 20) (fld 3 w 12))
  | 1 => keep (bits w 12 3 == 0 && bits w 16 4 == 0) (.bo (fld 12 w 20) (fld 4 w 8))
  | 2 => some (.pstBr (fld 4 w 8) (fld 4 w 16) (fld 12 w 20) (fld 3 w 12))
  | _ => none

/-- DR and DC, custom-2, keyed by op8 (R36, R38, R41). -/
def decodeDRDC (w : Nat) : Option Instr :=
  match bits w 24 8 with
  | 0 => keep (bits w 7 17 == 1) (.yield)
  | 1 => keep (bits w 7 5 == 1 && bits w 16 8 == 0) (.yieldN (fld 4 w 12))
  | 2 => keep (bits w 7 5 == 1 && bits w 16 8 == 0) (.sleep (fld 4 w 12))
  | 3 => keep (bits w 20 4 == 0) (.thrSpawn (fld 4 w 8) (fld 4 w 12) (fld 4 w 16) (fld 1 w 7))
  | 4 => keep (bits w 7 17 == 0) (.thrExit)
  | 5 => keep (bits w 7 5 == 1 && bits w 16 8 == 0) (.go (fld 4 w 12))
  | 16 => keep (bits w 8 4 == 0 && bits w 20 4 == 0) (.msend (fld 4 w 12) (fld 4 w 16) (fld 1 w 7))
  | 17 => keep (bits w 12 12 == 0) (.mrecv (fld 4 w 8) (fld 1 w 7))
  | 18 => keep (bits w 12 12 == 0) (.mfrom (fld 4 w 8) (fld 1 w 7))
  | 32 => keep (bits w 8 4 == 0 && bits w 16 8 == 0) (.qinit (fld 4 w 12) (fld 1 w 7))
  | 33 => keep (bits w 16 8 == 0) (.qacq (fld 4 w 8) (fld 4 w 12) (fld 1 w 7))
  | 34 => keep (bits w 8 4 == 0 && bits w 16 8 == 0) (.qwait (fld 4 w 12) (fld 1 w 7))
  | 35 => keep (bits w 8 4 == 0 && bits w 20 4 == 0) (.qgive (fld 4 w 12) (fld 4 w 16) (fld 1 w 7))
  | 36 => keep (bits w 8 4 == 0 && bits w 20 4 == 0) (.qswap (fld 4 w 12) (fld 4 w 16) (fld 1 w 7))
  | 37 => keep (bits w 8 4 == 0 && bits w 16 8 == 0) (.qdrop (fld 4 w 12) (fld 1 w 7))
  | 38 => keep (bits w 8 4 == 0 && bits w 16 8 == 0) (.qrel (fld 4 w 12) (fld 1 w 7))
  | 39 => keep (bits w 16 8 == 0) (.qstat (fld 4 w 8) (fld 4 w 12) (fld 1 w 7))
  | 48 => some (.amoAdd (fld 4 w 8) (fld 4 w 12) (fld 4 w 16) (fld 1 w 23) (fld 3 w 20) (fld 1 w 7))
  | 49 => some (.amoAnd (fld 4 w 8) (fld 4 w 12) (fld 4 w 16) (fld 1 w 23) (fld 3 w 20) (fld 1 w 7))
  | 50 => some (.amoOr (fld 4 w 8) (fld 4 w 12) (fld 4 w 16) (fld 1 w 23) (fld 3 w 20) (fld 1 w 7))
  | 51 => some (.amoXor (fld 4 w 8) (fld 4 w 12) (fld 4 w 16) (fld 1 w 23) (fld 3 w 20) (fld 1 w 7))
  | 52 => some (.amoMin (fld 4 w 8) (fld 4 w 12) (fld 4 w 16) (fld 1 w 23) (fld 3 w 20) (fld 1 w 7))
  | 53 => some (.amoMax (fld 4 w 8) (fld 4 w 12) (fld 4 w 16) (fld 1 w 23) (fld 3 w 20) (fld 1 w 7))
  | 54 => some (.amoMinu (fld 4 w 8) (fld 4 w 12) (fld 4 w 16) (fld 1 w 23) (fld 3 w 20) (fld 1 w 7))
  | 55 => some (.amoMaxu (fld 4 w 8) (fld 4 w 12) (fld 4 w 16) (fld 1 w 23) (fld 3 w 20) (fld 1 w 7))
  | 56 => some (.amoSwap (fld 4 w 8) (fld 4 w 12) (fld 4 w 16) (fld 1 w 23) (fld 3 w 20) (fld 1 w 7))
  | 57 => some (.amoCas (fld 4 w 8) (fld 4 w 12) (fld 4 w 16) (fld 1 w 23) (fld 3 w 20) (fld 1 w 7))
  | 58 => keep (bits w 8 4 == 0) (.red (fld 4 w 12) (fld 4 w 16) (fld 4 w 20) (fld 1 w 7))
  | 64 => keep (bits w 8 4 == 0 && bits w 16 8 == 0) (.lineWb (fld 4 w 12) (fld 1 w 7))
  | 65 => keep (bits w 8 4 == 0 && bits w 16 8 == 0) (.lineInv (fld 4 w 12) (fld 1 w 7))
  | 66 => keep (bits w 8 4 == 0 && bits w 16 8 == 0) (.lineWbinv (fld 4 w 12) (fld 1 w 7))
  | 80 => keep (bits w 8 4 == 0 && bits w 16 8 == 0) (.pqPush (fld 4 w 12) (fld 1 w 7))
  | 81 => keep (bits w 8 4 == 0 && bits w 16 8 == 0) (.pqDone (fld 4 w 12) (fld 1 w 7))
  | 82 => keep (bits w 8 16 == 0) (.pqResume (fld 1 w 7))
  | 83 => keep (bits w 20 4 == 0) (.cbitTest (fld 4 w 8) (fld 4 w 12) (fld 4 w 16) (fld 1 w 7))
  | 96 => keep (bits w 8 4 == 0 && bits w 16 8 == 0) (.mark (fld 4 w 12) (fld 1 w 7))
  | 97 => keep (bits w 20 4 == 0) (.ksub (fld 4 w 8) (fld 4 w 12) (fld 4 w 16) (fld 1 w 7))
  | 128 => keep (bits w 12 4 == 0) (.barArrive (fld 4 w 8) (fld 2 w 22) (fld 6 w 16) (fld 1 w 7))
  | 129 => keep (bits w 8 4 == 0) (.barWait (fld 4 w 12) (fld 2 w 22) (fld 6 w 16) (fld 1 w 7))
  | 130 => keep (bits w 12 4 == 0) (.barAw (fld 4 w 8) (fld 2 w 22) (fld 6 w 16) (fld 1 w 7))
  | 131 => keep (bits w 8 4 == 0) (.barCfg (fld 4 w 12) (fld 2 w 22) (fld 6 w 16) (fld 1 w 7))
  | 136 => keep (bits w 8 8 == 0 && bits w 19 3 == 0) (.fnc (fld 2 w 22) (fld 3 w 16) (fld 1 w 7))
  | 137 => keep (bits w 22 2 == 0) (.plda (fld 4 w 8) (fld 4 w 12) (fld 3 w 19) (fld 3 w 16) (fld 1 w 7))
  | 138 => keep (bits w 22 2 == 1) (.pstr (fld 4 w 8) (fld 4 w 12) (fld 3 w 19) (fld 3 w 16) (fld 1 w 7))
  | 144 => some (.pshD (fld 4 w 8) (fld 4 w 12) (fld 8 w 16) (fld 1 w 7))
  | 145 => keep (bits w 8 4 == 0) (.pshLine (fld 4 w 12) (fld 8 w 16) (fld 1 w 7))
  | 152 => some (.rngWb (fld 4 w 12) (fld 4 w 8) (fld 2 w 22) (fld 6 w 16) (fld 1 w 7))
  | 153 => some (.rngInv (fld 4 w 12) (fld 4 w 8) (fld 2 w 22) (fld 6 w 16) (fld 1 w 7))
  | 154 => some (.rngWbinv (fld 4 w 12) (fld 4 w 8) (fld 2 w 22) (fld 6 w 16) (fld 1 w 7))
  | 160 => keep (bits w 8 4 == 0 && bits w 22 2 == 0) (.gxKick (fld 4 w 12) (fld 6 w 16) (fld 1 w 7))
  | 176 => keep (bits w 12 4 == 0) (.lc (fld 4 w 8) (fld 8 w 16) (fld 1 w 7))
  | 184 => keep (bits w 8 4 == 0) (.tiLoad (fld 4 w 12) (fld 8 w 16) (fld 1 w 7))
  | 185 => keep (bits w 8 8 == 0) (.tiInv (fld 8 w 16) (fld 1 w 7))
  | _ => none

/-- DV, custom-3, keyed by op8 (R37, R43, R189). -/
def decodeDV (w : Nat) : Option Instr :=
  match bits w 24 8 with
  | 0 => keep (bits w 16 4 == 0) (.vadd (fld 3 w 7) (fld 3 w 10) (fld 3 w 13) (fld 3 w 21) (fld 1 w 20))
  | 1 => keep (bits w 16 4 == 0) (.vsub (fld 3 w 7) (fld 3 w 10) (fld 3 w 13) (fld 3 w 21) (fld 1 w 20))
  | 2 => keep (bits w 16 4 == 0) (.vmul (fld 3 w 7) (fld 3 w 10) (fld 3 w 13) (fld 3 w 21) (fld 1 w 20))
  | 3 => keep (bits w 16 4 == 0) (.vfma (fld 3 w 7) (fld 3 w 10) (fld 3 w 13) (fld 3 w 21) (fld 1 w 20))
  | 4 => keep (bits w 16 4 == 0) (.vminu (fld 3 w 7) (fld 3 w 10) (fld 3 w 13) (fld 3 w 21) (fld 1 w 20))
  | 5 => keep (bits w 16 4 == 0) (.vmin (fld 3 w 7) (fld 3 w 10) (fld 3 w 13) (fld 3 w 21) (fld 1 w 20))
  | 6 => keep (bits w 16 4 == 0) (.vmax (fld 3 w 7) (fld 3 w 10) (fld 3 w 13) (fld 3 w 21) (fld 1 w 20))
  | 7 => keep (bits w 13 7 == 0) (.vabs (fld 3 w 7) (fld 3 w 10) (fld 3 w 21) (fld 1 w 20))
  | 8 => keep (bits w 13 7 == 0) (.vneg (fld 3 w 7) (fld 3 w 10) (fld 3 w 21) (fld 1 w 20))
  | 9 => keep (bits w 16 4 == 0) (.vdiv (fld 3 w 7) (fld 3 w 10) (fld 3 w 13) (fld 3 w 21) (fld 1 w 20))
  | 10 => keep (bits w 13 7 == 0) (.vsqrt (fld 3 w 7) (fld 3 w 10) (fld 3 w 21) (fld 1 w 20))
  | 11 => keep (bits w 13 7 == 0) (.vrcpe (fld 3 w 7) (fld 3 w 10) (fld 3 w 21) (fld 1 w 20))
  | 12 => keep (bits w 13 7 == 0) (.vrsqe (fld 3 w 7) (fld 3 w 10) (fld 3 w 21) (fld 1 w 20))
  | 13 => keep (bits w 16 4 == 0) (.vmaxu (fld 3 w 7) (fld 3 w 10) (fld 3 w 13) (fld 3 w 21) (fld 1 w 20))
  | 16 => keep (bits w 16 4 == 0) (.vand (fld 3 w 7) (fld 3 w 10) (fld 3 w 13) (fld 3 w 21) (fld 1 w 20))
  | 17 => keep (bits w 16 4 == 0) (.vor (fld 3 w 7) (fld 3 w 10) (fld 3 w 13) (fld 3 w 21) (fld 1 w 20))
  | 18 => keep (bits w 16 4 == 0) (.vxor (fld 3 w 7) (fld 3 w 10) (fld 3 w 13) (fld 3 w 21) (fld 1 w 20))
  | 19 => keep (bits w 16 4 == 0) (.vshl (fld 3 w 7) (fld 3 w 10) (fld 3 w 13) (fld 3 w 21) (fld 1 w 20))
  | 20 => keep (bits w 16 4 == 0) (.vshr (fld 3 w 7) (fld 3 w 10) (fld 3 w 13) (fld 3 w 21) (fld 1 w 20))
  | 21 => keep (bits w 16 4 == 0) (.vsra (fld 3 w 7) (fld 3 w 10) (fld 3 w 13) (fld 3 w 21) (fld 1 w 20))
  | 24 => keep (bits w 7 3 == 0 && bits w 16 4 == 0) (.vcmpEq (fld 3 w 10) (fld 3 w 13) (fld 3 w 21) (fld 1 w 20))
  | 25 => keep (bits w 7 3 == 0 && bits w 16 4 == 0) (.vcmpNe (fld 3 w 10) (fld 3 w 13) (fld 3 w 21) (fld 1 w 20))
  | 26 => keep (bits w 7 3 == 0 && bits w 16 4 == 0) (.vcmpLt (fld 3 w 10) (fld 3 w 13) (fld 3 w 21) (fld 1 w 20))
  | 27 => keep (bits w 7 3 == 0 && bits w 16 4 == 0) (.vcmpLe (fld 3 w 10) (fld 3 w 13) (fld 3 w 21) (fld 1 w 20))
  | 28 => keep (bits w 16 5 == 0) (.vsel (fld 3 w 7) (fld 3 w 10) (fld 3 w 13) (fld 3 w 21))
  | 29 => keep (bits w 7 3 == 0 && bits w 16 4 == 0) (.vcmpLtu (fld 3 w 10) (fld 3 w 13) (fld 3 w 21) (fld 1 w 20))
  | 32 => keep (bits w 10 6 == 0) (.vbc (fld 3 w 7) (fld 4 w 16) (fld 3 w 21) (fld 1 w 20))
  | 33 => keep (bits w 10 3 == 0) (.vbcC (fld 3 w 7) (fld 8 w 13) (fld 3 w 21))
  | 34 => (keep (bits w 13 7 == 0) (.vmv (fld 3 w 7) (fld 3 w 10) (fld 3 w 21) (fld 1 w 20))).or (keep (bits w 7 17 == 512) (.vmvClean))
  | 35 => keep (bits w 7 3 == 0 && bits w 13 3 == 0 && bits w 20 1 == 0) (.vext (fld 3 w 10) (fld 4 w 16) (fld 3 w 21))
  | 40 => keep (bits w 16 4 == 0) (.vcvt (fld 3 w 7) (fld 3 w 10) (fld 3 w 13) (fld 3 w 21) (fld 1 w 20))
  | 41 => keep (bits w 16 4 == 0) (.vcvt8 (fld 3 w 7) (fld 3 w 10) (fld 3 w 13) (fld 3 w 21) (fld 1 w 20))
  | 48 => keep (bits w 13 7 == 0) (.vredAdd (fld 3 w 7) (fld 3 w 10) (fld 3 w 21) (fld 1 w 20))
  | 49 => keep (bits w 13 7 == 0) (.vredMax (fld 3 w 7) (fld 3 w 10) (fld 3 w 21) (fld 1 w 20))
  | 50 => keep (bits w 13 7 == 0) (.vredMin (fld 3 w 7) (fld 3 w 10) (fld 3 w 21) (fld 1 w 20))
  | 52 => keep (bits w 16 4 == 0) (.vdot (fld 3 w 7) (fld 3 w 10) (fld 3 w 13) (fld 3 w 21) (fld 1 w 20))
  | 56 => keep (bits w 16 4 == 0) (.vperm (fld 3 w 7) (fld 3 w 10) (fld 3 w 13) (fld 3 w 21) (fld 1 w 20))
  | 57 => keep (bits w 13 3 == 0) (.vslide (fld 3 w 7) (fld 3 w 10) (fld 4 w 16) (fld 3 w 21) (fld 1 w 20))
  | 64 => keep (bits w 10 6 == 0) (.vld (fld 3 w 7) (fld 4 w 16) (fld 2 w 21) (fld 1 w 20) (fld 1 w 23))
  | 65 => keep (bits w 10 6 == 0) (.vst (fld 3 w 7) (fld 4 w 16) (fld 2 w 21) (fld 1 w 20) (fld 1 w 23))
  | 66 => keep (bits w 13 3 == 0) (.vldx (fld 3 w 7) (fld 3 w 10) (fld 4 w 16) (fld 2 w 21) (fld 1 w 20) (fld 1 w 23))
  | 67 => keep (bits w 13 3 == 0) (.vstx (fld 3 w 7) (fld 3 w 10) (fld 4 w 16) (fld 2 w 21) (fld 1 w 20) (fld 1 w 23))
  | _ => none

/-- The instruction that a word's fields name, before the operand limits (R28). -/
def decodeRaw (w : Nat) : Option Instr :=
  match bits w 0 7 with
  | 0x03 => decodeLoad w
  | 0x0B => decodeDM w
  | 0x0F => decodeFence w
  | 0x13 => decodeOpImm w
  | 0x17 => keep (bits w 11 1 == 0) (.auipc (fld 4 w 7) (fld 20 w 12))
  | 0x1B => decodeOpImm32 w
  | 0x23 => decodeStore w
  | 0x2B => decodeDB w
  | 0x33 => decodeOp w
  | 0x37 => keep (bits w 11 1 == 0) (.lui (fld 4 w 7) (fld 20 w 12))
  | 0x3B => decodeOp32 w
  | 0x5B => decodeDRDC w
  | 0x63 => decodeBranch w
  | 0x67 => keep (bits w 12 3 == 0 && bits w 19 1 == 0 && bits w 11 1 == 0) (.jalr (fld 4 w 7) (fld 4 w 15) (fld 12 w 20))
  | 0x6F => keep (bits w 11 1 == 0) (.jal (fld 4 w 7) (.ofNat 20 (bits w 21 10 + bits w 20 1 * 1024 + bits w 12 8 * 2048 + bits w 31 1 * 524288)))
  | 0x73 => decodeSystem w
  | 0x7B => decodeDV w
  | _ => none

/-- The decoder (R27 to R44): total on every number, `none` where the word is ILLEGAL. -/
def decode (w : Nat) : Option Instr :=
  match decodeRaw w with
  | some i => keep i.wf i
  | none => none

/-- The decoder on four bytes in memory order, the byte at the lowest address first (R27: little-endian). -/
def decodeBytes (b : List (BitVec 8)) : Option Instr :=
  match b with
  | [b0, b1, b2, b3] => decode (b0.toNat + 256 * b1.toNat + 65536 * b2.toNat + 16777216 * b3.toNat)
  | _ => none

/-- The decoder's answer for an instruction whose bits the opcode table numbers as `w`: the HA-4 has one 32-bit word
per instruction, so the bits above `nbits` are zero and the word is `w` itself. -/
def decodeTableWord (nbits w : Nat) : Option Instr :=
  let v := w % 2 ^ nbits
  decodeBytes [.ofNat 8 v, .ofNat 8 (v / 256), .ofNat 8 (v / 65536), .ofNat 8 (v / 16777216)]

/-- The word of an instruction, from the same encoding tables; an event has no word and gives 0, which is ILLEGAL. -/
def encode : Instr → Nat
  | .lui rd imm => 0x37 + imm.toNat * 0x1000 + rd.toNat * 0x80
  | .auipc rd imm => 0x17 + imm.toNat * 0x1000 + rd.toNat * 0x80
  | .jal rd imm => 0x6f + bits imm.toNat 19 1 * 0x80000000 + bits imm.toNat 0 10 * 0x200000 + bits imm.toNat 10 1 * 0x100000 + bits imm.toNat 11 8 * 0x1000 + rd.toNat * 0x80
  | .jalr rd rs1 imm => 0x67 + imm.toNat * 0x100000 + rs1.toNat * 0x8000 + rd.toNat * 0x80
  | .beq rs1 rs2 imm => 0x63 + bits imm.toNat 11 1 * 0x80000000 + bits imm.toNat 4 6 * 0x2000000 + bits imm.toNat 0 4 * 0x100 + bits imm.toNat 10 1 * 0x80 + rs2.toNat * 0x100000 + rs1.toNat * 0x8000
  | .bne rs1 rs2 imm => 0x1063 + bits imm.toNat 11 1 * 0x80000000 + bits imm.toNat 4 6 * 0x2000000 + bits imm.toNat 0 4 * 0x100 + bits imm.toNat 10 1 * 0x80 + rs2.toNat * 0x100000 + rs1.toNat * 0x8000
  | .blt rs1 rs2 imm => 0x4063 + bits imm.toNat 11 1 * 0x80000000 + bits imm.toNat 4 6 * 0x2000000 + bits imm.toNat 0 4 * 0x100 + bits imm.toNat 10 1 * 0x80 + rs2.toNat * 0x100000 + rs1.toNat * 0x8000
  | .bge rs1 rs2 imm => 0x5063 + bits imm.toNat 11 1 * 0x80000000 + bits imm.toNat 4 6 * 0x2000000 + bits imm.toNat 0 4 * 0x100 + bits imm.toNat 10 1 * 0x80 + rs2.toNat * 0x100000 + rs1.toNat * 0x8000
  | .bltu rs1 rs2 imm => 0x6063 + bits imm.toNat 11 1 * 0x80000000 + bits imm.toNat 4 6 * 0x2000000 + bits imm.toNat 0 4 * 0x100 + bits imm.toNat 10 1 * 0x80 + rs2.toNat * 0x100000 + rs1.toNat * 0x8000
  | .bgeu rs1 rs2 imm => 0x7063 + bits imm.toNat 11 1 * 0x80000000 + bits imm.toNat 4 6 * 0x2000000 + bits imm.toNat 0 4 * 0x100 + bits imm.toNat 10 1 * 0x80 + rs2.toNat * 0x100000 + rs1.toNat * 0x8000
  | .lb rd rs1 imm => 0x3 + imm.toNat * 0x100000 + rs1.toNat * 0x8000 + rd.toNat * 0x80
  | .lh rd rs1 imm => 0x1003 + imm.toNat * 0x100000 + rs1.toNat * 0x8000 + rd.toNat * 0x80
  | .lw rd rs1 imm => 0x2003 + imm.toNat * 0x100000 + rs1.toNat * 0x8000 + rd.toNat * 0x80
  | .ld rd rs1 imm => 0x3003 + imm.toNat * 0x100000 + rs1.toNat * 0x8000 + rd.toNat * 0x80
  | .lbu rd rs1 imm => 0x4003 + imm.toNat * 0x100000 + rs1.toNat * 0x8000 + rd.toNat * 0x80
  | .lhu rd rs1 imm => 0x5003 + imm.toNat * 0x100000 + rs1.toNat * 0x8000 + rd.toNat * 0x80
  | .lwu rd rs1 imm => 0x6003 + imm.toNat * 0x100000 + rs1.toNat * 0x8000 + rd.toNat * 0x80
  | .sb rs1 rs2 imm => 0x23 + bits imm.toNat 5 7 * 0x2000000 + bits imm.toNat 0 5 * 0x80 + rs2.toNat * 0x100000 + rs1.toNat * 0x8000
  | .sh rs1 rs2 imm => 0x1023 + bits imm.toNat 5 7 * 0x2000000 + bits imm.toNat 0 5 * 0x80 + rs2.toNat * 0x100000 + rs1.toNat * 0x8000
  | .sw rs1 rs2 imm => 0x2023 + bits imm.toNat 5 7 * 0x2000000 + bits imm.toNat 0 5 * 0x80 + rs2.toNat * 0x100000 + rs1.toNat * 0x8000
  | .sd rs1 rs2 imm => 0x3023 + bits imm.toNat 5 7 * 0x2000000 + bits imm.toNat 0 5 * 0x80 + rs2.toNat * 0x100000 + rs1.toNat * 0x8000
  | .addi rd rs1 imm => 0x13 + imm.toNat * 0x100000 + rs1.toNat * 0x8000 + rd.toNat * 0x80
  | .slti rd rs1 imm => 0x2013 + imm.toNat * 0x100000 + rs1.toNat * 0x8000 + rd.toNat * 0x80
  | .sltiu rd rs1 imm => 0x3013 + imm.toNat * 0x100000 + rs1.toNat * 0x8000 + rd.toNat * 0x80
  | .xori rd rs1 imm => 0x4013 + imm.toNat * 0x100000 + rs1.toNat * 0x8000 + rd.toNat * 0x80
  | .ori rd rs1 imm => 0x6013 + imm.toNat * 0x100000 + rs1.toNat * 0x8000 + rd.toNat * 0x80
  | .andi rd rs1 imm => 0x7013 + imm.toNat * 0x100000 + rs1.toNat * 0x8000 + rd.toNat * 0x80
  | .slli rd rs1 sh => 0x1013 + sh.toNat * 0x100000 + rs1.toNat * 0x8000 + rd.toNat * 0x80
  | .srli rd rs1 sh => 0x5013 + sh.toNat * 0x100000 + rs1.toNat * 0x8000 + rd.toNat * 0x80
  | .srai rd rs1 sh => 0x40005013 + sh.toNat * 0x100000 + rs1.toNat * 0x8000 + rd.toNat * 0x80
  | .addiw rd rs1 imm => 0x1b + imm.toNat * 0x100000 + rs1.toNat * 0x8000 + rd.toNat * 0x80
  | .slliw rd rs1 sh => 0x101b + sh.toNat * 0x100000 + rs1.toNat * 0x8000 + rd.toNat * 0x80
  | .srliw rd rs1 sh => 0x501b + sh.toNat * 0x100000 + rs1.toNat * 0x8000 + rd.toNat * 0x80
  | .sraiw rd rs1 sh => 0x4000501b + sh.toNat * 0x100000 + rs1.toNat * 0x8000 + rd.toNat * 0x80
  | .add rd rs1 rs2 => 0x33 + rs2.toNat * 0x100000 + rs1.toNat * 0x8000 + rd.toNat * 0x80
  | .sub rd rs1 rs2 => 0x40000033 + rs2.toNat * 0x100000 + rs1.toNat * 0x8000 + rd.toNat * 0x80
  | .sll rd rs1 rs2 => 0x1033 + rs2.toNat * 0x100000 + rs1.toNat * 0x8000 + rd.toNat * 0x80
  | .slt rd rs1 rs2 => 0x2033 + rs2.toNat * 0x100000 + rs1.toNat * 0x8000 + rd.toNat * 0x80
  | .sltu rd rs1 rs2 => 0x3033 + rs2.toNat * 0x100000 + rs1.toNat * 0x8000 + rd.toNat * 0x80
  | .xorr rd rs1 rs2 => 0x4033 + rs2.toNat * 0x100000 + rs1.toNat * 0x8000 + rd.toNat * 0x80
  | .srl rd rs1 rs2 => 0x5033 + rs2.toNat * 0x100000 + rs1.toNat * 0x8000 + rd.toNat * 0x80
  | .sra rd rs1 rs2 => 0x40005033 + rs2.toNat * 0x100000 + rs1.toNat * 0x8000 + rd.toNat * 0x80
  | .orr rd rs1 rs2 => 0x6033 + rs2.toNat * 0x100000 + rs1.toNat * 0x8000 + rd.toNat * 0x80
  | .andr rd rs1 rs2 => 0x7033 + rs2.toNat * 0x100000 + rs1.toNat * 0x8000 + rd.toNat * 0x80
  | .addw rd rs1 rs2 => 0x3b + rs2.toNat * 0x100000 + rs1.toNat * 0x8000 + rd.toNat * 0x80
  | .subw rd rs1 rs2 => 0x4000003b + rs2.toNat * 0x100000 + rs1.toNat * 0x8000 + rd.toNat * 0x80
  | .sllw rd rs1 rs2 => 0x103b + rs2.toNat * 0x100000 + rs1.toNat * 0x8000 + rd.toNat * 0x80
  | .srlw rd rs1 rs2 => 0x503b + rs2.toNat * 0x100000 + rs1.toNat * 0x8000 + rd.toNat * 0x80
  | .sraw rd rs1 rs2 => 0x4000503b + rs2.toNat * 0x100000 + rs1.toNat * 0x8000 + rd.toNat * 0x80
  | .mul rd rs1 rs2 => 0x2000033 + rs2.toNat * 0x100000 + rs1.toNat * 0x8000 + rd.toNat * 0x80
  | .mulh rd rs1 rs2 => 0x2001033 + rs2.toNat * 0x100000 + rs1.toNat * 0x8000 + rd.toNat * 0x80
  | .mulhsu rd rs1 rs2 => 0x2002033 + rs2.toNat * 0x100000 + rs1.toNat * 0x8000 + rd.toNat * 0x80
  | .mulhu rd rs1 rs2 => 0x2003033 + rs2.toNat * 0x100000 + rs1.toNat * 0x8000 + rd.toNat * 0x80
  | .div rd rs1 rs2 => 0x2004033 + rs2.toNat * 0x100000 + rs1.toNat * 0x8000 + rd.toNat * 0x80
  | .divu rd rs1 rs2 => 0x2005033 + rs2.toNat * 0x100000 + rs1.toNat * 0x8000 + rd.toNat * 0x80
  | .rem rd rs1 rs2 => 0x2006033 + rs2.toNat * 0x100000 + rs1.toNat * 0x8000 + rd.toNat * 0x80
  | .remu rd rs1 rs2 => 0x2007033 + rs2.toNat * 0x100000 + rs1.toNat * 0x8000 + rd.toNat * 0x80
  | .mulw rd rs1 rs2 => 0x200003b + rs2.toNat * 0x100000 + rs1.toNat * 0x8000 + rd.toNat * 0x80
  | .divw rd rs1 rs2 => 0x200403b + rs2.toNat * 0x100000 + rs1.toNat * 0x8000 + rd.toNat * 0x80
  | .divuw rd rs1 rs2 => 0x200503b + rs2.toNat * 0x100000 + rs1.toNat * 0x8000 + rd.toNat * 0x80
  | .remw rd rs1 rs2 => 0x200603b + rs2.toNat * 0x100000 + rs1.toNat * 0x8000 + rd.toNat * 0x80
  | .remuw rd rs1 rs2 => 0x200703b + rs2.toNat * 0x100000 + rs1.toNat * 0x8000 + rd.toNat * 0x80
  | .czeroEqz rd rs1 rs2 => 0xe005033 + rs2.toNat * 0x100000 + rs1.toNat * 0x8000 + rd.toNat * 0x80
  | .czeroNez rd rs1 rs2 => 0xe007033 + rs2.toNat * 0x100000 + rs1.toNat * 0x8000 + rd.toNat * 0x80
  | .fence rd rs1 pred succ => 0xf + pred.toNat * 0x1000000 + succ.toNat * 0x100000 + rs1.toNat * 0x8000 + rd.toNat * 0x80
  | .fenceTso rd rs1 pred succ => 0x8000000f + rs1.toNat * 0x8000 + rd.toNat * 0x80 + pred.toNat * 0x1000000 + succ.toNat * 0x100000
  | .ecall => 0x73
  | .ebreak => 0x100073
  | .csrrw rd rs1 csr => 0x1073 + csr.toNat * 0x100000 + rs1.toNat * 0x8000 + rd.toNat * 0x80
  | .csrrs rd rs1 csr => 0x2073 + csr.toNat * 0x100000 + rs1.toNat * 0x8000 + rd.toNat * 0x80
  | .csrrc rd rs1 csr => 0x3073 + csr.toNat * 0x100000 + rs1.toNat * 0x8000 + rd.toNat * 0x80
  | .csrrwi rd csr uimm => 0x5073 + csr.toNat * 0x100000 + uimm.toNat * 0x8000 + rd.toNat * 0x80
  | .csrrsi rd csr uimm => 0x6073 + csr.toNat * 0x100000 + uimm.toNat * 0x8000 + rd.toNat * 0x80
  | .csrrci rd csr uimm => 0x7073 + csr.toNat * 0x100000 + uimm.toNat * 0x8000 + rd.toNat * 0x80
  | .pld rd base imm width nb => 0xb + imm.toNat * 0x100000 + base.toNat * 0x10000 + width.toNat * 0x1000 + rd.toNat * 0x100 + nb.toNat * 0x80
  | .pst rs base imm width nb => 0x800b + imm.toNat * 0x100000 + base.toNat * 0x10000 + width.toNat * 0x1000 + rs.toNat * 0x100 + nb.toNat * 0x80
  | .pldBr rd base off width => 0x2b + off.toNat * 0x100000 + base.toNat * 0x10000 + width.toNat * 0x1000 + rd.toNat * 0x100
  | .pstBr rs base off width => 0x802b + off.toNat * 0x100000 + base.toNat * 0x10000 + width.toNat * 0x1000 + rs.toNat * 0x100
  | .bo off cond => 0xab + off.toNat * 0x100000 + cond.toNat * 0x100
  | .yield => 0xdb
  | .yieldN rs1 => 0x10000db + rs1.toNat * 0x1000
  | .sleep rs1 => 0x20000db + rs1.toNat * 0x1000
  | .thrSpawn rd rs1 rs2 nb => 0x300005b + rs2.toNat * 0x10000 + rs1.toNat * 0x1000 + rd.toNat * 0x100 + nb.toNat * 0x80
  | .thrExit => 0x400005b
  | .go rs1 => 0x50000db + rs1.toNat * 0x1000
  | .msend rs1 rs2 nb => 0x1000005b + rs2.toNat * 0x10000 + rs1.toNat * 0x1000 + nb.toNat * 0x80
  | .mrecv rd nb => 0x1100005b + rd.toNat * 0x100 + nb.toNat * 0x80
  | .mfrom rd nb => 0x1200005b + rd.toNat * 0x100 + nb.toNat * 0x80
  | .mark rs1 nb => 0x6000005b + rs1.toNat * 0x1000 + nb.toNat * 0x80
  | .qinit rs1 nb => 0x2000005b + rs1.toNat * 0x1000 + nb.toNat * 0x80
  | .qacq rd rs1 nb => 0x2100005b + rs1.toNat * 0x1000 + rd.toNat * 0x100 + nb.toNat * 0x80
  | .qwait rs1 nb => 0x2200005b + rs1.toNat * 0x1000 + nb.toNat * 0x80
  | .qgive rs1 rs2 nb => 0x2300005b + rs2.toNat * 0x10000 + rs1.toNat * 0x1000 + nb.toNat * 0x80
  | .qswap rs1 rs2 nb => 0x2400005b + rs2.toNat * 0x10000 + rs1.toNat * 0x1000 + nb.toNat * 0x80
  | .qdrop rs1 nb => 0x2500005b + rs1.toNat * 0x1000 + nb.toNat * 0x80
  | .qrel rs1 nb => 0x2600005b + rs1.toNat * 0x1000 + nb.toNat * 0x80
  | .qstat rd rs1 nb => 0x2700005b + rs1.toNat * 0x1000 + rd.toNat * 0x100 + nb.toNat * 0x80
  | .amoAdd rd rs1 rs2 width scope nb => 0x3000005b + width.toNat * 0x800000 + scope.toNat * 0x100000 + rs2.toNat * 0x10000 + rs1.toNat * 0x1000 + rd.toNat * 0x100 + nb.toNat * 0x80
  | .amoAnd rd rs1 rs2 width scope nb => 0x3100005b + width.toNat * 0x800000 + scope.toNat * 0x100000 + rs2.toNat * 0x10000 + rs1.toNat * 0x1000 + rd.toNat * 0x100 + nb.toNat * 0x80
  | .amoOr rd rs1 rs2 width scope nb => 0x3200005b + width.toNat * 0x800000 + scope.toNat * 0x100000 + rs2.toNat * 0x10000 + rs1.toNat * 0x1000 + rd.toNat * 0x100 + nb.toNat * 0x80
  | .amoXor rd rs1 rs2 width scope nb => 0x3300005b + width.toNat * 0x800000 + scope.toNat * 0x100000 + rs2.toNat * 0x10000 + rs1.toNat * 0x1000 + rd.toNat * 0x100 + nb.toNat * 0x80
  | .amoMin rd rs1 rs2 width scope nb => 0x3400005b + width.toNat * 0x800000 + scope.toNat * 0x100000 + rs2.toNat * 0x10000 + rs1.toNat * 0x1000 + rd.toNat * 0x100 + nb.toNat * 0x80
  | .amoMax rd rs1 rs2 width scope nb => 0x3500005b + width.toNat * 0x800000 + scope.toNat * 0x100000 + rs2.toNat * 0x10000 + rs1.toNat * 0x1000 + rd.toNat * 0x100 + nb.toNat * 0x80
  | .amoMinu rd rs1 rs2 width scope nb => 0x3600005b + width.toNat * 0x800000 + scope.toNat * 0x100000 + rs2.toNat * 0x10000 + rs1.toNat * 0x1000 + rd.toNat * 0x100 + nb.toNat * 0x80
  | .amoMaxu rd rs1 rs2 width scope nb => 0x3700005b + width.toNat * 0x800000 + scope.toNat * 0x100000 + rs2.toNat * 0x10000 + rs1.toNat * 0x1000 + rd.toNat * 0x100 + nb.toNat * 0x80
  | .amoSwap rd rs1 rs2 width scope nb => 0x3800005b + width.toNat * 0x800000 + scope.toNat * 0x100000 + rs2.toNat * 0x10000 + rs1.toNat * 0x1000 + rd.toNat * 0x100 + nb.toNat * 0x80
  | .amoCas rd rs1 rs2 width scope nb => 0x3900005b + width.toNat * 0x800000 + scope.toNat * 0x100000 + rs2.toNat * 0x10000 + rs1.toNat * 0x1000 + rd.toNat * 0x100 + nb.toNat * 0x80
  | .red rs1 rs2 kind nb => 0x3a00005b + kind.toNat * 0x100000 + rs2.toNat * 0x10000 + rs1.toNat * 0x1000 + nb.toNat * 0x80
  | .lineWb rs1 nb => 0x4000005b + rs1.toNat * 0x1000 + nb.toNat * 0x80
  | .lineInv rs1 nb => 0x4100005b + rs1.toNat * 0x1000 + nb.toNat * 0x80
  | .lineWbinv rs1 nb => 0x4200005b + rs1.toNat * 0x1000 + nb.toNat * 0x80
  | .pqPush rs1 nb => 0x5000005b + rs1.toNat * 0x1000 + nb.toNat * 0x80
  | .pqDone rs1 nb => 0x5100005b + rs1.toNat * 0x1000 + nb.toNat * 0x80
  | .pqResume nb => 0x5200005b + nb.toNat * 0x80
  | .cbitTest rd rs1 rs2 nb => 0x5300005b + rs2.toNat * 0x10000 + rs1.toNat * 0x1000 + rd.toNat * 0x100 + nb.toNat * 0x80
  | .ksub rd rs1 rs2 nb => 0x6100005b + rs2.toNat * 0x10000 + rs1.toNat * 0x1000 + rd.toNat * 0x100 + nb.toNat * 0x80
  | .barArrive rd kind idx nb => 0x8000005b + kind.toNat * 0x400000 + idx.toNat * 0x10000 + rd.toNat * 0x100 + nb.toNat * 0x80
  | .barWait rs1 kind idx nb => 0x8100005b + kind.toNat * 0x400000 + idx.toNat * 0x10000 + rs1.toNat * 0x1000 + nb.toNat * 0x80
  | .barAw rd kind idx nb => 0x8200005b + kind.toNat * 0x400000 + idx.toNat * 0x10000 + rd.toNat * 0x100 + nb.toNat * 0x80
  | .barCfg rs1 kind idx nb => 0x8300005b + kind.toNat * 0x400000 + idx.toNat * 0x10000 + rs1.toNat * 0x1000 + nb.toNat * 0x80
  | .fnc kind scope nb => 0x8800005b + kind.toNat * 0x400000 + scope.toNat * 0x10000 + nb.toNat * 0x80
  | .plda rd rs1 width scope nb => 0x8900005b + width.toNat * 0x80000 + scope.toNat * 0x10000 + rs1.toNat * 0x1000 + rd.toNat * 0x100 + nb.toNat * 0x80
  | .pstr rs rs1 width scope nb => 0x8a40005b + width.toNat * 0x80000 + scope.toNat * 0x10000 + rs1.toNat * 0x1000 + rs.toNat * 0x100 + nb.toNat * 0x80
  | .pshD rs rs1 c8 nb => 0x9000005b + c8.toNat * 0x10000 + rs1.toNat * 0x1000 + rs.toNat * 0x100 + nb.toNat * 0x80
  | .pshLine rs1 c8 nb => 0x9100005b + c8.toNat * 0x10000 + rs1.toNat * 0x1000 + nb.toNat * 0x80
  | .rngWb rs1 rlen kind idx nb => 0x9800005b + kind.toNat * 0x400000 + idx.toNat * 0x10000 + rs1.toNat * 0x1000 + rlen.toNat * 0x100 + nb.toNat * 0x80
  | .rngInv rs1 rlen kind idx nb => 0x9900005b + kind.toNat * 0x400000 + idx.toNat * 0x10000 + rs1.toNat * 0x1000 + rlen.toNat * 0x100 + nb.toNat * 0x80
  | .rngWbinv rs1 rlen kind idx nb => 0x9a00005b + kind.toNat * 0x400000 + idx.toNat * 0x10000 + rs1.toNat * 0x1000 + rlen.toNat * 0x100 + nb.toNat * 0x80
  | .gxKick rs1 c8 nb => 0xa000005b + c8.toNat * 0x10000 + rs1.toNat * 0x1000 + nb.toNat * 0x80
  | .lc rd c8 nb => 0xb000005b + c8.toNat * 0x10000 + rd.toNat * 0x100 + nb.toNat * 0x80
  | .tiLoad rs1 c8 nb => 0xb800005b + c8.toNat * 0x10000 + rs1.toNat * 0x1000 + nb.toNat * 0x80
  | .tiInv c8 nb => 0xb900005b + c8.toNat * 0x10000 + nb.toNat * 0x80
  | .vadd vd vs1 vs2 et m => 0x7b + et.toNat * 0x200000 + m.toNat * 0x100000 + vs2.toNat * 0x2000 + vs1.toNat * 0x400 + vd.toNat * 0x80
  | .vsub vd vs1 vs2 et m => 0x100007b + et.toNat * 0x200000 + m.toNat * 0x100000 + vs2.toNat * 0x2000 + vs1.toNat * 0x400 + vd.toNat * 0x80
  | .vmul vd vs1 vs2 et m => 0x200007b + et.toNat * 0x200000 + m.toNat * 0x100000 + vs2.toNat * 0x2000 + vs1.toNat * 0x400 + vd.toNat * 0x80
  | .vfma vd vs1 vs2 et m => 0x300007b + et.toNat * 0x200000 + m.toNat * 0x100000 + vs2.toNat * 0x2000 + vs1.toNat * 0x400 + vd.toNat * 0x80
  | .vminu vd vs1 vs2 et m => 0x400007b + et.toNat * 0x200000 + m.toNat * 0x100000 + vs2.toNat * 0x2000 + vs1.toNat * 0x400 + vd.toNat * 0x80
  | .vmin vd vs1 vs2 et m => 0x500007b + et.toNat * 0x200000 + m.toNat * 0x100000 + vs2.toNat * 0x2000 + vs1.toNat * 0x400 + vd.toNat * 0x80
  | .vmax vd vs1 vs2 et m => 0x600007b + et.toNat * 0x200000 + m.toNat * 0x100000 + vs2.toNat * 0x2000 + vs1.toNat * 0x400 + vd.toNat * 0x80
  | .vabs vd vs1 et m => 0x700007b + et.toNat * 0x200000 + m.toNat * 0x100000 + vs1.toNat * 0x400 + vd.toNat * 0x80
  | .vneg vd vs1 et m => 0x800007b + et.toNat * 0x200000 + m.toNat * 0x100000 + vs1.toNat * 0x400 + vd.toNat * 0x80
  | .vdiv vd vs1 vs2 et m => 0x900007b + et.toNat * 0x200000 + m.toNat * 0x100000 + vs2.toNat * 0x2000 + vs1.toNat * 0x400 + vd.toNat * 0x80
  | .vsqrt vd vs1 et m => 0xa00007b + et.toNat * 0x200000 + m.toNat * 0x100000 + vs1.toNat * 0x400 + vd.toNat * 0x80
  | .vrcpe vd vs1 et m => 0xb00007b + et.toNat * 0x200000 + m.toNat * 0x100000 + vs1.toNat * 0x400 + vd.toNat * 0x80
  | .vrsqe vd vs1 et m => 0xc00007b + et.toNat * 0x200000 + m.toNat * 0x100000 + vs1.toNat * 0x400 + vd.toNat * 0x80
  | .vmaxu vd vs1 vs2 et m => 0xd00007b + et.toNat * 0x200000 + m.toNat * 0x100000 + vs2.toNat * 0x2000 + vs1.toNat * 0x400 + vd.toNat * 0x80
  | .vand vd vs1 vs2 et m => 0x1000007b + et.toNat * 0x200000 + m.toNat * 0x100000 + vs2.toNat * 0x2000 + vs1.toNat * 0x400 + vd.toNat * 0x80
  | .vor vd vs1 vs2 et m => 0x1100007b + et.toNat * 0x200000 + m.toNat * 0x100000 + vs2.toNat * 0x2000 + vs1.toNat * 0x400 + vd.toNat * 0x80
  | .vxor vd vs1 vs2 et m => 0x1200007b + et.toNat * 0x200000 + m.toNat * 0x100000 + vs2.toNat * 0x2000 + vs1.toNat * 0x400 + vd.toNat * 0x80
  | .vshl vd vs1 vs2 et m => 0x1300007b + et.toNat * 0x200000 + m.toNat * 0x100000 + vs2.toNat * 0x2000 + vs1.toNat * 0x400 + vd.toNat * 0x80
  | .vshr vd vs1 vs2 et m => 0x1400007b + et.toNat * 0x200000 + m.toNat * 0x100000 + vs2.toNat * 0x2000 + vs1.toNat * 0x400 + vd.toNat * 0x80
  | .vsra vd vs1 vs2 et m => 0x1500007b + et.toNat * 0x200000 + m.toNat * 0x100000 + vs2.toNat * 0x2000 + vs1.toNat * 0x400 + vd.toNat * 0x80
  | .vcmpEq vs1 vs2 et m => 0x1800007b + et.toNat * 0x200000 + m.toNat * 0x100000 + vs2.toNat * 0x2000 + vs1.toNat * 0x400
  | .vcmpNe vs1 vs2 et m => 0x1900007b + et.toNat * 0x200000 + m.toNat * 0x100000 + vs2.toNat * 0x2000 + vs1.toNat * 0x400
  | .vcmpLt vs1 vs2 et m => 0x1a00007b + et.toNat * 0x200000 + m.toNat * 0x100000 + vs2.toNat * 0x2000 + vs1.toNat * 0x400
  | .vcmpLe vs1 vs2 et m => 0x1b00007b + et.toNat * 0x200000 + m.toNat * 0x100000 + vs2.toNat * 0x2000 + vs1.toNat * 0x400
  | .vsel vd vs1 vs2 et => 0x1c00007b + et.toNat * 0x200000 + vs2.toNat * 0x2000 + vs1.toNat * 0x400 + vd.toNat * 0x80
  | .vcmpLtu vs1 vs2 et m => 0x1d00007b + et.toNat * 0x200000 + m.toNat * 0x100000 + vs2.toNat * 0x2000 + vs1.toNat * 0x400
  | .vbc vd xs et m => 0x2000007b + et.toNat * 0x200000 + m.toNat * 0x100000 + xs.toNat * 0x10000 + vd.toNat * 0x80
  | .vbcC vd c8 et => 0x2100007b + et.toNat * 0x200000 + c8.toNat * 0x2000 + vd.toNat * 0x80
  | .vmv vd vs1 et m => 0x2200007b + et.toNat * 0x200000 + m.toNat * 0x100000 + vs1.toNat * 0x400 + vd.toNat * 0x80
  | .vmvClean => 0x2201007b
  | .vext vs1 xs et => 0x2300007b + et.toNat * 0x200000 + xs.toNat * 0x10000 + vs1.toNat * 0x400
  | .vcvt vd vs1 src et m => 0x2800007b + et.toNat * 0x200000 + m.toNat * 0x100000 + src.toNat * 0x2000 + vs1.toNat * 0x400 + vd.toNat * 0x80
  | .vcvt8 vd vs1 src et m => 0x2900007b + et.toNat * 0x200000 + m.toNat * 0x100000 + src.toNat * 0x2000 + vs1.toNat * 0x400 + vd.toNat * 0x80
  | .vredAdd vd vs1 et m => 0x3000007b + et.toNat * 0x200000 + m.toNat * 0x100000 + vs1.toNat * 0x400 + vd.toNat * 0x80
  | .vredMax vd vs1 et m => 0x3100007b + et.toNat * 0x200000 + m.toNat * 0x100000 + vs1.toNat * 0x400 + vd.toNat * 0x80
  | .vredMin vd vs1 et m => 0x3200007b + et.toNat * 0x200000 + m.toNat * 0x100000 + vs1.toNat * 0x400 + vd.toNat * 0x80
  | .vdot vd vs1 vs2 et m => 0x3400007b + et.toNat * 0x200000 + m.toNat * 0x100000 + vs2.toNat * 0x2000 + vs1.toNat * 0x400 + vd.toNat * 0x80
  | .vperm vd vs1 vs2 et m => 0x3800007b + et.toNat * 0x200000 + m.toNat * 0x100000 + vs2.toNat * 0x2000 + vs1.toNat * 0x400 + vd.toNat * 0x80
  | .vslide vd vs1 xs et m => 0x3900007b + et.toNat * 0x200000 + m.toNat * 0x100000 + xs.toNat * 0x10000 + vs1.toNat * 0x400 + vd.toNat * 0x80
  | .vld vd xs lane m nb => 0x4000007b + nb.toNat * 0x800000 + lane.toNat * 0x200000 + m.toNat * 0x100000 + xs.toNat * 0x10000 + vd.toNat * 0x80
  | .vst vd xs lane m nb => 0x4100007b + nb.toNat * 0x800000 + lane.toNat * 0x200000 + m.toNat * 0x100000 + xs.toNat * 0x10000 + vd.toNat * 0x80
  | .vldx vd vs1 xs lane m nb => 0x4200007b + nb.toNat * 0x800000 + lane.toNat * 0x200000 + m.toNat * 0x100000 + xs.toNat * 0x10000 + vs1.toNat * 0x400 + vd.toNat * 0x80
  | .vstx vd vs1 xs lane m nb => 0x4300007b + nb.toNat * 0x800000 + lane.toNat * 0x200000 + m.toNat * 0x100000 + xs.toNat * 0x10000 + vs1.toNat * 0x400 + vd.toNat * 0x80
  | .claimDataArrival .. => 0
  | .holdWindowClose .. => 0
  | .yieldTimeout .. => 0
  | .sleepEnd .. => 0
  | .swapIn .. => 0
  | .swapOut .. => 0
  | .migrationArrival .. => 0
  | .mailboxFlit .. => 0
  | .messageAck .. => 0
  | .messageNack .. => 0
  | .messageReplay .. => 0
  | .trapRecordWrite .. => 0
  | .watchdogExpiry .. => 0
  | .readRequest .. => 0
  | .exclusiveRequest .. => 0
  | .uRequest .. => 0
  | .pushWrite .. => 0
  | .evictionNotice .. => 0
  | .writeBack .. => 0
  | .acknowledgement .. => 0
  | .invalidation .. => 0
  | .shareRecall .. => 0
  | .updateRecall .. => 0
  | .pushFill .. => 0
  | .pushCompletion .. => 0
  | .claimCopyReturn .. => 0
  | .untrackedWriteBack .. => 0
  | .hostWrite .. => 0
  | .hostRead .. => 0
  | .barrierRelease .. => 0
  | .semRemoteArrival .. => 0
  | .semArrivalReply .. => 0
  | .semPhaseUpdate .. => 0
  | .pressArbitration .. => 0
  | .lstat .. => 0
  | .flip .. => 0
  | .stream .. => 0
  | .aclr .. => 0
  | .drain .. => 0
  | .acopy .. => 0
  | .aload .. => 0
  | .pressMark .. => 0
  | .share .. => 0
  | .groupQueueDiscard .. => 0
  | .galleyChain .. => 0
  | .copy .. => 0
  | .compose .. => 0
  | .scatter .. => 0
  | .fill .. => 0
  | .convert .. => 0
  | .galleyChunkDone .. => 0
  | .sweep .. => 0
  | .tableWalk .. => 0
  | .faultRingWrite .. => 0
  | .queueDoorbell .. => 0
  | .queueEnable .. => 0
  | .queueDisable .. => 0
  | .queueCancel .. => 0
  | .dependenceMet .. => 0
  | .kernelAdmit .. => 0
  | .groupPlace .. => 0
  | .kernelDrainComplete .. => 0
  | .kernelCancel .. => 0
  | .kernelFaultMark .. => 0
  | .groupSave .. => 0
  | .groupRestore .. => 0
  | .tenantSliceEnd .. => 0
  | .contextPublish .. => 0
  | .contextFaultMark .. => 0
  | .contextTeardown .. => 0
  | .imageRestore .. => 0
  | .bucketRefill .. => 0
  | .fansResolve .. => 0
  | .fansDecline .. => 0
  | .shoot .. => 0
  | .assnDieBarrier .. => 0
  | .assnGalleyChannel .. => 0
  | .tresResume .. => 0
  | .tresEnd .. => 0
  | .linkDataFlit .. => 0
  | .linkAck .. => 0
  | .linkNack .. => 0
  | .linkBackoffExpiry .. => 0
  | .linkReplayTimeout .. => 0
  | .linkEnable .. => 0
  | .linkTrainingDone .. => 0
  | .laneMarginal .. => 0
  | .laneLost .. => 0
  | .linkDrainRequest .. => 0
  | .linkWindowDrained .. => 0
  | .spareSwapComplete .. => 0
  | .portRingDoorbell .. => 0
  | .networkSend .. => 0
  | .storageRead .. => 0
  | .storageWrite .. => 0
  | .storageFlush .. => 0
  | .nvmeCompletion .. => 0
  | .traceDrain .. => 0
  | .snapshot => 0
  | .stopOnTick => 0
  | .stopctlArm .. => 0
  | .registerWrite .. => 0
  | .gtickDiscipline .. => 0
  | .powerGood => 0
  | .powerGoodFall => 0
  | .firmwareVerify .. => 0
  | .dieStart .. => 0
  | .attestationReport .. => 0
  | .managementReset => 0
  | .scanOut => 0
  | .pwrcapWrite .. => 0
  | .preqWrite .. => 0
  | .pstateTransitionDone .. => 0
  | .ceilingBoundary .. => 0
  | .thermalSample .. => 0
  | .droopDetect .. => 0
  | .park .. => 0
  | .parkShutdownDone .. => 0
  | .unpark .. => 0
  | .unparkStartDone .. => 0
  | .dieDrain .. => 0
  | .firmwareHandover .. => 0
  | .expansionTableUpdate .. => 0
  | .softError .. => 0
  | .rowSparing .. => 0
  | .vaultRecalibration .. => 0
  | .vaultSparing .. => 0
  | .coreRetire .. => 0
  | .illegalInstructionWord => 0
  | .lanternCoreAccess .. => 0
  | .pageThaw .. => 0
  | .homePageRecall .. => 0
  | .contextMigrate .. => 0
  | .coreReturnToService .. => 0
  | .podJoin .. => 0
  | .fusedMinimumRaise .. => 0

end Sys2Proof
end

