-- ==== Sys2Proof/Machine/Settings.lean ====
section
/-! DEFINITION. Settings that the Lantern kernel makes and for which the opcode table has no row: each names its
rule. `none` where the rule refuses the setting. -/

namespace Sys2Proof.Machine

open Sys2Proof

/-- A context number is one of 4,096 (R362). -/
def contextCount : Nat := 4096

/-- Whether a binding names packages of a pod. -/
def Binding.inPod : Binding → Bool
  | .none => true
  | .home _ proxies => decide (proxies < 2 ^ packageCount)
  | .proxy _ pkg _ => decide (pkg < packageCount)

/-- Whether a list of slice lengths is in range (R364). -/
def slicesOk (l : List Nat) : Bool := l.all (fun x => decide (50000 ≤ x ∧ x ≤ 50000000))

/-- Whether a page table, from one of its levels down, has a leaf that maps host memory. -/
def State.tableMapsHost (s : State) (t : Nat) : Nat → Bool
  | 0 => false
  | n + 1 => (List.range 8192).any (fun i =>
    let p := mload s.mem (t + 8 * i) 8
    pteV p && (if pteLeaf p then decide (paClass (ptePpn p * 65536) = .host) else s.tableMapsHost (ptePpn p * 65536) n))

/-- Whether a partition has a system-coherent mapping (R267, R324, R365). -/
def State.partMapsHost (s : State) (p : Nat) : Bool :=
  s.ctxs.any (fun x => decide (x.2.part = p) && (match x.2.st with
    | .free | .building | .tornDown => false
    | _ => s.tableMapsHost x.2.root 3))

/-- A directory entry without the copies of a die's cores; none where no copy is left. -/
def DirEntry.without (e : DirEntry) (d : Nat) : Option DirEntry :=
  let hs := e.holders.filter (fun h => decide ((if e.coarse then formeDie h else coreDie h) ≠ d))
  if hs = [] ∧ e.holders ≠ [] then none else some { e with holders := hs }

/-- Every cache and TLB of a die is invalidated and its dirty lines are discarded (R391): what stays of a line is what its
home has (log 56), and the copies of other dies' cores. -/
def State.discardDie (s : State) (d : Nat) : State :=
  let here (c : Nat) : Bool := decide (coreDie c = d)
  let core (k : Nat × Core) : Nat × Core := if here k.1 then (k.1, { k.2 with l1 := [], icache := [], tlb := [] }) else k
  let forme (f : Nat × Forme) : Nat × Forme := if formeDie f.1 = d then (f.1, { f.2 with tlb := [], misses := [] }) else f
  { s with cores := s.cores.map core, formes := s.formes.map forme
           dir := s.dir.filterMap (fun x => (x.2.without d).map (fun e => (x.1, e))) }

/-- The Lantern kernel rewrites a `pmsel` for a context: a count in mode 2 goes to the total of the context it was made for
(R387), and the counter starts at zero (R76). -/
def State.countersFor (s : State) (core n ctx : Nat) (sel : BitVec 18) : State :=
  let k := s.core core
  let old := (tget 0 k.pmsel n).toNat
  let add (x : Ctx) : Ctx :=
    { x with totals := tset x.totals (old % 65536) (tget 0 x.totals (old % 65536) + (tget 0 k.pmc n).toNat) }
  let s := if old / 65536 = 2 then s.modCtx (tget 0 k.pmselCtx n) add else s
  s.setCore core { k with pmsel := tset k.pmsel n sel, pmselCtx := tset k.pmselCtx n ctx, pmc := tset k.pmc n 0 }

/-- Whether every unit of a set can be given to a partition: none is out of service, nor its die (R393, R407). -/
def State.unitsServe (s : State) (units : Nat) : Bool :=
  (List.range 32).all (fun u => !units.testBit u || (!s.units.contains u && decide ((s.dpow (u / 8)).park ≠ .out)))

/-- What a setting leaves. -/
def State.applySetting (s : State) (x : Setting) : Option State :=
  match x with
  | .messageBackoff d v =>
    if 16 ≤ v ∧ v ≤ 4096 then some (s.modDie d (fun k => { k with backoff := v })) else none
  | .linkBackoff l v =>
    if v < 8 ∨ 4096 < v ∨ linkCount ≤ l then none
    else some { s with links := tset s.links l { tget Link.fresh s.links l with backoff := v } }
  | .linkSend l p => if l < linkCount then some (s.handLink l (p, none)) else none
  | .linkIdle l =>
    let k := s.link l
    if k.st.carries then some (s.setLink l { k with wire := k.wire ++ [controlFlit 3 0] }) else none
  | .podPeer l p => if 20 ≤ l ∧ l < linkCount ∧ p < packageCount then some { s with peers := tset s.peers l p } else none
  | .linkAckFlit l =>
    let k := s.link l
    if k.st.carries then some (s.setLink l k.ackNow) else none
  | .partition p units tenants slices cap vfs =>
    let others := s.parts.filter (fun q => decide (q.1 ≠ p))
    let clash := others.any (fun q => decide (q.2.units &&& units ≠ 0) || q.2.vfs.any (fun v => vfs.contains v))
    if 32 ≤ p ∨ units = 0 ∨ 2 ^ 32 ≤ units ∨ clash ∨ !s.unitsServe units ∨ tenants = 0 ∨ 8 < tenants ∨
        slices.length ≠ tenants ∨ !slicesOk slices ∨ vfs.length ≠ tenants ∨ !vfs.Nodup ∨ vfs.any (fun v => decide (v = 0 ∨ 63 < v)) ∨ (cap ∧ s.partMapsHost p) then none
    else some { s with parts := tset s.parts p { units := units, tenants := tenants, slices := slices, cap := cap,
                                                 current := 0, sliceFrom := s.gtick, unbegun := false, vfs := vfs,
                                                 buckets := [] } }
  | .bucket core slot ctx rate depth =>
    if slot ≤ 16 ∧ 1 ≤ rate ∧ rate ≤ 1024 ∧ 1 ≤ depth ∧ depth ≤ 4096 ∧ (slot = 16 ∨ s.inPart ctx (coreUnit core)) then
      let p := (s.ctx ctx).part
      let s : State := { s with buckets := tset s.buckets (17 * core + slot) { ctx := ctx, rate := rate, depth := depth,
                                                                               tokens := 0 } }
      some (if slot = 16 then s
        else { s with parts := tset s.parts p { s.part p with buckets := tset (s.part p).buckets ctx (rate, depth) } })
    else none
  | .binding e b => if e < 256 ∧ b.inPod then some { s with bindings := tset s.bindings e b } else none
  | .window w ctx base len => some { s with windows := tset s.windows w (ctx, base, len) }
  | .portRing r desc ctx => some { s with rings := tset s.rings r { PortRing.fresh with desc := desc, ctx := ctx } }
  | .podWrite w off entry data => s.podWrite w off entry data
  | .podWritten r done => s.podWritten r done
  | .namespaceBlocks p ns n =>
    if p < 2 ∧ ns < 2 ^ 32 ∧ n % 8 = 0 then some { s with blocks := tset s.blocks (p * 2 ^ 32 + ns) n } else none
  | .pstateStep d => s.pstateStep d
  | .certificate k =>
    if k < 2 ∧ s.power.stage ≠ .off then
      some { s with answers := s.answers ++ [{ what := 7, addr := k, data := Config.certificate k }] }
    else none
  | .laneThreshold l v => if l < linkCount then some (s.setLink l { s.link l with threshold := v }) else none
  | .laneError l n =>
    if l < linkCount ∧ n < dataLanes l + spareLanes l then
      let k := s.link l
      some (s.setLink l { k with laneErrs := tset k.laneErrs n (tget 0 k.laneErrs n + 1) })
    else none
  | .agentNumber u a =>
    if s.threads.any (fun x => decide (x.1 ≠ u ∧ x.2.st ≠ .exited ∧ s.ctxOf x.1 = s.ctxOf u ∧ x.2.agent = a % 2 ^ 18)) then none
    else some (s.modThr u (fun t => { t with agent := a % 2 ^ 18 }))
  | .building c =>
    if c < contextCount ∧ (s.ctx c).st = .free ∧ s.power.stage = .full then
      some (s.modCtx c (fun x => { x with st := .building }))
    else none
  | .sliceBegin c => s.sliceBegin c
  | .preempt c => s.preemptRequest c
  | .saveComplete c => s.saveComplete c
  | .imageOut c pkg => s.imageOut c pkg
  | .imageAway c done => s.imageAway c done
  | .imageIn pkg src dst pa m => s.imageIn pkg src dst pa m
  | .freed c => s.freed c
  | .clearHot c g => some (s.clearHot c g)
  | .countersFor c n ctx sel => if c < 1024 ∧ n < 4 ∧ sel.toNat / 65536 ≠ 3 then some (s.countersFor c n ctx sel) else none
  | .discardDie d => if s.canEmpty d then some (s.discardDie d) else none

end Sys2Proof.Machine
end

