-- ==== Sys2Proof/Machine/Issue.lean ====
section
/-! DEFINITION. Which agent moves next: instruction fetch (R56, R57), the choice of a slot (R81, R82), and the agenda
(log 2). -/

namespace Sys2Proof.Machine

open Sys2Proof

/-! ## Eligible slots -/

/-- A slot is eligible when its thread is READY and its fetch is answered (R82). -/
def State.eligible (s : State) (u : Nat) : Bool :=
  match s.fetch u with
  | .word _ | .trap _ => true
  | _ => false

/-- The READY threads in slots of a core: slot and thread. -/
def State.readySlots (s : State) (c : Nat) : List (Nat × Nat) :=
  s.threads.filterMap (fun x =>
    if x.2.core = c ∧ x.2.st = .ready ∧ !x.2.saved then x.2.slot.map (fun k => (k, x.1)) else none)

/-- The thread that a core issues at a core cycle (R81): the home slot, else the oldest priority issue, else the next
eligible slot in slot order. -/
def State.pick (s : State) (c cycle : Nat) : Option Nat :=
  let l := (s.readySlots c).filter (fun x => s.eligible x.2)
  match l.find? (fun x => decide (x.1 = cycle % 16)) with
  | some x => some x.2
  | none =>
    match leastBy (fun x => (s.thr x.2).wokenAt) (l.filter (fun x => (s.thr x.2).prio)) with
    | some x => some x.2
    | none => (leastBy (fun x => (x.1 + 16 - cycle % 16) % 16) l).map (·.2)

/-! ## What a core does before it issues -/

/-- The core cycle in which a core issues next: one instruction a cycle (R81). -/
def State.issueCycle (s : State) (c : Nat) : Nat := max (s.now (coreDie c)) (s.core c).lastIssue

/-- A line of code is read at its home into a core's instruction cache, as any request is (R281, R367), once a way to the home
is open and the home has the line's latest value: no owner's or update copy stands out that it cannot recall now. So a fetch
after a shootdown with I reads what was stored before it (R57, R371). The oldest of 256 lines gives way. -/
def State.codeLine (s : State) (c ctx line home : Nat) : State :=
  let settled : Bool := match (s.entry line).st with | .i | .s => true | _ => false
  if !s.wayOpen (coreDie c) (coreDie home) || s.vaultHeld line || !(settled || s.quiet line) ||
      !s.portOpen home ctx then s
  else
    let s := s.homeRequest home line ctx (some (coreDie c, formeQuad (coreForme c)))
    let s := if s.quiet line then s.recallShare line else s
    s.modCore c (fun k => { k with icache := (if 256 ≤ k.icache.length then k.icache.drop 1 else k.icache) ++
                                             [(line, s.homeLine line)] })

/-- The home core of a byte that a TLB entry maps. -/
def TlbEntry.homeOf (e : TlbEntry) (va : Nat) : Nat :=
  (e.homes[leafPa e.level e.pte.toNat va / 128 % e.homes.length]?).getD 0

/-- A fetch that finds no translation or no code line goes on: a walk is asked for, the slot waits for a page that is
not present, or the line is read from its home (R56, R57). -/
def State.fetchOn (s : State) (u : Nat) : State :=
  let t := s.thr u
  let c := t.core
  let ctx := s.ctxOf u
  match s.fetch u with
  | .translation =>
    if s.faultOpen ctx (pageOf t.pc.toNat) then s.waitFetch u
    else if (s.forme (coreForme c)).misses.any (fun m => decide (m.uid = u ∧ m.kind = 3)) then s
    else (s.count c ctx 0x5001 1).missQueue c u ctx t.pc false 3
  | .code line => s.codeLine c ctx line (((s.tlbHit c ctx t.pc.toNat).map (fun e => e.homeOf t.pc.toNat)).getD 0)
  | _ => s

/-- A line ahead of a READY thread's PC is fetched into its core's instruction cache: no byte of it more than 512 ahead,
through an entry with X that the core TLB holds, from memory of the package (R288). -/
def State.prefetch (s : State) (u ahead : Nat) : State :=
  let t := s.thr u
  let va := t.pc.toNat + ahead
  match s.tlbHit t.core (s.ctxOf u) va with
  | none => s
  | some e =>
    let pa := leafPa e.level e.pte.toNat va
    let dram : Bool := match paClass pa with | .dram _ => true | _ => false
    if t.st = .ready ∧ t.slot.isSome ∧ 0 < ahead ∧ va / 128 * 128 + 128 ≤ t.pc.toNat + 512 ∧ inPaged va ∧ pteX e.pte.toNat ∧ dram ∧
        ((s.core t.core).code (pa / 128)).isNone then
      s.codeLine t.core (s.ctxOf u) (pa / 128) (e.homeOf va)
    else s

/-- Hold windows whose thread is eligible for the first time since its wake open now: those of claims, of reserved claims
and of reserved place-table entries (R85, R87, R298). -/
def State.openWindows (s : State) (c cycle : Nat) : State :=
  let able (u : Nat) : Bool :=
    decide ((s.thr u).core = c ∧ (s.thr u).st = .ready) && (s.thr u).slot.isSome && s.eligible u
  let close := cycle + holdWindow
  let claim (x : Claim) : Claim :=
    if decide (x.stage = .ready ∨ x.stage = .absent) && !x.opened && able x.uid then { x with opened := true, closes := close }
    else x
  let hold (x : Hold) : Hold := if !x.opened && able x.op.uid then { x with opened := true, closes := close } else x
  let table (x : TableHold) : TableHold := if !x.opened && able x.uid then { x with opened := true, closes := close } else x
  let s := s.modCore c (fun k => { k with claims := k.claims.map claim, reserved := k.reserved.map hold })
  { s with dies := s.dies.map (fun d => (d.1, { d.2 with tableRes := d.2.tableRes.map table })) }

/-- Windows that have closed: the claims end, the reservations pass on (R85, R87, R298). -/
def State.closeWindows (s : State) (c cycle : Nat) : State :=
  let late (x : Claim) : Bool := x.opened && decide (x.closes ≤ cycle)
  let due (x : Hold) : Bool := x.opened && decide (x.closes ≤ cycle)
  let lapsed (x : TableHold) : Bool := x.opened && decide (x.closes ≤ cycle ∧ (s.thr x.uid).core = c)
  let s := if (s.core c).claims.any late then s.endClaims c late else s
  let s := if (s.core c).reserved.any due then
      (s.modCore c (fun k => { k with reserved := k.reserved.filter (fun x => !due x) })).serveBudget c
    else s
  [0, 1, 2, 3].foldl (fun s d =>
    if (s.die d).tableRes.any lapsed then
      (s.modDie d (fun x => { x with tableRes := x.tableRes.filter (fun y => !lapsed y) })).serveTable d
    else s) s

/-- What comes before a core's issue: the fetches of its READY threads go on (R82), and hold windows open and close. -/
def State.prepare (s : State) (c : Nat) : State :=
  let cycle := s.issueCycle c
  let s := (s.readySlots c).foldl (fun s x => s.fetchOn x.2) s
  (s.openWindows c cycle).closeWindows c cycle

/-! ## Acts -/

/-- What the machine does in one step. -/
inductive Act where
  | run (i : Instr) (s : State)        -- `exec` of the instruction or event at the state
  | quiet (s : State)                  -- a step that runs none
  | stop (f : Fault)

/-- The state in which a thread's instruction executes: it is the thread and the word in execution, its priority is
used up, and its core has used the cycle (R81). -/
def State.begin (s : State) (u w cycle : Nat) : State :=
  let c := (s.thr u).core
  let s := { s with cyc := tset s.cyc (coreDie c) cycle, cur := u, ir := w }
  let s := s.modThr u (fun t => { t with prio := false })
  let s := s.modCore c (fun k => { k with lastIssue := cycle + 1 })
  s.count c (s.ctxOf u) 0x0001 1

/-- The instruction of a word: a word that encodes none is an illegal instruction word (R28, R30). -/
def instrOf (w : Nat) : Instr := (decode w).getD .illegalInstructionWord

/-- A discarded side-log entry traps its thread at the boundary before the instruction (R279). -/
def State.lateTrap (s : State) (u : Nat) (l : LateTrap) : State :=
  (s.modThr u (fun t => { t with late := t.late.drop 1 })).trap u l.cls (s.thr u).pc l.va l.extra (s.nextWord u)

/-- A core's issue, where a thread of it is eligible. A fetch that traps (R56) is no instruction that traps: it counts in
`instret` not at all (the model's choice at R78, log 14). -/
def State.turnOf (s : State) (c : Nat) : Option Act :=
  let cycle := s.issueCycle c
  match s.pick c cycle with
  | none => none
  | some u =>
    match (s.thr u).late with
    | l :: _ => some (.quiet (s.lateTrap u l))
    | [] =>
      match s.fetch u with
      | .word w => some (.run (instrOf w) (s.begin u w cycle))
      | .trap k => some (.quiet ((s.begin u 0 cycle).trap u k (s.thr u).pc (s.thr u).pc 0 0))
      | _ => none

/-- A cycle in which a core has nothing to issue (R386). -/
def State.idleCycle (s : State) (c : Nat) : State :=
  let cycle := s.issueCycle c
  let s := { s with cyc := tset s.cyc (coreDie c) cycle }
  let s := s.modCore c (fun k => { k with lastIssue := cycle + 1 })
  s.count c 4096 (if s.readySlots c = [] then 0x0003 else 0x0002) 1

/-- The event that delivers a message (log 2). -/
def deliverEvent (k : MsgKind) (n : Nat) : Instr :=
  match k with
  | .readReq _ | .fetchReq .. | .remoteReq _ false => .readRequest n
  | .exclReq _ | .remoteReq _ true => .exclusiveRequest n
  | .updReq .. => .uRequest n
  | .pushWrite .. => .pushWrite n
  | .evict => .evictionNotice n
  | .writeBack .. | .uCopy .. => .writeBack n
  | .ack .. | .pushReply _ => .acknowledgement n
  | .inval => .invalidation n
  | .shareRecall => .shareRecall n
  | .updRecall => .updateRecall n
  | .grant .. | .fill .. | .claimCopy .. | .own _ => .claimDataArrival n
  | .claimReturn .. => .claimCopyReturn n
  | .pushFill _ => .pushFill n
  | .pushDone .. => .pushCompletion n
  | .rawWriteBack .. => .untrackedWriteBack n
  | .aliased => .readRequest n

/-- What moves when the agenda names nothing and the core in turn has nothing to issue: the oldest message that finds its way,
a walk, a request at a port, a trap record, a snapshot, or time (log 2). -/
def State.other (s : State) : Act :=
  match (s.net.zipIdx.find? (fun x => s.deliverable x.2 x.1)).map (·.2) with
  | some n => .run (deliverEvent ((s.net[n]?).map (·.kind) |>.getD .evict) n) s
  | none =>
    match s.formes.find? (fun f => match f.2.misses with | m :: _ => !s.walkHeld m.asid m.va.toNat | [] => false) with
    | some f => .run (.tableWalk f.1) s
    | none =>
      match s.cores.find? (fun k => (s.portNext k.1).isSome) with
      | some k => .quiet (s.portServe k.1)
      | none =>
        match s.heldTraps.find? (fun x => (s.writeTrap x.1).isSome) with
        | some x => .run (.trapRecordWrite x.1) s
        | none =>
          if s.snapWaits then .run .snapshot s
          else
            let s := ((s.idleCycle s.turn).endTicks 1).1.rewriteOwed
            .quiet { s with cyc := s.cyc.map (fun x => (x.1, x.2 + 1)) }

/-- A line that a core gives up; a pinned one stays (R85, R111, R116). -/
def State.evict (s : State) (c line : Nat) : State :=
  let k := s.core c
  match k.line line with
  | none => s
  | some x => if k.awaits line then s else (s.modCore c (fun k => k.delLine line)).giveUpLine c x

/-- A TLB entry that a core gives up; one that a claim covers stays (R85). -/
def State.evictTlb (s : State) (c n : Nat) : State :=
  let k := s.core c
  match k.tlb[n]? with
  | none => s
  | some e =>
    if k.claims.any (fun x => e.hits (s.ctxOf x.uid) x.ea.toNat) then s
    else s.setCore c { k with tlb := k.tlb.eraseIdx n }

/-- Events that a stopped package still answers (R390), and those of a package without power (R393). -/
def answersStopped : Instr → Bool
  | .scanOut | .managementReset | .powerGoodFall => true
  | _ => false

def answersOff : Instr → Bool
  | .powerGood => true
  | _ => false

/-- The ticks of a span that pass before a stop tick is reached (R390). -/
def State.tickRoom (s : State) (n : Nat) : Nat :=
  if s.observe.arm ∧ s.gtick < s.observe.stopTk then min n (s.observe.stopTk - s.gtick) else n

/-- A span of at most `n` ticks passes, up to the next tick at which something must come (R358, R374, R388, R399); the rest of
the span stays in the agenda. -/
def State.passSpan (s : State) (n : Nat) : State :=
  let room := s.tickRoom n
  let r := s.endTicks (s.boundaryRoom (s.snapRoom room))
  let s := r.1.rewriteOwed
  if r.2 < room then { s with agenda := .ticks (room - r.2) :: s.agenda } else s

/-- A span of at most `n` core cycles of a die passes, up to the next release of a barrier there (R153); the rest of the span
stays in the agenda. -/
def State.passCycles (s : State) (d n : Nat) : State :=
  let k := s.cycleRoom d n
  let s := { s with cyc := tset s.cyc d (s.now d + k) }
  if k < n then { s with agenda := .cycles d (n - k) :: s.agenda } else s

/-- What an entry of the agenda that is no event does. One that names what cannot be done now does nothing. -/
def State.itemAct (s : State) (x : Item) : Act :=
  match x with
  | .issue c =>
    let s := s.prepare c
    (s.turnOf c).getD (.quiet (s.idleCycle c))
  | .ticks n => .quiet (s.passSpan n)
  | .cycles d n => .quiet (s.passCycles d n)
  | .evictLine c l => .quiet (s.evict c l)
  | .evictCode c l => .quiet (s.modCore c (fun k => { k with icache := tdel k.icache l }))
  | .evictTlb c n => .quiet (s.evictTlb c n)
  | .evictHome l => .quiet (s.evictHome l)
  | .prefetch u n => .quiet (s.prefetch u n)
  | .portServe c => .quiet (s.portServe c)
  | .shootPoint d c => .quiet ((s.shootPoint d c).getD s)
  | .setting y => .quiet ((s.applySetting y).getD s)
  | .event _ => .quiet s

/-- Whether the agenda names a boundary of the ceiling loop next. -/
def State.namesBoundary (s : State) : Bool :=
  match s.agenda with
  | .event (.ceilingBoundary ..) :: _ => true
  | _ => false

/-- What must come before anything else now: a barrier's release at its cycle, or a refill of token buckets (R153, R367). -/
def State.dueNow (s : State) : Option Act :=
  (s.releaseDue.map (fun i => .run i s)).or (s.refillDue.map (fun c => .quiet (s.refillSlice c)))

/-- Whether the agenda names what is due next. -/
def State.namesDue (s : State) : Bool :=
  match s.agenda with
  | .event (.barrierRelease ..) :: _ | .event (.bucketRefill _) :: _ => true
  | _ => false

/-- The next act. A stop tick that is reached stops the package before anything else (R390), and counters are latched before
anything of their tick is counted (R388); the ceiling loop acts at each of its boundaries (R399), and barriers release their
cores at their cycles (R153). An instruction word in the
agenda is no event and does nothing. -/
def State.next (s : State) : Act :=
  if s.stopDue ∧ s.power.stage ≠ .off then .run .stopOnTick s
  else if s.snapDue ∧ s.power.stage ≠ .off ∧ !s.power.stopped then .run .snapshot s
  else if s.boundaryDue ∧ s.power.stage ≠ .off ∧ !s.power.stopped ∧ !s.namesBoundary then
    .quiet s.freeBoundary
  else
  match (if s.power.stage ≠ .off ∧ !s.power.stopped ∧ !s.namesDue then s.dueNow else none) with
  | some a => a
  | none =>
  match s.agenda with
  | .event i :: rest =>
    if s.power.stage = .off ∧ !answersOff i then .stop .powerOff
    else if s.power.stopped ∧ !answersStopped i then .stop .packageStopped
    else if i.isWord then .quiet { s with agenda := rest }
    else .run i { s with agenda := rest }
  | x :: rest =>
    if s.power.stage = .off then .stop .powerOff
    else if s.power.stopped then .stop .packageStopped
    else { s with agenda := rest }.itemAct x
  | [] =>
    if s.power.stage = .off then .stop .powerOff
    else if s.power.stopped then .stop .packageStopped
    else
      let s := s.prepare s.turn
      (s.turnOf s.turn).getD s.other

/-! ## A program from outside (log 11) -/

/-- The page that `loadWord` maps: present, readable, writable, executable, tracked, pushable, at PA 0 of die 0, homed
on core 0. -/
def loadPte : Word := 0x1FF

/-- The PC at which `loadWord` starts a thread. -/
def loadPc : Word := 0x100000000

/-- The instruction bytes at a thread's PC replaced in its core's code line, with the page of the PC mapped. -/
def State.placeWord (s : State) (u w : Nat) : State :=
  let t := s.thr u
  let e : TlbEntry := { asid := s.ctxOf u, level := 2, vpn := pageOf t.pc.toNat, pte := loadPte, homes := [0] }
  let line := leafPa 2 0x1FF t.pc.toNat / 128
  let d := lineSet (((s.core t.core).code line).getD 0) (t.pc.toNat % 128) 4 w
  s.modCore t.core (fun k => { k with tlb := e :: k.tlb, icache := tset (tdel k.icache line) line d })

/-- A thread placed READY in slot 0 of core 0 of die 0, the first of a group of one, as a launch would leave it. -/
def State.loadThread (s : State) : State :=
  let u := s.nextUid
  let g := s.nextGid
  let t : Thread := { Thread.fresh with st := .ready, core := 0, slot := some 0, gid := g, pc := loadPc }
  let s := { s with threads := tset s.threads u t, nextUid := u + 1, nextGid := g + 1, agenda := [], turn := 0 }
  let s := s.setGrp g { Group.fresh with st := .running, cores := [0], tpg := 1, lm := 0x40000, rows := 1024,
                                         wdLimit := 2 ^ 32 - 1 }
  let s := s.modCore 0 (fun k => { k with bars := (List.range 8).map (fun i => (i, { Bar.fresh with expected := 1 })) })
  let s := s.setCtx 0 { Ctx.fresh with st := .running, part := 0 }
  let s := { s with power := { s.power with stage := .full, stopped := false } }
  let s := s.setDpow 0 { s.dpow 0 with park := .inService }
  s.modDie 0 (fun d => { d with started := true })

end Sys2Proof.Machine
end

