-- ==== Sys2Proof/Machine/Step.lean ====
section
/-! DEFINITION. One step of the machine: the next act, run by `exec` where it is an instruction or an event. -/

namespace Sys2Proof.Machine

open Sys2Proof

/-- One step. -/
def step (s : State) : Host.Outcome State Fault Refusal :=
  match s.next with
  | .run i s' => exec i s'
  | .quiet s' => .next s'
  | .stop f => .fault f

/-- The state with a word stored where `step` fetches its next instruction: at the PC of the thread that issues next,
or, where no thread can issue, of a thread placed as a launch would place it (log 11). -/
def State.withFetchWord (s : State) (_nbits w : Nat) : State :=
  let c := s.turn
  let p := s.prepare c
  let able (u : Nat) : Bool := decide ((s.thr u).late = []) && (match p.fetch u with | .word _ => true | _ => false)
  match (if s.agenda = [] ∧ !s.stopDue then p.pick c (p.issueCycle c) else none) with
  | some u => if able u then s.placeWord u w else s.loadThread.placeWord s.nextUid w
  | none => s.loadThread.placeWord s.nextUid w

end Sys2Proof.Machine
end

