-- ==== Sys2Proof/Safety.lean ====
section
/-! DEFINITION. What claims call a safe state, and the words they use for what a step changes and what it leaves. -/

namespace Sys2Proof.Machine

open Sys2Proof

/-- Every byte memory of the state is in canonical form. -/
def State.memOk (s : State) : Bool := Memory.wf s.mem && Memory.wf s.lm && Memory.wf s.planes

/-- Every byte of physical memory, of the local memories and of the planes reads as before. -/
def State.sameBytes (s t : State) : Prop :=
  ∀ a, mget t.mem a = mget s.mem a ∧ mget t.lm a = mget s.lm a ∧ mget t.planes a = mget s.planes a

/-- Nothing but the record of the thread in execution differs: no memory, no cache, no other thread, core, forme, die,
context, kernel or group, and no register of the package. -/
def State.onlyMe (s t : State) : Prop :=
  t = { s with threads := t.threads } ∧ (∀ u, u ≠ s.cur → t.thr u = s.thr u) ∧ s.sameBytes t

/-- A plain register result (R53): register `rd` takes `v`, unless it is x0, which discards it (R51); the PC moves on by
4 and one instruction is retired; nothing else changes, in the thread or outside it. -/
def State.gives (s t : State) (rd : BitVec 4) (v : Word) : Prop :=
  s.onlyMe t ∧ (∀ q, t.me.reg q = if q = rd ∧ q ≠ 0 then v else s.me.reg q) ∧
    t.me = { s.me with regs := t.me.regs, pc := s.me.pc + 4, instret := s.me.instret + 1 }

/-- The instruction answers a next state with a plain register result. -/
def State.yields (s : State) (i : Instr) (rd : BitVec 4) (v : Word) : Prop :=
  ∃ t, exec i s = .next t ∧ s.gives t rd v

/-- Nothing but the record of the thread in execution, event counters and the group's watchdog count differs. -/
def State.onlyMeCounted (s t : State) : Prop :=
  t = { s with threads := t.threads, cores := t.cores, dies := t.dies, groups := t.groups } ∧
    (∀ u, u ≠ s.cur → t.thr u = s.thr u) ∧ (∀ c, t.core c = { s.core c with pmc := (t.core c).pmc }) ∧
    (∀ d, t.die d = { s.die d with counters := (t.die d).counters }) ∧
    (∀ g, t.grp g = { s.grp g with wdCount := (t.grp g).wdCount }) ∧ s.sameBytes t

/-- The thread in execution is one that issues: READY and in no wait. -/
def Thread.issues (t : Thread) : Prop := t.st = .ready ∧ t.wait = .none

/-- The thread is TRAPPED with a record of a class, an address and an extra word, at the PC of its instruction; no
register of it, of the scalar and the vector stream and no CSR, has changed (R108, R109). Its interval steps where the
record, whose write is a release, is written at once (R110, R326). -/
def Thread.trappedFrom (t old : Thread) (cls : TrapClass) (va extra : Word) (insn : Nat) : Prop :=
  (∃ r, t.trap = some r ∧ r.cls = cls ∧ r.va = va ∧ r.extra = extra ∧ r.pc = old.pc ∧ r.insn = insn ∧
    r.index = old.index ∧ r.core = old.core) ∧
    (t.interval = old.interval ∨ t.interval = old.released.interval) ∧
    t = { old with st := .trapped, trap := t.trap, wake := t.wake, prio := false, runnable := false,
                   interval := t.interval, instret := old.instret + 1 }

/-- A thread after an instruction that completes with an outcome (R26, R31, R83): the PC moves on by 4 and one instruction
is retired. With nb = 1 the code is written and the wake disarmed; with nb = 0 RDY writes neither, and another outcome
that completes writes both. -/
def Thread.completed (t : Thread) (nb : BitVec 1) (c : OCode) : Thread :=
  { t with pc := t.pc + 4, instret := t.instret + 1,
           oc := if nb = 1 ∨ c ≠ .rdy then BitVec.ofNat 4 c.code else t.oc,
           wake := if nb = 1 ∨ c ≠ .rdy then none else t.wake }

/-- A thread after an instruction that is not ready (R26, R31, R83): with nb = 1 the code is written, the wake armed and
the PC moves on; with nb = 0 the thread waits at the instruction for the wake, and neither `oc` nor a register changes. -/
def Thread.stoppedAt (old t : Thread) (nb : BitVec 1) (c : OCode) (w : WakeCond) : Prop :=
  if nb = 1 then
    t = { old with pc := old.pc + 4, instret := old.instret + 1, oc := BitVec.ofNat 4 c.code,
                   wake := some { cond := w, fired := 0 } }
  else t = { old with st := .waiting, wait := .retry, waitFrom := t.waitFrom, wake := some { cond := w, fired := 0 } }

/-- The instruction answers a next state in which its thread has stopped so, and nothing but threads, event counts and
the order of waits has changed; no other thread has. -/
def State.stops (s : State) (i : Instr) (nb : BitVec 1) (c : OCode) (w : WakeCond) : Prop :=
  ∃ t, exec i s = .next t ∧ t = { s with threads := t.threads, cores := t.cores, dies := t.dies, wakeSeq := t.wakeSeq } ∧
    (∀ u, u ≠ s.cur → t.thr u = s.thr u) ∧ (∀ k, t.core k = { s.core k with pmc := (t.core k).pmc }) ∧
    (∀ d, t.die d = { s.die d with counters := (t.die d).counters }) ∧ s.me.stoppedAt t.me nb c w

/-- The instruction answers a next state in which its thread has completed with an outcome other than a result, and
nothing but that thread and event counts has changed. -/
def State.ends (s : State) (i : Instr) (nb : BitVec 1) (c : OCode) : Prop :=
  ∃ t, exec i s = .next t ∧ t = { s with threads := t.threads, cores := t.cores, dies := t.dies } ∧
    (∀ u, u ≠ s.cur → t.thr u = s.thr u) ∧ (∀ k, t.core k = { s.core k with pmc := (t.core k).pmc }) ∧
    (∀ d, t.die d = { s.die d with counters := (t.die d).counters }) ∧ t.me = s.me.completed nb c

/-- A byte of physical memory that a trap may change: of the lines of the next slot of the context's trap ring and of the
tail in its record, and of the leaf of the slot's page and of the page of a mask that it names, which the walk marks
(R109, R110, R273). -/
def State.trapByte (s : State) (ctx a : Nat) : Prop :=
  let x := s.ctx ctx
  let slot := (x.tring.toNat + 64 * (x.ttail % 2 ^ x.tlg)) % 2 ^ 64
  let leaf (va lv p ea : Nat) : Prop := walkRaw s va x.root 0 3 = .inl (some (lv, p, ea))
  a / 128 ∈ linesOf (x.pa + 96) 4 ∨ ∃ lv p ea, leaf slot lv p ea ∧
    (a / 128 ∈ linesOf (leafPa lv p slot) 64 ∨ (ea ≤ a ∧ a < ea + 8) ∨
      ∃ lw q eb, pteHmode p = 1 ∧ leaf ((x.masks.toNat + 64 * pteHome p) % 2 ^ 64) lw q eb ∧ eb ≤ a ∧ a < eb + 8)

/-- Every other byte of a memory in canonical form reads as before. -/
def State.trapMemory (s t : State) : Prop :=
  Memory.wf s.mem = true → ∀ a, ¬ s.trapByte s.myCtx a → mget t.mem a = mget s.mem a

/-- The instruction answers a next state in which its thread is TRAPPED at it; a thread that waits for nothing is as it was,
and so are kernels, groups, the local memories and the registers of the package, and physical memory outside the record
(R108, R109). -/
def State.traps (s : State) (i : Instr) (cls : TrapClass) (va extra : Word) : Prop :=
  ∃ t, exec i s = .next t ∧ t.me.trappedFrom s.me cls va extra s.ir ∧ t.cur = s.cur ∧ t.lm = s.lm ∧ t.acc = s.acc ∧
    t.planes = s.planes ∧ t.formes = s.formes ∧ t.groups = s.groups ∧ t.kernels = s.kernels ∧ t.power = s.power ∧
    (∀ u, u ≠ s.cur → (s.thr u).wake = none → t.thr u = s.thr u) ∧ s.trapMemory t

/-- Progress of the group of the thread in execution (R356): its watchdog count is 0, and no other group differs. -/
def State.progressed (s t : State) : Prop :=
  ∀ g, t.grp g = if g = s.me.gid then { s.grp g with wdCount := 0 } else s.grp g

/-- The core holds the translation of an address, and the side log holds nothing of the thread for its page (R272,
R277). -/
def State.translated (s : State) (ea : Word) (e : TlbEntry) : Prop :=
  s.tlbHit s.myCore s.myCtx ea.toNat = some e ∧ s.myLog (pageOf ea.toNat) = []

/-- No claim is held for the operation in execution at an address, and no request to its core is deferred: what an
access finds that has waited for nothing. -/
def State.unclaimed (s : State) (ea : Word) : Prop :=
  (s.core s.myCore).findClaim s.cur s.me.pc s.ir ea = none ∧ (s.core s.myCore).deferred = []

/-- The instruction completes RDY with a register result, as an auto-retry or probe instruction does: nothing but its
thread and the watchdog count of its group changes. -/
def State.results (s : State) (i : Instr) (nb : BitVec 1) (rd : BitVec 4) (v : Word) : Prop :=
  ∃ t, exec i s = .next t ∧ t = { s with threads := t.threads, cores := t.cores, groups := t.groups } ∧
    (∀ u, u ≠ s.cur → t.thr u = s.thr u) ∧ (∀ k, t.core k = s.core k) ∧ s.progressed t ∧
    (∀ q, t.me.reg q = if q = rd ∧ q ≠ 0 then v else s.me.reg q) ∧
    t.me = { s.me.completed nb .rdy with regs := t.me.regs }

/-- The instruction completes RDY with a loaded value in a register. -/
def State.loads (s : State) (i : Instr) (nb : BitVec 1) (rd : BitVec 4) (v : Word) : Prop :=
  ∃ t, exec i s = .next t ∧ t = { s with threads := t.threads, cores := t.cores, groups := t.groups } ∧
    (∀ u, u ≠ s.cur → t.thr u = s.thr u) ∧ (∀ k, t.core k = s.core k) ∧ s.progressed t ∧
    (∀ q, t.me.reg q = if q = rd ∧ q ≠ 0 then v else s.me.reg q) ∧
    t.me = { s.me.completed nb .rdy with regs := t.me.regs, bytes := none }

/-- What a load of a width code reads from a byte memory: little-endian, sign-extended for the codes 0 to 2 and
zero-extended for 4 to 6 (R4, R33). -/
def loadedValue (m : Memory) (b : Nat) (w : BitVec 3) : Word :=
  let x (i : Nat) : Byte := mget m (b + i)
  match w.toNat with
  | 0 => (x 0).signExtend 64
  | 1 => (x 1 ++ x 0).signExtend 64
  | 2 => (x 3 ++ x 2 ++ x 1 ++ x 0).signExtend 64
  | 4 => (x 0).setWidth 64
  | 5 => (x 1 ++ x 0).setWidth 64
  | 6 => (x 3 ++ x 2 ++ x 1 ++ x 0).setWidth 64
  | _ => x 7 ++ x 6 ++ x 5 ++ x 4 ++ x 3 ++ x 2 ++ x 1 ++ x 0

/-- A byte memory after a store of the `n` low bytes of `v` at `b`: those bytes hold it, little-endian (R4), and every
other byte reads as before. -/
def storedBytes (m m' : Memory) (b n v : Nat) : Prop :=
  ∀ a, mget m' a = if b ≤ a ∧ a < b + n then BitVec.ofNat 8 (v / 256 ^ (a - b)) else mget m a

/-- The instruction completes RDY with a store to the local memories: nothing but those bytes, its thread and the
watchdog count of its group changes. -/
def State.storesLm (s : State) (i : Instr) (nb : BitVec 1) (b n v : Nat) : Prop :=
  ∃ t, exec i s = .next t ∧ t = { s with threads := t.threads, cores := t.cores, groups := t.groups, lm := t.lm } ∧
    (∀ u, u ≠ s.cur → t.thr u = s.thr u) ∧ (∀ k, t.core k = s.core k) ∧ s.progressed t ∧
    storedBytes s.lm t.lm b n v ∧ t.me = s.me.completed nb .rdy

/-- A misaligned load of `n` bytes at `b` of the local memories makes one byte access per attempt, in ascending order (R60):
the thread stays at the instruction after each byte but the last, with nothing else changed, and the last one completes it
with the bytes read. -/
def State.loadsByte (s : State) (i : Instr) (nb : BitVec 1) (rd : BitVec 4) (w : BitVec 3) (n b : Nat) : Prop :=
  let k := s.me.bytesDone.1
  let v := s.me.bytesDone.2 + 256 ^ k * (mget s.lm (b + k)).toNat
  (k + 1 < n → ∃ t, exec i s = .next t ∧ s.onlyMe t ∧
    t.me = { s.me with bytes := some { pc := s.me.pc, done := k + 1, value := v } }) ∧
  (n ≤ k + 1 → s.loads i nb rd (extendLoad w v))

/-- A misaligned store of the `n` low bytes of `v` at `b` of the local memories writes one byte per attempt, in ascending
order (R60). -/
def State.storesByte (s : State) (i : Instr) (nb : BitVec 1) (b n v : Nat) : Prop :=
  let k := s.me.bytesDone.1
  ∃ t, exec i s = .next t ∧ t = { s with threads := t.threads, cores := t.cores, groups := t.groups, lm := t.lm } ∧
    (∀ u, u ≠ s.cur → t.thr u = s.thr u) ∧ (∀ c, t.core c = s.core c) ∧
    storedBytes s.lm t.lm (b + k) 1 (v % 2 ^ (8 * n) / 256 ^ k) ∧
    (k + 1 < n → (∀ g, t.grp g = s.grp g) ∧ t.me = { s.me with bytes := some { pc := s.me.pc, done := k + 1, value := 0 } }) ∧
    (n ≤ k + 1 → s.progressed t ∧ t.me = { s.me.completed nb .rdy with bytes := none })

/-- What the core of the thread in execution finds for an aligned access of `n` bytes at `ea` of a tracked page that is
homed on its own die: the translation `e`, and its line `x` (R111, R116, R271, R274). No side-log entry, frozen page,
pending write or poison stands against it, the race detector is off, and the model is told of no needless NR (R89). -/
structure State.HoldsLine (s : State) (ea : Word) (n : Nat) (write : Bool) (e : TlbEntry) (x : L1Line) : Prop where
  paged : s.span s.cur ea n write = .paged
  aligned : ea.toNat % n = 0
  unlogged : s.myLog (pageOf ea.toNat) = []
  translation : s.tlbHit s.myCore s.myCtx ea.toNat = some e
  memory : paClass (leafPa e.level e.pte.toNat ea.toNat) ≠ .device
  tracked : pteT e.pte.toNat = true
  readable : pteR e.pte.toNat = true
  writable : write = true → pteW e.pte.toNat = true ∧ pteD e.pte.toNat = true ∧ pteMG e.pte.toNat = false
  near : coreDie (e.home (leafPa e.level e.pte.toNat ea.toNat / 128)) = coreDie s.myCore
  settled : s.pendingWrite s.myCore (leafPa e.level e.pte.toNat ea.toNat / 128) = false
  held : (s.core s.myCore).line (leafPa e.level e.pte.toNat ea.toNat / 128) = some x
  sound : leafPa e.level e.pte.toNat ea.toNat / 128 ∉ s.poison
  unchecked : (s.ctx s.myCtx).race = 0
  prompt : s.oracle = []

/-- What the core of the thread in execution finds for an aligned access of `n` bytes at `ea` of an untracked page: the
translation `e` (R122, R271, R274). No side-log entry, frozen page, pending write or poison stands against it, the race
detector is off, and the model is told of no needless NR (R89). -/
structure State.ReachesRaw (s : State) (ea : Word) (n : Nat) (write : Bool) (e : TlbEntry) : Prop where
  paged : s.span s.cur ea n write = .paged
  aligned : ea.toNat % n = 0
  unlogged : s.myLog (pageOf ea.toNat) = []
  translation : s.tlbHit s.myCore s.myCtx ea.toNat = some e
  memory : paClass (leafPa e.level e.pte.toNat ea.toNat) ≠ .device
  untracked : pteT e.pte.toNat = false
  readable : pteR e.pte.toNat = true
  writable : write = true → pteW e.pte.toNat = true ∧ pteD e.pte.toNat = true ∧ pteMG e.pte.toNat = false
  settled : s.pendingWrite s.myCore (leafPa e.level e.pte.toNat ea.toNat / 128) = false
  sound : leafPa e.level e.pte.toNat ea.toNat / 128 ∉ s.poison
  unchecked : (s.ctx s.myCtx).race = 0
  prompt : s.oracle = []

/-- No untracked line is dirty on the core of the thread in execution, nor on one that it has left with stores not yet
written back. -/
def State.clean (s : State) : Prop := ∀ c ∈ s.me.places, ∀ x ∈ (s.core c).l1, x.st = .raw → x.dirty = 0#128

/-- A core that may hold stores of the thread in execution holds a dirty untracked line, and no claim of such a core stands on
a fetch of an untracked line. -/
def State.unclean (s : State) : Prop :=
  s.me.places.Nodup ∧ (∀ k ∈ s.me.places, ∀ x ∈ (s.core k).claims, x.need ≠ .fetch) ∧
    ∃ k ∈ s.me.places, ∃ x ∈ (s.core k).l1, x.st = .raw ∧ x.dirty ≠ 0#128

/-- The dirty bytes of every untracked line of those cores are on their way home, line by line, and the lines stay as clean
copies; no memory and no other thread changes (R122, R132). -/
def State.writesBack (s t : State) : Prop :=
  t.net = s.net ++ s.me.places.flatMap (fun k => (s.core k).l1.filterMap (fun x =>
    if x.st = .raw ∧ x.dirty ≠ 0#128 then
      some { src := k, dst := homeAgent x.home, line := x.line, kind := .rawWriteBack x.data x.dirty }
    else none)) ∧
  (∀ k, t.core k = { s.core k with
    pmc := (t.core k).pmc,
    l1 := if k ∈ s.me.places then (s.core k).l1.map (fun x => if x.st = .raw then { x with dirty := 0#128 } else x)
      else (s.core k).l1 }) ∧
  t.mem = s.mem ∧ t.lm = s.lm ∧ ∀ u, u ≠ s.cur → t.thr u = s.thr u

/-- The instruction first writes those lines back, and waits or is not ready until they are performed. -/
def State.writesBackFirst (s : State) (i : Instr) (nb : BitVec 1) (w : WakeCond) : Prop :=
  ∃ t, exec i s = .next t ∧ s.writesBack t ∧ s.me.stoppedAt t.me nb .nr w

/-- No claim of the core of the thread in execution stands on a fetch of an untracked line. -/
def State.noFetch (s : State) : Prop := ∀ x ∈ (s.core s.myCore).claims, x.need ≠ .fetch

/-- The cores that a thread has left, as an established release step at a scope leaves them: from `pkg` (3) on, none holds
stores of it any more (R132). -/
def Thread.trailAfter (t : Thread) (scope : Nat) : List Nat := if 3 ≤ scope then [] else t.trail

/-- What an acquire step at a scope leaves of the cores where no untracked line is dirty (R132): from `pkg` (3) on, the
core of the thread in execution holds no untracked line; nothing else but event counts changes. -/
def State.coresAfter (s t : State) (acquire : Bool) (scope : Nat) : Prop :=
  ∀ k, t.core k = { s.core k with
    pmc := (t.core k).pmc,
    l1 := if k = s.myCore ∧ acquire = true ∧ 3 ≤ scope then (s.core k).l1.filter (fun x => decide (x.st ≠ .raw))
      else (s.core k).l1 }

/-- Nothing but the threads, cores, event counts, watchdog counts, the order of waits and the named local memories
differs, and no other thread does. -/
def State.onlyThreadLm (s t : State) : Prop :=
  t = { s with threads := t.threads, cores := t.cores, dies := t.dies, groups := t.groups, lm := t.lm,
               wakeSeq := t.wakeSeq } ∧
    (∀ u, u ≠ s.cur → t.thr u = s.thr u) ∧ (∀ d, t.die d = { s.die d with counters := (t.die d).counters }) ∧
    ∀ g, t.grp g = { s.grp g with wdCount := (t.grp g).wdCount }

/-- A lanewise vector instruction (R184 to R186, R190): the active ones of the first `n` lanes of `vd`, of width `w`, take
the results of `g`, every other lane stays; the flags of the active lanes are raised and none is cleared; the dither phase
steps once where the instruction rounds in dither mode with an active lane; the thread is vector-dirty. -/
def State.lanes (s : State) (i : Instr) (vd : BitVec 3) (w n : Nat) (m : BitVec 1) (rounds : Bool)
    (g : Nat → Nat × BitVec 5) : Prop :=
  let act (k : Nat) : Prop := m = 0 ∨ s.me.vmask.getLsbD k = true
  let steps : Prop := rounds = true ∧ s.me.mode = 4 ∧ s.me.dphase.getLsbD 8 = true ∧ ∃ k, k < n ∧ act k
  ∃ t, exec i s = .next t ∧ s.onlyMe t ∧ (∀ r, r ≠ vd → t.me.vreg r = s.me.vreg r) ∧
    (∀ k, k < n → act k → laneGet (t.me.vreg vd) w k = (g k).1 % 2 ^ w) ∧
    (∀ k, k < 512 / w → n ≤ k ∨ ¬ act k → laneGet (t.me.vreg vd) w k = laneGet (s.me.vreg vd) w k) ∧
    (∀ j, t.me.vrm.getLsbD j = true ↔ s.me.vrm.getLsbD j = true ∨ ∃ k, k < n ∧ act k ∧ (g k).2.getLsbD j = true) ∧
    (steps → t.me.dphase = BitVec.ofNat 9 (256 + (s.me.dphase.toNat % 256 + 0x35) % 256)) ∧
    (¬ steps → t.me.dphase = s.me.dphase) ∧
    t.me = { s.me with pc := s.me.pc + 4, instret := s.me.instret + 1, vregs := t.me.vregs, vrm := t.me.vrm,
                       dphase := t.me.dphase, dirty := true }

/-- The end of no thread waits for the release of its places (R300): no established release completes one. -/
def State.noneEnding (s : State) : Prop := ∀ x ∈ s.threads, x.2.ending = false

/-- Message `n` of the network is `m`, and it may be delivered: no older one runs between the same two agents, a link
carries it where they stand on two dies, and a vault that it writes to holds no traffic (R113, R374, R407). -/
structure State.Delivers (s : State) (n : Nat) (m : Msg) : Prop where
  at' : s.net[n]? = some m
  first : ∀ x ∈ s.net.take n, ¬ (x.src = m.src ∧ x.dst = m.dst)
  way : s.wayOpen (agentDie m.src) (agentDie m.dst) = true
  vault : m.kind.brings = true → s.vaultHeld m.line = false

/-- A run of `n` steps reaches a state. -/
def runsTo : Nat → State → State → Prop
  | 0, s, t => s = t
  | n + 1, s, t => ∃ m, step s = .next m ∧ runsTo n m t

end Sys2Proof.Machine
end

