-- ==== Sys2Proof/Certificates/Slice0/Obligations.lean ====
section
/-! DEFINITION. The statements for the provers. Each names the rules of spec/ that it formalises; `yields`, `gives`,
`onlyMe`, `onlyMeCounted` and `trappedFrom` are the words of Sys2Proof/Safety.lean. -/

open Sys2Proof Sys2Proof.Machine

/-! ## The scalar stream (R51 to R54) -/

/-- R51, R53: the immediate and register forms give the results of the RISC-V unprivileged ISA. A 12-bit immediate is
sign-extended, a 20-bit one stands above twelve zero bits, `auipc` adds to the address of its own word; results wrap
modulo 2^64, the W forms work on the low words and sign-extend, and shifts use the low six bits of rs2, five in the W
forms. Nothing but rd, the PC and `instret` changes. -/
def Obligations.IntegerResults : Prop :=
  (∀ (s : State) (rd rs1 : BitVec 4) (imm : BitVec 12) (up : BitVec 20) (sh : BitVec 6) (sw : BitVec 5),
    let a := s.me.reg rs1
    let i := imm.signExtend 64
    let lo := a.setWidth 32
    s.yields (.lui rd up) rd ((up ++ 0#12).signExtend 64) ∧
    s.yields (.auipc rd up) rd (s.me.pc + (up ++ 0#12).signExtend 64) ∧
    s.yields (.addi rd rs1 imm) rd (a + i) ∧
    s.yields (.slti rd rs1 imm) rd (if a.toInt < i.toInt then 1 else 0) ∧
    s.yields (.sltiu rd rs1 imm) rd (if a.toNat < i.toNat then 1 else 0) ∧
    s.yields (.xori rd rs1 imm) rd (a ^^^ i) ∧
    s.yields (.ori rd rs1 imm) rd (a ||| i) ∧
    s.yields (.andi rd rs1 imm) rd (a &&& i) ∧
    s.yields (.slli rd rs1 sh) rd (a <<< sh) ∧
    s.yields (.srli rd rs1 sh) rd (a >>> sh) ∧
    s.yields (.srai rd rs1 sh) rd (a.sshiftRight' sh) ∧
    s.yields (.addiw rd rs1 imm) rd ((lo + imm.signExtend 32).signExtend 64) ∧
    s.yields (.slliw rd rs1 sw) rd ((lo <<< sw).signExtend 64) ∧
    s.yields (.srliw rd rs1 sw) rd ((lo >>> sw).signExtend 64) ∧
    s.yields (.sraiw rd rs1 sw) rd ((lo.sshiftRight' sw).signExtend 64)) ∧
  (∀ (s : State) (rd rs1 rs2 : BitVec 4),
    let a := s.me.reg rs1
    let b := s.me.reg rs2
    let al := a.setWidth 32
    let bl := b.setWidth 32
    s.yields (.add rd rs1 rs2) rd (a + b) ∧
    s.yields (.sub rd rs1 rs2) rd (a - b) ∧
    s.yields (.sll rd rs1 rs2) rd (a <<< b.setWidth 6) ∧
    s.yields (.slt rd rs1 rs2) rd (if a.toInt < b.toInt then 1 else 0) ∧
    s.yields (.sltu rd rs1 rs2) rd (if a.toNat < b.toNat then 1 else 0) ∧
    s.yields (.xorr rd rs1 rs2) rd (a ^^^ b) ∧
    s.yields (.srl rd rs1 rs2) rd (a >>> b.setWidth 6) ∧
    s.yields (.sra rd rs1 rs2) rd (a.sshiftRight' (b.setWidth 6)) ∧
    s.yields (.orr rd rs1 rs2) rd (a ||| b) ∧
    s.yields (.andr rd rs1 rs2) rd (a &&& b) ∧
    s.yields (.addw rd rs1 rs2) rd ((al + bl).signExtend 64) ∧
    s.yields (.subw rd rs1 rs2) rd ((al - bl).signExtend 64) ∧
    s.yields (.sllw rd rs1 rs2) rd ((al <<< b.setWidth 5).signExtend 64) ∧
    s.yields (.srlw rd rs1 rs2) rd ((al >>> b.setWidth 5).signExtend 64) ∧
    s.yields (.sraw rd rs1 rs2) rd ((al.sshiftRight' (b.setWidth 5)).signExtend 64) ∧
    s.yields (.czeroEqz rd rs1 rs2) rd (if b = 0 then 0 else a) ∧
    s.yields (.czeroNez rd rs1 rs2) rd (if b = 0 then a else 0))

/-- R53, R54: products, and quotients and remainders rounded toward zero. A division by zero gives a quotient of all ones
and the dividend as the remainder; the most negative number divided by -1 gives itself and remainder 0; neither traps. -/
def Obligations.MultiplyDivide : Prop :=
  ∀ (s : State) (rd rs1 rs2 : BitVec 4),
    let a := s.me.reg rs1
    let b := s.me.reg rs2
    let al := a.setWidth 32
    let bl := b.setWidth 32
    s.yields (.mul rd rs1 rs2) rd (a * b) ∧
    s.yields (.mulh rd rs1 rs2) rd (BitVec.ofInt 64 (a.toInt * b.toInt / 2 ^ 64)) ∧
    s.yields (.mulhsu rd rs1 rs2) rd (BitVec.ofInt 64 (a.toInt * b.toNat / 2 ^ 64)) ∧
    s.yields (.mulhu rd rs1 rs2) rd (BitVec.ofNat 64 (a.toNat * b.toNat / 2 ^ 64)) ∧
    s.yields (.mulw rd rs1 rs2) rd ((al * bl).signExtend 64) ∧
    s.yields (.div rd rs1 rs2) rd (if b = 0 then BitVec.allOnes 64 else a.sdiv b) ∧
    s.yields (.divu rd rs1 rs2) rd (if b = 0 then BitVec.allOnes 64 else a / b) ∧
    s.yields (.rem rd rs1 rs2) rd (if b = 0 then a else a.srem b) ∧
    s.yields (.remu rd rs1 rs2) rd (if b = 0 then a else a % b) ∧
    s.yields (.divw rd rs1 rs2) rd ((if bl = 0 then BitVec.allOnes 32 else al.sdiv bl).signExtend 64) ∧
    s.yields (.divuw rd rs1 rs2) rd ((if bl = 0 then BitVec.allOnes 32 else al / bl).signExtend 64) ∧
    s.yields (.remw rd rs1 rs2) rd ((if bl = 0 then al else al.srem bl).signExtend 64) ∧
    s.yields (.remuw rd rs1 rs2) rd ((if bl = 0 then al else al % bl).signExtend 64) ∧
    (a = BitVec.intMin 64 → b = BitVec.allOnes 64 →
      s.yields (.div rd rs1 rs2) rd a ∧ s.yields (.rem rd rs1 rs2) rd 0)

/-- R27, R53: a jump or a taken branch to a target that is a multiple of 4 goes there; `jal` and `jalr` give rd the
address of the word after theirs, `jalr` clears bit 0 of its sum; a branch not taken moves on by 4, whatever its
target. To another target a jump or a taken branch traps ILLEGAL at that instruction, with the target in the record's
VA field. No branch and no trap changes a register. -/
def Obligations.JumpsAndBranches : Prop :=
  (∀ (s : State) (rd rs1 rs2 : BitVec 4) (imm : BitVec 12) (up : BitVec 20),
    let a := s.me.reg rs1
    let b := s.me.reg rs2
    let goes (i : Instr) (pc : Word) : Prop := ∃ t, exec i s = .next t ∧ s.onlyMe t ∧
      t.me = { s.me with pc := pc, instret := s.me.instret + 1, sig := t.me.sig }
    let links (i : Instr) (pc : Word) : Prop := ∃ t, exec i s = .next t ∧ s.onlyMe t ∧
      t.me = { s.me with regs := t.me.regs, pc := pc, instret := s.me.instret + 1, sig := t.me.sig } ∧
      ∀ q, t.me.reg q = if q = rd ∧ q ≠ 0 then s.me.pc + 4 else s.me.reg q
    let branch (i : Instr) (taken : Prop) : Prop :=
      (taken → (s.me.pc + (imm.signExtend 64) <<< 1).toNat % 4 = 0 → goes i (s.me.pc + (imm.signExtend 64) <<< 1)) ∧
      (¬ taken → goes i (s.me.pc + 4))
    ((s.me.pc + (up.signExtend 64) <<< 1).toNat % 4 = 0 → links (.jal rd up) (s.me.pc + (up.signExtend 64) <<< 1)) ∧
    (((a + imm.signExtend 64) &&& ~~~1).toNat % 4 = 0 → links (.jalr rd rs1 imm) ((a + imm.signExtend 64) &&& ~~~1)) ∧
    branch (.beq rs1 rs2 imm) (a = b) ∧
    branch (.bne rs1 rs2 imm) (a ≠ b) ∧
    branch (.blt rs1 rs2 imm) (a.toInt < b.toInt) ∧
    branch (.bge rs1 rs2 imm) (b.toInt ≤ a.toInt) ∧
    branch (.bltu rs1 rs2 imm) (a.toNat < b.toNat) ∧
    branch (.bgeu rs1 rs2 imm) (b.toNat ≤ a.toNat)) ∧
  (∀ (s : State) (rd rs1 rs2 : BitVec 4) (imm : BitVec 12) (up : BitVec 20), s.me.issues →
    let a := s.me.reg rs1
    let b := s.me.reg rs2
    let far := s.me.pc + (imm.signExtend 64) <<< 1
    let branch (i : Instr) (taken : Prop) : Prop := taken → far.toNat % 4 ≠ 0 → s.traps i .illegal far 0
    ((s.me.pc + (up.signExtend 64) <<< 1).toNat % 4 ≠ 0 →
      s.traps (.jal rd up) .illegal (s.me.pc + (up.signExtend 64) <<< 1) 0) ∧
    (((a + imm.signExtend 64) &&& ~~~1).toNat % 4 ≠ 0 →
      s.traps (.jalr rd rs1 imm) .illegal ((a + imm.signExtend 64) &&& ~~~1) 0) ∧
    branch (.beq rs1 rs2 imm) (a = b) ∧
    branch (.bne rs1 rs2 imm) (a ≠ b) ∧
    branch (.blt rs1 rs2 imm) (a.toInt < b.toInt) ∧
    branch (.bge rs1 rs2 imm) (b.toInt ≤ a.toInt) ∧
    branch (.bltu rs1 rs2 imm) (a.toNat < b.toNat) ∧
    branch (.bgeu rs1 rs2 imm) (b.toNat ≤ a.toNat))

/-! ## CSRs (R67 to R78) -/

/-- R67, R68, R70 to R76, R130: a Zicsr instruction that names a CSR it may write gives rd the value that the CSR read
before and writes it by the field rules of its map: RES0 bits are ignored, `pushq` stores at most 512, `pweight` at
least 1, a mode of `vrm` above 4 and of `pmsel` of 3 leave the field as it is, and a write of `pmsel` zeroes its
counter. A set or clear form with a zero mask writes nothing. That a write of `oc` leaves the armed wake is the
model's reading (log 12). -/
def Obligations.CsrWrites : Prop :=
  ∀ (s : State) (rd rs1 : BitVec 4) (csr : BitVec 12) (uimm : BitVec 5) (x : Csr), csrOf csr.toNat = some x →
    x.writable = true →
    let old := s.readCsr x
    let c := s.myCore
    let done (t : State) : Thread := { s.me with pc := s.me.pc + 4, instret := s.me.instret + 1, regs := t.me.regs }
    let core (t : State) (k : Core) : Prop := t = { s with threads := t.threads, cores := t.cores } ∧
      t.me = done t ∧ ∀ n, t.core n = if n = c then k else s.core n
    let mode (v : Word) : BitVec 3 :=
      if (v.extractLsb' 5 3).toNat ≤ 4 then v.extractLsb' 5 3 else s.me.vrm.extractLsb' 5 3
    let sel (n : Nat) (v : Word) : BitVec 2 :=
      if (v.extractLsb' 16 2).toNat = 3 then (tget 0 (s.core c).pmsel n).extractLsb' 16 2 else v.extractLsb' 16 2
    let effect (v : Word) (t : State) : Prop :=
      match x with
      | .oc => s.onlyMe t ∧ t.me = { done t with oc := v.setWidth 4 }
      | .vmask => s.onlyMe t ∧ t.me = { done t with vmask := v, dirty := true }
      | .vrm => s.onlyMe t ∧ t.me = { done t with vrm := v.extractLsb' 8 1 ++ mode v ++ v.extractLsb' 0 5 }
      | .dphase => s.onlyMe t ∧ t.me = { done t with dphase := v.setWidth 9 }
      | .pushref => s.onlyMe t ∧ t.me = { done t with pushref := v }
      | .yldlim => s.onlyMe t ∧ t.me = { done t with yldlim := v.setWidth 48 }
      | .pushq => core t { s.core c with pushq := if (v.setWidth 10).toNat ≤ 512 then v.setWidth 10 else 512 }
      | .pweight => core t { s.core c with pweight := if v.setWidth 4 = 0#4 then 1 else v.setWidth 4 }
      | .pmsel n => core t { s.core c with
          pmsel := tset (s.core c).pmsel n (sel n v ++ v.extractLsb' 0 16),
          pmselCtx := tset (s.core c).pmselCtx n s.myCtx,
          pmc := tset (s.core c).pmc n 0 }
      | _ => False
    let writes (i : Instr) (v : Word) : Prop :=
      ∃ t, exec i s = .next t ∧ effect v t ∧ (∀ u, u ≠ s.cur → t.thr u = s.thr u) ∧
        ∀ q, t.me.reg q = if q = rd ∧ q ≠ 0 then old else s.me.reg q
    writes (.csrrw rd rs1 csr) (s.me.reg rs1) ∧
    writes (.csrrwi rd csr uimm) (uimm.setWidth 64) ∧
    (rs1 ≠ 0 → writes (.csrrs rd rs1 csr) (old ||| s.me.reg rs1)) ∧
    (rs1 ≠ 0 → writes (.csrrc rd rs1 csr) (old &&& ~~~ s.me.reg rs1)) ∧
    (uimm ≠ 0 → writes (.csrrsi rd csr uimm) (old ||| uimm.setWidth 64)) ∧
    (uimm ≠ 0 → writes (.csrrci rd csr uimm) (old &&& ~~~ uimm.setWidth 64))

/-- R67, R69 to R78: a set or clear form with a zero mask reads any CSR of the map and writes none; the map's numbers
name the CSRs that R69 lists, and each reads as its layout says, written out from the fields of the state: the numbers of
thread, core, forme, rank, group and die, the counters of the thread, and of a programmable counter its count, or all ones
where no event of its code is counted. -/
def Obligations.CsrReads : Prop :=
  ∀ (s : State) (rd : BitVec 4) (csr : BitVec 12) (x : Csr), csrOf csr.toNat = some x →
    let t := s.me
    s.yields (.csrrs rd 0 csr) rd (s.readCsr x) ∧ s.yields (.csrrc rd 0 csr) rd (s.readCsr x) ∧
    s.yields (.csrrsi rd csr 0) rd (s.readCsr x) ∧ s.yields (.csrrci rd csr 0) rd (s.readCsr x) ∧
    (csr = 0x800#12 → s.readCsr x = t.oc.setWidth 64) ∧
    (csr = 0x801#12 → s.readCsr x = t.vmask) ∧
    (csr = 0x802#12 → s.readCsr x = t.vrm.setWidth 64) ∧
    (csr = 0x803#12 → s.readCsr x = t.dphase.setWidth 64) ∧
    (csr = 0x804#12 → s.readCsr x = (s.core t.core).pushq.setWidth 64) ∧
    (csr = 0x805#12 → s.readCsr x = t.pushref) ∧
    (csr = 0x806#12 → s.readCsr x = (s.core t.core).pweight.setWidth 64) ∧
    (csr = 0x807#12 → s.readCsr x = t.yldlim.setWidth 64) ∧
    (csr = 0xC01#12 ∨ csr = 0xC86#12 → s.readCsr x = BitVec.ofNat 64 s.gtick) ∧
    (csr = 0xC02#12 → s.readCsr x = t.instret) ∧
    (∀ n, n < 4 → let sel := tget 0 (s.core t.core).pmsel n
      (csr = BitVec.ofNat 12 (0x810 + n) → s.readCsr x = sel.setWidth 64) ∧
      (csr = BitVec.ofNat 12 (0xC90 + n) → s.readCsr x =
        if coreEvent (sel.toNat % 2 ^ 16) = true then tget 0 (s.core t.core).pmc n else 0xFFFFFFFFFFFFFFFF)) ∧
    (csr = 0xC00#12 → s.readCsr x = BitVec.ofNat 64 (t.cycles + match t.slot with
      | some _ => tget 0 s.cyc (t.core / 256) - t.slotFrom
      | none => 0)) ∧
    (csr = 0xC80#12 → s.readCsr x = BitVec.ofNat 64 ((s.grp t.gid).kid % 2 ^ 16 * 2 ^ 32 + t.thrid % 2 ^ 32)) ∧
    (csr = 0xC82#12 → let f := t.core % 256 / 8
      let snake := if f / 8 % 2 = 0 then f else 8 * (f / 8) + 7 - f % 8
      s.readCsr x = BitVec.ofNat 64 (snake * 2 ^ 10 + (2 * (f / 16) + f % 8 / 4) * 2 ^ 8 + f)) ∧
    (csr = 0xC84#12 → s.readCsr x = BitVec.ofNat 64 ((s.grp t.gid).index % 2 ^ 32)) ∧
    (csr = 0xC85#12 → s.readCsr x = BitVec.ofNat 64 (s.power.package % 64 * 2 ^ 8 + t.core / 256 % 4)) ∧
    (csr = 0xC81#12 → s.readCsr x = BitVec.ofNat 64 (t.core % 256)) ∧
    (csr = 0xC83#12 → s.readCsr x = BitVec.ofNat 64 (t.rank % 8)) ∧
    (csr = 0xC87#12 → s.readCsr x = t.moves)

/-- R28, R29, R67, R109: a word that is no instruction, a CSR number absent from the map and a write of a CSR that is
read-only trap ILLEGAL and change no register, no local memory and no other byte of memory than the trap record's (R110); a
thread that waits for nothing is as it was. -/
def Obligations.IllegalTraps : Prop :=
  (∀ (s : State) (rd rs1 : BitVec 4) (csr : BitVec 12) (uimm : BitVec 5), s.me.issues →
    let bad (i : Instr) : Prop := s.traps i .illegal 0 0
    (csrOf csr.toNat = none →
      bad (.csrrw rd rs1 csr) ∧ bad (.csrrs rd rs1 csr) ∧ bad (.csrrc rd rs1 csr) ∧ bad (.csrrwi rd csr uimm) ∧
        bad (.csrrsi rd csr uimm) ∧ bad (.csrrci rd csr uimm)) ∧
    (∀ x, csrOf csr.toNat = some x → x.writable = false →
      bad (.csrrw rd rs1 csr) ∧ bad (.csrrwi rd csr uimm) ∧
        (rs1 ≠ 0 → bad (.csrrs rd rs1 csr) ∧ bad (.csrrc rd rs1 csr)) ∧
        (uimm ≠ 0 → bad (.csrrsi rd csr uimm) ∧ bad (.csrrci rd csr uimm)))) ∧
  (∀ s : State, s.me.issues → s.traps .illegalInstructionWord .illegal 0 0)

/-! ## FENCE, ECALL, EBREAK, and words that are no instruction (R28, R63 to R66) -/

/-- R63, R64, R132: a FENCE with an empty set is no operation. With W in pred it completes once the thread's release step
is established and the core's side log drained, counting one interval, and waits for that until then; with R in succ the
clean untracked copies of the core are dropped, unless the partition caps scope at the die (R324). FENCE.TSO is FENCE
rw,rw, whatever its sets hold (log 13, the model's reading). R122, R138 to R140: where untracked lines are dirty, a FENCE
with W in pred, `ecall`, `ebreak`, and a release at `pkg` or wider of `fnc`, `pstr` or an atomic first send them home. -/
def Obligations.FenceCompletes : Prop :=
  ∀ (s : State) (rd rs1 : BitVec 5) (pred succ r a b : BitVec 4) (width sp : BitVec 3) (nb z : BitVec 1),
    let c := s.myCore
    let scope := if s.capped s.myCtx then 2 else 5
    let kept (r : Bool) (k : Nat) : List L1Line :=
      if k = c ∧ r = true ∧ scope = 5 then (s.core k).l1.filter (fun x => decide (x.st ≠ .raw)) else (s.core k).l1
    let settled : Prop := s.established s.cur scope = true ∧ (s.core c).side = []
    let ordered (i : Instr) (w r : Bool) : Prop :=
      ((w = true → settled) →
        ∃ t, exec i s = .next t ∧
          t = { s with threads := t.threads, cores := t.cores, dies := t.dies, wakeSeq := t.wakeSeq } ∧
          (∀ u, u ≠ s.cur → t.thr u = s.thr u) ∧
          (∀ k, t.core k = { s.core k with pmc := (t.core k).pmc, l1 := kept r k }) ∧
          t.me = { s.me with pc := s.me.pc + 4, instret := s.me.instret + 1,
                             interval := if w = true then (s.me.interval + 1) % 2 ^ 20 else s.me.interval,
                             trail := if w = true then s.me.trailAfter scope else s.me.trail }) ∧
      (w = true → ¬ settled → ∃ t, exec i s = .next t ∧
        { s.me with trail := if s.established s.cur scope = true then s.me.trailAfter scope else s.me.trail }.stoppedAt
          t.me 0 .nr (.fenced scope))
    let hasW (x : BitVec 4) : Bool := x.getLsbD 0 || x.getLsbD 2
    let hasR (x : BitVec 4) : Bool := x.getLsbD 1 || x.getLsbD 3
    (pred = 0#4 ∨ succ = 0#4 → s.yields (.fence rd rs1 pred succ) 0 0) ∧
    (s.clean → s.noFetch → pred ≠ 0#4 → succ ≠ 0#4 → ordered (.fence rd rs1 pred succ) (hasW pred) (hasR succ)) ∧
    (s.clean → s.noFetch → ordered (.fenceTso rd rs1 pred succ) true true) ∧
    (s.unclean → s.capped s.myCtx = false →
      let first (i : Instr) (nb : BitVec 1) (w : WakeCond) : Prop := s.writesBackFirst i nb w
      (succ ≠ 0#4 → hasW pred = true → first (.fence rd rs1 pred succ) 0 (.fenced 5)) ∧
      first (.fenceTso rd rs1 pred succ) 0 (.fenced 5) ∧ first .ecall 0 (.fenced 5) ∧ first .ebreak 0 (.fenced 5) ∧
      (3 ≤ sp.toNat →
        let rel (i : Instr) : Prop := first i nb (.release sp.toNat)
        rel (.fnc 1 sp nb) ∧ rel (.fnc 2 sp nb) ∧
        ((s.me.reg a).toNat % 2 ^ (width.toNat % 4) = 0 → rel (.pstr r a width sp nb)) ∧
        ((s.me.reg a).toNat % (if z = 1#1 then 4 else 8) = 0 →
          rel (.amoAdd r a b z sp nb) ∧ rel (.amoAnd r a b z sp nb) ∧ rel (.amoOr r a b z sp nb) ∧
          rel (.amoXor r a b z sp nb) ∧ rel (.amoMin r a b z sp nb) ∧ rel (.amoMax r a b z sp nb) ∧
          rel (.amoMinu r a b z sp nb) ∧ rel (.amoMaxu r a b z sp nb) ∧ rel (.amoSwap r a b z sp nb) ∧
          rel (.amoCas r a b z sp nb))))

/-- R65, R66, R109: `ecall` and `ebreak` wait for their fence, and then leave the thread TRAPPED with a record of class
ECALL that holds the service number of a5, or of class EBREAK; no register changes. -/
def Obligations.SystemTraps : Prop :=
  ∀ s : State, s.me.issues →
    let scope := if s.capped s.myCtx then 2 else 5
    let released : Thread := { s.me with interval := (s.me.interval + 1) % 2 ^ 20, trail := s.me.trailAfter scope }
    let settled : Prop := s.established s.cur scope = true ∧ (s.core s.myCore).side = []
    let traps (i : Instr) (cls : TrapClass) (extra : Word) : Prop :=
      (settled → ∃ t, exec i s = .next t ∧ t.me.trappedFrom released cls 0 extra s.ir) ∧
      (¬ settled → ∃ t, exec i s = .next t ∧
        { s.me with trail := if s.established s.cur scope = true then s.me.trailAfter scope else s.me.trail }.stoppedAt
          t.me 0 .nr (.fenced scope))
    s.clean → traps .ecall .ecall (s.me.reg 15) ∧ traps .ebreak .ebreak 0

/-! ## Loads and stores (R58 to R61, R134 to R136) -/

/-- R58, R59, R60, R134, R136: a standard load, a probe load and a fused probe load of bytes of a local memory complete RDY
at any byte address, with the bytes of the width, sign- or zero-extended, in rd; a misaligned one reads them one by one in
ascending order. The standard form writes no `oc`; a fused probe that is RDY falls through. -/
def Obligations.LoadsFromWindow : Prop :=
  ∀ (s : State) (rd rs1 : BitVec 4) (imm off : BitVec 12) (width : BitVec 3) (nb : BitVec 1) (b : Nat),
    let ea := s.me.reg rs1 + imm.signExtend 64
    let reads (i : Instr) (a : Word) (z : BitVec 1) (w : BitVec 3) (n : Nat) : Prop :=
      s.span s.cur a n false = .lm b → s.unclaimed a →
        (a.toNat % n = 0 → s.loads i z rd (loadedValue s.lm b w)) ∧ (a.toNat % n ≠ 0 → s.loadsByte i z rd w n b)
    let load (i : Instr) (w : BitVec 3) (n : Nat) : Prop := reads i ea 0 w n
    load (.lb rd rs1 imm) 0 1 ∧ load (.lh rd rs1 imm) 1 2 ∧ load (.lw rd rs1 imm) 2 4 ∧ load (.ld rd rs1 imm) 3 8 ∧
    load (.lbu rd rs1 imm) 4 1 ∧ load (.lhu rd rs1 imm) 5 2 ∧ load (.lwu rd rs1 imm) 6 4 ∧
    reads (.pld rd rs1 imm width nb) ea nb width (2 ^ (width.toNat % 4)) ∧
    reads (.pldBr rd rs1 off width) (s.me.reg rs1) 1 width (2 ^ (width.toNat % 4))

/-- R58, R59, R60, R134, R136: a standard store, a probe store and a fused probe store to bytes of a local memory complete
RDY at any byte address: the low bytes of the register stand there, little-endian, and every other byte reads as before; a
misaligned one stores them one by one in ascending order. -/
def Obligations.StoresToWindow : Prop :=
  ∀ (s : State) (rs1 rs2 : BitVec 4) (imm off : BitVec 12) (width : BitVec 3) (nb : BitVec 1) (b : Nat), s.memOk = true →
    let ea := s.me.reg rs1 + imm.signExtend 64
    let v := (s.me.reg rs2).toNat
    let writes (i : Instr) (a : Word) (z : BitVec 1) (n : Nat) : Prop := s.span s.cur a n true = .lm b → s.unclaimed a →
      (a.toNat % n = 0 → s.storesLm i z b n v) ∧ (a.toNat % n ≠ 0 → s.storesByte i z b n v)
    writes (.sb rs1 rs2 imm) ea 0 1 ∧ writes (.sh rs1 rs2 imm) ea 0 2 ∧ writes (.sw rs1 rs2 imm) ea 0 4 ∧
    writes (.sd rs1 rs2 imm) ea 0 8 ∧ writes (.pst rs2 rs1 imm width nb) ea nb (2 ^ (width.toNat % 4)) ∧
    writes (.pstBr rs2 rs1 off width) (s.me.reg rs1) 1 (2 ^ (width.toNat % 4))

/-- R85, R111, R115, R116, R134: a probe load completes RDY on a tracked line that the core holds readable, and a probe
store on one held E or M. The load gives the line's bytes, and a pushed copy loses its flag; the store leaves the line M
with its bytes replaced. R122: on an untracked page a load completes where the core's copy holds its bytes, and a store
where the core holds the line or a way is free, which makes its bytes held and dirty. No other line of any L1 changes, and
no memory. -/
def Obligations.ProbesHitLine : Prop :=
  ∀ (s : State) (r base : BitVec 4) (imm : BitVec 12) (width : BitVec 3) (nb : BitVec 1) (e : TlbEntry) (x : L1Line),
    let n := 2 ^ (width.toNat % 4)
    let ea := s.me.reg base + imm.signExtend 64
    let c := s.myCore
    let line := leafPa e.level e.pte.toNat ea.toNat / 128
    let off := leafPa e.level e.pte.toNat ea.toNat % 128
    let changes (t : State) (y : L1Line) : Prop :=
      t.mem = s.mem ∧ t.lm = s.lm ∧ t.net = s.net ∧ (∀ k, k ≠ c → t.core k = s.core k) ∧
      t.core c = { s.core c with l1 := (t.core c).l1 } ∧ (t.core c).line line = some y ∧
      ∀ l, l ≠ line → (t.core c).line l = (s.core c).line l
    (s.HoldsLine ea n false e x → s.unclaimed ea → x.st = .s ∨ x.st = .sp ∨ x.st = .e ∨ x.st = .m →
      ∃ t, exec (.pld r base imm width nb) s = .next t ∧
        changes t { x with st := if x.st = .sp then .s else x.st } ∧
        t.me = { s.me.completed nb .rdy with regs := t.me.regs, bytes := none } ∧
        ∀ q, t.me.reg q = if q = r ∧ q ≠ 0 then extendLoad width (lineGet x.data off n) else s.me.reg q) ∧
    (s.HoldsLine ea n true e x → s.unclaimed ea → x.st = .e ∨ x.st = .m → s.me.issues →
      ∃ t d, exec (.pst r base imm width nb) s = .next t ∧ changes t { x with st := .m, data := d } ∧
        t.me = { s.me.completed nb .rdy with wake := t.me.wake, releasing := false } ∧
        ∀ i, i < 128 → lineGet d i 1 = if off ≤ i ∧ i < off + n then (s.me.reg r).toNat / 256 ^ (i - off) % 256
          else lineGet x.data i 1) ∧
    (s.ReachesRaw ea n false e → s.unclaimed ea → (s.core c).line line = some x → x.st = .raw →
      (∀ i, i < n → x.valid.getLsbD (off + i) = true) →
      ∃ t, exec (.pld r base imm width nb) s = .next t ∧ changes t x ∧
        t.me = { s.me.completed nb .rdy with regs := t.me.regs, bytes := none } ∧
        ∀ q, t.me.reg q = if q = r ∧ q ≠ 0 then extendLoad width (lineGet x.data off n) else s.me.reg q) ∧
    (s.ReachesRaw ea n true e → s.unclaimed ea → s.noFetch → s.me.trail = [] → s.me.issues →
      (s.core c).line line = some x ∧ x.st = .raw ∨
        (s.core c).line line = none ∧ (s.core c).waysUsed line < 8 ∧
          x = { line := line, st := .raw, data := 0, valid := 0, dirty := 0, home := e.home line } →
      ∃ t y, exec (.pst r base imm width nb) s = .next t ∧ changes t y ∧ y.st = .raw ∧ y.home = x.home ∧
        t.me = { s.me.completed nb .rdy with wake := t.me.wake, releasing := false } ∧
        ∀ i, i < 128 →
          let here : Bool := decide (off ≤ i ∧ i < off + n)
          y.valid.getLsbD i = (here || x.valid.getLsbD i) ∧ y.dirty.getLsbD i = (here || x.dirty.getLsbD i) ∧
            lineGet y.data i 1 = if here = true then (s.me.reg r).toNat / 256 ^ (i - off) % 256 else lineGet x.data i 1)

/-- R275, R276, R277: on a page that is not present and whose fault request is open, a load, plain or probe, is FAULTED
and waits for the answer of the request; a store, plain or probe, goes into the core's side log and retires RDY, or is
FAULTED where the log is full. Where no request is open, the same access first opens one, with its address, its kind, and
the level at which the walk stops. That the first attempt has this outcome, and not NR, is the model's reading (log
49). -/
def Obligations.NotPresentAccess : Prop :=
  ∀ (s : State) (r base : BitVec 4) (imm : BitVec 12) (width : BitVec 3) (nb : BitVec 1),
    let n := 2 ^ (width.toNat % 4)
    let ea := s.me.reg base + imm.signExtend 64
    let c := s.myCore
    let page := pageOf ea.toNat
    let reached (m : Nat) (w : Bool) : Prop := s.span s.cur ea m w = .paged ∧ ea.toNat % m = 0 ∧ s.myLog page = [] ∧
      (w = true → s.inShadow s.myCtx ea.toNat = false) ∧
      s.notThere c s.myCtx ea.toNat = true ∧ (s.core c).findClaim s.cur s.me.pc s.ir ea = none
    let absent (m : Nat) (w : Bool) : Prop := reached m w ∧ s.faultOpen s.myCtx page = true
    let waits (i : Instr) (b : BitVec 1) : Prop := s.stops i b .faulted (.fault s.myCtx page (some ea))
    let full (i : Instr) (b : BitVec 1) (m : Nat) : Prop :=
      absent m true → 32 ≤ (s.core c).side.length → s.stops i b .faulted (.sideLog c)
    let logs (i : Instr) (b : BitVec 1) (m : Nat) : Prop :=
      absent m true → (s.core c).side.length < 32 → (s.core c).deferred = [] →
      ∃ t, exec i s = .next t ∧ t.me = { s.me.completed b .rdy with releasing := false } ∧
        t.mem = s.mem ∧ t.lm = s.lm ∧ (∀ k, t.core k = { s.core k with pmc := (t.core k).pmc, side := (t.core k).side }) ∧
        (∀ k, k ≠ c → (t.core k).side = (s.core k).side) ∧
        (t.core c).side = (s.core c).side ++
          [{ uid := s.cur, ctx := s.myCtx, va := ea, width := m, seq := s.wakeSeq, pc := s.me.pc,
             sync := s.me.releasing, data := BitVec.ofNat 64 ((s.me.reg r).toNat % 2 ^ (8 * m)) }]
    let stores (i : Instr) (b : BitVec 1) (m : Nat) : Prop := full i b m ∧ logs i b m
    let opened (w : Bool) (level : Nat) (bad : Bool) : State :=
      State.modCtx { s with
        faults := s.faults ++ [{
          ctx := s.myCtx, page := page, va := BitVec.ofNat 64 ea.toNat, level := level, malformed := bad,
          kind := if w = true then 2 else 1, seq := (s.ctx s.myCtx).fseq, core := c, written := false, reports := [] }] }
        s.myCtx (fun x => { x with fseq := x.fseq + 1 })
    let opens (i : Instr) (m : Nat) (w : Bool) : Prop := reached m w → s.faultOpen s.myCtx page = false →
      ∀ level bad, s.walk s.myCtx ea.toNat = .absent level bad → exec i s = exec i (opened w level bad)
    (absent n false → waits (.pld r base imm width nb) nb) ∧
    (absent 1 false → waits (.lb r base imm) 0 ∧ waits (.lbu r base imm) 0) ∧
    (absent 2 false → waits (.lh r base imm) 0 ∧ waits (.lhu r base imm) 0) ∧
    (absent 4 false → waits (.lw r base imm) 0 ∧ waits (.lwu r base imm) 0) ∧
    (absent 8 false → waits (.ld r base imm) 0) ∧
    stores (.pst r base imm width nb) nb n ∧ stores (.sb base r imm) 0 1 ∧ stores (.sh base r imm) 0 2 ∧
    stores (.sw base r imm) 0 4 ∧ stores (.sd base r imm) 0 8 ∧
    opens (.pld r base imm width nb) n false ∧ opens (.lb r base imm) 1 false ∧ opens (.lbu r base imm) 1 false ∧
    opens (.lh r base imm) 2 false ∧ opens (.lhu r base imm) 2 false ∧ opens (.lw r base imm) 4 false ∧
    opens (.lwu r base imm) 4 false ∧ opens (.ld r base imm) 8 false ∧ opens (.pst r base imm width nb) n true ∧
    opens (.sb base r imm) 1 true ∧ opens (.sh base r imm) 2 true ∧ opens (.sw base r imm) 4 true ∧
    opens (.sd base r imm) 8 true

/-- R19 to R23, R59, R325: a misaligned access to paged memory traps ACCESS; an access part of which lies outside its
window traps WINDOW; one at an address of no class, a store to an identity word, and one to a page of the context's race
shadow trap ACCESS; the record holds the address, and nothing else of the thread changes. That the first byte of an access
decides between ACCESS and WINDOW (log 35), and that alignment is checked before WINDOW (log 14), are the model's
readings. No other byte of memory than the trap record's changes. -/
def Obligations.AccessTraps : Prop :=
  ∀ (s : State) (r base : BitVec 4) (imm off : BitVec 12) (width : BitVec 3) (nb : BitVec 1), s.me.issues →
    let n := 2 ^ (width.toNat % 4)
    let ea := s.me.reg base + imm.signExtend 64
    let bad (a : Word) (m : Nat) (w : Bool) (i : Instr) : Prop :=
      let skew : Prop := a.toNat % m ≠ 0 ∧ inPaged a.toNat = true
      (skew → s.traps i .access a 0) ∧
      (¬ skew → s.span s.cur a m w = .window → s.traps i .window a 0) ∧
      (s.span s.cur a m w = .access → s.traps i .access a 0) ∧
      (¬ skew → w = true → s.span s.cur a m w = .paged → s.inShadow s.myCtx a.toNat = true → s.traps i .access a 0)
    bad ea 1 false (.lb r base imm) ∧ bad ea 2 false (.lh r base imm) ∧ bad ea 4 false (.lw r base imm) ∧
    bad ea 8 false (.ld r base imm) ∧ bad ea 1 false (.lbu r base imm) ∧ bad ea 2 false (.lhu r base imm) ∧
    bad ea 4 false (.lwu r base imm) ∧ bad ea 1 true (.sb base r imm) ∧ bad ea 2 true (.sh base r imm) ∧
    bad ea 4 true (.sw base r imm) ∧ bad ea 8 true (.sd base r imm) ∧ bad ea n false (.pld r base imm width nb) ∧
    bad ea n true (.pst r base imm width nb) ∧ bad (s.me.reg base) n false (.pldBr r base off width) ∧
    bad (s.me.reg base) n true (.pstBr r base off width)

/-! ## Acquire and release accesses, atomics and updates (R132, R137 to R141), constant words (R145) -/

/-- R140, R132, R64: an atomic on a word or doubleword of a local memory, once its release step is established, gives rd
the old value sign-extended, leaves the combined value in memory, counts one interval as a release, and drops the clean
untracked copies of the core as an acquire from `pkg` on; until then it returns NR. A failed compare leaves the word. -/
def Obligations.AtomicsOnWindow : Prop :=
  ∀ (s : State) (rd rs1 rs2 : BitVec 4) (scope : BitVec 3) (nb : BitVec 1) (b : Nat), s.memOk = true → s.clean →
    s.noFetch →
    let ea := s.me.reg rs1
    let sc := s.capScope scope.toNat
    let amo (i : Instr) (w n : Nat) (f : BitVec w → BitVec w → BitVec w → BitVec w) : Prop :=
      ea.toNat % n = 0 →
        (s.established s.cur sc = false → ∃ t, exec i s = .next t ∧ s.me.stoppedAt t.me nb .nr (.release sc)) ∧
        (s.established s.cur sc = true → s.span s.cur ea n true = .lm b → s.unclaimed ea →
          let old := BitVec.ofNat w (mload s.lm b n)
          ∃ t, exec i s = .next t ∧ s.onlyThreadLm t ∧ s.coresAfter t true sc ∧
            storedBytes s.lm t.lm b n (f old ((s.me.reg rs2).setWidth w) ((s.me.reg rd).setWidth w)).toNat ∧
            (∀ q, t.me.reg q = if q = rd ∧ q ≠ 0 then old.signExtend 64 else s.me.reg q) ∧
            t.me = { s.me.completed nb .rdy with regs := t.me.regs, interval := (s.me.interval + 1) % 2 ^ 20, sig := t.me.sig,
                                                 trail := s.me.trailAfter sc })
    let both (i : BitVec 1 → Instr) (f : (w : Nat) → BitVec w → BitVec w → BitVec w → BitVec w) : Prop :=
      amo (i 1) 32 4 (f 32) ∧ amo (i 0) 64 8 (f 64)
    both (fun z => .amoAdd rd rs1 rs2 z scope nb) (fun _ o x _ => o + x) ∧
    both (fun z => .amoAnd rd rs1 rs2 z scope nb) (fun _ o x _ => o &&& x) ∧
    both (fun z => .amoOr rd rs1 rs2 z scope nb) (fun _ o x _ => o ||| x) ∧
    both (fun z => .amoXor rd rs1 rs2 z scope nb) (fun _ o x _ => o ^^^ x) ∧
    both (fun z => .amoMin rd rs1 rs2 z scope nb) (fun _ o x _ => if x.toInt < o.toInt then x else o) ∧
    both (fun z => .amoMax rd rs1 rs2 z scope nb) (fun _ o x _ => if o.toInt < x.toInt then x else o) ∧
    both (fun z => .amoMinu rd rs1 rs2 z scope nb) (fun _ o x _ => if x.toNat < o.toNat then x else o) ∧
    both (fun z => .amoMaxu rd rs1 rs2 z scope nb) (fun _ o x _ => if o.toNat < x.toNat then x else o) ∧
    both (fun z => .amoSwap rd rs1 rs2 z scope nb) (fun _ _ x _ => x) ∧
    both (fun z => .amoCas rd rs1 rs2 z scope nb) (fun _ o x e => if o = e then x else o)

/-- R132, R137, R138, R139, R145: `plda` of the LM window loads and is an acquire; `pstr`, once its release step is
established, stores and is a release, and reports a refusal of a push once; `fnc` is the acquire, the release or both,
alone, with no race detector's word to take in; `lc` gives the constant word. -/
def Obligations.AcquireReleaseForms : Prop :=
  ∀ (s : State) (r rs1 : BitVec 4) (width scope : BitVec 3) (c8 : BitVec 8) (nb : BitVec 1) (b : Nat), s.memOk = true →
    s.clean → s.noFetch →
    let ea := s.me.reg rs1
    let n := 2 ^ (width.toNat % 4)
    let sc := s.capScope scope.toNat
    let unseen : Prop := (s.ctx s.myCtx).race = 0 ∨ s.me.seen = none
    let c : OCode := if s.me.refusal = true then .refused else .rdy
    let done (released : Bool) (o : OCode) (t : State) : Thread :=
      if released = true then
        { s.me.completed nb o with regs := t.me.regs, interval := (s.me.interval + 1) % 2 ^ 20, refusal := false,
                                   trail := s.me.trailAfter sc }
      else { s.me.completed nb o with regs := t.me.regs }
    let stores (t : State) (m : Prop) : Prop := s.onlyThreadLm t ∧ m
    (ea.toNat % n = 0 → s.span s.cur ea n false = .lm b → s.unclaimed ea →
      ∃ t, exec (.plda r rs1 width scope nb) s = .next t ∧ stores t (t.lm = s.lm) ∧ s.coresAfter t true sc ∧
        (∀ q, t.me.reg q = if q = r ∧ q ≠ 0 then loadedValue s.lm b width else s.me.reg q) ∧ t.me = done false .rdy t) ∧
    (ea.toNat % n = 0 → s.established s.cur sc = true → s.span s.cur ea n true = .lm b → s.unclaimed ea →
      ∃ t, exec (.pstr r rs1 width scope nb) s = .next t ∧
        stores t (storedBytes s.lm t.lm b n (s.me.reg r).toNat) ∧ s.coresAfter t false sc ∧ t.me = done true c t ∧
        t.me.regs = s.me.regs) ∧
    (unseen → ∃ t, exec (.fnc 0 scope nb) s = .next t ∧ stores t (t.lm = s.lm) ∧ s.coresAfter t true sc ∧
      t.me = done false .rdy t ∧ t.me.regs = s.me.regs) ∧
    (s.established s.cur sc = true →
      let fenced (t : State) : Thread := { done true c t with releasing := decide ((s.ctx s.myCtx).race ≠ 0) }
      (∃ t, exec (.fnc 1 scope nb) s = .next t ∧ stores t (t.lm = s.lm) ∧ s.coresAfter t false sc ∧ t.me = fenced t ∧
        t.me.regs = s.me.regs) ∧
      (unseen → ∃ t, exec (.fnc 2 scope nb) s = .next t ∧ stores t (t.lm = s.lm) ∧ s.coresAfter t true sc ∧
        t.me = fenced t ∧ t.me.regs = s.me.regs)) ∧
    (s.established s.cur sc = false → ∀ i, i = .fnc 1 scope nb ∨ i = .fnc 2 scope nb ∨
      (ea.toNat % n = 0 ∧ i = .pstr r rs1 width scope nb) →
      ∃ t, exec i s = .next t ∧ s.me.stoppedAt t.me nb .nr (.release sc)) ∧
    ∃ t, exec (.lc r c8 nb) s = .next t ∧ s.onlyMe t ∧ t.me = done false .rdy t ∧
      ∀ q, t.me.reg q = if q = r ∧ q ≠ 0 then loadedValue s.lm (s.me.core * 2 ^ 18 + 8 * c8.toNat) 3 else s.me.reg q

/-- R124, R141: `red` on a local memory leaves op of the word and rs2 there; on a line that the core holds as an update
copy of the kind, it combines into a word the copy has touched and starts one it has not. Its access is aligned to its
width. It changes no register. -/
def Obligations.RedCombines : Prop :=
  ∀ (s : State) (rs1 rs2 kind : BitVec 4) (nb : BitVec 1) (b : Nat) (e : TlbEntry) (x : L1Line), s.memOk = true →
    let ea := s.me.reg rs1
    let k := kind.toNat
    let n := redWidth k
    let v := (s.me.reg rs2).toNat % 2 ^ (8 * n)
    let line := leafPa e.level e.pte.toNat ea.toNat / 128
    let off := leafPa e.level e.pte.toNat ea.toNat % 128
    (ea.toNat % n = 0 → s.span s.cur ea n true = .lm b → s.unclaimed ea →
      s.storesLm (.red rs1 rs2 kind nb) nb b n (redOp k (mload s.lm b n) v)) ∧
    (s.HoldsLine ea n true e x → x.st = .u k → s.unclaimed ea →
      ∃ t, exec (.red rs1 rs2 kind nb) s = .next t ∧ t.me = s.me.completed nb .rdy ∧ t.mem = s.mem ∧ t.lm = s.lm ∧
        t.net = s.net ∧ (∀ q, q ≠ s.myCore → t.core q = s.core q) ∧
        (t.core s.myCore).line line = some { x with
          valid := x.valid ||| maskRange off n,
          data := lineSet x.data off n (if x.valid.getLsbD off then redOp k (lineGet x.data off n) v else v) })

/-! ## Line operations and pushes (R126, R142 to R144) -/

/-- R116, R144: a line operation under a held translation acts on the core's copy of the line as the table of R144 says,
with the message that goes to the home, and returns RDY; on an address of the LM or forme window, or a line that the core
does not hold, it does nothing; on a line that a claim pins, `line.inv` and `line.wbinv` return NR. -/
def Obligations.LineOperations : Prop :=
  ∀ (s : State) (rs1 : BitVec 4) (nb : BitVec 1) (e : TlbEntry),
    let ea := s.me.reg rs1
    let c := s.myCore
    let line := leafPa e.level e.pte.toNat ea.toNat / 128
    let held : Prop := inPaged ea.toNat = true ∧ s.translated ea e ∧ s.unclaimed ea ∧ s.noFetch
    let acts (i : Instr) (y : Option L1Line) (msgs : List (Nat × MsgKind)) : Prop :=
      ∃ t, exec i s = .next t ∧ t.me = s.me.completed nb .rdy ∧ t.mem = s.mem ∧ t.lm = s.lm ∧
        t.net = s.net ++ msgs.map (fun m => { src := c, dst := homeAgent m.1, line := line, kind := m.2 }) ∧
        (∀ q, q ≠ c → t.core q = s.core q) ∧ (t.core c).line line = y ∧
        ∀ l, l ≠ line → (t.core c).line l = (s.core c).line l
    let wb : Instr := .lineWb rs1 nb
    let inv : Instr := .lineInv rs1 nb
    let wbinv : Instr := .lineWbinv rs1 nb
    (inWindows ea = true → s.ends wb nb .rdy ∧ s.ends inv nb .rdy ∧ s.ends wbinv nb .rdy) ∧
    (held → (s.core c).pinned line = true →
      ∃ t, exec inv s = .next t ∧ s.me.stoppedAt t.me nb .nr (.unpinned c line) ∧ exec wbinv s = .next t) ∧
    (held → (s.core c).pinned line = false →
      ((s.core c).line line = none → acts wb none [] ∧ acts inv none [] ∧ acts wbinv none []) ∧
      ∀ x, (s.core c).line line = some x →
        (x.st = .s ∨ x.st = .sp ∨ x.st = .e →
          acts wb (some x) [] ∧ acts inv none [(x.home, .evict)] ∧ acts wbinv none [(x.home, .evict)]) ∧
        (x.st = .m → acts wb (some { x with st := .e }) [(x.home, .writeBack x.data true)] ∧
          acts inv none [(x.home, .writeBack x.data false)] ∧ acts wbinv none [(x.home, .writeBack x.data false)]) ∧
        (∀ k, x.st = .u k → acts wb none [(x.home, .uCopy x.data x.valid k)] ∧
          acts inv none [(x.home, .uCopy x.data x.valid k)] ∧ acts wbinv none [(x.home, .uCopy x.data x.valid k)]) ∧
        (x.st = .raw →
          let merge := if x.dirty = 0#128 then [] else [(x.home, MsgKind.rawWriteBack x.data x.dirty)]
          acts wb (some { x with dirty := 0#128 }) merge ∧ acts inv none [] ∧ acts wbinv none merge))

/-- R126, R127, R129, R142, R143: a push under a held translation of a tracked page that allows pushes, with a well-formed
target-set word and a free entry, sends the line's push to its home, adds one to the thread's pending-push count and
takes an entry; `psh.line` first writes a modified copy back and keeps it shared. It returns RDY. A malformed word, and
an address of the LM or forme window, give DENIED. -/
def Obligations.PushesLeave : Prop :=
  ∀ (s : State) (rs rs1 : BitVec 4) (c8 : BitVec 8) (nb : BitVec 1) (e : TlbEntry) (targets : List Nat),
    let ea := s.me.reg rs1
    let c := s.myCore
    let pa := leafPa e.level e.pte.toNat ea.toNat
    let line := pa / 128
    let home := e.home line
    let set := (loadedValue s.lm (c * 2 ^ 18 + 8 * c8.toNat) 3).toNat
    let may : Prop := inPaged ea.toNat = true ∧ s.translated ea e ∧ s.unclaimed ea ∧
      pushTargets (coreDie home) set = some targets ∧ paClass pa ≠ .device ∧ pteT e.pte.toNat = true ∧
      pteP e.pte.toNat = true ∧ s.pendingWrite c line = false ∧ s.pushEntryFree c ea = true
    let goes (i : Instr) (off : Option Nat) (v : Word) (first : List Msg) : Prop :=
      ∃ t, exec i s = .next t ∧
        t.me = { s.me.completed nb .rdy with pushes := s.me.pushes + 1,
                                             releasing := if off = none then s.me.releasing else false } ∧
        t.mem = s.mem ∧ t.lm = s.lm ∧ (t.core c).pushes = (s.core c).pushes ++ [(line, s.cur)] ∧
        t.net = s.net ++ first ++
          [{ src := c, dst := homeAgent home, line := line, kind := .pushWrite s.cur off v targets }] ∧
        (t.core c).line line = if first = [] then (s.core c).line line
          else ((s.core c).line line).map (fun x => { x with st := .s })
    (may → ea.toNat % 8 = 0 → pteW e.pte.toNat = true → pteD e.pte.toNat = true → pteMG e.pte.toNat = false →
      (s.ctx s.myCtx).race = 0 → goes (.pshD rs rs1 c8 nb) (some (pa % 128)) (s.me.reg rs) []) ∧
    (may → pteR e.pte.toNat = true → (∀ x, (s.core c).line line = some x → x.st ≠ .m) →
      goes (.pshLine rs1 c8 nb) none 0 []) ∧
    (may → pteR e.pte.toNat = true → ∀ x, (s.core c).line line = some x → x.st = .m →
      goes (.pshLine rs1 c8 nb) none 0
        [{ src := c, dst := homeAgent home, line := line, kind := .writeBack x.data true }]) ∧
    (inWindows ea = true ∨ (inPaged ea.toNat = true ∧ pushTargets 0 set = none) →
      s.ends (.pshLine rs1 c8 nb) nb .denied ∧
      (ea.toNat % 8 = 0 → inWindows ea = true ∨ s.inShadow s.myCtx ea.toNat = false → s.ends (.pshD rs rs1 c8 nb) nb .denied))

/-! ## Instructions of the thread alone (R96 to R107) and their events -/

/-- R35, R100: `bo` reads `oc` and jumps by its word offset where the test holds: the code itself for 0 to 13, NR or NRX
for 14, anything but RDY for 15. It writes nothing else and leaves the armed wake. -/
def Obligations.BranchOnOutcome : Prop :=
  ∀ (s : State) (off : BitVec 12) (cond : BitVec 4),
    let oc := s.me.oc.toNat
    let c := cond.toNat
    let holds : Prop := (c < 14 ∧ oc = c) ∨ (c = 14 ∧ (oc = 1 ∨ oc = 2)) ∨ (c = 15 ∧ oc ≠ 0)
    ∃ t, exec (.bo off cond) s = .next t ∧ s.onlyMe t ∧
      (holds → t.me = { s.me with pc := s.me.pc + 4 * off.signExtend 64, instret := s.me.instret + 1 }) ∧
      (¬ holds → t.me = { s.me with pc := s.me.pc + 4, instret := s.me.instret + 1 })

/-- R97, R98, R99: `yield` and `yield.n` end MOVED after a move, RDY without an armed wake or after enough fires, and
wait otherwise; `sleep` ends at once for 0 and waits for its tick. A wait ends with TIMEOUT at `yldlim`, a sleep with RDY or
MOVED at its tick. That MOVED and TIMEOUT leave the armed wake is the model's reading (log 27). -/
def Obligations.YieldAndSleep : Prop :=
  ∀ (s : State) (rs1 : BitVec 4) (n : Nat) (i : Instr) (u : Nat),
    (i = .yield ∧ n = 1) ∨ (i = .yieldN rs1 ∧ n = max 1 ((s.me.reg rs1).toNat % 2 ^ 32)) →
    let d := (s.me.reg rs1).toNat
    let done (t : Thread) (c : OCode) : Thread :=
      { t with oc := BitVec.ofNat 4 c.code, pc := t.pc + 4, instret := t.instret + 1 }
    let ends (j : Instr) (m : Thread) : Prop := ∃ t, exec j s = .next t ∧ s.onlyMeCounted t ∧ t.me = m
    let waits (j : Instr) (w : Wait) : Prop := ∃ t, exec j s = .next t ∧
      t = { s with threads := t.threads, wakeSeq := s.wakeSeq + 1 } ∧ (∀ v, v ≠ s.cur → t.thr v = s.thr v) ∧
      t.me = { s.me with st := .waiting, wait := w, waitFrom := s.wakeSeq }
    let woken (t : Thread) : Thread :=
      if t.st = .parked then { t with wait := .none, wokenAt := s.wakeSeq, runnable := true }
      else { t with wait := .none, wokenAt := s.wakeSeq, st := .ready, prio := true }
    let passes (j : Instr) (m : Thread) : Prop := ∃ t, exec j s = .next t ∧ t.thr u = woken m ∧
      (∀ v, v ≠ u → t.thr v = s.thr v) ∧ t.mem = s.mem ∧ t.lm = s.lm
    let idle : Prop := (s.thr u).saved = false ∧ ((s.thr u).st = .waiting ∨ (s.thr u).st = .parked)
    (s.me.movedPending = true → ends i (done { s.me with movedPending := false } .moved) ∧
      (d = 0 → ends (.sleep rs1) (done { s.me with movedPending := false } .moved))) ∧
    (s.me.movedPending = false →
      (s.me.wake = none → ends i (done s.me .rdy)) ∧ (d = 0 → ends (.sleep rs1) (done s.me .rdy)) ∧
      ∀ w, s.me.wake = some w →
        ((if w.cond.repeats = true then n else 1) ≤ w.fired → ends i (done { s.me with wake := none } .rdy)) ∧
        (w.fired < (if w.cond.repeats = true then n else 1) → waits i (.yield s.gtick n))) ∧
    (d ≠ 0 → waits (.sleep rs1) (.sleep (s.gtick + min d 0xFFFFFFFFFFFF))) ∧
    (∀ t0 m, idle → (s.thr u).wait = .yield t0 m → (s.thr u).yldlim ≠ 0 →
      (s.thr u).yldlim.toNat ≤ (s.gtick + 2 ^ 64 - t0) % 2 ^ 64 → passes (.yieldTimeout u) (done (s.thr u) .timeout)) ∧
    (∀ e, idle → (s.thr u).wait = .sleep e → e ≤ s.gtick →
      ((s.thr u).movedPending = false → passes (.sleepEnd u) (done (s.thr u) .rdy)) ∧
      ((s.thr u).movedPending = true → passes (.sleepEnd u) (done { s.thr u with movedPending := false } .moved)))

/-- R101, R102: `thr.spawn` starts a thread of the caller's group on its core at the PC of rs1 with rs2 in a0, under the
lowest free index from the threads per group on, in an EMPTY slot or PARKED runnable; without an index or for a PC that is
no multiple of 4 it is DENIED, without room FULL. `thr.exit` ends the thread once its release is established; the end is
complete at once where the thread holds no granted place. That no index below the threads per group is given (log 53), and
the state in which an ended thread waits for the release of its places (log 21), are the model's choices. -/
def Obligations.ThreadsStartAndEnd : Prop :=
  ∀ (s : State) (rd rs1 rs2 : BitVec 4) (nb : BitVec 1) (idx : Nat),
    let i : Instr := .thrSpawn rd rs1 rs2 nb
    let g := s.me.gid
    let pc := s.me.reg rs1
    let slot := s.freeSlot s.myCore
    let first : Prop := (s.grp g).tpg ≤ idx ∧ idx < 256 ∧ s.mailUid g idx = none ∧
      ∀ j, (s.grp g).tpg ≤ j → j < idx → s.mailUid g j ≠ none
    (first → pc.toNat % 4 = 0 → slot ≠ none ∨ s.parkFree s.myCtx = true → s.established s.cur 0 = true →
      s.cur ≠ s.nextUid → ∃ t, exec i s = .next t ∧
        t = { s with threads := t.threads, groups := t.groups, nextUid := s.nextUid + 1, wakeSeq := s.wakeSeq + 1 } ∧
        s.progressed t ∧ (∀ u, u ≠ s.cur → u ≠ s.nextUid → t.thr u = s.thr u) ∧
        let n := t.thr s.nextUid
        n.st = (if slot = none then .parked else .ready) ∧ n.runnable = decide (slot = none) ∧ n.slot = slot ∧
        n.core = s.myCore ∧ n.gid = g ∧ n.index = idx ∧ n.rank = s.me.rank ∧ n.pc = pc ∧
        (∀ q, n.reg q = if q = 10 then s.me.reg rs2 else 0) ∧ n.oc = 0 ∧ n.vmask = 0 ∧ n.vrm = 0 ∧ n.dphase = 0 ∧
        n.pushref = 0 ∧ n.yldlim = 0 ∧ n.wake = none ∧ n.wait = .none ∧ n.instret = 0 ∧
        (∀ q, t.me.reg q = if q = rd ∧ q ≠ 0 then BitVec.ofNat 64 (n.thrid % 2 ^ 32 * 2 ^ 32 + idx) else s.me.reg q) ∧
        t.me = { s.me.completed nb .rdy with regs := t.me.regs, interval := (s.me.interval + 1) % 2 ^ 20 }) ∧
    (first → pc.toNat % 4 = 0 → slot ≠ none ∨ s.parkFree s.myCtx = true → s.established s.cur 0 = false →
      s.stops i nb .nr (.release 0)) ∧
    (first → pc.toNat % 4 = 0 → slot = none → s.parkFree s.myCtx = false → s.stops i nb .full (.park s.myCtx)) ∧
    ((∀ j, (s.grp g).tpg ≤ j → j < 256 → s.mailUid g j ≠ none) ∨ (first ∧ pc.toNat % 4 ≠ 0) → s.ends i nb .denied) ∧
    (s.established s.cur 2 = true → ∃ t, exec .thrExit s = .next t ∧ t.me.wake = none ∧ t.me.regs = s.me.regs ∧
      t.me.instret = s.me.instret + 1 ∧ t.lm = s.lm ∧ t.planes = s.planes ∧
      (t.me.st = .exited ∨ (t.me.st = .trapped ∧ t.me.ending = true ∧ s.grantsOf s.cur ≠ [])) ∧
      (t.me.st = .exited → t.me.slot = none ∧ ∀ m ∈ (t.core s.myCore).mail, m.dest ≠ s.cur)) ∧
    (s.established s.cur 2 = false → s.stops .thrExit 0 .nr (.release 2))

/-- R103, R95, R91: `go` to the home core of an address is RDY on that core, DENIED for a thread with vector state, of a
core-span group, or toward a core that is no rank of its forme, and else MIGRATING with outcome MOVED; on an untracked
page it is DENIED. The thread arrives in an EMPTY slot with its messages ahead of later ones, and counts the move. -/
def Obligations.Moving : Prop :=
  ∀ (s : State) (rs1 : BitVec 4) (b target : Nat) (e : TlbEntry) (u slot : Nat),
    let ea := s.me.reg rs1
    let pa := leafPa e.level e.pte.toNat ea.toNat
    let held : Prop := s.span s.cur ea 1 false = .paged ∧ s.translated ea e ∧
      paClass pa ≠ .device ∧ pteR e.pte.toNat = true
    let names : Prop := (s.span s.cur ea 1 false = .lm b ∧ target = b / 0x40000) ∨
      (held ∧ pteT e.pte.toNat = true ∧ target = e.home (pa / 128))
    let inside : Prop := s.me.dirty = false ∧ s.myGrp.forme = true ∧ coreForme target = coreForme s.myCore ∧
      target ∈ s.myGrp.cores
    let old := s.thr u
    let c := old.target
    let mine := (s.core old.core).mail.filter (fun m => decide (m.dest = u))
    (names → target = s.myCore → s.unclaimed ea → s.results (.go rs1) 1 0 0) ∧
    (names → target ≠ s.myCore → ¬ inside → s.unclaimed ea → s.ends (.go rs1) 1 .denied) ∧
    (held → pteT e.pte.toNat = false → s.unclaimed ea → s.ends (.go rs1) 1 .denied) ∧
    (names → target ≠ s.myCore → inside → s.me.issues →
      ∃ t, exec (.go rs1) s = .next t ∧ t.mem = s.mem ∧ t.lm = s.lm ∧ t.acc = s.acc ∧
        (∀ x ∈ (t.core s.myCore).claims, x.uid ≠ s.cur) ∧
        t.me = { s.me with st := .migrating, target := target, oc := 9, wake := none, slot := none,
                           cycles := t.me.cycles, pc := s.me.pc + 4, instret := s.me.instret + 1 }) ∧
    (old.st = .migrating → c ≠ old.core → mine.length + (s.core c).mail.length ≤ 32 → s.freeSlot c = some slot →
      ∃ t, exec (.migrationArrival u) s = .next t ∧
        t = { s with threads := t.threads, cores := t.cores, wakeSeq := s.wakeSeq + 1 } ∧
        (t.core c).mail = (s.core c).mail ++ mine ∧ (∀ m ∈ (t.core old.core).mail, m.dest ≠ u) ∧
        (∀ v, v ≠ u → t.thr v = s.thr v) ∧
        t.thr u = { old with st := .ready, core := c, slot := some slot, slotFrom := s.now (coreDie c),
                             rank := (t.thr u).rank, moves := old.moves + 1, wokenAt := s.wakeSeq,
                             trail := (old.trail ++ [old.core]).dedup.filter (fun x => decide (x ≠ c)) } ∧
        (c ∈ (s.grp old.gid).cores → (s.grp old.gid).cores[(t.thr u).rank]? = some c))

/-- R93, R94, R104 to R106: `msend` queues a message as a release, FULL behind a message that awaits replay, DENIED
without a receiver; `mrecv` takes the oldest message of the thread or is EMPTY; `mfrom` tells the sender and the kind of
the last one. -/
def Obligations.MessageInstructions : Prop :=
  ∀ (s : State) (rd rs1 rs2 : BitVec 4) (nb : BitVec 1) (dest : Nat) (m : Mail) (pre post : List Mail),
    let a := s.me.reg rs1
    let c := s.myCore
    let waiting : Prop := ∃ x ∈ (s.core c).outq, x.dest = dest ∧ ∃ due, x.st = .replay due
    (s.mailDest a = none → s.ends (.msend rs1 rs2 nb) nb .denied) ∧
    (256 ≤ a.toNat → s.mailDest a = none) ∧
    (s.mailDest a = some dest → s.established s.cur 1 = true → waiting →
      s.stops (.msend rs1 rs2 nb) nb .full (.outbound c dest)) ∧
    (s.mailDest a = some dest → s.established s.cur 1 = true → ¬ waiting → (s.core c).entriesUsed .outbound < 16 →
      s.unclaimed a → ∃ t, exec (.msend rs1 rs2 nb) s = .next t ∧
        t = { s with threads := t.threads, cores := t.cores, groups := t.groups, wakeSeq := s.wakeSeq + 1 } ∧
        s.progressed t ∧ (∀ u, u ≠ s.cur → t.thr u = s.thr u) ∧
        (∀ k, t.core k = { s.core k with outq := (t.core k).outq }) ∧ (∀ k, k ≠ c → (t.core k).outq = (s.core k).outq) ∧
        (∃ x, (t.core c).outq = (s.core c).outq ++ [x] ∧ x.gid = s.me.gid ∧ x.dest = dest ∧ x.sender = s.cur ∧
          x.src = s.me.index ∧ x.kind = 0 ∧ x.payload = s.me.reg rs2 ∧ x.st = .flying) ∧
        t.me = { s.me.completed nb .rdy with interval := (s.me.interval + 1) % 2 ^ 20 }) ∧
    ((s.core c).mail = pre ++ m :: post → m.dest = s.cur → (∀ x ∈ pre, x.dest ≠ s.cur) →
      ∃ t, exec (.mrecv rd nb) s = .next t ∧ t = { s with threads := t.threads, cores := t.cores, groups := t.groups } ∧
        s.progressed t ∧ (∀ u, u ≠ s.cur → t.thr u = s.thr u) ∧ (t.core c).mail = pre ++ post ∧
        (∀ q, t.me.reg q = if q = rd ∧ q ≠ 0 then m.payload else s.me.reg q) ∧
        t.me = { s.me.completed nb .rdy with regs := t.me.regs, last := some (m.src, m.kind) }) ∧
    ((∀ x ∈ (s.core c).mail, x.dest ≠ s.cur) → s.stops (.mrecv rd nb) nb .empty .mail) ∧
    (s.me.last = none → s.results (.mfrom rd nb) nb rd (BitVec.allOnes 64)) ∧
    ∀ src kind, s.me.last = some (src, kind) → s.results (.mfrom rd nb) nb rd (BitVec.ofNat 64 (src + 256 * kind))

/-- R94, R95: a message that arrives enters the mailbox of the core on which its thread runs, or is returned with a NACK
where the mailbox is full, the thread has moved or is on its way; one to an ended thread is discarded. An acknowledgement
frees its entry; a NACK marks it and every later message to the thread for sending after the back-off, which a replay
does. That a message behind an earlier one of its sender that is not yet accepted is returned too is the model's reading
(log 20). -/
def Obligations.MessageEvents : Prop :=
  ∀ (s : State) (c k : Nat) (m : OutMsg), (s.core c).outq[k]? = some m →
    let d := s.thr m.dest
    let now := s.now (coreDie c)
    let at_ (t : State) (st : OutSt) : Prop := (t.core c).outq[k]? = some { m with st := st } ∧
      (∀ j, j ≠ k → (t.core c).outq[j]? = (s.core c).outq[j]?)
    let away : Prop := s.asleep d.gid = true ∨ d.st = .migrating ∨ d.core ≠ m.core ∨ 32 ≤ (s.core m.core).mail.length ∨
      s.earlierMail m = true
    (m.st = .flying → (s.core c).earlierOut k m.dest = false → d.st ≠ .exited → ¬ away →
      ∃ t, exec (.mailboxFlit c k) s = .next t ∧ at_ t .accepted ∧
        (t.core m.core).mail = (s.core m.core).mail ++
          [{ gid := m.gid, dest := m.dest, src := m.src, kind := m.kind, payload := m.payload }]) ∧
    (m.st = .flying → (s.core c).earlierOut k m.dest = false → d.st ≠ .exited → away →
      ∃ t, exec (.mailboxFlit c k) s = .next t ∧ at_ t .nacked ∧ t = { s with cores := t.cores } ∧
        ∀ q, (t.core q).mail = (s.core q).mail) ∧
    (m.st = .flying → (s.core c).earlierOut k m.dest = false → d.st = .exited →
      ∃ t, exec (.mailboxFlit c k) s = .next t ∧ at_ t .accepted ∧ ∀ q, (t.core q).mail = (s.core q).mail) ∧
    (m.st = .accepted → ∃ t, exec (.messageAck c k) s = .next t ∧ (t.core c).outq = (s.core c).outq.eraseIdx k) ∧
    (m.st = .nacked → ∃ t, exec (.messageNack c k) s = .next t ∧ t = { s with cores := t.cores } ∧
      ∀ j x, (s.core c).outq[j]? = some x → (t.core c).outq[j]? = some
        (if k ≤ j ∧ x.dest = m.dest ∧ x.st ≠ .accepted then
          { x with st := .replay (now + (s.die (coreDie c)).backoff), core := if d.st = .migrating then d.target else d.core }
        else x)) ∧
    (∀ due, m.st = .replay due → due ≤ now → ∃ t, exec (.messageReplay c k) s = .next t ∧ t = { s with cores := t.cores } ∧
      ∀ (j : Nat) (x : OutMsg), (s.core c).outq[j]? = some x → (t.core c).outq[j]? = some
        (match x.st with
        | .replay n => if n ≤ now ∧ x.dest = m.dest then { x with st := .flying } else x
        | _ => x))

/-- R85, R87, R91, R298: a runnable parked thread takes an EMPTY slot with a priority issue; where no slot is EMPTY, the
thread that has waited longest is parked; claims and reservations whose window has closed are gone. -/
def Obligations.SlotEvents : Prop :=
  ∀ (s : State) (c u k d : Nat),
    let waiting := (s.threads.filter (fun x => decide (x.2.core = c ∧ x.2.st = .waiting) && x.2.slot.isSome &&
      !x.2.saved)).map (·.1)
    let now := s.now (coreDie c)
    let due (x : Hold) : Prop := x.op.uid = u ∧ x.opened = true ∧ x.closes ≤ now
    let lapsed (x : TableHold) : Prop := x.uid = u ∧ x.opened = true ∧ x.closes ≤ now
    (s.freeSlot c = some k → leastBy (fun v => (s.thr v).wokenAt) (s.runnables c) = some u → (s.thr u).wait = .none →
      (s.thr u).st = .parked → ∃ t, exec (.swapIn c) s = .next t ∧
        t = { s with threads := t.threads, wakeSeq := s.wakeSeq + 1 } ∧
        t.thr u = { s.thr u with st := .ready, runnable := false, prio := true, slot := some k,
                                 slotFrom := s.now (coreDie (s.thr u).core), wake := (t.thr u).wake }) ∧
    (leastBy (fun v => (s.thr v).waitFrom) waiting = some u → s.freeSlot c = none → s.runnables c ≠ [] →
      s.parkFree (s.ctxOf u) = true → ∃ t, exec (.swapOut c) s = .next t ∧ (∀ v, v ≠ u → t.thr v = s.thr v) ∧
        t.thr u = { s.thr u with st := .parked, runnable := false, slot := none, cycles := (t.thr u).cycles } ∧
        t.mem = s.mem ∧ t.lm = s.lm) ∧
    ((∃ x ∈ (s.core c).claims, x.uid = u ∧ x.opened = true ∧ x.closes ≤ now) →
      ∃ t, exec (.holdWindowClose 0 c u) s = .next t ∧
        ∀ x ∈ (t.core c).claims, ¬ (x.uid = u ∧ x.opened = true ∧ x.closes ≤ now)) ∧
    ((∃ x ∈ (s.core c).reserved, due x) →
      ∃ t, exec (.holdWindowClose 1 c u) s = .next t ∧ ∀ x ∈ (t.core c).reserved, ¬ due x) ∧
    (d < 4 → (∃ x ∈ (s.die d).tableRes, lapsed x) → (s.thr u).core = c →
      (∀ d', d' < d → ∀ x ∈ (s.die d').tableRes, ¬ lapsed x) →
      ∃ t, exec (.holdWindowClose 2 c u) s = .next t ∧ ∀ x ∈ (t.die d).tableRes, ¬ lapsed x)

/-- R108 to R110, R132, R273, R358: the oldest held trap record is written once the ring has room and the release that the
write is has been performed: its eight words of R109 into the ring's slot, with A and D set in the page's leaf, and the
tail, one higher, into the context record. A watchdog that has run out traps, at the end of its tick, every READY, WAITING
and PARKED thread of its RUNNING group; that it does so at the tick's end is the model's reading (log 50). -/
def Obligations.TrapEvents : Prop :=
  ∀ (s m : State) (ctx gid pa : Nat) (r : TrapRec) (rest : List TrapRec),
    let x := s.ctx ctx
    let tail := (x.ttail + 1) % 2 ^ 32
    let lines := linesOf pa 64 ++ linesOf (x.pa + 96) 4
    (tget [] s.heldTraps ctx = r :: rest → s.quietAll (x.pa + 96) 8 = true → s.quietAll pa 64 = true →
      s.logged r.uid = false → s.fenced r.uid = true →
      (x.ttail + 2 ^ 32 - s.peek (x.pa + 100) 4) % 2 ^ 32 < 2 ^ x.tlg →
      s.reach ctx ((x.tring.toNat + 64 * (x.ttail % 2 ^ x.tlg)) % 2 ^ 64) true = some (m, pa) →
      ∃ t, exec (.trapRecordWrite ctx) s = .next t ∧ tget [] t.heldTraps ctx = rest ∧
        t.ctx ctx = { x with ttail := tail } ∧
        ((∀ l ∈ lines, (s.entry l).holders = []) →
          t.mem = mstore (mstore m.mem pa r.bytes 64) (x.pa + 96) tail 4)) ∧
    ((s.grp gid).st = .running → (s.grp gid).wdCount = (s.grp gid).wdLimit →
      ∃ t, exec (.watchdogExpiry gid) s = .next t ∧ ∀ u, (s.thr u).gid = gid → (s.thr u).saved = false →
        (s.thr u).ending = false → (s.thr u).st = .ready ∨ (s.thr u).st = .waiting ∨ (s.thr u).st = .parked →
        (t.thr u).st = .trapped ∧ ∃ q, (t.thr u).trap = some q ∧ q.cls = .watchdog ∧ q.pc = (t.thr u).pc)

/-! ## The messages of coherence (R113 to R131) -/

/-- R113, R114, R118, R119, R122, R367, R407: a request that reaches a home waits at its port where its context has no token
or one with a token waits there, or where its vault holds traffic; else it is taken up. It then waits behind the line's
earlier requests, in W and under the pin of a remote claim; else it moves the entry as the table of R118 says and sends what
it says: a grant, a claim copy, or an invalidation or a recall to the holders, whose replies the entry awaits in W: to all
of them, but to every other one for the upgrade of an S copy and in coarse form (log 51). A fetch of an untracked line is
answered at once. -/
def Obligations.HomeRequests : Prop :=
  ∀ (s : State) (n uid k : Nat) (m : Msg) (e : DirEntry), s.Delivers n m → s.entry m.line = e →
    let home := m.dst - 1024
    let rest := s.net.eraseIdx n
    let others := e.cores.filter (fun c => decide (c ≠ m.src))
    let cs := if e.coarse = true then others else e.cores
    let back (c : Nat) (x : MsgKind) : Msg := { src := m.dst, dst := c, line := m.line, kind := x }
    let event (i : Instr) : Prop := (i = .readRequest n ∧ (m.kind = .readReq uid ∨ m.kind = .fetchReq uid k ∨
        m.kind = .remoteReq uid false)) ∨
      (i = .exclusiveRequest n ∧ (m.kind = .exclReq uid ∨ m.kind = .remoteReq uid true)) ∨
      (i = .uRequest n ∧ m.kind = .updReq uid k) ∨
      (i = .pushWrite n ∧ ∃ off val targets, m.kind = .pushWrite uid off val targets)
    let taken : Prop := s.portServes home (s.payer m) = true ∧ s.vaultHeld m.line = false
    let clear : Prop := taken ∧ e.waitq = [] ∧ e.pins = []
    let does (i : Instr) (e' : DirEntry) (sent : List Msg) : Prop := ∃ t, exec i s = .next t ∧ t.entry m.line = e' ∧
      (∀ l, l ≠ m.line → t.entry l = s.entry l) ∧ t.net = rest ++ sent ∧ t.mem = s.mem ∧ t.threads = s.threads
    let grant (st : LState) : List Msg := [back m.src (.grant uid st (s.homeLine m.line))]
    let copy : List Msg := [back m.src (.claimCopy uid (s.homeLine m.line))]
    let asks (cs : List Nat) (x : MsgKind) : List Msg := cs.map (fun c => back c x)
    let awaits (e : DirEntry) (cs : List Nat) : DirEntry := { e with st := .w, req := some m, pending := cs.length }
    let owned : DirEntry := { e with st := .ex, coarse := false, holders := [m.src], kind := 0 }
    let updated : DirEntry := { e with st := .u, coarse := false, holders := [m.src], kind := k }
    let recoded : DirEntry := if e.coarse = true then { e with st := .u, holders := [coreForme m.src], kind := k } else updated
    (∀ i, event i → ¬ taken → ∃ t, exec i s = .next t ∧ t = { s with net := rest, cores := t.cores } ∧
      ∀ c, t.core c = { s.core c with port := if c = home then (s.core c).port ++ [m] else (s.core c).port }) ∧
    (∀ i, event i → taken → m.kind ≠ .fetchReq uid k → e.st = .w ∨ e.waitq ≠ [] ∨ e.blocks m.kind = true →
      does i { e with waitq := e.waitq ++ [m] } []) ∧
    (m.kind = .fetchReq uid k → taken → does (.readRequest n) e [back m.src (.fill uid k (s.homeLine m.line))]) ∧
    (m.kind = .readReq uid → clear →
      (e.st = .i → does (.readRequest n) owned (grant .e)) ∧
      (e.st = .s → does (.readRequest n) (e.add m.src) (grant .s)) ∧
      (e.st = .ex → does (.readRequest n) (awaits { e with kept := e.cores } cs) (asks cs .shareRecall)) ∧
      (e.st = .u → cs = [] → does (.readRequest n) owned (grant .e)) ∧
      (e.st = .u → cs ≠ [] → does (.readRequest n) (awaits { e with kept := [] } cs) (asks cs .updRecall))) ∧
    (m.kind = .remoteReq uid false → clear →
      (e.st = .i ∨ e.st = .s → does (.readRequest n) { e with pins := [(uid, false)], req := none, pending := 0 } copy) ∧
      (e.st = .ex → does (.readRequest n) (awaits { e with kept := e.cores } e.cores) (asks e.cores .shareRecall)) ∧
      (e.st = .u → does (.readRequest n) (awaits e e.cores) (asks e.cores .updRecall))) ∧
    (m.kind = .remoteReq uid true → clear →
      (e.st = .i → does (.exclusiveRequest n) { e with pins := [(uid, true)], req := none, pending := 0 } copy) ∧
      (e.st = .s → does (.exclusiveRequest n) (awaits e e.cores) (asks e.cores .inval)) ∧
      (e.st = .ex → does (.exclusiveRequest n) (awaits { e with kept := [] } e.cores) (asks e.cores .inval)) ∧
      (e.st = .u → does (.exclusiveRequest n) (awaits e e.cores) (asks e.cores .updRecall))) ∧
    (m.kind = .exclReq uid → clear →
      (e.st = .i → does (.exclusiveRequest n) owned (grant .m)) ∧
      (e.st = .s → others = [] → does (.exclusiveRequest n) owned (grant .m)) ∧
      (e.st = .s → others ≠ [] → does (.exclusiveRequest n) (awaits e others) (asks others .inval)) ∧
      (e.st = .ex ∨ e.st = .u → cs = [] → does (.exclusiveRequest n) owned (grant .m)) ∧
      (e.st = .ex → cs ≠ [] → does (.exclusiveRequest n) (awaits e cs) (asks cs .inval)) ∧
      (e.st = .u → cs ≠ [] → does (.exclusiveRequest n) (awaits e cs) (asks cs .updRecall))) ∧
    (m.kind = .updReq uid k → clear →
      (e.st = .i → does (.uRequest n) updated (grant (.u k))) ∧
      (e.st = .u → e.kind = k → does (.uRequest n) (e.add m.src) (grant (.u k))) ∧
      (e.st = .s ∨ e.st = .ex ∨ (e.st = .u ∧ e.kind ≠ k) → cs = [] → does (.uRequest n) recoded (grant (.u k))) ∧
      (e.st = .s ∨ e.st = .ex → cs ≠ [] → does (.uRequest n) (awaits e cs) (asks cs .inval)) ∧
      (e.st = .u → e.kind ≠ k → cs ≠ [] → does (.uRequest n) (awaits e cs) (asks cs .updRecall))) ∧
    (∀ off val targets, m.kind = .pushWrite uid off val targets → clear →
      (e.st = .u → does (.pushWrite n) (awaits { e with holders := [], coarse := false } e.cores)
        (asks e.cores .updRecall)) ∧
      (e.st = .s ∨ e.st = .ex → off ≠ none → does (.pushWrite n) (awaits { e with holders := [] } e.cores)
        (asks e.cores .inval)) ∧
      (e.st = .ex → off = none → does (.pushWrite n) (awaits e e.cores) (asks e.cores .shareRecall)) ∧
      let ts := targets.dedup.filter s.pushable
      (e.st = .i ∨ e.st = .s → off = none → ts ≠ [] →
        does (.pushWrite n) (awaits { e with installed := [], refusals := 0, copying := true } ts)
          (asks ts (.pushFill (s.homeLine m.line)))) ∧
      (∀ o, off = some o → e.st = .i → ts = [] → ∃ t, exec (.pushWrite n) s = .next t ∧
        t.mem = mstore s.mem (128 * m.line + o) val.toNat 8 ∧ t.net = rest ++ [back m.src (.pushDone uid 0)]))

/-- R118, R120, R123, R125, R114: what comes back to a home. A notice removes a pointer or ends an owner's entry; a
write-back is written; an update-only copy is combined; an acknowledgement writes its data and counts one, and the last one
serves the line to the request; a claim copy is written before its pin ends; untracked bytes are merged by their mask. -/
def Obligations.HomeReturns : Prop :=
  ∀ (s : State) (n : Nat) (m : Msg) (e : DirEntry), s.Delivers n m → s.entry m.line = e → s.noneEnding →
    s.memOk = true →
    let merged (d : BitVec 1024) : Memory := mstore s.mem (128 * m.line) d.toNat 128
    let rest := s.net.eraseIdx n
    (m.kind = .evict → ∃ t, exec (.evictionNotice n) s = .next t ∧ t.net = rest ∧ t.mem = s.mem ∧
      let hs := e.holders.filter (fun c => decide (c ≠ m.src))
      (e.st = .s → e.coarse = false → (t.entry m.line).st = (if hs = [] then .i else .s) ∧ (t.entry m.line).holders = hs) ∧
      (e.st = .s → e.coarse = true → t.entry m.line = e) ∧
      (e.st = .ex → e.holders = [m.src] → (t.entry m.line).st = .i) ∧ (e.st = .i ∨ e.st = .u ∨ e.st = .w → t.entry m.line = e)) ∧
    (∀ d keep, m.kind = .writeBack d keep → ∃ t, exec (.writeBack n) s = .next t ∧ t.mem = merged d ∧ t.net = rest ∧
      (e.st = .ex → e.holders = [m.src] → keep = false → (t.entry m.line).st = .i) ∧
      (e.st ≠ .ex ∨ keep = true → t.entry m.line = e)) ∧
    (∀ d touched k, m.kind = .uCopy d touched k → ∃ t, exec (.writeBack n) s = .next t ∧ t.net = rest ∧
      t.mem = merged (combineLine k (s.homeLine m.line) d touched 32) ∧ t.entry m.line = e) ∧
    (e.st = .w → 2 ≤ e.pending →
      (m.kind = .ack none 0 0 → ∃ t, exec (.acknowledgement n) s = .next t ∧ t.net = rest ∧ t.mem = s.mem ∧
        t.entry m.line = { e with pending := e.pending - 1 }) ∧
      (∀ d, m.kind = .ack (some d) 0 0 → ∃ t, exec (.acknowledgement n) s = .next t ∧ t.net = rest ∧ t.mem = merged d ∧
        t.entry m.line = { e with pending := e.pending - 1 }) ∧
      (m.kind = .pushReply true → ∃ t, exec (.acknowledgement n) s = .next t ∧ t.net = rest ∧
        t.entry m.line = { e with pending := e.pending - 1, installed := e.installed ++ [m.src] }) ∧
      (m.kind = .pushReply false → ∃ t, exec (.acknowledgement n) s = .next t ∧ t.net = rest ∧
        t.entry m.line = { e with pending := e.pending - 1, refusals := e.refusals + 1 })) ∧
    (∀ r uid d, e.st = .w → e.pending = 1 → e.waitq = [] → e.req = some r → r.kind = .exclReq uid →
      m.kind = .ack (some d) 0 0 → ∃ t, exec (.acknowledgement n) s = .next t ∧ t.mem = merged d ∧
        t.entry m.line = { e with st := .ex, coarse := false, holders := [r.src], kind := 0, req := none, pending := 0,
                                  kept := [] } ∧
        ∃ y, t.net = rest ++ [{ src := r.dst, dst := r.src, line := r.line, kind := .grant uid .m y }] ∧
          ∀ i, i < 128 → lineGet y i 1 = lineGet d i 1) ∧
    (∀ uid d, m.kind = .claimReturn uid (some d) → e.waitq = [] → ∃ t, exec (.claimCopyReturn n) s = .next t ∧
      t.mem = merged d ∧ t.net = rest ∧ (t.entry m.line).pins = e.pins.filter (fun p => decide (p.1 ≠ uid))) ∧
    (∀ d mask, m.kind = .rawWriteBack d mask → e.st = .i → ∃ t, exec (.untrackedWriteBack n) s = .next t ∧ t.net = rest ∧
      t.mem = mstoreMask s.mem (128 * m.line) d.toNat mask.toNat 128 ∧ t.entry m.line = e)

/-- R116, R90, R125, R128, R129, R85: what reaches a core. An invalidation or recall is performed with its reply, or
deferred while a claim would lose what it pins; a push fill installs a pushed copy or refuses where the quota is used;
a completion lowers the pending-push count and counts the refusals; a grant installs the line and completes the claims
that waited for it. -/
def Obligations.CoreMessages : Prop :=
  ∀ (s : State) (n : Nat) (m : Msg), s.Delivers n m →
    let c := m.dst
    let k := s.core c
    let rest := s.net.eraseIdx n
    let room : Prop := k.line m.line = none ∧ k.waysUsed m.line < 8
    let reply (x : MsgKind) : List Msg := [{ src := c, dst := m.src, line := m.line, kind := x }]
    let performs (i : Instr) (y : Option L1Line) (x : MsgKind) : Prop := ∃ t, exec i s = .next t ∧ (t.core c).line m.line = y ∧
      (∀ l, l ≠ m.line → (t.core c).line l = k.line l) ∧ (∀ q, q ≠ c → t.core q = s.core q) ∧ t.net = rest ++ reply x ∧
      t.mem = s.mem ∧ t.threads = s.threads
    let waits (i : Instr) : Prop := ∃ t, exec i s = .next t ∧ t = { s with net := rest, cores := t.cores } ∧
      (∀ q, t.core q = if q = c then { k with deferred := k.deferred ++ [m] } else s.core q)
    (m.kind = .inval → k.defers m.line none = true → waits (.invalidation n)) ∧
    (m.kind = .inval → k.defers m.line none = false →
      (k.line m.line = none → performs (.invalidation n) none (.ack none 0 0)) ∧
      ∀ x, k.line m.line = some x →
        performs (.invalidation n) none (.ack (if x.st = .m then some x.data else none) 0 0)) ∧
    (m.kind = .shareRecall → k.defers m.line (some .s) = false →
      (k.line m.line = none → performs (.shareRecall n) none (.ack none 0 0)) ∧
      ∀ x, k.line m.line = some x → x.st = .e ∨ x.st = .m →
        performs (.shareRecall n) (some { x with st := .s }) (.ack (if x.st = .m then some x.data else none) 0 0)) ∧
    (m.kind = .updRecall → k.defers m.line none = false →
      (k.line m.line = none → performs (.updateRecall n) none (.ack none 0 0)) ∧
      ∀ x q, k.line m.line = some x → x.st = .u q →
        performs (.updateRecall n) none (.ack (if x.valid = 0 then none else some x.data) x.valid q)) ∧
    (∀ d, m.kind = .pushFill d →
      (∀ x, k.line m.line = some x → performs (.pushFill n) (some x) (.pushReply true)) ∧
      (room → k.spCount < k.pushq.toNat →
        performs (.pushFill n) (some { line := m.line, st := .sp, data := d, valid := 0, dirty := 0, home := m.src - 1024 })
          (.pushReply true)) ∧
      (k.line m.line = none → k.pushq.toNat ≤ k.spCount → ∃ t, exec (.pushFill n) s = .next t ∧
        (t.core c).line m.line = none ∧ t.net = rest ++ reply (.pushReply false) ∧ t.mem = s.mem)) ∧
    (∀ uid refused, m.kind = .pushDone uid refused → ∃ t, exec (.pushCompletion n) s = .next t ∧
      (t.core c).pushes = k.pushes.erase (m.line, uid) ∧ (t.thr uid).pushes = (s.thr uid).pushes - 1 ∧
      (t.thr uid).pushref = BitVec.ofNat 64 (min (2 ^ 64 - 1) ((s.thr uid).pushref.toNat + refused)) ∧
      (t.thr uid).refusal = ((s.thr uid).refusal || decide (refused ≠ 0))) ∧
    (∀ uid st d, m.kind = .grant uid st d → room → (∀ q, st ≠ .u q) → ∃ t, exec (.claimDataArrival n) s = .next t ∧
      (t.core c).line m.line =
        some { line := m.line, st := st, data := d, valid := 0, dirty := 0, home := m.src - 1024 } ∧
      t.net = rest ∧ t.mem = s.mem ∧
      ∀ x ∈ (t.core c).claims, x.line = m.line → x.remote = false → servesNeed x.need st = true → x.stage ≠ .waiting)

/-- R323, R426: while no request and no claim stands at a line, an agent that keeps no copy reads its bytes at the home
after an owner's data and the update copies have been taken there, and a write takes the line from every holder and
writes its bytes. With no copy outside, a read moves nothing. The PF reaches every such byte, a VF those of its tenant's
partition (R365, R372).
What the PF and a VF reach is the model's choice where the rules are silent (log 40). -/
def Obligations.HostAccess : Prop :=
  ∀ (s : State) (fn pa size : Nat) (val : Word), fn = 0 ∨ s.hostFunction fn pa = true → 1 ≤ size → size ≤ 8 →
    pa / 128 = (pa + size - 1) / 128 → (∃ d, paClass pa = .dram d) ∨ paClass pa = .host → s.quiet (pa / 128) = true →
    s.ioReaches pa = true → s.memOk = true →
    let e := s.entry (pa / 128)
    (∃ t, exec (.hostWrite (fn, pa) size val) s = .next t ∧ (t.entry (pa / 128)).st = .i ∧
      (∀ i, i < size → mload t.mem (pa + i) 1 = val.toNat / 256 ^ i % 256) ∧
      (e.holders = [] → t.mem = mstore s.mem pa val.toNat size) ∧ t.lm = s.lm ∧
      ∀ l, l ≠ pa / 128 → t.entry l = s.entry l) ∧
    (∃ t v, exec (.hostRead (fn, pa) size) s = .next t ∧
      t.answers = s.answers ++ [{ what := 0, addr := pa, data := [v] }] ∧ t.threads = s.threads ∧
      v = BitVec.ofNat 64 (mload t.mem pa size) ∧ (e.holders = [] ∨ e.st = .s ∨ e.st = .i → t.mem = s.mem) ∧
      (t.entry (pa / 128)).st ≠ .ex ∧ (t.entry (pa / 128)).st ≠ .u) ∧
    (∀ x c, e.st = .ex → e.coarse = false → e.holders = [c] → (s.core c).line (pa / 128) = some x → x.st = .m →
      ∃ t, exec (.hostRead (fn, pa) size) s = .next t ∧ t.mem = mstore s.mem (128 * (pa / 128)) x.data.toNat 128 ∧
        (t.core c).line (pa / 128) = some { x with st := .s }) ∧
    exec (.hostRead (0, 0x8041000100) 8) s = .next { s with answers := s.answers ++
      [{ what := 0, addr := 0x8041000100, data := [BitVec.ofNat 64 (s.power.cause * 256 + s.power.stage.number)] }] }

/-! ## Quoins (R290 to R310) -/

/-- R295, R303, R305 to R309: the entries on a handle. A word that is no handle gives ABANDONED, one whose entry has been
freed STALE. The test of a granted place is RDY, of a waiting one NR; a drop leaves a waiting place linked without an
owner; a release frees its entry, one generation on, and grants the next place; a give changes the owner and tells the
receiver by a message of kind 1; a swap exchanges two waiting places of the caller.
A release or a swap whose quoin's words cannot be rewritten now waits (log 22, the model's choice). -/
def Obligations.HandleInstructions : Prop :=
  ∀ (s : State) (rs1 rs2 : BitVec 4) (nb : BitVec 1) (d e f : Nat), s.me.issues →
    let h := s.me.reg rs1
    let p := s.place d e
    let q := s.quoin p.key
    let all (x : Instr → Prop) : Prop := x (.qwait rs1 nb) ∧ x (.qgive rs1 rs2 nb) ∧ x (.qswap rs1 rs2 nb) ∧
      x (.qdrop rs1 nb) ∧ x (.qrel rs1 nb)
    let mine : Prop := s.checkHandle h true = .ok d e
    let does (i : Instr) (m : Thread) (x : State → Prop) : Prop :=
      ∃ t, exec i s = .next t ∧ t.me = { m with wake := t.me.wake } ∧ x t
    let rdy := s.me.completed nb .rdy
    let refused (i : Instr) : Prop := ∃ t, exec i s = .next t ∧ t.me = s.me.completed nb .denied ∧ ∀ a b, t.place a b = s.place a b
    (h.getLsbD 45 = false ∨ h.toNat / 2 ^ 48 = 0 → all (fun i => s.ends i nb .abandoned)) ∧
    (h.getLsbD 45 = true → h.toNat / 2 ^ 48 ≠ 0 → d = h.toNat / 2 ^ 46 % 4 → e = h.toNat / 2 ^ 32 % 8192 →
      p.st = .free ∨ p.gen ≠ h.toNat / 2 ^ 48 → all (fun i => does i (s.me.completed nb .stale) (fun t => t.mem = s.mem))) ∧
    (mine → p.st = .granted →
      does (.qwait rs1 nb) rdy (fun t => t.place d e = p) ∧ refused (.qdrop rs1 nb)) ∧
    (mine → p.st = .waiting →
      (∃ t, exec (.qwait rs1 nb) s = .next t ∧ s.me.stoppedAt t.me nb .nr (.grant d e)) ∧
      does (.qdrop rs1 nb) rdy (fun t => t.place d e = { p with st := .dropped, owner := none }) ∧
      refused (.qrel rs1 nb)) ∧
    (mine → p.st = .granted → s.established s.cur 2 = false → s.stops (.qrel rs1 nb) nb .nr (.release 2)) ∧
    (∀ line, mine → p.st = .granted → s.established s.cur 2 = true → s.quoinBusy p.key = some line →
      s.stops (.qrel rs1 nb) 0 .nr (.lineQuiet line)) ∧
    (mine → p.st = .granted → s.established s.cur 2 = true → s.quoinBusy p.key = none → q.die = d → q.places = [e] →
      does (.qrel rs1 nb) { rdy with interval := (s.me.interval + 1) % 2 ^ 20 } (fun t =>
        (t.place d e).st = .free ∧ (t.place d e).gen = p.gen % 65535 + 1 ∧ (t.quoin p.key).places = [])) ∧
    (∀ rest u, mine → p.st = .granted → s.established s.cur 2 = true → s.quoinBusy p.key = none → q.die = d →
        q.places = e :: f :: rest → f ≠ e →
      (s.place d f).st = .waiting → (s.place d f).owner = some u →
      does (.qrel rs1 nb) { rdy with interval := (s.me.interval + 1) % 2 ^ 20 } (fun t =>
        (t.place d e).st = .free ∧ (t.place d e).gen = p.gen % 65535 + 1 ∧
        t.place d f = { s.place d f with st := .granted } ∧
        (t.quoin p.key).places = f :: rest.filter (fun x => decide (x ≠ e)) ∧
        (t.quoin p.key).grants = (q.grants + 1) % 2 ^ 64)) ∧
    (mine → s.mailDest (s.me.reg rs2) = none → refused (.qgive rs1 rs2 nb)) ∧
    (∀ u, mine → s.mailDest (s.me.reg rs2) = some u → s.established s.cur 2 = true → s.unclaimed (s.me.reg rs2) →
      (s.core s.myCore).outq = [] → (s.core s.myCore).entriesUsed .outbound < 16 →
      does (.qgive rs1 rs2 nb) { rdy with interval := (s.me.interval + 1) % 2 ^ 20 } (fun t =>
        t.place d e = { p with owner := some u } ∧
        ∃ x, (t.core s.myCore).outq = [x] ∧ x.dest = u ∧ x.payload = h ∧ x.kind = 1 ∧ x.src = s.me.index)) ∧
    (mine → s.checkHandle (s.me.reg rs2) true = .ok d f →
      let r := s.place d f
      let apart : Prop := p.quoin ≠ r.quoin ∨ p.key ≠ r.key
      (e = f → does (.qswap rs1 rs2 nb) rdy (fun t => ∀ a b, t.place a b = s.place a b)) ∧
      (e ≠ f → apart ∨ p.st = .granted ∨ r.st = .granted → refused (.qswap rs1 rs2 nb)) ∧
      (∀ line, e ≠ f → ¬ apart → p.st = .waiting → r.st = .waiting → s.quoinBusy p.key = some line →
        s.stops (.qswap rs1 rs2 nb) 0 .nr (.lineQuiet line)) ∧
      (e ≠ f → ¬ apart → p.st = .waiting → r.st = .waiting → s.quoinBusy p.key = none → does (.qswap rs1 rs2 nb) rdy (fun t =>
        (t.quoin p.key).places = q.places.map (fun x => if x = e then f else if x = f then e else x) ∧
        t.place d e = p ∧ t.place d f = r)))

/-- R290 to R294, R302, R304, R310: under a held translation of a tracked page, `qinit` zeroes the counters of a quoin
without places and is DENIED on another; `qacq` links the lowest free entry of the home's table for the thread: granted
and RDY on an empty quoin, waiting and NR behind others, with the handle in rd; `qstat` reads a place by its handle or a
quoin's word 0 by its address, and changes no place. An address of the LM or forme window gives DENIED.
That the lowest free entry is taken is the model's choice (log 22). -/
def Obligations.QuoinInstructions : Prop :=
  ∀ (s : State) (rd rs1 : BitVec 4) (nb : BitVec 1) (t1 : TlbEntry) (n : Nat), s.me.issues →
    let ea := s.me.reg rs1
    let pa := leafPa t1.level t1.pte.toNat ea.toNat
    let key := s.quoinKey s.myCtx ea pa
    let q := (s.meetQuoin key s.myCtx pa ea).quoin key
    let d := coreDie (t1.home (pa / 128))
    let open_ : Prop := ea.toNat % 32 = 0 ∧ inPaged ea.toNat = true ∧
      s.translated ea t1 ∧ paClass pa ≠ .device ∧ pteR t1.pte.toNat = true ∧
      pteW t1.pte.toNat = true ∧ pteT t1.pte.toNat = true ∧ s.unclaimed ea
    let writes : Prop := open_ ∧ pteMG t1.pte.toNat = false ∧ pteD t1.pte.toNat = true ∧
      s.quiet (pa / 128) = true ∧ s.me.linked = none
    let lowest (d : Nat) : Prop := n < 8192 ∧ (s.place d n).st = .free ∧ (∀ j, j < n → (s.place d j).st ≠ .free) ∧
      (s.die d).usedPlaces + (s.die d).tableRes.length < 8192
    let handle (d : Nat) : Word := BitVec.ofNat 64
      ((s.place d n).gen * 2 ^ 48 + d * 2 ^ 46 + 2 ^ 45 + n * 2 ^ 32 + ea.toNat / 32 % 2 ^ 32)
    let given (t : State) (v : Word) : Prop := ∀ r, t.me.reg r = if r = rd ∧ r ≠ 0 then v else s.me.reg r
    let linked (t : State) (d : Nat) (x : PlaceSt) : Prop := (t.quoin key).places = q.places ++ [n] ∧ (t.quoin key).die = d ∧
      (t.place d n).st = x ∧ (t.place d n).owner = some s.cur ∧ (t.place d n).gen = (s.place d n).gen
    (writes → q.places = [] → ∃ t, exec (.qinit rs1 nb) s = .next t ∧ (t.quoin key).places = [] ∧
      (t.quoin key).grants = 0 ∧ (t.quoin key).skips = 0 ∧ (s.myCtx, ea) ∈ (t.quoin key).names ∧
      t.me = { s.me.completed nb .rdy with wake := t.me.wake }) ∧
    (writes → q.places ≠ [] → ∃ t, exec (.qinit rs1 nb) s = .next t ∧ t.me = s.me.completed nb .denied ∧
      (t.quoin key).places = q.places ∧ (t.quoin key).grants = q.grants) ∧
    (writes → q.places = [] → lowest d → ∃ t, exec (.qacq rd rs1 nb) s = .next t ∧ linked t d .granted ∧
      (t.quoin key).grants = (q.grants + 1) % 2 ^ 64 ∧ given t (handle d) ∧
      t.me = { s.me.completed nb .rdy with wake := t.me.wake, regs := t.me.regs }) ∧
    (writes → q.places ≠ [] → lowest q.die → ∃ t, exec (.qacq rd rs1 nb) s = .next t ∧ linked t q.die .waiting ∧
      given t (handle q.die) ∧ t.me.wake = some { cond := .grant q.die n, fired := 0 } ∧
      if nb = 1 then t.me.oc = 1 ∧ t.me.pc = s.me.pc + 4 ∧ t.me.st = .ready
      else t.me.pc = s.me.pc ∧ t.me.st = .waiting ∧ t.me.oc = s.me.oc ∧ t.me.linked = some (s.me.pc, handle q.die)) ∧
    (ea.getLsbD 45 = false → open_ → q.places = [] → ∃ t, exec (.qstat rd rs1 nb) s = .next t ∧ given t 0 ∧
      t.me = { s.me.completed nb .rdy with wake := t.me.wake, regs := t.me.regs }) ∧
    (ea.getLsbD 45 = false → open_ → q.places = [n] →
      (s.place q.die n).st = .granted → ∃ t, exec (.qstat rd rs1 nb) s = .next t ∧
      given t (BitVec.ofNat 64 (2 ^ 45 + n * 2 ^ 32 + n * 2 ^ 16 + q.die * 2 ^ 14 + 1)) ∧
      t.me = { s.me.completed nb .rdy with wake := t.me.wake, regs := t.me.regs }) ∧
    (∀ d e, ea.getLsbD 45 = true → s.checkHandle ea false = .ok d e → (s.place d e).st = .granted ∨ (s.place d e).st = .dropped →
      ∃ t, exec (.qstat rd rs1 nb) s = .next t ∧ given t (BitVec.ofNat 64 ((s.place d e).gen * 2 ^ 48 +
        (if (s.place d e).st = .granted then 1 else 2) * 2 ^ 46 + (if (s.place d e).owner = some s.cur then 2 ^ 45 else 0) +
        e * 2 ^ 32)) ∧ (∀ a b, t.place a b = s.place a b) ∧
        t.me = { s.me.completed nb .rdy with wake := t.me.wake, regs := t.me.regs }) ∧
    (ea.toNat % 32 = 0 → inWindows ea = true → s.me.linked = none → s.ends (.qinit rs1 nb) nb .denied ∧
      s.ends (.qacq rd rs1 nb) nb .denied ∧ s.ends (.qstat rd rs1 nb) nb .denied)

/-! ## Barriers and semaphores (R146 to R161, R378) -/

/-- R150, R151, R153, R154, R158 to R161: an arrival at a hardware barrier of its group or context counts one, gives rd the
phase, and is a release; the last expected one advances the phase and zeroes the count. A wait is NR on the phase of its
token, RDY one phase on and STALE beyond, and an acquire. `bar.aw` arrives and waits; issued again it waits alone. A
configuration sets the expected count and the stagger step. A barrier that is not held or not configured gives DENIED. -/
def Obligations.BarrierInstructions : Prop :=
  ∀ (s : State) (rd rs1 : BitVec 4) (kind : BitVec 2) (idx : BitVec 6) (nb : BitVec 1) (c : Nat), s.me.issues → kind ≠ 3 →
    let k := kind.toNat
    let unit := unitOf k s.myCore
    let b := s.bar k unit idx.toNat
    let now := s.now (coreDie s.myCore)
    let held : Prop := s.holdsBar k idx.toNat = true ∧ b.expected ≠ 0
    let open_ : Prop := held ∧ s.established s.cur k = true ∧ b.pending now s.myCore = false
    let seen := b.seen now s.myCore
    let after (t : State) : Bar := t.bar k unit idx.toNat
    let v := (s.me.reg rs1).toNat
    let away := (seen.1 + 2 ^ 16 - v % 2 ^ 16) % 2 ^ 16
    let given (t : State) (n : Nat) : Prop := ∀ r, t.me.reg r = if r = rd ∧ r ≠ 0 then BitVec.ofNat 64 n else s.me.reg r
    let acquired (o : OCode) : Thread := { s.me.completed nb o with epoch := seen.2, overflow := false }
    let arrive : Instr := .barArrive rd kind idx nb
    let wait : Instr := .barWait rs1 kind idx nb
    let aw : Instr := .barAw rd kind idx nb
    let cfg : Instr := .barCfg rs1 kind idx nb
    (¬ held → s.ends arrive nb .denied ∧ s.ends wait nb .denied ∧ (s.me.arrived = none → s.ends aw nb .denied)) ∧
    (held → s.established s.cur k = false → s.stops arrive nb .nr (.release k) ∧
      (s.me.arrived = none → s.stops aw 0 .nr (.release k))) ∧
    (open_ → ∃ t, exec arrive s = .next t ∧ given t b.phase ∧ (after t).expected = b.expected ∧
      (b.arrived + 1 < b.expected → after t = { b with arrived := b.arrived + 1 }) ∧
      (b.expected ≤ b.arrived + 1 → (after t).phase = (b.phase + 1) % 2 ^ 16 ∧ (after t).arrived = 0) ∧
      t.me = { s.me.completed nb .rdy with regs := t.me.regs, wake := t.me.wake, interval := (s.me.interval + 1) % 2 ^ 20 }) ∧
    (held → away = 0 → s.stops wait nb .nr (.phase k unit idx.toNat)) ∧
    (held → away = 1 → ∃ t, exec wait s = .next t ∧ t.mem = s.mem ∧ t.me = acquired .rdy) ∧
    (held → 2 ≤ away → ∃ t, exec wait s = .next t ∧ t.mem = s.mem ∧ t.me = acquired .stale) ∧
    (open_ → s.me.arrived = none → b.arrived + 1 < b.expected → b.phase < 2 ^ 16 →
      ∃ t, exec aw s = .next t ∧ given t b.phase ∧ after t = { b with arrived := b.arrived + 1 } ∧
        t.me.wake = some { cond := .phase k unit idx.toNat, fired := 0 } ∧
        if nb = 1 then t.me.oc = 1 ∧ t.me.pc = s.me.pc + 4 ∧ t.me.arrived = none
        else t.me.st = .waiting ∧ t.me.pc = s.me.pc ∧ t.me.arrived = some (s.me.pc, b.phase)) ∧
    (∀ token, held → s.me.arrived = some (s.me.pc, token) → (seen.1 + 2 ^ 16 - token) % 2 ^ 16 = 1 →
      ∃ t, exec aw s = .next t ∧ t.mem = s.mem ∧ t.me = { acquired .rdy with arrived := none }) ∧
    (s.holdsBar k idx.toNat = false ∨ 2 ^ 40 ≤ v ∨ v % 2 ^ 16 = 0 ∨ (k = 0 ∧ v / 2 ^ 32 % 256 ≠ 0) ∨
      v / 2 ^ 16 % 2 ^ 16 ≠ 0 → s.ends cfg nb .denied) ∧
    (s.holdsBar k idx.toNat = true → v < 2 ^ 40 → v % 2 ^ 16 ≠ 0 → (k = 0 → v / 2 ^ 32 = 0) → v / 2 ^ 16 % 2 ^ 16 = 0 →
      ∃ t, exec cfg s = .next t ∧ t.me = { s.me.completed nb .rdy with wake := t.me.wake } ∧
        (b.arrived < v % 2 ^ 16 → after t = { b with expected := v % 2 ^ 16, step := v / 2 ^ 32 }) ∧
        (v % 2 ^ 16 ≤ b.arrived → (after t).expected = v % 2 ^ 16 ∧ (after t).phase = (b.phase + 1) % 2 ^ 16 ∧
          (after t).arrived = 0)) ∧
    (∀ at_ x, b.rel.find? (fun y => decide (y.1 = c)) = some (c, at_, x) → at_ ≤ s.now (unitDie k unit) →
      ∃ t, exec (.barrierRelease k unit idx.toNat c) s = .next t ∧ after t = { b with rel := tdel b.rel c })

/-- R149, R150, R158, R377, R378: an arrival at a well-formed, configured semaphore word that the core holds counts one
in its arrived field, or advances its phase and zeroes the count, and gives rd the phase before. An arrival from another
package is counted at the home word and answered with its phase; the reply is kept for the arriving thread; a phase that
comes for a proxy, by an update or by the reply to an arrival of hardware (log 29), is written unless it lies behind. -/
def Obligations.Semaphores : Prop :=
  ∀ (s : State) (rd : BitVec 4) (idx : BitVec 6) (nb : BitVec 1) (e : TlbEntry) (x : L1Line) (entry pkg uid phase pa mask : Nat),
    let ea := s.semVa idx.toNat
    let off := leafPa e.level e.pte.toNat ea.toNat % 128
    let line := leafPa e.level e.pte.toNat ea.toNat / 128
    let word (p ex ar sc : Nat) : Nat := p * 2 ^ 48 + ex * 2 ^ 32 + ar * 2 ^ 16 + sc
    let w := s.peek pa 8
    let alone : Prop := (s.entry (pa / 128)).holders = []
    let sent (l : List PodMsg) (t : State) : Prop := t.podOut = s.podOut ++ l
    (∀ p ex ar, p < 2 ^ 16 → ex < 2 ^ 16 → ar < ex → s.HoldsLine ea 8 true e x → pteR e.pte.toNat = true →
      s.unclaimed ea → s.clean → s.established s.cur (s.capScope 3) = true → x.st = .e ∨ x.st = .m → s.me.issues →
      lineGet x.data off 8 = word p ex ar 3 →
      ∃ t y, exec (.barArrive rd 3 idx nb) s = .next t ∧ (t.core s.myCore).line line = some y ∧ y.st = .m ∧
        lineGet y.data off 8 = (if ar + 1 = ex then word ((p + 1) % 2 ^ 16) ex 0 3 else word p ex (ar + 1) 3) ∧
        (∀ q, t.me.reg q = if q = rd ∧ q ≠ 0 then BitVec.ofNat 64 p else s.me.reg q) ∧
        t.me.interval = (s.me.interval + 1) % 2 ^ 20 ∧ t.me.pc = s.me.pc + 4) ∧
    (∀ p ex ar sc, p < 2 ^ 16 → ex < 2 ^ 16 → ar < ex → sc = 3 ∨ sc = 4 → w = word p ex ar sc → pa % 8 = 0 →
      tget Binding.none s.bindings entry = .home pa mask → s.quiet (pa / 128) = true → alone →
      ∃ t, exec (.semRemoteArrival entry pkg uid) s = .next t ∧
        t.mem = mstore s.mem pa (if ar + 1 = ex then word ((p + 1) % 2 ^ 16) ex 0 sc else word p ex (ar + 1) sc) 8 ∧
        (ar + 1 < ex → sent [.reply pkg uid p] t) ∧ ∃ l, sent (.reply pkg uid p :: l) t) ∧
    (∀ r, uid < 2 ^ 40 → (s.thr uid).remote = some r → r.reply = none → s.quietAll r.pa 8 = true →
      ∃ t, exec (.semArrivalReply uid phase) s = .next t ∧
        (t.thr uid).remote = some { pa := r.pa, reply := some (phase % 2 ^ 16) }) ∧
    (∀ home n, tget Binding.none s.bindings entry = .proxy pa home n → pa % 8 = 0 → s.quiet (pa / 128) = true → alone →
      let both (x : Instr → Prop) : Prop := x (.semPhaseUpdate entry phase) ∧ x (.semArrivalReply (2 ^ 40 + entry) phase)
      (32768 ≤ (phase + 2 ^ 16 - w / 2 ^ 48 % 2 ^ 16) % 2 ^ 16 → both (fun i => exec i s = .next s)) ∧
      ((phase + 2 ^ 16 - w / 2 ^ 48 % 2 ^ 16) % 2 ^ 16 < 32768 → both (fun i => ∃ t, exec i s = .next t ∧
        t.mem = mstore s.mem pa (w % 2 ^ 48 + phase % 2 ^ 16 * 2 ^ 48) 8)))

/-! ## The instructions that drive the press, the galleys, the sweeps and the queues -/

/-- R216, R226, R232 to R235: `pq.push` queues the four words of a checked command as a release, FULL behind eight, and
traps PRESS-ERROR on a word that breaks a rule; `pq.done` asks for a ticket: NR while its MARK is queued, RDY where it is the
last one reached, STALE else; `pq.resume` makes a resolved head run again and drops one that stopped for an error. -/
def Obligations.PressQueueInstructions : Prop :=
  ∀ (s : State) (rs1 : BitVec 4) (nb : BitVec 1) (x : Cmd) (l : List Cmd), s.me.issues →
    let a := s.me.reg rs1
    let c := s.myCore
    let q := s.pq c
    let w (i : Nat) : Nat := mload s.lm (s.myCore * 2 ^ 18 + a.toNat + 8 * i) 8
    let good : Prop := a.toNat < s.myGrp.lm ∧ a.toNat % 32 = 0
    let ok : Prop := good ∧ s.pressWordOk (w 0) (w 1) (w 2) (w 3) = true
    let n := a.toNat % 65536
    let head (st : CmdSt) : Prop := q.cmds = x :: l ∧ x.st = st
    let push : Instr := .pqPush rs1 nb
    let done : Instr := .pqDone rs1 nb
    let resume : Instr := .pqResume nb
    let reads (o : OCode) : Prop := ∃ t, exec done s = .next t ∧ t.mem = s.mem ∧ t.lm = s.lm ∧ t.me = s.me.completed nb o
    (s.myGrp.lm ≤ a.toNat → s.traps push .access a 0) ∧
    (good → s.pressWordOk (w 0) (w 1) (w 2) (w 3) = false → s.traps push .pressError a (BitVec.ofNat 64 (w 0))) ∧
    (ok → s.established s.cur 1 = false → s.stops push nb .nr (.release 1)) ∧
    (ok → s.established s.cur 1 = true → 8 ≤ q.cmds.length → s.stops push nb .full (.pressEntry c)) ∧
    (ok → s.established s.cur 1 = true → q.cmds.length < 8 → ∃ t y, exec push s = .next t ∧
      (t.pq c).cmds = q.cmds ++ [y] ∧ y.w0 = BitVec.ofNat 64 (w 0) ∧ y.w1 = BitVec.ofNat 64 (w 1) ∧
      y.w2 = BitVec.ofNat 64 (w 2) ∧ y.w3 = BitVec.ofNat 64 (w 3) ∧ y.uid = s.cur ∧ y.pc = s.me.pc ∧ y.st = .queued ∧
      (w 0 % 256 = 5 → w 3 / 256 % 4 = 1 → y.phase = s.me.dphase.toNat % 256) ∧ t.mem = s.mem ∧ t.lm = s.lm ∧
      (∀ u, u ≠ s.cur → t.thr u = s.thr u) ∧
      t.me = { s.me.completed nb .rdy with interval := (s.me.interval + 1) % 2 ^ 20 }) ∧
    ((s.ctx s.myCtx).race = 0 → q.cmds = [] → (q.lastMark = some n → reads .rdy) ∧ (q.lastMark ≠ some n → reads .stale)) ∧
    (head .queued ∨ head .started → q.marked n = true → s.stops done nb .nr (.ticket c n)) ∧
    ((s.ctx s.myCtx).race = 0 → head .queued ∨ head .started → q.marked n = false →
      (q.lastMark = some n → reads .rdy) ∧ (q.lastMark ≠ some n → reads .stale)) ∧
    (head .stoppedFault → q.marked n = true → s.stops done nb .faulted (.pressResolved c)) ∧
    (head .resolved ∨ head .stoppedError → q.marked n = true → s.ends done nb .denied) ∧
    (q.cmds = [] ∨ head .queued ∨ head .started → s.results resume nb 0 0) ∧
    (head .stoppedFault → s.stops resume nb .faulted (.pressResolved c)) ∧
    (head .resolved → ∃ t, exec resume s = .next t ∧ (t.pq c).cmds = { x with st := .queued } :: l ∧
      t.me = s.me.completed nb .rdy) ∧
    (head .stoppedError → ∃ t, exec resume s = .next t ∧ (t.pq c).cmds = l ∧
      t.me = { s.me.completed nb .rdy with wake := t.me.wake }) ∧
    (head .stoppedDeclined → s.traps done .unresolvable x.faultVa 0 ∧ s.traps resume .unresolvable x.faultVa 0)

/-- R247, R257, R259 to R263: a range instruction queues its sweep for the engine of its forme as a release; `gx.kick`
puts a chain head behind at most three others of its context's channel; `cbit.test` gives rd the bitmap word, RDY where
every bit of the mask is set; `ti.inv` writes zero into the second word of an entry; `ti.load` copies a well-formed entry
of 64 bytes into the table. -/
def Obligations.EngineInstructions : Prop :=
  ∀ (s : State) (rd rs1 rs2 : BitVec 4) (kind : BitVec 2) (idx c6 : BitVec 6) (c8 : BitVec 8) (nb : BitVec 1)
    (e e2 : TlbEntry) (x x2 : L1Line), s.me.issues →
    let a := s.me.reg rs1
    let len := (s.me.reg rs2).toNat
    let c := s.myCore
    let f := coreForme c
    let k := kind.toNat
    let off (e : TlbEntry) (v : Word) : Nat := leafPa e.level e.pte.toNat v.toNat % 128
    let line (e : TlbEntry) (v : Word) : Nat := leafPa e.level e.pte.toNat v.toNat / 128
    let released : Thread := { s.me.completed nb .rdy with interval := (s.me.interval + 1) % 2 ^ 20 }
    let ranges : Prop := canonical a.toNat = true ∧ len ≤ 2 ^ 40 ∧ (len = 0 ∨ rangePaged a.toNat len = true) ∧
      s.holdsBar k idx.toNat = true ∧ (s.bar k (unitOf k c) idx.toNat).expected ≠ 0
    let range (i : Instr) (wb inv : Bool) : Prop :=
      (canonical a.toNat = false → s.traps i .access a 0) ∧
      (canonical a.toNat = true → ¬ ranges → s.ends i nb .denied) ∧
      (ranges → s.established s.cur 0 = true → 8 ≤ (s.forme f).sweeps.length → s.stops i nb .full (.sweepEntry f)) ∧
      (ranges → s.established s.cur 0 = true → (s.forme f).sweeps.length < 8 → ∃ t, exec i s = .next t ∧ t.me = released ∧
        t.mem = s.mem ∧ (∀ g, t.forme g = if g = f then { s.forme f with sweeps := (s.forme f).sweeps ++
          [{ uid := s.cur, gid := s.me.gid, ctx := s.myCtx, core := c, start := a, len := len, wb := wb, inv := inv,
             kind := k, idx := idx.toNat, left := [] }] } else s.forme g))
    let ch := s.chan s.myDie c6.toNat
    let kicks : Prop := a.toNat % 64 = 0 ∧ inPaged a.toNat = true ∧ ch.holder = some s.myCtx
    let kick : Instr := .gxKick rs1 c6 nb
    let word : Word := BitVec.ofNat 64 (lineGet x.data (off e a) 8)
    let va := s.entryVa c8.toNat
    let own (y : L1Line) : Prop := y.st = .e ∨ y.st = .m
    let entry := lineGet x.data (off e a) 64
    let words := (List.range 8).map (fun i => BitVec.ofNat 64 (entry / 2 ^ (64 * i)))
    let stored (t : State) (v : Word) (n val : Nat) : Prop := ∃ y, (t.core c).line (line e2 v) = some y ∧ y.st = .m ∧
      lineGet y.data (off e2 v) n = val
    range (.rngWb rs1 rs2 kind idx nb) true false ∧ range (.rngInv rs1 rs2 kind idx nb) false true ∧
    range (.rngWbinv rs1 rs2 kind idx nb) true true ∧
    (a.toNat % 64 ≠ 0 ∨ inPaged a.toNat = false → s.traps kick .access a 0) ∧
    (a.toNat % 64 = 0 → inPaged a.toNat = true → ch.holder ≠ some s.myCtx → s.ends kick nb .denied) ∧
    (kicks → s.established s.cur 2 = true → 4 ≤ ch.kicks.length → s.stops kick nb .full (.kick s.myDie c6.toNat)) ∧
    (kicks → s.established s.cur 2 = true → ch.kicks.length < 4 → ∃ t y, exec kick s = .next t ∧ t.me = released ∧
      t.chan s.myDie c6.toNat = { ch with kicks := ch.kicks ++ [y] } ∧ y.va = a ∧ y.uid = s.cur ∧ y.ctx = s.myCtx ∧
      y.tids = s.myKer.tids ∧ y.interval = (s.me.interval + 1) % 2 ^ 20 ∧ t.mem = s.mem) ∧
    (s.HoldsLine a 8 false e x → s.unclaimed a → servesNeed .share x.st = true →
      ∃ t, exec (.cbitTest rd rs1 rs2 nb) s = .next t ∧ t.mem = s.mem ∧
        (∀ r, t.me.reg r = if r = rd ∧ r ≠ 0 then word else s.me.reg r) ∧
        (word &&& s.me.reg rs2 = s.me.reg rs2 → t.me = { s.me.completed nb .rdy with regs := t.me.regs }) ∧
        (word &&& s.me.reg rs2 ≠ s.me.reg rs2 → t.me.wake = some { cond := .lineWritten (line e a), fired := 0 } ∧
          if nb = 1 then t.me.oc = 1 ∧ t.me.pc = s.me.pc + 4 else t.me.st = .waiting ∧ t.me.pc = s.me.pc)) ∧
    (s.myKer.tids = 0 → s.ends (.tiInv c8 nb) nb .denied) ∧
    (s.myKer.tids ≠ 0 → s.HoldsLine (va + 8) 8 true e2 x2 → s.unclaimed (va + 8) → own x2 →
      ∃ t, exec (.tiInv c8 nb) s = .next t ∧ stored t (va + 8) 8 0 ∧
        t.me = { s.me.completed nb .rdy with wake := t.me.wake, releasing := false }) ∧
    (s.myKer.tids ≠ 0 → a.toNat % 64 = 0 → s.HoldsLine a 64 false e x → s.unclaimed a → servesNeed .share x.st = true →
      s.HoldsLine va 64 true e2 x2 → s.unclaimed va → own x2 → line e a ≠ line e2 va →
      (idOk c8.toNat words = true → ∃ t, exec (.tiLoad rs1 c8 nb) s = .next t ∧ stored t va 64 entry ∧
        t.me = { s.me.completed nb .rdy with wake := t.me.wake, releasing := false }) ∧
      (idOk c8.toNat words = false → ∃ t, exec (.tiLoad rs1 c8 nb) s = .next t ∧ t.me = s.me.completed nb .denied))

/-! ## The vector stream (R183 to R211) -/

/-- R43, R184, R185, R190, R193, R194, R196: the lanewise instructions on the integer types: wrapping sums and products,
signed and unsigned minimum and maximum, magnitude, negation, bitwise operations, and shifts by the count modulo the width. -/
def Obligations.VectorIntegers : Prop :=
  ∀ (s : State) (vd vs1 vs2 et : BitVec 3) (m : BitVec 1), et.toNat < 4 →
    let w := 8 * 2 ^ et.toNat
    let a (k : Nat) : BitVec w := BitVec.ofNat w (laneGet (s.me.vreg vs1) w k)
    let b (k : Nat) : BitVec w := BitVec.ofNat w (laneGet (s.me.vreg vs2) w k)
    let c (k : Nat) : BitVec w := BitVec.ofNat w (laneGet (s.me.vreg vd) w k)
    let gives (i : Instr) (f : Nat → BitVec w) : Prop := s.lanes i vd w (512 / w) m false (fun k => ((f k).toNat, 0))
    gives (.vadd vd vs1 vs2 et m) (fun k => a k + b k) ∧
    gives (.vsub vd vs1 vs2 et m) (fun k => a k - b k) ∧
    gives (.vmul vd vs1 vs2 et m) (fun k => a k * b k) ∧
    gives (.vfma vd vs1 vs2 et m) (fun k => a k * b k + c k) ∧
    gives (.vminu vd vs1 vs2 et m) (fun k => if (b k).toNat < (a k).toNat then b k else a k) ∧
    gives (.vmaxu vd vs1 vs2 et m) (fun k => if (a k).toNat < (b k).toNat then b k else a k) ∧
    gives (.vmin vd vs1 vs2 et m) (fun k => if (b k).toInt < (a k).toInt then b k else a k) ∧
    gives (.vmax vd vs1 vs2 et m) (fun k => if (a k).toInt < (b k).toInt then b k else a k) ∧
    gives (.vabs vd vs1 et m) (fun k => if (a k).toInt < 0 then - a k else a k) ∧
    gives (.vneg vd vs1 et m) (fun k => - a k) ∧
    gives (.vand vd vs1 vs2 et m) (fun k => a k &&& b k) ∧
    gives (.vor vd vs1 vs2 et m) (fun k => a k ||| b k) ∧
    gives (.vxor vd vs1 vs2 et m) (fun k => a k ^^^ b k) ∧
    gives (.vshl vd vs1 vs2 et m) (fun k => a k <<< ((b k).toNat % w)) ∧
    gives (.vshr vd vs1 vs2 et m) (fun k => a k >>> ((b k).toNat % w)) ∧
    gives (.vsra vd vs1 vs2 et m) (fun k => (a k).sshiftRight ((b k).toNat % w))

/-- R169, R190 to R195: the lanewise instructions on the floating types: the exact sum, product, fused sum, quotient or
root of the operands' values, rounded once into the format by `vrm`; minimum and maximum in the order of R179; magnitude
and negation on the sign bit, a NaN giving the canonical NaN; the two estimates. -/
def Obligations.VectorFloats : Prop :=
  ∀ (s : State) (vd vs1 vs2 et : BitVec 3) (m : BitVec 1) (f : Fmt), etType et.toNat = .flt f →
    let w := f.width
    let bits (r : BitVec 3) (k : Nat) : Nat := laneGet (s.me.vreg r) w k
    let a (k : Nat) : FVal := fdecode f (bits vs1 k)
    let b (k : Nat) : FVal := fdecode f (bits vs2 k)
    let c (k : Nat) : FVal := fdecode f (bits vd k)
    let md := s.me.mode
    let rounds (i : Instr) (x : Nat → Exact) : Prop := s.lanes i vd w (512 / w) m true (fun k => deliver f (s.me.rnd k) (x k))
    let picks (i : Instr) (g : Nat → Nat × BitVec 5) : Prop := s.lanes i vd w (512 / w) m false g
    let signs (k : Nat) (v : Nat) : Nat × BitVec 5 := if (a k).isNan = true then (f.nan, sigFlag (a k)) else (v, 0)
    rounds (.vadd vd vs1 vs2 et m) (fun k => exactSum md [a k, b k]) ∧
    rounds (.vsub vd vs1 vs2 et m) (fun k => exactSum md [a k, (b k).negate]) ∧
    rounds (.vmul vd vs1 vs2 et m) (fun k => exactMul (a k) (b k)) ∧
    rounds (.vfma vd vs1 vs2 et m) (fun k => exactFma md (a k) (b k) (c k)) ∧
    rounds (.vdiv vd vs1 vs2 et m) (fun k => exactDiv (a k) (b k)) ∧
    rounds (.vsqrt vd vs1 et m) (fun k => exactSqrt (a k)) ∧
    picks (.vmin vd vs1 vs2 et m) (fun k => fminmax f false (bits vs1 k) (bits vs2 k)) ∧
    picks (.vmax vd vs1 vs2 et m) (fun k => fminmax f true (bits vs1 k) (bits vs2 k)) ∧
    picks (.vabs vd vs1 et m) (fun k => signs k (bits vs1 k % f.sign)) ∧
    picks (.vneg vd vs1 et m) (fun k => signs k
      (if f.sign ≤ bits vs1 k then bits vs1 k - f.sign else bits vs1 k + f.sign)) ∧
    picks (.vrcpe vd vs1 et m) (fun k => frcpe f (bits vs1 k)) ∧
    picks (.vrsqe vd vs1 et m) (fun k => frsqe f (bits vs1 k))

/-- R164 to R169, R191 to R195 on the values themselves: a NaN operand gives the canonical NaN; infinities of opposite signs
do not add; nothing times infinity is invalid, even beside a NaN; a number divided by zero is an infinity with DZ, zero by
zero invalid; the root of a number below zero is invalid; and a value that a format holds is delivered as it stands. -/
def Obligations.FloatingValues : Prop :=
  ∀ (f : Fmt) (rd : Rnd) (md : Nat) (x y : FVal) (n p : Bool) (j k : Nat) (e d : Int),
    f = fp16 ∨ f = bf16 ∨ f = fp32 ∨ f = fp64 → rd.thr < 256 →
    let invalid (r : Exact) : Prop := deliver f rd r = (f.nan, flNV)
    (x.isNan = true → (deliver f rd (exactSum md [x, y])).1 = f.nan ∧ (deliver f rd (exactMul x y)).1 = f.nan ∧
      (deliver f rd (exactDiv x y)).1 = f.nan ∧ (deliver f rd (exactSqrt x)).1 = f.nan) ∧
    invalid (exactSum md [.inf true, .inf false]) ∧ invalid (exactSum md [.inf false, .inf true]) ∧
    invalid (exactMul (.fin n 0 e) (.inf p)) ∧ invalid (exactMul (.inf p) (.fin n 0 e)) ∧
    (deliver f rd (exactFma md (.fin n 0 e) (.inf p) (.nan false)) = (f.nan, flNV)) ∧
    invalid (exactDiv (.fin n 0 e) (.fin p 0 d)) ∧ invalid (exactDiv (.inf n) (.inf p)) ∧
    (j ≠ 0 → deliver f rd (exactDiv (.fin n j e) (.fin p 0 d)) = ((if n = p then 0 else f.sign) + f.top, flDZ)) ∧
    (j ≠ 0 → invalid (exactSqrt (.fin true j e))) ∧ invalid (exactSqrt (.inf true)) ∧
    (k < 2 ^ f.width → (fdecode f k).isNan = false → deliver f rd (Exact.of (fdecode f k)) = (k, 0))

/-- R185, R197: a comparison writes bit k of `vmask` for every lane, 0 for an inactive lane and beyond the last; on integers
it compares as its name says, signed but for `ltu`; on floats it is false on a NaN, but for `ne`, holds the two zeros
equal, and raises NV only for a signalling NaN of an active lane. No vector register changes. -/
def Obligations.VectorCompares : Prop :=
  ∀ (s : State) (vs1 vs2 et : BitVec 3) (m : BitVec 1),
    let w := (etType et.toNat).width
    let x (k : Nat) : Nat := laneGet (s.me.vreg vs1) w k
    let y (k : Nat) : Nat := laneGet (s.me.vreg vs2) w k
    let a (k : Nat) : BitVec w := BitVec.ofNat w (x k)
    let b (k : Nat) : BitVec w := BitVec.ofNat w (y k)
    let act (k : Nat) : Prop := k < 512 / w ∧ (m = 0 ∨ s.me.vmask.getLsbD k = true)
    let masks (i : Instr) (p : Nat → Prop) (nv : Nat → Prop) : Prop := ∃ t, exec i s = .next t ∧ s.onlyMe t ∧
      (∀ k, k < 64 → (t.me.vmask.getLsbD k = true ↔ act k ∧ p k)) ∧
      ((∃ k, act k ∧ nv k) → t.me.vrm = s.me.vrm ||| 16#9) ∧ ((∀ k, act k → ¬ nv k) → t.me.vrm = s.me.vrm) ∧
      t.me = { s.me with pc := s.me.pc + 4, instret := s.me.instret + 1, vmask := t.me.vmask, vrm := t.me.vrm, dirty := true }
    let quiet (_ : Nat) : Prop := False
    (et.toNat < 4 →
      masks (.vcmpEq vs1 vs2 et m) (fun k => a k = b k) quiet ∧ masks (.vcmpNe vs1 vs2 et m) (fun k => a k ≠ b k) quiet ∧
      masks (.vcmpLt vs1 vs2 et m) (fun k => (a k).toInt < (b k).toInt) quiet ∧
      masks (.vcmpLe vs1 vs2 et m) (fun k => (a k).toInt ≤ (b k).toInt) quiet ∧
      masks (.vcmpLtu vs1 vs2 et m) (fun k => (a k).toNat < (b k).toNat) quiet) ∧
    ∀ f, etType et.toNat = .flt f →
      let u (k : Nat) : FVal := fdecode f (x k)
      let v (k : Nat) : FVal := fdecode f (y k)
      let numbers (k : Nat) : Prop := (u k).isNan = false ∧ (v k).isNan = false
      let zeros (k : Nat) : Prop := (u k).isZero = true ∧ (v k).isZero = true
      let same (k : Nat) : Prop := numbers k ∧ (zeros k ∨ x k = y k)
      let less (k : Nat) : Prop := numbers k ∧ ¬ zeros k ∧ forder f (x k) < forder f (y k)
      let nv (k : Nat) : Prop := u k = .nan true ∨ v k = .nan true
      masks (.vcmpEq vs1 vs2 et m) same nv ∧ masks (.vcmpNe vs1 vs2 et m) (fun k => ¬ same k) nv ∧
      masks (.vcmpLt vs1 vs2 et m) less nv ∧ masks (.vcmpLe vs1 vs2 et m) (fun k => less k ∨ same k) nv

/-- R186, R198 to R201, R206, R207: selection by `vmask`, broadcast of a register and of a constant word, moves of
lanes, permutation and slide, each without a change of a bit; a lane taken to a register, sign-extended for an integer
type; and the return to vector-clean, which zeroes the vector registers and `vmask`. R170, R202, R203: a conversion
takes the lanes that both types have, each through the conversion of R170 under `vrm`, and leaves the further lanes of
vd; the 8-bit formats stand in the first bytes of a register.
That a conversion between integers does not step the dither phase, and one with a floating type does, is the model's reading
(log 17). -/
def Obligations.VectorMoves : Prop :=
  (∀ (s : State) (vd vs1 vs2 et : BitVec 3) (xs : BitVec 4) (c8 : BitVec 8) (m : BitVec 1),
    let w := (etType et.toNat).width
    let n := 512 / w
    let a (k : Nat) : Nat := laneGet (s.me.vreg vs1) w k
    let b (k : Nat) : Nat := laneGet (s.me.vreg vs2) w k
    let d := (s.me.reg xs).toInt
    let gives (i : Instr) (m : BitVec 1) (f : Nat → Nat) : Prop := s.lanes i vd w n m false (fun k => (f k, 0))
    gives (.vsel vd vs1 vs2 et) 0 (fun k => if s.me.vmask.getLsbD k = true then a k else b k) ∧
    gives (.vbc vd xs et m) m (fun _ => (s.me.reg xs).toNat) ∧
    gives (.vbcC vd c8 et) 0 (fun _ => (loadedValue s.lm (s.me.core * 2 ^ 18 + 8 * c8.toNat) 3).toNat) ∧
    gives (.vmv vd vs1 et m) m a ∧
    gives (.vperm vd vs1 vs2 et m) m (fun k => a (b k % n)) ∧
    gives (.vslide vd vs1 xs et m) m (fun k => if d ≤ k ∧ (k : Int) < n + d then a ((k : Int) - d).toNat else 0) ∧
    (∃ t, exec (.vext vs1 xs et) s = .next t ∧ s.onlyMe t ∧
      t.me = { s.me with pc := s.me.pc + 4, instret := s.me.instret + 1, regs := t.me.regs, dirty := true } ∧
      ∀ q, t.me.reg q = if q = xs ∧ q ≠ 0 then
          (if et.toNat < 4 then (BitVec.ofNat w (a ((s.me.reg xs).toNat % n))).signExtend 64
          else BitVec.ofNat 64 (a ((s.me.reg xs).toNat % n)))
        else s.me.reg q) ∧
    ∃ t, exec .vmvClean s = .next t ∧ s.onlyMe t ∧ (∀ r, t.me.vreg r = 0) ∧
      t.me = { s.me with pc := s.me.pc + 4, instret := s.me.instret + 1, vregs := t.me.vregs, vmask := 0, dirty := false }) ∧
  (∀ (s : State) (vd vs1 src et : BitVec 3) (m : BitVec 1),
    let a := etType src.toNat
    let b := etType et.toNat
    let lane (x : NumT) (k : Nat) : Nat := laneGet (s.me.vreg vs1) x.width k
    let float (x : BitVec 3) : Bool := decide (4 ≤ x.toNat)
    let n := 512 / b.width
    s.lanes (.vcvt vd vs1 src et m) vd b.width (min (512 / a.width) n) m (float src || float et)
      (fun k => convert a b (s.me.rnd k) (lane a k)) ∧
    (src = 0 → s.lanes (.vcvt8 vd vs1 src et m) vd b.width n m false
      (fun k => convert (.flt e4m3) b (s.me.rnd k) (lane (.flt e4m3) k))) ∧
    (src = 1 → s.lanes (.vcvt8 vd vs1 src et m) vd b.width n m false
      (fun k => convert (.flt e5m2) b (s.me.rnd k) (lane (.flt e5m2) k))) ∧
    (src = 2 → s.lanes (.vcvt8 vd vs1 src et m) vd 8 n m true (fun k => convert b (.flt e4m3) (s.me.rnd k) (lane b k))) ∧
    (src = 3 → s.lanes (.vcvt8 vd vs1 src et m) vd 8 n m true (fun k => convert b (.flt e5m2) (s.me.rnd k) (lane b k))))

/-- R178, R180, R204, R205: an integer reduction leaves in lane 0 the wrapping sum, or the signed maximum or minimum, of
the active lanes, and zero in every other lane; a floating one the combination by the tree of R178. A dot product adds the
exact products of its lanes to the accumulator lane: integers saturated, floats rounded once. -/
def Obligations.VectorReductions : Prop :=
  ∀ (s : State) (vd vs1 vs2 et : BitVec 3) (m : BitVec 1),
    let w := (etType et.toNat).width
    let n := 512 / w
    let a (k : Nat) : Nat := laneGet (s.me.vreg vs1) w k
    let act (k : Nat) : Prop := k < n ∧ (m = 0 ∨ s.me.vmask.getLsbD k = true)
    let signed (x : Nat) : Int := (BitVec.ofNat w x).toInt
    let reduces (i : Instr) (p : State → Nat → Prop) : Prop := ∃ t, exec i s = .next t ∧ s.onlyMe t ∧
      (∀ r, r ≠ vd → t.me.vreg r = s.me.vreg r) ∧ (∀ k, k ≠ 0 → k < n → laneGet (t.me.vreg vd) w k = 0) ∧
      p t (laneGet (t.me.vreg vd) w 0) ∧
      t.me = { s.me with pc := s.me.pc + 4, instret := s.me.instret + 1, vregs := t.me.vregs, vrm := t.me.vrm,
                         dphase := t.me.dphase, dirty := true }
    let calm (t : State) : Prop := t.me.vrm = s.me.vrm ∧ t.me.dphase = s.me.dphase
    let leaves := (List.range n).map (fun k => if m = 0 ∨ s.me.vmask.getLsbD k = true then some (a k) else none)
    (et.toNat < 4 →
      reduces (.vredAdd vd vs1 et m) (fun t v => calm t ∧
        v = ((List.range n).map (fun k => if m = 0 ∨ s.me.vmask.getLsbD k = true then a k else 0)).sum % 2 ^ w) ∧
      reduces (.vredMax vd vs1 et m) (fun t v => calm t ∧ ((∀ k, ¬ act k) → v = 2 ^ (w - 1)) ∧
        ((∃ k, act k) → (∃ k, act k ∧ v = a k) ∧ ∀ k, act k → signed (a k) ≤ signed v)) ∧
      reduces (.vredMin vd vs1 et m) (fun t v => calm t ∧ ((∀ k, ¬ act k) → v = 2 ^ (w - 1) - 1) ∧
        ((∃ k, act k) → (∃ k, act k ∧ v = a k) ∧ ∀ k, act k → signed v ≤ signed (a k)))) ∧
    (∀ f, etType et.toNat = .flt f →
      reduces (.vredAdd vd vs1 et m) (fun _ v => v = (treeReduce (fun x y => deliver f (s.me.rnd 0)
        (exactSum s.me.mode [fdecode f x, fdecode f y])) (Nat.log2 n) leaves).1.getD 0 % 2 ^ w) ∧
      reduces (.vredMax vd vs1 et m) (fun _ v => v = (treeReduce (fminmax f true) (Nat.log2 n) leaves).1.getD f.nan % 2 ^ w) ∧
      reduces (.vredMin vd vs1 et m)
        (fun _ v => v = (treeReduce (fminmax f false) (Nat.log2 n) leaves).1.getD f.nan % 2 ^ w)) ∧
    (et.toNat < 2 →
      let d := if et.toNat = 0 then 32 else 64
      let x (r : BitVec 3) (v k : Nat) : Int := (BitVec.ofNat v (laneGet (s.me.vreg r) v k)).toInt
      let total (k : Nat) : Int := x vd d k + ((List.range 4).map (fun i => x vs1 w (4 * k + i) * x vs2 w (4 * k + i))).sum
      s.lanes (.vdot vd vs1 vs2 et m) vd d (512 / d) m false (fun k =>
        ((BitVec.ofInt d (max (- (2 ^ (d - 1) : Nat)) (min ((2 ^ (d - 1) : Nat) - 1) (total k)))).toNat, 0))) ∧
    ∀ f, etType et.toNat = .flt f → f ≠ fp64 →
      let g := if f = fp32 then fp64 else fp32
      s.lanes (.vdot vd vs1 vs2 et m) vd g.width (512 / g.width) m true (fun k =>
        dotFloat f g (s.me.rnd k) (laneGet (s.me.vreg vd) g.width k) ((List.range 2).map (fun i =>
          (laneGet (s.me.vreg vs1) w (2 * k + i), laneGet (s.me.vreg vs2) w (2 * k + i)))))

/-- R60, R208 to R211: `vld` and `vst` move the active lanes between vd and consecutive lanes of a local memory, in one
step where they are naturally aligned, else one byte a step in ascending order; `vldx` and `vstx` between vd and the
addresses of base plus lane; lanes that are not active are neither read nor written. On a line that the core holds `vld`
loads the same way. The thread is vector-dirty after them. -/
def Obligations.VectorMemory : Prop :=
  ∀ (s : State) (vd vs1 : BitVec 3) (xs : BitVec 4) (lane : BitVec 2) (m nb : BitVec 1) (place : Nat → Nat) (base : Nat)
    (e : TlbEntry) (x : L1Line), s.memOk = true →
    let ea := s.me.reg xs
    let b := 2 ^ lane.toNat
    let w := 8 * b
    let act (k : Nat) : Prop := k < 64 / b ∧ (m = 0 ∨ s.me.vmask.getLsbD k = true)
    let window : Prop := ea.toNat < 0x40000 ∨ (0x1000000 ≤ ea.toNat ∧ ea.toNat < 0x1200000)
    let at_ (write : Bool) : Prop := window ∧ ∀ k, act k →
      s.span s.cur (ea + BitVec.ofNat 64 (b * k)) b write = .lm (base + b * k)
    let idx (k : Nat) : Word := ea + BitVec.ofNat 64 (laneGet (s.me.vreg vs1) w k)
    let spread (write : Bool) : Prop := (s.core s.myCore).claims = [] ∧ (s.core s.myCore).deferred = [] ∧
      s.me.cursor = none ∧ ∀ k, act k → s.span s.cur (idx k) b write = .lm (place k)
    let apart : Prop := ∀ j k, act j → act k → j ≠ k → place j + b ≤ place k ∨ place k + b ≤ place j
    let loads (i : Instr) (f : Nat → Nat) : Prop := ∃ t, exec i s = .next t ∧ t.lm = s.lm ∧ t.mem = s.mem ∧
      (∀ u, u ≠ s.cur → t.thr u = s.thr u) ∧ (∀ r, r ≠ vd → t.me.vreg r = s.me.vreg r) ∧
      (∀ k, act k → laneGet (t.me.vreg vd) w k = f k) ∧
      (∀ k, k < 64 / b → ¬ act k → laneGet (t.me.vreg vd) w k = laneGet (s.me.vreg vd) w k) ∧
      t.me = { s.me.completed nb .rdy with vregs := t.me.vregs, dirty := true }
    let made : Nat := match s.me.bytes with | some d => if d.pc = s.me.pc then d.done else 0 | none => 0
    let ahead (k : Nat) : Nat := ((List.range k).filter (fun i => decide (m = 0) || s.me.vmask.getLsbD i)).length
    let bytewise (i : Instr) (write : Bool) : Prop := ∀ k j, act k → j < b → b * ahead k + j = made →
      ∃ t, exec i s = .next t ∧ t.mem = s.mem ∧ (∀ u, u ≠ s.cur → t.thr u = s.thr u) ∧ t.me.dirty = true ∧
        (if made + 1 < b * ahead (64 / b) then
          t.me.pc = s.me.pc ∧ t.me.st = s.me.st ∧ t.me.bytes = some { pc := s.me.pc, done := made + 1, value := 0 }
        else t.me.pc = s.me.pc + 4 ∧ t.me.bytes = none) ∧
        (if write then mload t.lm (base + b * k + j) 1 = laneGet (s.me.vreg vd) 8 (b * k + j) ∧
          (∀ r, t.me.vreg r = s.me.vreg r) ∧ ∀ a, a ≠ base + b * k + j → mget t.lm a = mget s.lm a
        else laneGet (t.me.vreg vd) 8 (b * k + j) = mload s.lm (base + b * k + j) 1 ∧ t.lm = s.lm ∧
          (∀ n, n < 64 → n ≠ b * k + j → laneGet (t.me.vreg vd) 8 n = laneGet (s.me.vreg vd) 8 n) ∧
          ∀ r, r ≠ vd → t.me.vreg r = s.me.vreg r)
    let stores (i : Instr) (p : Nat → Nat) : Prop := ∃ t, exec i s = .next t ∧ t.mem = s.mem ∧
      (∀ u, u ≠ s.cur → t.thr u = s.thr u) ∧ t.me = { s.me.completed nb .rdy with dirty := true } ∧
      (∀ k, act k → mload t.lm (p k) b = laneGet (s.me.vreg vd) w k) ∧
      ∀ a, (∀ k, act k → a < p k ∨ p k + b ≤ a) → mget t.lm a = mget s.lm a
    (at_ false → base % b = 0 → loads (.vld vd xs lane m nb) (fun k => mload s.lm (base + b * k) b)) ∧
    (at_ true → base % b = 0 → stores (.vst vd xs lane m nb) (fun k => base + b * k)) ∧
    (at_ false → base % b ≠ 0 → bytewise (.vld vd xs lane m nb) false) ∧
    (at_ true → base % b ≠ 0 → bytewise (.vst vd xs lane m nb) true) ∧
    (spread false → vd ≠ vs1 → loads (.vldx vd vs1 xs lane m nb) (fun k => mload s.lm (place k) b)) ∧
    (spread true → apart → stores (.vstx vd vs1 xs lane m nb) place) ∧
    (s.HoldsLine ea 64 false e x → ¬ window → s.unclaimed ea → servesNeed .share x.st = true →
      loads (.vld vd xs lane m nb)
        (fun k => lineGet x.data (leafPa e.level e.pte.toNat ea.toNat % 128 + b * k) b))

/-! ## The press (R212 to R243) and the galleys (R249 to R257) -/

/-- R212 to R218, R226, R236 to R243: a press takes the head that its round robin names; a unit of a command with its
operand in the windows has the effect its rule gives: LSTAT fills the shadow plane, FLIP makes it the active one, STREAM
adds a pass of one activation row to an accumulator row, ACLR clears, DRAIN converts and stores a row, with what later
rows write of its words (R221, R225, R255), ACOPY and ALOAD fill rows, SHARE adds holders, MARK reaches its ticket. After
its last unit the command leaves the queue. -/
def Obligations.PressCommands : Prop :=
  ∀ (s : State) (f p : Nat) (x : Cmd) (l : List Cmd), p < 8 → s.memOk = true → (∀ g, (s.grp g).reinstall = []) →
    let k := (s.forme f).press
    let c := 8 * f + p
    let w0 := x.w0.toNat
    let a := x.w1.toNat
    let stride := x.w2.toNat
    let i := x.unit
    let n := typeBytes (pwType w0)
    let acc := w0 / 2 ^ 32 % 65536
    let rows := if w0 / 2 ^ 24 % 256 = 0 then 64 else w0 / 2 ^ 24 % 256
    let queued : Prop := (s.pq c).cmds = x :: l
    let runs (op : Nat) : Prop := queued ∧ k.running = some p ∧ w0 % 256 = op ∧ x.st = .started ∧ w0.testBit 8 = false
    let plain (v : Nat) : Prop := w0 / 512 % 4 = v
    let gone (t : State) : Prop := (t.pq c).cmds = l ∧ (t.forme f).press.running = none
    let unit (t : State) : Prop := if i + 1 < rows then (t.pq c).cmds = { x with unit := i + 1 } :: l ∧
      (t.forme f).press.running = some p else gone t
    let win (row col : Nat) : Nat := mload s.lm (s.windowByte c (a + row * stride) + col * n) n
    let rowsKept (t : State) (lo m : Nat) : Prop :=
      ∀ r col, col < 128 → r < lo ∨ lo + m ≤ r → t.accGet c r col = s.accGet c r col
    let rnd (r col : Nat) : Rnd := { mode := pwMode w0, ovf8 := w0.testBit 14, thr := ditherThr (r % 16) col (s.drainPhase c x) }
    let place (r col : Nat) : Nat := s.windowByte c (a + r * stride) + col * n
    let drained (r col : Nat) : Prop := i ≤ r ∧ r < rows ∧ col < 128 ∧ (r, col) ∉ x.ahead ∧
      (r = i ∨ (n < 8 ∧ ∃ k, k < 128 ∧ (i, k) ∉ x.ahead ∧ place i k / 8 = place r col / 8))
    let planes (role : Nat) (b : Nat) : Nat := (2 * f + role) * 2 ^ 14 + b
    (queued → k.running = none → k.weights ≠ [] → k.pos = p → s.pressEligible f p = true → k.count < k.weights.getD p 0 →
      w0 % 256 = 3 → w0.testBit 8 = false → ∃ t, exec (.pressArbitration f) s = .next t ∧
        (t.pq c).cmds = { x with st := .started } :: l ∧ (t.forme f).press.running = some p ∧
        (t.forme f).press.count = k.count + 1 ∧ (t.forme f).press.weights = k.weights) ∧
    (runs 1 → plain 0 → k.shadow.owner = some p → 0 < n → 96 % n = 0 → ∃ t, exec (.lstat f) s = .next t ∧ gone t ∧
      (t.forme f).press.shadow = { k.shadow with loaded := true, type := pwType w0, wscale := 0x3F800000#32 } ∧
      (t.forme f).press.active = k.active ∧ t.lm = s.lm ∧
      (∀ r col, r < 96 / n → col < 128 → mload t.planes (planes 1 (96 * col + n * r)) n = win r col) ∧
      ∀ b, b < planes 1 0 ∨ planes 1 12288 ≤ b → mget t.planes b = mget s.planes b) ∧
    (runs 2 → ∃ t, exec (.flip f) s = .next t ∧ gone t ∧ (t.forme f).press.active = { k.shadow with owner := some p } ∧
      (t.forme f).press.holders = [p] ∧ (t.forme f).press.shadow = Plane.fresh ∧
      ∀ b, b < 12288 → mget t.planes (planes 0 b) = mget s.planes (planes 1 b)) ∧
    (runs 3 → plain 0 → w0.testBit 11 = false → typesPair k.active.type (pwType w0) = true → pwType w0 ≠ 11 →
      ∃ t, exec (.stream f) s = .next t ∧ unit t ∧ t.lm = s.lm ∧ rowsKept t (acc + i) 1 ∧ ∀ col, col < 128 →
        t.accGet c (acc + i) col = pressPass k.active.type (pwType w0) ((List.range (96 / n)).map (fun r => win i r))
          ((List.range (96 / n)).map (fun r => mload s.planes (planes 0 (96 * col + n * r)) n)) (.fin false 1 0)
          (s.accGet c (acc + i) col) % 2 ^ 32) ∧
    (runs 4 → pwType w0 ≠ 11 → ∃ t, exec (.aclr f) s = .next t ∧ unit t ∧ rowsKept t (acc + i) 1 ∧
      ∀ col, col < 128 → t.accGet c (acc + i) col = 0) ∧
    (∀ ty, runs 5 → plain 1 → w0.testBit 15 = false → type4 (pwType w0) = some ty → (∀ r, r < rows → place r 0 % n = 0) →
      ∃ t more, exec (.drain f) s = .next t ∧
        (if i + 1 < rows then (t.pq c).cmds = { x with unit := i + 1, ahead := x.ahead ++ more } :: l ∧
          (t.forme f).press.running = some p else gone t) ∧ t.acc = s.acc ∧
        (∀ r col, drained r col → (∀ r' k, drained r' k → r < r' → place r' k ≠ place r col) → mload t.lm (place r col) n =
          (convert (.int true 32) ty (rnd r (col % 16)) (s.accGet c (acc + r) col)).1 % 2 ^ (8 * n)) ∧
        ∀ y, y ∈ more ↔ drained y.1 y.2 ∧ y.1 ≠ i) ∧
    (runs 6 → pwType w0 ≠ 11 → ∃ t, exec (.acopy f) s = .next t ∧ gone t ∧ rowsKept t (a % 65536) rows ∧
      ∀ r col, r < rows → col < 128 → t.accGet c (a % 65536 + r) col = s.accGet c (acc + r) col) ∧
    (runs 7 → n = 4 → ∃ t, exec (.aload f) s = .next t ∧ unit t ∧ rowsKept t (acc + i) 1 ∧
      ∀ col, col < 128 → t.accGet c (acc + i) col = win i col) ∧
    (runs 8 → ∃ t, exec (.pressMark f) s = .next t ∧ gone t ∧ (t.pq c).lastMark = some (w0 / 2 ^ 48 % 65536) ∧
      t.planes = s.planes ∧ t.acc = s.acc) ∧
    (runs 9 → k.active.owner = some p → p ∈ k.holders →
      (∀ q, q < 8 → a.testBit q = true → s.groupOn (8 * f + q) = s.groupOn c) →
      ∃ t, exec (.share f) s = .next t ∧ gone t ∧
        ∀ q, q ∈ (t.forme f).press.holders ↔ q ∈ k.holders ∨ (q < 8 ∧ a.testBit q = true))

/-- R249 to R257: a channel takes the next chain head of its queue; a record that breaks a rule is to end with status
BAD-RECORD; a record of one point moves its element: COPY as it is, COMPOSE from and SCATTER to the element that the index
names, FILL the fill word, CONVERT through the conversion; the bit of a written chunk is set; a record whose chunks are all
written gets status DONE and its own bit cleared. A sweep engine sweeps one core after another.
The order of the cores is the model's choice (log 30). -/
def Obligations.Galleys : Prop :=
  ∀ (s : State) (d ch n hp : Nat) (r : GRec) (k : Kick) (rest : List Kick) (q : SweepReq) (f core : Nat) (l : List Nat),
    s.memOk = true → (∀ h, (s.core h).port = []) →
    let c := s.chan d ch
    let ctx := r.kick.ctx
    let thr : Nat := ditherThr (r.dstart 1 % 16) (r.dstart 0 % 16) 0
    let rnd : Rnd := { mode := r.round, ovf8 := false, thr := thr }
    let quietAt (ctx va pa size : Nat) (write : Bool) : Prop := pa % 128 + size ≤ 128 ∧ ∃ pte en home,
      s.look ctx va write false = .hit pa pte en home ∧ pteA pte = true ∧ (write = true → pteD pte = true) ∧
      (s.entry (pa / 128)).holders = [] ∧ s.markMask ctx pte = s
    let round : Prop := ∀ x ∈ s.roundBefore d ch, s.visit d x = none
    let head (i : Nat) : Nat := mload s.mem (hp + 8 * i) 8
    let w := r.width
    let start (g : Nat → Nat) : List Nat := [g 0, g 1, g 2, g 3]
    let one (op : Nat) : Prop := c.recs[n]? = some r ∧ r.op = op ∧ r.entered = true ∧ r.chunks = 1 ∧ r.written = [] ∧ r.ahead = [] ∧
      r.st = .running ∧ (∀ e, e < 4 → r.extent e = 1) ∧ (s.ctx ctx).race = 0 ∧ w ≠ 0
    let stored (i : Instr) (pa v : Nat) : Prop := ∃ t, exec i s = .next t ∧ t.mem = mstore s.mem pa v w ∧ t.lm = s.lm ∧
      ((t.chan d ch).recs)[n]? = some { r with written := [0] }
    let sized (e : List Word) (v : Nat) : Prop := typeBytes (elemType e r.tgt) = v
    (round → s.visitRec d ch = none → c.holder ≠ none → c.chain = none → c.kicks = k :: rest → c.recs = [] →
      (s.ctx k.ctx).st = .running → k.va.toNat % 64 = 0 → c.waitFault = none → quietAt k.ctx k.va.toNat hp 64 false →
      (head 1 / 2 ^ 63 = 0 → ∃ t, exec (.galleyChain d ch) s = .next t ∧ (t.chan d ch).chain = none ∧
        (t.chan d ch).kicks = rest ∧ (t.chan d ch).recs = []) ∧
      (head 1 / 2 ^ 63 = 1 → head 1 / 2 ^ 56 % 128 = 0 → head 1 / 2 % 2 = 0 → ∃ t y, exec (.galleyChain d ch) s = .next t ∧
        (t.chan d ch).kicks = rest ∧ (t.chan d ch).recs = [y] ∧ y.va = k.va ∧ y.st = .finishing 0x10)) ∧
    (∀ pa, round → c.holder ≠ none → c.recs = [r] → r.st = .finishing 1 → r.done = r.written → r.faults = [] →
      r.ends = [] → r.skip = [] → r.cobj = 0 → r.va.toNat % 64 = 0 → (s.ctx ctx).race = 0 → quietAt ctx r.va.toNat pa 64 true →
      (∀ lv p ea hs, s.walk ctx (r.va.toNat + 8) = .leaf lv p ea hs →
        let h := s.homeWrite (pa + 56) 8 (r.firstClear % 2 ^ 32)
        h.walk ctx (r.va.toNat + 8) = .leaf lv p ea hs ∧ h.markMask ctx p = h) →
      ∃ t, exec (.galleyChain d ch) s = .next t ∧ (t.chan d ch).recs = [{ r with st := .ended 1 }] ∧
        mload t.mem (pa + 8) 8 = r.op * 2 ^ 56 + 2 ^ 48 + r.word 1 % 2 ^ 48) ∧
    (∀ sva spa dva dpa, one 1 → sized r.src w → idKind r.src = 1 → idKind r.dst = 1 →
      idElement r.src (start r.start) = some sva → idElement r.dst (start r.dstart) = some dva → quietAt ctx sva spa w false →
      quietAt ctx dva dpa w true → stored (.copy d ch n 0) dpa (mload s.mem spa w)) ∧
    (∀ iva ipa sva spa dva dpa, one 2 → sized r.src w → idKind r.src = 2 → idKind r.dst = 1 →
      iva = indexVa r.src (start r.start) → quietAt ctx iva ipa (typeBytes (idType r.src)) false →
      throughIndex r.src r.tgt (start r.start) (mload s.mem ipa (typeBytes (idType r.src))) = some sva →
      idElement r.dst (start r.dstart) = some dva → quietAt ctx sva spa w false → quietAt ctx dva dpa w true →
      stored (.compose d ch n 0) dpa (mload s.mem spa w)) ∧
    (∀ sva spa iva ipa dva dpa, one 3 → sized r.src w → idKind r.src = 1 → idKind r.dst = 2 →
      iva = indexVa r.dst (start r.dstart) → quietAt ctx iva ipa (typeBytes (idType r.dst)) false →
      throughIndex r.dst r.tgt (start r.dstart) (mload s.mem ipa (typeBytes (idType r.dst))) = some dva →
      idElement r.src (start r.start) = some sva → quietAt ctx sva spa w false → quietAt ctx dva dpa w true →
      stored (.scatter d ch n 0) dpa (mload s.mem spa w)) ∧
    (∀ dva dpa, one 4 → r.src = [] → idKind r.dst = 1 → idElement r.dst (start r.dstart) = some dva →
      quietAt ctx dva dpa w true → stored (.fill d ch n 0) dpa (r.word 3)) ∧
    (∀ sva spa dva dpa x y, one 5 → idKind r.src = 1 → idKind r.dst = 1 → type4 (idType r.src) = some x →
      type4 (idType r.dst) = some y → idElement r.src (start r.start) = some sva →
      idElement r.dst (start r.dstart) = some dva → quietAt ctx sva spa (typeBytes (idType r.src)) false → quietAt ctx dva dpa w true →
      stored (.convert d ch n 0) dpa (convert x y rnd (mload s.mem spa (typeBytes (idType r.src)))).1) ∧
    (∀ j, c.recs[n]? = some r → j ∈ r.written → j ∉ r.done → r.st = .running →
      (r.cobj = 0 → ∃ t, exec (.galleyChunkDone d ch n j) s = .next t ∧ t.mem = s.mem ∧ ((t.chan d ch).recs)[n]? =
        some { r with done := r.done ++ [j], st := if r.done.length + 1 = r.chunks then .finishing 1 else .running }) ∧
      ∀ pa, r.cobj ≠ 0 → r.cobj % 8 = 0 → r.skip = [] → (s.ctx ctx).race = 0 →
        quietAt ctx (r.cobj + 16 + 8 * (j / 64)) pa 8 true → ∃ t, exec (.galleyChunkDone d ch n j) s = .next t ∧
          t.mem = mstore s.mem pa (mload s.mem pa 8 ||| 2 ^ (j % 64)) 8) ∧
    (∀ core2, (s.forme f).sweeping = some q → q.left = core :: core2 :: l →
      let sw := s.sweepWalks q
      sw.sweepWaits q core = false →
      (∀ x ∈ sw.sweepLines q core, (s.core core).pinned x.line = false ∧ (s.entry x.line).st = .i) →
      ∃ t, exec (.sweep f) s = .next t ∧ (t.forme f).sweeping = some { q with left := core2 :: l } ∧
        (q.wb = false → t.mem = sw.mem) ∧ (q.inv = true → ∀ x ∈ sw.sweepLines q core, (t.core core).line x.line = none) ∧
        ∀ x, q.wb = true → q.inv = false → sw.sweepLines q core = [x] → (s.core core).line x.line = some x → x.dirty ≠ 0 →
          t.mem = mstoreMask sw.mem (128 * x.line) x.data.toNat x.dirty.toNat 128 ∧
          (t.core core).line x.line = some { x with dirty := 0 })

/-! ## The page and the Lantern kernel's services (R264 to R288, R369, R370) -/

/-- R273, R276, R284 to R286, R369 to R371, R148, R250: a walk gives the core and its forme the leaf's translation and
sets A in the entry, and a page that is not present ends the walk in the claim; the ring takes the oldest fault request; a
verdict that names no open request is ignored and counted, and one that does wakes the retrying threads or traps them; a
shootdown has every core's point ahead; a thaw clears MG in the leaf and in every TLB; a recall leaves no copy; an
assignment sets a holder; a trap verdict resumes or ends the thread. That a resumption writes a0 and a1 for a system call
alone (log 24), and the core number in a fault record (log 35), are the model's readings. -/
def Obligations.Translation : Prop :=
  ∀ (s : State), s.memOk = true →
    (∀ (f : Nat) (m : Miss), (s.forme f).misses = [m] → (s.forme f).tlb.find? (fun e => e.hits m.asid m.va.toNat) = none →
      s.tlbHit m.core m.asid m.va.toNat = none → (s.ctx m.asid).root % 8 = 0 →
      (∀ lv p ea hs, s.walk m.asid m.va.toNat = .leaf lv p ea hs → pteD p = true → ∃ t e, exec (.tableWalk f) s = .next t ∧
        (t.forme f).misses = [] ∧ t.tlbHit m.core m.asid m.va.toNat = some e ∧ e.level = lv ∧ e.homes = hs ∧
        e.pte.toNat = p ||| 128 ∧ mload t.mem ea 8 = p ||| 128 ∧
        (t.forme f).tlb.find? (fun e => e.hits m.asid m.va.toNat) = some e) ∧
      (∀ lv bad, s.walk m.asid m.va.toNat = .absent lv bad → m.kind ≠ 3 → ∃ t, exec (.tableWalk f) s = .next t ∧
        (t.forme f).misses = [] ∧ t.mem = s.mem ∧
        ∀ x ∈ s.walkers m, ∃ y ∈ (t.core m.core).claims, y.sameOp x.uid x.pc x.word x.ea = true ∧ y.stage = .absent)) ∧
    (∀ (ctx pa : Nat) (m : State) (f : FaultReq) (l : List FaultReq), s.faults = f :: l → f.ctx = ctx → f.written = false →
      let x := s.ctx ctx
      let head := (s.homeRead (x.pa + 108) 4).2
      s.quietAll (x.pa + 104) 8 = true → s.quietAll pa 32 = true → x.pa % 8 = 0 →
      s.reach ctx ((x.fring.toNat + 32 * (x.ftail % 2 ^ x.flg)) % 2 ^ 64) true = some (m, pa) →
      (x.ftail + 2 ^ 32 - head) % 2 ^ 32 < 2 ^ x.flg →
      (pa + 31) / 128 < (x.pa + 104) / 128 ∨ (x.pa + 104) / 128 < pa / 128 →
      ∃ t, exec (.faultRingWrite ctx) s = .next t ∧ mload t.mem pa 8 = f.va.toNat ∧
        mload t.mem (pa + 8) 8 = f.seq % 2 ^ 32 * 2 ^ 32 + f.level % 256 * 256 + (if f.malformed then 128 else 0) + f.kind % 16 ∧
        mload t.mem (pa + 16) 8 = f.core % 2 ^ 64 ∧ mload t.mem (x.pa + 104) 4 = (x.ftail + 1) % 2 ^ 32 ∧
        (t.ctx ctx).ftail = (x.ftail + 1) % 2 ^ 32 ∧ { f with written := true } ∈ t.faults) ∧
    (∀ (d ctx seq : Nat), s.findFault ctx seq = none →
      let ignored (i : Instr) : Prop := ∃ t, exec i s = .next t ∧ t = { s with dies := t.dies } ∧
        (t.die d).counter 0x7004 0 = ((s.die d).counter 0x7004 0 + 1) % 2 ^ 64
      ignored (.fansResolve d ctx seq) ∧ ignored (.fansDecline d ctx seq)) ∧
    (∀ (d ctx seq u : Nat) (f : FaultReq) (va : Word) (n : Nat), s.findFault ctx seq = some f →
      (∀ g ∈ s.faults, g ≠ f → g.ctx = ctx → g.page ≠ f.page) → s.logCores ctx = [] →
      (∀ g ∈ s.groups, ∀ r ∈ g.2.save, r.side = []) → (s.threads.map (·.1)).Nodup →
      (∀ k ∈ s.kernels, k.2.wait ≠ some f.page) → (∀ x ∈ (s.ctx ctx).queues, x.2.wait ≠ some f.page ∧ x.2.due = []) →
      (s.thr u).wake = some { cond := .fault ctx f.page (some va), fired := n } → (s.thr u).wait = .retry →
      (s.thr u).st = .waiting → (s.thr u).saved = false → (s.thr u).ending = false →
      (∃ t, exec (.fansResolve d ctx seq) s = .next t ∧ (t.thr u).st = .ready ∧ (t.thr u).wait = .none ∧
        (t.thr u).pc = (s.thr u).pc) ∧
      (n = 0 → ∃ t, exec (.fansDecline d ctx seq) s = .next t ∧ (t.thr u).st = .trapped ∧ (t.thr u).pc = (s.thr u).pc ∧
        ∃ r, (t.thr u).trap = some r ∧ r.cls = .unresolvable ∧ r.va = va)) ∧
    (∀ (d ctx va len : Nat) (ic : Bool), (s.die d).shoot = none → ∃ t left, exec (.shoot d ctx va len ic) s = .next t ∧
      t = { s with dies := t.dies } ∧ (∀ e, e ≠ d → t.die e = s.die e) ∧
      (∀ c, c ∈ left ↔ c ∈ s.cores.map (·.1) ∨
        ∃ x ∈ s.formes, x.1 = coreForme c ∧ ∃ e ∈ x.2.tlb, e.overlaps ctx va len = true) ∧
      (t.die d).shoot = if left = [] then none else some { ctx := ctx, va := va, len := len, icache := ic, left := left }) ∧
    (∀ (ctx va lv p ea : Nat) (hs : List Nat), s.walk ctx va = .leaf lv p ea hs → pteMG p = true →
      (∀ q ∈ s.quoins, q.2.stale = false ∧ q.2.owed = false) → ∃ t, exec (.pageThaw ctx va) s = .next t ∧
        mload t.mem ea 8 = p - 512 ∧ t.mem = mstore s.mem ea (p - 512) 8 ∧
        (∀ c, ∀ e ∈ (t.core c).tlb, e.hits ctx va = true → pteMG e.pte.toNat = false) ∧
        (∀ c, ∀ e ∈ (t.forme c).tlb, e.hits ctx va = true → pteMG e.pte.toNat = false) ∧
        ∀ u page n, page * 65536 / 2 ^ levelBits lv = va % 2 ^ 55 / 2 ^ levelBits lv →
          (s.thr u).wake = some { cond := .thaw ctx page, fired := n } → (s.thr u).wait = .retry →
          (s.thr u).st = .waiting → (s.thr u).saved = false → (t.thr u).st = .ready) ∧
    (∀ (pa len : Nat), len ≠ 0 → s.quietAll pa len = true → ∃ t, exec (.homePageRecall pa len) s = .next t ∧
      (∀ line ∈ linesOf pa len, (t.entry line).st = .i ∧ (t.entry line).holders = [] ∧
        ∀ c, c ∈ (s.entry line).cores ∨ (∃ x, (s.core c).line line = some x ∧ x.st = .raw) → (t.core c).line line = none) ∧
      (∀ line c x, linesOf pa len = [line] → (s.entry line).cores = [c] → (s.core c).line line = some x → x.st = .m →
        s.rawCopies line = [] → t.mem = mstore s.mem (128 * line) x.data.toNat 128) ∧
      ∀ line a b x y, linesOf pa len = [line] → s.rawCopies line = [(a, x), (b, y)] → x.dirty &&& y.dirty ≠ 0 →
        let d := 128 * line / 0x2000000000 % 4
        (t.die d).eventLog = (s.die d).eventLog ++ [(0x2005, 128 * line)]) ∧
    (∀ (d ctx idx : Nat), idx < 64 →
      let holder : Option Nat := if ctx = 0xFFFF then none else some ctx
      (∃ t, exec (.assnDieBarrier d ctx idx) s = .next t ∧ t = { s with dies := t.dies } ∧
        t.bar 2 d idx = { phase := 0, expected := 0, arrived := 0, step := 0, holder := holder, rel := [], epoch := 0 } ∧
        ∀ e i, e ≠ d ∨ i ≠ idx → t.bar 2 e i = s.bar 2 e i) ∧
      ((s.ctx ctx).chans = [] → ∃ t, exec (.assnGalleyChannel d ctx idx) s = .next t ∧
        t = { s with dies := t.dies, ctxs := t.ctxs } ∧ (∀ c, t.ctx c = s.ctx c) ∧
        t.chan d idx = { s.chan d idx with holder := holder } ∧ ∀ e i, e ≠ d ∨ i ≠ idx → t.chan e i = s.chan e i) ∧
      ∀ k, (s.ctx ctx).chans = [(d * 64 + idx, k)] → s.ctxRuns ctx = true → ctx ≠ 0xFFFF → (s.chan d idx).chain = none →
        ∃ t, exec (.assnGalleyChannel d ctx idx) s = .next t ∧ (t.ctx ctx).chans = [] ∧
          t.chan d idx = { s.chan d idx with
            holder := some ctx, kicks := k.kicks ++ (s.chan d idx).kicks, chain := k.chain, serial := k.serial,
            next := k.next, waitFault := k.waitFault }) ∧
    (∀ (d ctx seq u : Nat) (r : TrapRec) (pc a0 a1 : Word), s.trappedBy ctx seq = some (u, r) →
      (r.pressStop = false → ∃ t, exec (.tresResume d ctx seq pc a0 a1) s = .next t ∧
        t = { s with threads := t.threads, wakeSeq := t.wakeSeq, dies := t.dies } ∧ (∀ v, v ≠ u → t.thr v = s.thr v) ∧
        (∀ e, t.die e = { s.die e with tresPc := if e = d then pc else (s.die e).tresPc }) ∧
        (t.thr u).pc = pc ∧ (t.thr u).trap = none ∧ (t.thr u).slot = (s.thr u).slot ∧
        ((s.thr u).slot ≠ none → (t.thr u).st = .ready) ∧
        ((s.thr u).slot = none → (t.thr u).st = .parked ∧ (t.thr u).runnable = true) ∧
        ∀ q : BitVec 4, (t.thr u).reg q = if r.cls = .ecall ∧ q = 10 then a0 else if r.cls = .ecall ∧ q = 11 then a1
          else (s.thr u).reg q) ∧
      ∃ t, exec (.tresEnd d ctx seq) s = .next t ∧ (t.thr u).trap = none ∧
        ((t.thr u).st = .exited ∧ (t.thr u).slot = none ∨ (t.thr u).st = .trapped ∧ (t.thr u).ending = true) ∧
        (s.placesOf u = [] → (t.thr u).st = .exited))

/-! ## Queues, kernels, groups and contexts (R336 to R368) -/

/-- R346, R353: `ksub` of a record of 128 bytes that the thread can read puts it at the write index of an open queue,
moves the index on, as a release at `pkg` scope, and gives rd the kernel's id; a full ring is FULL; a queue number
above 63 gives DENIED, and so does a queue that is disabled, STOPPED or malformed; an address that is no multiple of 128
traps ACCESS. R336, R340, R343: the state table of a queue. A doorbell, an enable and a dependence that is met judge the head
of a queue: EMPTY where nothing is held, READY where the head's dependence is met. A descriptor that is malformed stops its
queue and counts one event, and too many records held stop it. Disabling gives DISABLED; a cancel index reaches the records
in the ring before it, the head among them, which is passed with code 2. Every state is written to the descriptor. -/
def Obligations.QueueEvents : Prop :=
  (∀ (s : State) (rd rs1 rs2 : BitVec 4) (nb : BitVec 1) (e : TlbEntry) (x : L1Line) (d0 d : QDesc)
    (pa pte en home dpa dpte den dhome : Nat), s.me.issues → s.memOk = true →
    let r := s.me.reg rs1
    let q := (s.me.reg rs2).toNat
    let ctx := s.myCtx
    let i : Instr := .ksub rd rs1 rs2 nb
    let p := leafPa e.level e.pte.toNat r.toNat
    let s1 := ((s.releaseStep 3).1.touch (.line (p / 128) (p % 128))).endOp r
    let paged : Prop := r.toNat % 128 = 0 ∧ inPaged r.toNat = true
    let seen : Prop := s.look ctx (s.descVa ctx q) true false = .hit dpa dpte den dhome ∧
      s.look ctx (s.descVa ctx q) false false = .hit dpa dpte den dhome ∧ s.markWalk ctx (s.descVa ctx q) = s ∧
      s.descAt ctx q false = some d0
    let read : Prop := s.HoldsLine r 128 false e x ∧ s.unclaimed r ∧ servesNeed .share x.st = true ∧ s.clean ∧
      s.established s.cur 3 = true ∧ seen ∧ d0.en = true ∧ d0.word 6 % 8 ≠ 4 ∧ s.descOk ctx d0 = true ∧
      d0.held ≤ 2 ^ d0.lg ∧ s1.qdesc ctx q = some d
    (r.toNat % 128 ≠ 0 ∨ inPaged r.toNat = false → s.traps i .access r 0) ∧
    (paged → 63 < q → s.ends i nb .denied) ∧
    (paged → q < 64 → seen →
      d0.en = false ∨ d0.word 6 % 8 = 4 ∨ s.descOk ctx d0 = false ∨ 2 ^ d0.lg < d0.held → s.ends i nb .denied) ∧
    (read → 2 ^ d.lg ≤ d.held → ∃ t, exec i s = .next t ∧
      Thread.stoppedAt { s.me with trail := [] } t.me nb .full (.ring ctx q)) ∧
    (read → d.held < 2 ^ d.lg → s1.look ctx (d.recVa d.widx) true false = .hit pa pte en home →
      ∃ t, exec i s = .next t ∧ mload t.mem (d.pa + 8) 8 = (d.widx + 1) % 2 ^ 32 ∧
        (pa % 128 = 0 → d.pa % 8 = 0 → pa / 128 ≠ (d.pa + 8) / 128 → mload t.mem pa 128 = x.data.toNat) ∧
        (∀ j, t.me.reg j = if j = rd ∧ j ≠ 0 then BitVec.ofNat 64 (kernelId d.die q d.widx) else s.me.reg j) ∧
        t.me = { s.me.completed nb .rdy with regs := t.me.regs, wake := t.me.wake, trail := [],
                                             interval := (s.me.interval + 1) % 2 ^ 20 })) ∧
  (∀ (s : State) (ctx q c pa pte en home : Nat) (d : QDesc), s.hasQueues ctx = true → s.qdesc ctx q = some d → s.memOk = true →
    let x := s.qs ctx q
    let m := s.markDesc ctx q
    let held : Prop := s.descOk ctx d = true ∧ d.held ≠ 0 ∧ d.held ≤ 2 ^ d.lg
    let fresh : Prop := held ∧ x.skipped = [] ∧ x.cidx = none ∧ x.due = []
    let w (i : Nat) : Nat := mload m.mem (pa + 8 * i) 8
    let read : Prop := m.look ctx (d.recVa d.ridx) false false = .hit pa pte en home ∧ pteA pte = true ∧ pa % 128 = 0 ∧
      (m.entry (pa / 128)).st = .i
    let bad : Prop := s.descOk ctx d = false ∧ d.en = true
    let is (t : State) (st : QState) : Prop := (t.qs ctx q).st = st ∧ mload t.mem (d.pa + 48) 8 = st.code
    let goes (i : Instr) (st : QState) : Prop := ∃ t, exec i s = .next t ∧ is t st
    let ready (i : Instr) : Prop := ∃ t, exec i s = .next t ∧ is t .ready ∧
      ((s.ctx ctx).st ≠ .saved → (s.ctx ctx).st ≠ .migrating → (t.qs ctx q).since = s.gtick)
    let stays (i : Instr) : Prop := exec i s = .next m
    let door : Instr := .queueDoorbell ctx q
    let cancel : Instr := .queueCancel ctx q c
    let dep (k : Nat) : Prop := w 5 / 2 ^ 62 = k
    let target := w 5 % 2 ^ 16
    let passes (i : Instr) (code : Nat) : Prop := d.pa % 64 = 0 → ∀ spa spte sen shome, spa % 16 = 0 → spa / 128 ≠ d.pa / 128 →
      m.look ctx (d.statVa d.ridx) true false = .hit spa spte sen shome → pteA spte = true → pteD spte = true →
      ∃ t, exec i s = .next t ∧ is t .empty ∧ mload t.mem spa 8 = 0 ∧ mload t.mem (spa + 8) 8 = code ∧
        mload t.mem (d.pa + 16) 8 = (d.ridx + 1) % 2 ^ 32
    let stopped (n : Nat) : Prop := ∃ t, exec door s = .next t ∧ is t .stopped ∧
      (t.die d.die).counter 0x7003 0 = ((s.die d.die).counter 0x7003 0 + n) % 2 ^ 64
    (x.st = .disabled ∨ x.st = .stopped → stays door) ∧
    (x.st = .empty → fresh → read → dep 0 → ready door) ∧
    (x.st = .empty → s.descOk ctx d = true → d.held = 0 → goes door .empty) ∧
    (x.st = .empty → fresh → read → d.held = 1 → s.schedules ctx = true →
      dep 3 ∨ dep 1 ∧ w 6 = 0 ∨ dep 2 ∧ (s.bar 2 d.die (w 5 / 2 ^ 16 % 64)).holder ≠ some ctx → passes door 3) ∧
    (x.st ≠ .disabled → x.st ≠ .stopped → bad → stopped 1) ∧
    (x.st = .dependent ∨ x.st = .ready → s.descOk ctx d = false → d.en = false → stays door) ∧
    (x.st ≠ .disabled → x.st ≠ .stopped → s.descOk ctx d = true → 2 ^ d.lg < d.held → goes door .stopped) ∧
    (x.st = .dependent ∨ x.st = .ready → s.descOk ctx d = true → d.held ≤ 2 ^ d.lg → s.headOpen ctx q d = false → stays door) ∧
    (d.en = true → x.st ≠ .disabled → stays (.queueEnable ctx q)) ∧
    (d.en = true → x.st = .disabled → fresh → read → dep 0 → ready (.queueEnable ctx q)) ∧
    (d.en = true → x.st = .disabled → s.descOk ctx d = true → d.held = 0 → x.cidx = none → goes (.queueEnable ctx q) .empty) ∧
    (d.en = false → goes (.queueDisable ctx q) .disabled) ∧
    (d.cidx = c →
      (x.st = .empty ∨ x.st = .stopped → stays cancel) ∧
      (x.st = .disabled → ∃ t, exec cancel s = .next t ∧ t.qs ctx q = { x with cidx := some c } ∧ t.mem = m.mem) ∧
      (x.st = .dependent ∨ x.st = .ready → d.ridx ∉ d.cut c → ∃ t, exec cancel s = .next t ∧ t.mem = m.mem ∧
        (t.qs ctx q).st = x.st ∧ (∀ i, (i, 2) ∈ (t.qs ctx q).skipped ↔
          (i, 2) ∈ x.skipped ∨ i ∈ d.cut c ∧ ∀ y ∈ x.skipped, y.1 ≠ i) ∧
        ∀ i ∈ d.cut c, (∀ y ∈ x.skipped, y.1 ≠ i) → (t.ker (kernelKey ctx (kernelId d.die q i))).st = .cancelled) ∧
      (x.st = .dependent ∨ x.st = .ready → fresh → d.held = 1 → d.ridx ∈ d.cut c → passes cancel 2)) ∧
    (x.st = .dependent → s.schedules ctx = true → fresh → read →
      (dep 0 → ready (.dependenceMet ctx q)) ∧
      (dep 1 → ∀ spa sw, m.lookSem ctx (w 6) false = .word spa sw → semExpected sw ≠ 0 →
        (semPhase sw + 2 ^ 16 - target) % 2 ^ 16 < 2 ^ 15 → ready (.dependenceMet ctx q)) ∧
      (dep 2 → (s.bar 2 d.die (w 5 / 2 ^ 16 % 64)).holder = some ctx → (s.bar 2 d.die (w 5 / 2 ^ 16 % 64)).expected ≠ 0 →
        ((s.bar 2 d.die (w 5 / 2 ^ 16 % 64)).phase + 2 ^ 16 - target) % 2 ^ 16 < 2 ^ 15 → ready (.dependenceMet ctx q))))

/-- R337, R341, R342, R346 to R352, R355, R359, R360, R366: a die admits the head that its order chooses, or skips it with
its code, and writes the status entry before it moves ridx; a group takes its place and its threads start at the entry PC;
the drain of a kernel is followed by one arrival; a cancelled or faulted kernel has no live thread; a group is saved and
restored with its threads; a slice passes to the next tenant. -/
def Obligations.Kernels : Prop :=
  ∀ (s : State), s.memOk = true →
    (∀ (die ctx pa pte en home : Nat) (m : State) (l : List Cand) (x : Cand), s.ctxRuns ctx = true → s.dieServes die = true →
      s.anyOpen ctx = false → s.lookHeads die ctx = some (m, l) → leastBy (m.rankCand ctx) l = some x → m.memOk = true →
      (m.markDesc ctx x.q).look ctx (x.d.statVa x.d.ridx) true false = .hit pa pte en home →
      pteA pte = true → pteD pte = true → pa % 16 = 0 → x.d.pa % 64 = 0 → pa / 128 ≠ x.d.pa / 128 → x.d.held = 1 →
      (m.qs ctx x.q).skipped = [] → m.descOk ctx x.d = true →
      let passed (t : State) (kid code : Nat) : Prop := mload t.mem pa 8 = kid % 2 ^ 64 ∧ mload t.mem (pa + 8) 8 = code % 2 ^ 64 ∧
        mload t.mem (x.d.pa + 16) 8 = (x.d.ridx + 1) % 2 ^ 32 ∧ mload t.mem (x.d.pa + 48) 8 = 1 ∧ (t.qs ctx x.q).st = .empty
      (∀ code, x.v = .skip code → ∃ t, exec (.kernelAdmit die ctx) s = .next t ∧ passed t 0 code ∧ t.kernels = m.kernels) ∧
      ∀ place, x.v = .take place → recWord x.r 3 = 0 → recWord x.r 11 = 0 → ∃ t, exec (.kernelAdmit die ctx) s = .next t ∧
        let kid := kernelId x.d.die x.q x.d.ridx
        let k := t.ker (kernelKey ctx kid)
        passed t kid 1 ∧ k.st = .admitted ∧ k.words = x.r ∧ k.ctx = ctx ∧ k.room = some place ∧ k.placed = 0 ∧
          k.admitTick = s.gtick) ∧
    (∀ (kid p : Nat), (s.ker kid).st = .admitted ∨ (s.ker kid).st = .placing → s.ctxRuns (s.ker kid).ctx = true →
      (s.ker kid).wait = none → (s.ker kid).loaded = true → (s.ker kid).placed < recGroups (s.ker kid).words →
      (∀ o ∈ s.kernels, o.1 ≠ kid → o.2.die = (s.ker kid).die → o.2.awaits = false) → s.nextPlace kid = some p →
      let k := s.ker kid
      ∃ t, exec (.groupPlace kid) s = .next t ∧ (t.ker kid).placed = k.placed + 1 ∧ (t.ker kid).room = none ∧
        (t.ker kid).st = (if k.placed + 1 = recGroups k.words then .running else .placing) ∧
        (t.grp s.nextGid).st = .running ∧ (t.grp s.nextGid).index = k.placed ∧ (t.grp s.nextGid).kid = kid ∧
        t.nextGid = s.nextGid + 1 ∧ t.mem = (s.markHints k.ctx k.words).mem ∧
        ∀ i, i < recTpg k.words → (t.thr (s.nextUid + i)).st = .ready ∧ (t.thr (s.nextUid + i)).pc.toNat = recWord k.words 0 ∧
          (t.thr (s.nextUid + i)).index = i ∧ (t.thr (s.nextUid + i)).gid = s.nextGid ∧
          (t.thr (s.nextUid + i)).slot = some (if recSpan k.words then i / 8 else i) ∧
          ((t.thr (s.nextUid + i)).reg 2).toNat = if recWord k.words 9 = 0 then 0 else
            (recWord k.words 9 + (k.placed * recTpg k.words + i + 1) * recWord k.words 10) % 2 ^ 64) ∧
    (∀ (kid pa w : Nat), (s.ker kid).st = .draining → (s.ker kid).wait = none → s.galleysOpen kid = false →
      s.sweepsOpen kid = false → s.writesOpen kid = false →
      let va := recCsem (s.ker kid).words
      (va = 0 → ∃ t, exec (.kernelDrainComplete kid) s = .next t ∧ (t.ker kid).st = .done ∧ t.mem = s.mem) ∧
      (va ≠ 0 → s.lookSem (s.ker kid).ctx va true = .word pa w → semExpected w ≠ 0 → s.binding pa w = .none → pa % 8 = 0 →
        ∃ t, exec (.kernelDrainComplete kid) s = .next t ∧ (t.ker kid).st = .done ∧
          semExpected (mload t.mem pa 8) = semExpected w ∧
          (semArrived w + 1 = semExpected w → semArrived (mload t.mem pa 8) = 0 ∧
            semPhase (mload t.mem pa 8) = (semPhase w + 1) % 2 ^ 16) ∧
          (semArrived w + 1 ≠ semExpected w → semArrived (mload t.mem pa 8) = (semArrived w + 1) % 2 ^ 16 ∧
            semPhase (mload t.mem pa 8) = semPhase w))) ∧
    (∀ (kid : Nat), s.kernelPressBusy kid = false →
      let st := (s.ker kid).st
      let killed (i : Instr) (r : KState) : Prop := ∃ t, exec i s = .next t ∧ (t.ker kid).st = r ∧
        ∀ g ∈ s.groupsOf kid, (t.grp g).st = .ended ∧ ∀ u ∈ s.liveOf g, (t.thr u).st = .exited ∨ (t.thr u).ending = true
      (st = .admitted ∨ st = .placing ∨ st = .running → killed (.kernelCancel kid) .cancelled) ∧
      (st = .draining → exec (.kernelCancel kid) s = .next s) ∧
      (st = .placing ∨ st = .running ∨ st = .draining → recCsem (s.ker kid).words = 0 →
        killed (.kernelFaultMark kid) .faulted)) ∧
    (∀ (gid place : Nat),
      let g := s.grp gid
      (g.st = .running ∨ g.st = .ending → s.canSave gid = true → ∃ t, exec (.groupSave gid) s = .next t ∧
        (t.grp gid).st = .saved ∧ (t.grp gid).save.length = g.cores.length ∧
        ∀ u ∈ s.liveOf gid, (t.thr u).saved = true ∧ (t.thr u).regs = (s.thr u).regs ∧ (t.thr u).vregs = (s.thr u).vregs) ∧
      (g.st = .saved → s.ctxRuns g.ctx = true → s.placeFree g.ctx g.die g.ask none place = true → g.forme = false →
        s.roomFor gid [place] = true → s.noneEnding → (s.core place).side = [] → (∀ r ∈ g.save, r.side = []) →
        ∃ t, exec (.groupRestore gid place) s = .next t ∧
          (t.grp gid).st = (if s.anyLive gid then .running else .ending) ∧ (t.grp gid).cores = [place] ∧
          ∀ u ∈ s.liveOf gid, (t.thr u).saved = false ∧ (t.thr u).regs = (s.thr u).regs ∧
            (g.cores = [(s.thr u).core] → (t.thr u).core = place)) ∧
      (g.st = .ending → s.queuesOver g = true → ∃ t, exec (.groupQueueDiscard gid) s = .next t ∧ (t.grp gid).st = .ended ∧
        (t.ker g.kid).ended = (s.ker g.kid).ended + 1)) ∧
    (∀ (part n : Nat), (s.ctxs.map (·.1)).Nodup →
      let p := s.part part
      ((List.range (max 1 p.tenants - 1)).map (fun i => (p.current + 1 + i) % max 1 p.tenants)).find?
        (fun t => s.tenantRuns part t) = some n →
      p.unbegun = false ∧ (p.slices[p.current]?).getD 0 ≤ s.gtick - p.sliceFrom ∨ s.tenantRuns part p.current = false →
      ∃ t, exec (.tenantSliceEnd part) s = .next t ∧ (t.part part).current = n ∧ (t.part part).sliceFrom = s.gtick ∧
        (∀ c ∈ s.tenantCtxs part p.current (fun x => decide (x = .running)), (t.ctx c).st = .preempting) ∧
        ∀ c ∈ s.tenantCtxs part n (fun x => decide (x = .runnable ∨ x = .saved)), (t.ctx c).st = .running)

/-- R362, R363, R367, R368: publication reads the record and makes its context RUNNABLE, and a record that breaks a rule
leaves it as it is; the fault mark, the teardown and the migration move a context as the table of R363 says; an image
is restored under its target's number, or returns the context to SAVED; a bucket gains its rate up to its depth.
The buckets' start values (log 18), the walk of a torn-down context and the refusals of a restore (log 34), and the time in
migration (log 54) are the model's readings and choices. -/
def Obligations.Contexts : Prop :=
  ∀ (s : State), s.memOk = true →
    (∀ (pa : Nat), pa % 128 = 0 → s.quietAll pa 128 = true → (s.entry (pa / 128)).st = .i →
      let w (i : Nat) : Nat := mload s.mem (pa + 8 * i) 8
      let c := w 1 / 2 ^ 52
      (s.ctx c).st = .building →
      (ctxRecordOk w = false → exec (.contextPublish pa) s = .next s) ∧
      (ctxRecordOk w = true → ∃ t, exec (.contextPublish pa) s = .next t ∧ t = { s with ctxs := t.ctxs } ∧
        (∀ k, k ≠ c → t.ctx k = s.ctx k) ∧ (t.ctx c).st = .runnable ∧ (t.ctx c).pa = pa ∧ (t.ctx c).root = w 0 ∧
        (t.ctx c).weight = w 1 / 2 ^ 44 % 256 ∧ (t.ctx c).part = w 1 / 2 ^ 39 % 32 ∧ (t.ctx c).tenant = w 1 / 2 ^ 36 % 8 ∧
        (t.ctx c).race = w 1 / 2 ^ 34 % 4 ∧ (t.ctx c).qtab.toNat = w 2 ∧ (t.ctx c).pcap = w 4 / 2 ^ 32 ∧
        (t.ctx c).tring.toNat = w 5 ∧ (t.ctx c).fring.toNat = w 6 ∧ (t.ctx c).flg = w 11 / 2 ^ 12 % 16 ∧
        (t.ctx c).tlg = w 11 / 2 ^ 8 % 16)) ∧
    (∀ (c : Nat),
      let x := s.ctx c
      let only (i : Instr) (y : Ctx) : Prop := ∃ t, exec i s = .next t ∧ t = { s with ctxs := t.ctxs } ∧ t.ctx c = y ∧
        ∀ k, k ≠ c → t.ctx k = s.ctx k
      let stops (i : Instr) (r : CtxSt) : Prop := ∃ t, exec i s = .next t ∧ t = { s with ctxs := t.ctxs, dies := t.dies } ∧
        t.ctx c = { x with st := .preempting, after := r } ∧ ∀ k, k ≠ c → t.ctx k = s.ctx k
      (x.st = .runnable ∨ x.st = .saved → only (.contextFaultMark c) { x with st := .faulted } ∧
        only (.contextMigrate c) { x with
          st := .migrating, savedAt := if x.st = .runnable then s.gtick else x.savedAt }) ∧
      (x.st = .running → stops (.contextFaultMark c) .faulted ∧ stops (.contextTeardown c) .tornDown) ∧
      (x.st = .preempting → only (.contextFaultMark c) { x with after := .faulted } ∧
        only (.contextTeardown c) { x with after := .tornDown }) ∧
      (x.st = .building ∨ x.st = .runnable ∨ x.st = .saved ∨ x.st = .faulted → ∃ t, exec (.contextTeardown c) s = .next t ∧
        (t.ctx c).st = .tornDown ∧ (∀ q, q < 64 → (t.qs c q).st = .disabled) ∧
        (∀ d i, (t.bar 2 d i).holder ≠ some c ∧ (t.chan d i).holder ≠ some c) ∧
        (∀ k, ∀ e ∈ (t.core k).tlb, e.asid ≠ c) ∧
        ((∀ y ∈ s.ctxs, y.1 ≠ c → y.2.root ≠ x.root) → ∀ va, t.walk c va = .absent 0 false) ∧
        ∀ k v, (k, v) ∈ s.kernels → s.ker k = v → v.ctx = c → v.st.over = false → (t.ker k).st = .cancelled)) ∧
    (∀ (src dst pa version : Nat), (s.ctx src).st = .migrating → pa % 128 = 0 → s.quietAll pa 128 = true →
      let image : Instr := .imageRestore src (dst, pa) version
      let saved : Prop := ∃ t, exec image s = .next t ∧ t = { s with ctxs := t.ctxs } ∧
        t.ctx src = { s.ctx src with st := .saved }
      (version ≠ 1 → saved) ∧ (s.mixedQuoin src = true → saved) ∧ ((s.ctx dst).st = .running → saved) ∧
      (s.recordFor pa dst = false → saved) ∧
      (version = 1 → s.mixedQuoin src = false → (s.ctx dst).st = .free ∨ (s.ctx dst).st = .building → src ≠ dst →
        s.recordFor pa dst = true → ∃ t, exec image s = .next t ∧ (t.ctx dst).st = .runnable ∧
          (t.ctx dst).root = s.recordWord pa 0 ∧ (t.ctx dst).part = s.recordWord pa 1 / 2 ^ 39 % 32 ∧
          (t.ctx src).st = .tornDown ∧
          ∀ g ∈ s.groups, s.grp g.1 = g.2 → g.2.ctx = src → (t.grp g.1).ctx = dst)) ∧
    ∀ (core : Nat), ((s.core core).refills + 1) * 1024 ≤ s.now (coreDie core) →
      ∃ t, exec (.bucketRefill core) s = .next t ∧ t = { s with buckets := t.buckets, cores := t.cores } ∧
        t.core core = { s.core core with refills := (s.core core).refills + 1 } ∧
        ∀ i, i < 17 →
          let b := tget Bucket.fresh s.buckets (17 * core + i)
          tget Bucket.fresh t.buckets (17 * core + i) =
            if i = 16 ∨ ∃ y ∈ s.buckets, y.1 = 17 * core + i then { b with tokens := min b.depth (b.tokens + b.rate) } else b

/-! ## Links, ports and observation (R372 to R390) -/

/-- R373 to R376: a flit sealed with its CRC is read as it was sent. A direction of a device link accepts the data flit it
expects and answers any other, one that fails its CRC and one of a reserved kind with at most one NACK; an idle flit changes
nothing; an ACK ends the flits up to its own, a NACK those before its own, and the back-off or the time-out resends the
window in order, where no flit has been resent 32 times, which retrains the link. The events of a link move it as the table
of R375 says; a dash leaves it. What a die pair's direction has not delivered when its link is DOWN goes first on the path
through the I/O die. -/
def Obligations.Links : Prop :=
  (∀ (p : BitVec 448) (q : BitVec 12) (v : BitVec 4) (n : Option Nat),
    (dataFlit p q n).received 0 = some (dataFlit p q n) ∧ (controlFlit v q).received 0 = some (controlFlit v q)) ∧
  ∀ (s : State) (l lanes lane : Nat) (flip : BitVec 512) (room : Bool) (f y : Flit) (x : Sent) (rest : List Flit)
      (a b : List Sent), l < linkCount →
    let k := s.link l
    let only (i : Instr) (y : Link) : Prop := ∃ t, exec i s = .next t ∧ t = { s with links := t.links } ∧ t.link l = y ∧
      ∀ j, j ≠ l → t.link j = s.link j
    let stays (i : Instr) : Prop := exec i s = .next s
    let both (i : Instr) (st : LinkSt) : Prop := ∃ t, exec i s = .next t ∧ ∀ j, j / 2 = l / 2 → (t.link j).st = st
    let carries : Prop := k.st = .up ∨ k.st = .degraded ∨ k.st = .sparing ∨ k.st = .draining
    let data : Instr := .linkDataFlit l flip room
    let discards (n : Nat) : Prop :=
      (k.nackSent = false → only data { k with
        wire := rest, crcErrors := k.crcErrors + n, nackSent := true,
        back := k.back ++ [controlFlit 2 k.expect], nacks := k.nacks + 1 }) ∧
      (k.nackSent = true → only data { k with wire := rest, crcErrors := k.crcErrors + n })
    let first (q : BitVec 12) : Prop := k.window = a ++ x :: b ∧ x.flit.seq = q ∧ ∀ z ∈ a, z.flit.seq ≠ q
    let replay (i : Instr) (kept again : List Sent) : Prop :=
      ((∀ z ∈ again, z.again < 32) → only i { k with
        wire := k.wire ++ again.map Sent.flit, waiting := none, resent := k.resent + again.length, lastAck := s.gtick,
        window := kept ++ again.map (fun z => { z with again := z.again + 1 }) }) ∧
      ((∃ z ∈ again, 32 ≤ z.again) → (k.st ≠ .draining → both i .retraining) ∧ (k.st = .draining → both i .down))
    let path := 12 + 2 * (linkEnds l).1
    (k.wire = f :: rest → carries →
      (f.received flip = some y → y.kind = 0 → room = true → y.seq = k.expect → y.next = none → only data { k with
        wire := rest, expect := k.expect + 1, nackSent := false, ackDue := some (k.ackDue.getD s.gtick),
        delivered := k.delivered ++ [y.payload] }) ∧
      (f.received flip = some y → y.kind = 0 → room = false ∨ y.seq ≠ k.expect → discards 0) ∧
      (f.received flip = some y → 4 ≤ y.kind.toNat → discards 0) ∧ (f.received flip = none → discards 1) ∧
      (f.received flip = some y → y.kind = 3 → only data { k with wire := rest })) ∧
    (k.back = f :: rest → carries → f.kind = 1 →
      (f.received flip = some y → y.kind = 1 → k.source = [] → first (y.ref + 1) → only (.linkAck (l, flip)) { k with
        back := rest, window := x :: b, lastAck := s.gtick }) ∧
      (f.received flip = some y → y.kind = 1 → k.source = [] → (∀ z ∈ k.window, z.flit.seq ≠ y.ref + 1) →
        k.nextSeq = y.ref + 1 → only (.linkAck (l, flip)) { k with back := rest, window := [], lastAck := s.gtick }) ∧
      (f.received flip = none → ∃ t, exec (.linkAck (l, flip)) s = .next t ∧ t.link l = { k with back := rest } ∧
        (t.link (otherWay l)).crcErrors = (s.link (otherWay l)).crcErrors + 1 ∧ (t.link (otherWay l)).nackSent = true)) ∧
    (k.back = f :: rest → carries → f.kind = 2 → f.received flip = some y → y.kind = 2 → first y.ref →
      only (.linkNack (l, flip)) { k with
        back := rest, window := x :: b, lastAck := s.gtick, waiting := some (s.gtick + k.backoff, y.ref) }) ∧
    (∀ n q, carries → k.source = [] → first q → k.waiting = some (n, q) → n ≤ s.gtick →
      replay (.linkBackoffExpiry l) a (x :: b)) ∧
    (carries → k.source = [] → k.window ≠ [] → k.waiting = none → k.lastAck + 4096 ≤ s.gtick →
      replay (.linkReplayTimeout l) [] k.window) ∧
    (l < 12 → k.st = .draining → (s.link path).st.carries = false → ∃ t, exec (.laneLost l) s = .next t ∧
      (t.link path).source =
        k.undelivered.map (fun z => (z.1, some (13 + 2 * (linkEnds l).2))) ++ (s.link path).source) ∧
    (k.st = .down → both (.linkEnable l) .training) ∧ (k.st ≠ .down → stays (.linkEnable l)) ∧
    (k.st = .training ∨ k.st = .retraining →
      (dataLanes l ≤ lanes → lanes ≤ dataLanes l + spareLanes l → both (.linkTrainingDone l lanes) .up ∧
        ∃ t, exec (.linkTrainingDone l lanes) s = .next t ∧ (t.link l).spares = lanes - dataLanes l) ∧
      (lanes < dataLanes l → dataLanes l ≤ 2 * lanes → both (.linkTrainingDone l lanes) .degraded) ∧
      (2 * lanes < dataLanes l → 2 ≤ k.tries → both (.linkTrainingDone l lanes) .down) ∧
      (2 * lanes < dataLanes l → k.tries < 2 → ∃ t, exec (.linkTrainingDone l lanes) s = .next t ∧
        t.link l = { k with tries := k.tries + 1 })) ∧
    (k.st ≠ .training → k.st ≠ .retraining → stays (.linkTrainingDone l lanes)) ∧
    (k.threshold < tget 0 k.laneErrs lane →
      (k.st = .up ∨ k.st = .degraded → k.spares ≠ 0 → both (.laneMarginal l lane) .sparing) ∧
      (k.st ≠ .up → k.st ≠ .degraded → stays (.laneMarginal l lane)) ∧ (k.spares = 0 → stays (.laneMarginal l lane))) ∧
    (k.st = .up ∨ k.st = .degraded ∨ k.st = .sparing → both (.laneLost l) .retraining) ∧
    (k.st = .draining → both (.laneLost l) .down) ∧
    (k.st = .down ∨ k.st = .training ∨ k.st = .retraining → stays (.laneLost l)) ∧
    (k.st = .up ∨ k.st = .degraded → both (.linkDrainRequest l) .draining) ∧
    (k.st = .training ∨ k.st = .retraining → both (.linkDrainRequest l) .down) ∧
    (k.st = .sparing → ∃ t, exec (.linkDrainRequest l) s = .next t ∧ t.link l = { k with drainAfter := true }) ∧
    (k.st = .down ∨ k.st = .draining → stays (.linkDrainRequest l)) ∧
    (k.st = .draining → (∀ j, j / 2 = l / 2 → (s.link j).window = []) → both (.linkWindowDrained l) .down) ∧
    (k.st ≠ .draining → stays (.linkWindowDrained l)) ∧
    (k.st = .sparing → ∃ t, exec (.spareSwapComplete l) s = .next t ∧ t.link l = { k with
      st := if k.drainAfter then .draining else if k.lanes = dataLanes l then .up else .degraded,
      spares := if k.swapping then k.spares - 1 else k.spares, swapping := false, drainAfter := false }) ∧
    (k.st ≠ .sparing → stays (.spareSwapComplete l))

/-- R379 to R381: a port reads widx at the doorbell of a ring of version 1 and stops at one of another version; a network
record of one word copies it into a window of this package, or hands it to the link of another; a storage record is put to
its device once; a record ends with its status, and then ridx moves on. -/
def Obligations.Ports : Prop :=
  ∀ (s : State) (r pa : Nat) (d : QDesc), s.memOk = true → (∀ h, (s.core h).port = []) → d.pa % 64 = 0 →
    pa / 128 ≠ d.pa / 128 → d.word 4 = 0 →
    let x := s.ringOf r
    let ends (t : State) : Prop := t.markRing r = t ∧ t.reach x.ctx (d.portVa + 56) true = some (t, pa)
    let ended (t : State) (n v : Nat) : Prop := mload t.mem pa n = v ∧ mload t.mem (d.pa + 16) 8 = (d.ridx + 1) % 2 ^ 32 ∧
      (t.ringOf r).ridx = (d.ridx + 1) % 2 ^ 32 ∧ (t.ringOf r).inFlight = none
    let door (y : PortRing) : Prop := ∃ t, exec (.portRingDoorbell r) s = .next t ∧ t = { s with rings := t.rings } ∧
      t.ringOf r = y ∧ ∀ q, q ≠ r → t.ringOf q = s.ringOf q
    let plainAt (va p : Nat) (write : Bool) : Prop := ∃ pte en home, s.portLook x.ctx va write = .hit p pte en home ∧
      pteA pte = true ∧ (write = true → pteD pte = true) ∧ s.markMask x.ctx pte = s ∧ (s.entry (p / 128)).st = .i ∧
      p % 8 = 0 ∧ va % 8 = 0
    (s.ringDesc r = some d → s.markRing r = s →
      (ringDescOk d = true → d.held ≤ 2 ^ (d.word 3 / 256 % 16) →
        door { x with stopped := false, seen := d.widx, ridx := d.ridx }) ∧
      (d.word 3 % 16 ≠ 1 → door { x with stopped := true })) ∧
    (∀ (w : List Nat) (spa dpa ctx len va : Nat) (base : Word), s.portRec r 1 = .words d w →
      let g (i : Nat) : Nat := w.getD i 0
      let v := mload s.mem spa 8
      let own : Prop := g 1 = s.power.package * 2 ^ 32 + 8
      (g 1 % 8 ≠ 0 → ends s → ∃ t, exec (.networkSend r) s = .next t ∧ ended t 1 0x10 ∧
        t.podOut = s.podOut) ∧
      (own → x.inFlight = none → s.power.package < 64 → g 2 < 2 ^ 16 → g 4 = 255 → plainAt (g 0 % 2 ^ 64) spa false →
        s.windows.find? (fun y => decide (y.1 = g 2)) = some (g 2, ctx, base, len) → g 3 + 8 ≤ len → ctx = x.ctx →
        va = (base.toNat + g 3) % 2 ^ 64 → plainAt va dpa true → dpa / 128 ≠ pa / 128 → dpa / 128 ≠ d.pa / 128 →
        ends (s.homeWrite dpa 8 v) → ∃ t, exec (.networkSend r) s = .next t ∧
          mload t.mem dpa 8 = v ∧ ended t 1 1) ∧
      (∀ pkg, g 1 = pkg * 2 ^ 32 + 8 → pkg < 64 → pkg ≠ s.power.package → g 2 < 2 ^ 16 → g 4 = 255 →
        (s.podOpen pkg = true → x.inFlight = none → plainAt (g 0 % 2 ^ 64) spa false →
          ∃ t, exec (.networkSend r) s = .next t ∧ t.mem = s.mem ∧ t.ringOf r = { x with inFlight := some d.ridx } ∧
            t.podOut = s.podOut ++ [.write pkg (g 2) (g 3) ((List.range 8).map (fun i => BitVec.ofNat 8 (v / 256 ^ i)))]) ∧
        (s.reaches pkg = false → ends s →
          ∃ t, exec (.networkSend r) s = .next t ∧ ended t 1 0x06))) ∧
    (∀ (w : List Nat), s.portRec r 2 = .words d w →
      let g (i : Nat) : Nat := w.getD i 0
      let issued (i : Instr) : Prop := ∃ t, exec i s = .next t ∧ t = { s with rings := t.rings, answers := t.answers } ∧
        (t.ringOf r).inFlight = some d.ridx ∧
        t.answers = s.answers ++ [{ what := 5, addr := r, data := w.map (fun v => BitVec.ofNat 64 v) }]
      (x.inFlight = none → g 0 < 512 → g 2 < 2 ^ 32 → s.markVa x.ctx d.portVa false = s →
        (g 0 % 256 = 1 → issued (.storageRead r)) ∧ (g 0 % 256 = 2 → issued (.storageWrite r)) ∧
        (g 0 % 256 = 3 → issued (.storageFlush r))) ∧
      (∀ status, x.inFlight = some d.ridx → s.nvmeBytes w = 0 → pa % 8 = 0 → ends s →
        ∃ t, exec (.nvmeCompletion r status []) s = .next t ∧ ended t 3 (status % 2 ^ 16 * 256 + 1)) ∧
      (∀ (status spa : Nat) (y : Word), x.inFlight = some d.ridx → g 0 % 256 = 2 → s.nvmeBytes w = 8 → pa % 8 = 0 →
        plainAt (g 3 % 2 ^ 64) spa false →
        let sent : List Answer := s.answers ++ [{ what := 5, addr := r, data := [BitVec.ofNat 64 (mload s.mem spa 8)] }]
        ends { s with answers := sent } → ∃ t, exec (.nvmeCompletion r status [y]) s = .next t ∧
          ended t 3 (status % 2 ^ 16 * 256 + 1) ∧ t.answers = sent))

/-- R107, R383, R384: `mark` completes without effect where its context is not traced; else it appends a record keyed by
the tick, with rs1, the PC and the thread's identity, or is FULL where the core's buffer of 32 records is. R382 to R385,
R388 to R390: a trace buffer gives its oldest record, or its loss count first, to the ring; a snapshot latches every
started die's counters and writes a record where the ring has room, and counts a miss where it has none; a stop tick stops
the package and changes nothing else; an observation register takes the value written; a correction of the tick counter
doubles or holds one increment. A snapshot that waits or is missed where its place is busy (log 38), and the span that
holds the tick (log 43), are the model's choices. -/
def Obligations.Observation : Prop :=
  (∀ (s : State) (rs1 : BitVec 4) (nb : BitVec 1),
    let c := s.myCore
    let on : Prop := s.traced s.myCtx (coreDie c) = true
    (¬ on → s.results (.mark rs1 nb) nb 0 0) ∧
    (on → (s.core c).trace.length < 32 → ∃ t, exec (.mark rs1 nb) s = .next t ∧
      t = { s with threads := t.threads, cores := t.cores, groups := t.groups } ∧ s.progressed t ∧
      (∀ u, u ≠ s.cur → t.thr u = s.thr u) ∧ t.me = s.me.completed nb .rdy ∧
      (∀ k, t.core k = if k = c then { s.core c with trace := (s.core c).trace ++
          [{ tick := s.gtick, kind := 1, ctx := s.myCtx, core := c, slot := s.me.slot.getD 0, index := s.me.index,
             pc := s.me.pc, value := s.me.reg rs1 }] } else s.core k)) ∧
    (on → 32 ≤ (s.core c).trace.length → s.stops (.mark rs1 nb) nb .full (.trace c))) ∧
  (∀ (s : State), s.memOk = true →
    (∀ (c : Nat) (r : TraceRec) (rest : List TraceRec), (s.core c).trace = r :: rest →
      let d := coreDie c
      let ring := tget (0, 0, 0) s.observe.trRing d
      let tail := (s.die d).traceTail
      let pa := ring.1 + 32 * (tail % 2 ^ ring.2.1)
      ringFull ring tail = false → s.quietAll pa 32 = true → ∃ t, exec (.traceDrain c) s = .next t ∧
        mload t.mem pa 8 = r.tick % 2 ^ 64 ∧ (t.die d).traceTail = (tail + 1) % 2 ^ 32 ∧
        ((s.core c).lost = 0 → (t.core c).trace = rest ∧ mload t.mem (pa + 15) 1 = r.kind % 256 ∧
          mload t.mem (pa + 16) 8 = r.pc.toNat ∧ mload t.mem (pa + 24) 8 = r.value.toNat) ∧
        ((s.core c).lost ≠ 0 → (t.core c).trace = r :: rest ∧ (t.core c).lost = 0 ∧ mload t.mem (pa + 15) 1 = 7 ∧
          mload t.mem (pa + 24) 8 = (s.core c).lost % 2 ^ 64)) ∧
    (∀ d, s.snapDue = true → s.startedDies = [d] →
      let ring := tget (0, 0, 0) s.observe.snapRing d
      let tail := (s.die d).snapTail
      let pa := ring.1 + 8192 * (tail % 2 ^ ring.2.1)
      (tget (0, 0, 0) s.observe.snapRing 4).2.1 = 0 → s.observe.ioSnap = none → (s.die d).snap = none →
      ∃ t, exec .snapshot s = .next t ∧ (t.die d).latched = some s.gtick ∧ t.observe.ioLatched = some s.gtick ∧
        (ring.2.1 ≠ 0 → ringFull ring tail = false → s.quietAll pa 8192 = true → mload t.mem pa 8 = s.gtick % 2 ^ 64 ∧
          mload t.mem (pa + 8) 8 = (s.die d).missed % 2 ^ 32 * 2 ^ 32 + d % 4 ∧
          (t.die d).snapTail = (tail + 1) % 2 ^ 32 ∧ (t.die d).missed = 0 ∧ (t.die d).snap = none) ∧
        (ring.2.1 ≠ 0 → ringFull ring tail = false → s.quietAll pa 8192 = false → t.mem = s.mem ∧
          (t.die d).snapTail = tail ∧ ∃ l, (t.die d).snap = some (s.gtick :: l)) ∧
        (ring.2.1 ≠ 0 → ringFull ring tail = true → (t.die d).missed = (s.die d).missed + 1 ∧ t.mem = s.mem)) ∧
    (let due : Prop := s.observe.arm = true ∧ s.observe.stopTk ≤ s.gtick ∧ s.power.stopped = false
     due → ∃ t, exec .stopOnTick s = .next t ∧ t.power = { s.power with stopped := true } ∧ t.mem = s.mem ∧
       t.threads = s.threads ∧ t.cores = s.cores ∧ (s.snapDue = false → t = { s with power := t.power }) ∧
       (s.snapDue = true → ∀ d ∈ s.startedDies, (t.die d).latched = some s.gtick)) ∧
    (∀ val : Word, ∃ t, exec (.stopctlArm val) s = .next t ∧ t.observe.arm = val.getLsbD 0 ∧
      (val.getLsbD 0 = true → s.observe.stopTk ≤ s.gtick → t.power.stopped = true) ∧
      (val.getLsbD 0 = false ∨ s.gtick < s.observe.stopTk → t.power = s.power)) ∧
    (∀ (d : Nat) (val : Word), d < 4 →
      let writes (off : Nat) (y : Observe) : Prop := ∃ t, exec (.registerWrite (0x8040000000 + off) val) s = .next t ∧
        t = { s with observe := y }
      let n := val.toNat
      let ring := tget (0, 0, 0) s.observe.snapRing d
      writes 0x200 { s.observe with stopTk := n } ∧
      (10 ≤ n % 32 → n % 32 ≤ 24 → writes 0 { s.observe with snapEn := val.getLsbD 63, snapK := n % 32 }) ∧
      writes (0x40 + 32 * d) { s.observe with
        snapRing := tset s.observe.snapRing d (n % 2 ^ 52 / 4096 * 4096, ring.2) } ∧
      writes (0x48 + 32 * d) { s.observe with snapRing := tset s.observe.snapRing d (ring.1, n % 16, ring.2.2) } ∧
      writes (0x50 + 32 * d) { s.observe with snapRing := tset s.observe.snapRing d (ring.1, ring.2.1, n % 2 ^ 32) } ∧
      writes (0x58 + 32 * d) s.observe) ∧
    ((s.observe.corrected = none ∨ ∃ k, s.observe.corrected = some k ∧ k + 1000 ≤ s.gtick) →
      ((∀ g ∈ s.groups, s.watchdogDue g.1 = false) → ∃ t, exec (.gtickDiscipline true) s = .next t ∧ t.gtick = (s.gtick + 1) % 2 ^ 64 ∧
        t.observe.corrected = some s.gtick ∧ t.threads = s.threads ∧ t.mem = s.mem) ∧
      ∃ t, exec (.gtickDiscipline false) s = .next t ∧ t = { s with observe := { s.observe with corrected := some s.gtick } }))

/-! ## Start, power and life in service (R393 to R408) -/

/-- R390, R393 to R396, R401, R405, R406, R77: power-good begins in SAFE with nothing kept; an image that passes each
check in its order reaches LANTERN, and another leaves its cause; a die that passes starts with its place table, barriers
and caches cleared, and the package is FULL once every die has joined or is out; a report answers the nonce; a management
reset begins a start again; a scan answers; a newer verified image takes control; the fused minimum never falls. The order
of the checks and their causes and the stage of a start (log 41), the first generation of a place (log 5), the opaque
checks of signatures (log 8), and the contents of a scan (log 43) are the model's readings and choices. -/
def Obligations.PowerStart : Prop :=
  ∀ (s : State),
    let only (i : Instr) (p : Power) : Prop := exec i s = .next { s with power := p }
    let bare (t : State) : Prop := ∀ a, mget t.mem a = if paClass a = .host then mget s.mem a else mget [] a
    let again (t : State) : Prop := t.power.stage = .safe ∧ t.power.ceiling = 400 ∧ t.power.stopped = false ∧
      t.power.tripped = false ∧ t.power.fusedMin = s.power.fusedMin ∧ t.gtick = 0 ∧ t.threads = [] ∧ bare t ∧
      t.ctxs = [] ∧ ∀ d, (t.die d).started = false
    (s.power.stage = .off → ∃ t, exec .powerGood s = .next t ∧ again t) ∧
    (s.power.stage ≠ .off → ∃ t, exec .powerGoodFall s = .next t ∧ t.power.stage = .off ∧ bare t ∧ t.threads = []) ∧
    (s.power.stopped = true ∨ s.power.tripped = true → ∃ t, exec .managementReset s = .next t ∧ again t) ∧
    (∀ image, image ≠ 0 →
      let length := 32 + imageField image 16 8
      let message := imageField image 0 32 + 2 ^ 256 * imageField image 4096 (imageField image 16 8)
      let lms := imageField image 24 8
      let ecdsa := Config.ecdsaHolds message length (imageField image 32 48) (imageField image 80 48)
      let lmsHolds := Config.lmsHolds message length (imageField image 128 lms) lms
      let header := headerHolds image = true
      let signed := header ∧ ecdsa = true ∧ lmsHolds = true
      let good := signed ∧ s.power.fusedMin ≤ imageVersion image
      (s.power.stage = .safe → s.power.tripped = false →
        (good → only (.firmwareVerify image) { s.power with
          stage := .lantern, cause := 0, image := image, version := imageVersion image }) ∧
        (¬ header → only (.firmwareVerify image) { s.power with cause := 5 }) ∧
        (header → ecdsa = false → only (.firmwareVerify image) { s.power with cause := 2 }) ∧
        (header → ecdsa = true → lmsHolds = false →
          only (.firmwareVerify image) { s.power with cause := 3 }) ∧
        (signed → imageVersion image < s.power.fusedMin → only (.firmwareVerify image) { s.power with cause := 4 })) ∧
      (s.power.stage = .lantern ∨ s.power.stage = .dies ∨ s.power.stage = .full →
        (good → s.power.version ≤ imageVersion image → only (.firmwareHandover image) { s.power with
          image := image, version := imageVersion image }) ∧
        (¬ good ∨ imageVersion image < s.power.version → exec (.firmwareHandover image) s = .next s))) ∧
    (∀ d, d < 4 → (s.die d).started = false → s.power.stage = .lantern ∨ s.power.stage = .dies → (s.dpow d).park ≠ .out →
      let joined (e : Nat) : Prop := (s.die e).started = true ∨ (s.dpow e).park = .out
      let stage (t : State) : Prop := ((∀ e, e < 4 → e ≠ d → joined e) → t.power.stage = .full) ∧
        ((∃ e, e < 4 ∧ e ≠ d ∧ ¬ joined e) → t.power.stage = .dies)
      let any : Prop := ∃ e, e < 4 ∧ (s.die e).started = true
      (∃ t, exec (.dieStart d true) s = .next t ∧ stage t ∧ (t.die d).started = true ∧ (t.dpow d).park = .inService ∧
        (∀ e, t.place d e = Place.fresh) ∧ (∀ i, t.bar 2 d i = Bar.fresh) ∧ (t.die d).backoff = 256 ∧
        (t.die d).expansion = Config.expansionOf s.power.image ∧ (∀ i, t.chan d i = s.chan d i) ∧
        ∀ c, coreDie c = d → (t.core c).l1 = [] ∧ (t.core c).tlb = [] ∧ (t.core c).icache = [] ∧ (t.core c).pushq = 64 ∧
          (t.core c).pweight = 8 ∧ (t.core c).retired = (s.core c).retired) ∧
      ∃ t, exec (.dieStart d false) s = .next t ∧ (any → stage t) ∧ (¬ any → t.power = s.power) ∧
        (t.dpow d).park = .out ∧ t.dies = s.dies ∧
        ∀ p u, (t.part p).units.testBit u = ((s.part p).units.testBit u && decide (u < 32 ∧ u / 8 ≠ d))) ∧
    (∀ (nonce : BitVec 384) (who part : Nat), s.power.stage ≠ .off →
      (who = 0 ∨ who = 64 ∧ s.power.stage ≠ .safe) ∧ (part < 32 ∨ part = 0xFF) ∨
        1 ≤ who ∧ who < 64 ∧ s.power.stage = .full ∧ part < 32 ∧ who ∈ (s.part part).vfs → ∃ t y,
        exec (.attestationReport nonce (who, part)) s = .next t ∧ t = { s with answers := s.answers ++ [y] } ∧ y.what = 2 ∧
        y.data.length = 64 ∧ y.data[0]? = some 0x20000000001 ∧ y.data[7]? = some (BitVec.ofNat 64 s.gtick) ∧
        ∀ i, i < 6 → y.data[1 + i]? = some (BitVec.ofNat 64 (nonce.toNat / 2 ^ (64 * i)))) ∧
    (s.power.stopped = true → ∃ t y, exec .scanOut s = .next t ∧ t = { s with answers := s.answers ++ [y] } ∧ y.what = 3 ∧
      y.data[0]? = some (BitVec.ofNat 64 s.gtick) ∧ y.data = s.scan.map (fun w => BitVec.ofNat 64 w)) ∧
    (∀ v, only (.fusedMinimumRaise v) { s.power with fusedMin := max s.power.fusedMin v }) ∧
    (∀ v, only (.podJoin v) { s.power with package := v % 64 }) ∧
    ∀ d table, (s.dpow d).park = .drained → ∃ t, exec (.expansionTableUpdate d table) s = .next t ∧
      (t.die d).expansion = table ∧ (t.dpow d).park = .inService ∧ t.mem = s.mem

/-- R397 to R404, R406: a ceiling in range is taken and another ignored; a die goes to the highest-numbered of the
P-states asked of it; a boundary enforces the ceiling, keeps the mean of the last hundred intervals and gives each die its
throttle; a temperature of 110 degrees throttles the die and one of 120 trips the package; a die parks once it holds no
placed group, with its caches emptied, and returns.
That UNPARK ends DRAINED, and what a boundary may draw (log 42), are the model's readings. -/
def Obligations.PowerCeiling : Prop :=
  ∀ (s : State) (d : Nat), d < 4 →
    let p := s.dpow d
    let only (i : Instr) (y : DiePower) : Prop := ∃ t, exec i s = .next t ∧ t = { s with diePower := t.diePower } ∧
      t.dpow d = y ∧ ∀ e, e ≠ d → t.dpow e = s.dpow e
    let parks (i : Instr) (y : DiePower) : Prop := (s.die d).started = true → p.park = .inService → only i y
    (∀ val : Word,
      (250 ≤ val.toNat % 2048 → val.toNat % 2048 ≤ 1400 →
        exec (.pwrcapWrite val) s = .next { s with power := { s.power with ceiling := val.toNat % 2048 } }) ∧
      (val.toNat % 2048 < 250 ∨ 1400 < val.toNat % 2048 → exec (.pwrcapWrite val) s = .next s) ∧
      only (.preqWrite d val) { p with
        preq := val.toNat % 8, moving := decide (max (val.toNat % 8) (max p.loopP p.thermP) ≠ p.pcur) }) ∧
    (p.moving = true → only (.pstateTransitionDone d) { p with
      pcur := max p.preq (max p.loopP p.thermP), band := max p.preq (max p.loopP p.thermP) / 2, moving := false }) ∧
    (∀ energy l0 l1 l2 l3, s.power.stage ≠ .off → s.gtick % 1000 = 0 → s.power.boundary ≠ some s.gtick →
      energy + s.power.history.foldl (· + ·) 0 ≤ 100 * s.power.enforced → ∃ t,
        exec (.ceilingBoundary energy l0 l1 l2 l3) s = .next t ∧ t.power.boundary = some s.gtick ∧
        t.power.enforced = min s.power.ceiling s.power.rating ∧ t.power.history = (energy :: s.power.history).take 99 ∧
        t.power.mean = (energy + s.power.history.foldl (· + ·) 0) / 100 ∧
        (t.dpow d).throttle = (if p.maxThrottle then 15 else [l0, l1, l2, l3].getD d 0 % 16) ∧
        (8 ≤ p.throttle → p.hotRun = 19 → (t.dpow d).loopP = min 7 (p.pcur + 1)) ∧
        (p.throttle = 0 → p.coolRun = 999 → (t.dpow d).loopP = p.loopP - 1) ∧
        (t.dpow d).pcur = p.pcur ∧ t.gtick = s.gtick) ∧
    (∀ celsius, s.power.stage ≠ .off → s.power.tripped = false →
      (celsius < 100 → ∃ t, exec (.thermalSample d celsius) s = .next t ∧ (t.dpow d).thermP = 0 ∧
        (t.dpow d).maxThrottle = false ∧ (t.dpow d).throttle = p.throttle) ∧
      (100 ≤ celsius → celsius < 110 → ∃ t, exec (.thermalSample d celsius) s = .next t ∧ (t.dpow d).thermP = 5 ∧
        (t.dpow d).maxThrottle = false) ∧
      (110 ≤ celsius → celsius < 120 → ∃ t, exec (.thermalSample d celsius) s = .next t ∧ (t.dpow d).thermP = 7 ∧
        (t.dpow d).throttle = 15 ∧ (t.dpow d).maxThrottle = true) ∧
      (120 ≤ celsius → ∃ t, exec (.thermalSample d celsius) s = .next t ∧ t.power.tripped = true ∧ t.power.stage = .safe ∧
        (∀ e, e < 4 → (t.dpow e).park = .out) ∧ t.threads = [] ∧
        ∀ a, (∀ e, paClass a = .dram e → mget t.mem a = mget [] a) ∧
          ((∀ e, paClass a ≠ .dram e) → mget t.mem a = mget s.mem a))) ∧
    (∀ f stretch, ∃ t, exec (.droopDetect f stretch) s = .next t ∧ t = { s with formes := t.formes } ∧
      t.forme f = { s.forme f with stretched := stretch } ∧ ∀ g, g ≠ f → t.forme g = s.forme g) ∧
    parks (.park d) { p with park := .parking, parkBit := true } ∧
    parks (.dieDrain d) { p with park := .parking, drainBit := true } ∧
    (p.park = .parking → p.parkBit = true ∨ p.drainBit = true → s.dieHolds d = false → s.canEmpty d = true →
      ∃ t, exec (.parkShutdownDone d) s = .next t ∧
      t.dpow d = { p with park := if p.parkBit then .parked else .drained } ∧
      ∀ c, coreDie c = d → (t.core c).l1 = [] ∧ (t.core c).tlb = [] ∧ (t.core c).icache = []) ∧
    (p.park = .parked → only (.unpark d) { p with park := .unparking, parkBit := false }) ∧
    (p.park = .parking → s.dieHolds d = false → only (.unpark d) { p with
      park := .inService, parkBit := false, drainBit := false }) ∧
    (p.park = .drained → only (.unpark d) { p with park := .inService, drainBit := false, parkBit := false }) ∧
    (p.park = .unparking → ∃ t, exec (.unparkStartDone d) s = .next t ∧ (t.dpow d).park = .inService ∧
      (t.die d).places = (s.die d).places ∧ (t.die d).bars = (s.die d).bars ∧
      ∀ c, coreDie c = d → (t.core c).pushq = 64 ∧ (t.core c).l1 = [])

/-- R61, R69, R370, R389, R398, R407, R408, R426: an uncorrectable error poisons its line, whose bytes are no longer
known, and no other byte changes; rows and vaults take their spares, and a second failing vault takes its unit out of
service; a core retires and returns with its per-core reset values; a Lantern core reads, writes and combines at the home.
Unlisted offsets and write-only registers (log 55), the codes of accesses and answers (log 44), and a hold of a free
length within its bound (log 37) are the model's choices. -/
def Obligations.MemoryCare : Prop :=
  ∀ (s : State), s.memOk = true →
    (∀ pa, (∃ t, exec (.softError pa false) s = .next t ∧ pa / 128 ∈ t.poison ∧ (∀ l ∈ s.poison, l ∈ t.poison) ∧
        (∀ a, a / 128 ≠ pa / 128 → mget t.mem a = mget s.mem a) ∧ t.threads = s.threads ∧ t.cores = s.cores) ∧
      ∃ t y, exec (.softError pa true) s = .next t ∧ t = { s with answers := s.answers ++ [y] } ∧ y.addr = pa) ∧
    (∀ d v row, d < 4 → v < 64 →
      let held := s.sparedVault.find? (fun x => decide (x.1 = d))
      ((d, v, row) ∉ s.sparedRows → ∃ n, n ≤ 50000 ∧ exec (.rowSparing d v row) s = .next { s with
        sparedRows := s.sparedRows ++ [(d, v, row)], clockFree := s.clockFree + 1,
        heldUntil := tset s.heldUntil (d * 64 + v) (s.gtick + n) }) ∧
      ((∀ x ∈ s.hold, x.1 = d * 64 + v → x.2 + 100000000 ≤ s.gtick) → ∃ n, n ≤ 10000 ∧
        exec (.vaultRecalibration d v) s = .next { s with
          hold := tset s.hold (d * 64 + v) s.gtick, clockFree := s.clockFree + 1,
          heldUntil := tset s.heldUntil (d * 64 + v) (s.gtick + n) }) ∧
      (held = none → exec (.vaultSparing d v false) s = .next { s with sparedVault := tset s.sparedVault d (v, false) }) ∧
      (held = some (d, v, false) → exec (.vaultSparing d v true) s = .next { s with
        sparedVault := tset s.sparedVault d (v, true) }) ∧
      ∀ w b, held = some (d, w, b) → w ≠ v → exec (.vaultSparing d v false) s = .next { s with
        units := (8 * d + v / 8) :: s.units }) ∧
    (∀ c, c < 1024 →
      ((s.core c).retired = false → (∀ q, q / 8 = c / 8 → s.groupOn q = none) → ∃ t, exec (.coreRetire c) s = .next t ∧
        t = { s with cores := t.cores } ∧ t.core c = { s.core c with retired := true } ∧
        ∀ k, k ≠ c → t.core k = s.core k) ∧
      ((s.core c).retired = true → ∃ t, exec (.coreReturnToService c) s = .next t ∧ t = { s with cores := t.cores } ∧
        t.core c = { s.core c with retired := false, pushq := 64, pweight := 8, pmsel := [], pmselCtx := [], pmc := [] } ∧
        ∀ k, k ≠ c → t.core k = s.core k)) ∧
    (∀ (pa size : Nat) (val : Word), lanternReach pa size = true → inRegister pa size = false → s.quietAll pa size = true →
      s.ioReaches pa = true → (s.entry (pa / 128)).st = .i → (s.entry (pa / 128)).holders = [] →
      let old := mload s.mem pa size
      (∃ t, exec (.lanternCoreAccess 0 pa size val) s = .next t ∧ t = { s with answers := s.answers ++
        [{ what := 1, addr := pa, data := [BitVec.ofNat 64 old] }] }) ∧
      (∃ t, exec (.lanternCoreAccess 1 pa size val) s = .next t ∧ t.mem = mstore s.mem pa val.toNat size ∧
        t.answers = s.answers) ∧
      (size = 4 ∨ size = 8 → pa % size = 0 →
        let b := val.toNat % 2 ^ (8 * size)
        let amo (k new : Nat) : Prop := ∃ t, exec (.lanternCoreAccess k pa size val) s = .next t ∧
          t.mem = mstore s.mem pa new size ∧
          t.answers = s.answers ++ [{ what := 1, addr := pa, data := [BitVec.ofNat 64 old] }]
        amo 3 ((old + b) % 2 ^ (8 * size)) ∧ amo 4 (old &&& b) ∧ amo 5 (old ||| b) ∧ amo 6 (old ^^^ b) ∧ amo 9 (min old b) ∧
          amo 10 (max old b) ∧ amo 11 b)) ∧
    (∀ (size : Nat) (val : Word), exec (.lanternCoreAccess 2 0 size val) s = .next s) ∧
    ∀ (val : Word),
      let reads (pa n : Nat) : Prop := exec (.lanternCoreAccess 0 pa 8 val) s = .next { s with answers := s.answers ++
        [{ what := 1, addr := pa, data := [BitVec.ofNat 64 n] }] }
      let ignores (pa : Nat) : Prop := exec (.lanternCoreAccess 1 pa 8 val) s = .next s
      reads 0x8041000000 (s.power.rating % 2048 * 65536 + s.power.ceiling) ∧
      (∀ d, d < 4 → (∀ off, off = 0 ∨ off = 8 ∨ off = 0x28 ∨ off = 0x30 → reads (0x8000000000 + d * 0x1000000 + off) 0) ∧
        reads (0x8000000020 + d * 0x1000000) (if (s.die d).shoot.isSome then 1 else 0) ∧
        reads (0x8041000010 + 8 * d) (s.dpow d).preq ∧
        ((s.dpow d).park = .out ∨ (s.dpow d).park = .unparking →
          exec (.lanternCoreAccess 1 (0x8041000050 + 8 * d) 8 val) s = .next (s.modDpow d (fun p => { p with
            parkBit := val.getLsbD 0, drainBit := val.getLsbD 1 }))) ∧
        ignores (0x8000000020 + d * 0x1000000) ∧ ignores (0x8041000030 + 8 * d)) ∧
      ignores 0x8041000070 ∧ ignores 0x8041000100

/-! ## Words, reset and the step -/

/-- R27, R33 to R38, R53: words written out from the encoding tables decode to their instructions, and the word 0 and
a word of an unassigned major opcode to none. -/
def Obligations.DecodeWords : Prop :=
  decode (0x13 + 10 * 2 ^ 7 + 11 * 2 ^ 15 + 0xFFF * 2 ^ 20) = some (.addi 10 11 0xFFF#12) ∧
  decode (0x33 + 10 * 2 ^ 7 + 11 * 2 ^ 15 + 12 * 2 ^ 20 + 0x20 * 2 ^ 25) = some (.sub 10 11 12) ∧
  decode (0x0B + 1 * 2 ^ 7 + 10 * 2 ^ 8 + 3 * 2 ^ 12 + 11 * 2 ^ 16 + 8 * 2 ^ 20) = some (.pld 10 11 8 3 1) ∧
  decode 0x00300AAB = some (.bo 3 10) ∧
  decode 0x5000A0DB = some (.pqPush 10 1) ∧
  decode 0x610CBADB = some (.ksub 10 11 12 1) ∧
  decode (0x7B + 1 * 2 ^ 7 + 2 * 2 ^ 10 + 3 * 2 ^ 13 + 6 * 2 ^ 21) = some (.vadd 1 2 3 6 0) ∧
  decode 0 = none ∧ decode 0xFFFFFFFF = none

/-- R27 to R44: the decoder reads every well-formed instruction back from its word, with every operand at every value
that the encoding admits, and it reads no instruction from a word that is not that instruction's own. -/
def Obligations.EncodeDecode : Prop :=
  (∀ i : Instr, i.isWord = true → i.wf = true → decode (encode i) = some i) ∧
  ∀ (w : Nat) (i : Instr), w < 2 ^ 32 → decode w = some i → encode i = w ∧ i.isWord = true ∧ i.wf = true

/-- R69, R94, R363, R382, R389, R393, R398: what stands right after power-good. The package is in SAFE with a ceiling of
400 W, the tick counter is 0, no thread, group or kernel exists, every context is FREE, no die has started, and every die
asks for P7; each core would start with its per-core reset values. Memory is in canonical form. The mean power and the
last cause (log 48), and the state EXITED of a thread that does not exist (log 47), are the model's choices. -/
def Obligations.ResetState : Prop :=
  let s := State.reset
  s.memOk = true ∧ s.gtick = 0 ∧ s.power.stage = .safe ∧ s.power.cause = 0 ∧ s.power.ceiling = 400 ∧ s.power.mean = 0 ∧
  s.power.stopped = false ∧ s.observe.snapEn = false ∧ s.observe.snapK = 10 ∧ s.observe.arm = false ∧
  s.threads = [] ∧ s.groups = [] ∧ s.kernels = [] ∧
  (∀ u, (s.thr u).st = .exited) ∧ (∀ g, (s.grp g).st = .unplaced) ∧ (∀ x, (s.ctx x).st = .free) ∧
  (∀ d, (s.die d).started = false ∧ (s.die d).backoff = 256 ∧ (s.dpow d).preq = 7 ∧ (s.dpow d).pcur = 7 ∧
    (s.dpow d).throttle = 0) ∧
  (∀ c, (s.core c).pushq = 64 ∧ (s.core c).pweight = 8 ∧ (s.core c).l1 = [] ∧ ∀ i, tget 0 (s.core c).pmsel i = 0) ∧
  (∀ l, (s.link l).st = .down) ∧ ∀ line, (s.entry line).st = .i

/-- The model's memories stay in canonical form through every step, whatever the state: addresses strictly rising, and no
listed byte at the value that an unlisted one reads as (log 3). -/
def Obligations.StepKeeps : Prop :=
  ∀ s t : State, s.memOk = true → step s = .next t → t.memOk = true

/-- R28, R56, R81, R82, log 2: with nothing else to move, a step lets the fetches of the core in turn go on, and its hold
windows open and close, and runs the instruction that the word at the PC of the thread in turn decodes to, as `exec` of it at
the state in which that thread executes; that state differs from the one before only in which thread and word execute, its
used-up priority, its core's cycle and event counts. A word that decodes to nothing runs as an illegal word. Where the fetch
of every READY slot is answered, only the windows come before the issue. Where the agenda names an event, the step is that
event. -/
def Obligations.StepRunsDecoded : Prop :=
  ∀ (s : State) (u w : Nat) (i : Instr) (rest : List Item), s.stopDue = false → s.snapDue = false →
    s.boundaryDue = false ∨ s.namesBoundary = true → s.dueNow.isNone = true ∨ s.namesDue = true →
    s.power.stage ≠ .off → s.power.stopped = false →
    let c := s.turn
    let r := s.prepare c
    let cycle := r.issueCycle c
    let x := r.begin u w cycle
    (s.agenda = [] → r.pick c cycle = some u → (r.thr u).late = [] → r.fetch u = .word w →
      (decode w = some i → step s = exec i x) ∧
      (decode w = none → step s = exec .illegalInstructionWord x)) ∧
    ((∀ y ∈ s.readySlots c, s.eligible y.2 = true) →
      r = (s.openWindows c (s.issueCycle c)).closeWindows c (s.issueCycle c)) ∧
    (x.cur = u ∧ x.ir = w ∧ x.mem = r.mem ∧ x.lm = r.lm ∧ x.thr u = { r.thr u with prio := false } ∧
      (∀ v, v ≠ u → x.thr v = r.thr v) ∧ (x.core (r.thr u).core).lastIssue = cycle + 1) ∧
    (∀ e d, (r.thr u).pc.toNat % 4 = 0 → inPaged (r.thr u).pc.toNat = true →
      r.tlbHit (r.thr u).core (r.ctxOf u) (r.thr u).pc.toNat = some e → pteX e.pte.toNat = true →
      let pa := leafPa e.level e.pte.toNat (r.thr u).pc.toNat
      paClass pa ≠ .device → (r.core (r.thr u).core).code (pa / 128) = some d →
      r.fetch u = .word (lineGet d (pa % 128) 4)) ∧
    (s.agenda = .event i :: rest → i.isWord = false → step s = exec i { s with agenda := rest })
end

