-- ==== Sys2Proof/Laws/Tables.lean ====
section
/-! SUPPORT. Tables and byte memories: a read after a write, and the canonical form that every memory operation keeps. -/

set_option Elab.async false

namespace Sys2Proof.Machine

/-! ## Tables -/

@[simp] theorem tget_nil {α : Type} (d : α) (n : Nat) : tget d ([] : Tbl α) n = d := rfl

@[simp] theorem tget_tset_self {α : Type} (d : α) (t : Tbl α) (n : Nat) (v : α) : tget d (tset t n v) n = v := by
  induction t with
  | nil => simp [tset, tget]
  | cons x l ih =>
    obtain ⟨k, w⟩ := x
    by_cases h : k = n
    · simp [tset, tget, h]
    · by_cases h2 : n < k
      · simp [tset, tget, h, h2]
      · simp [tset, tget, h, h2, ih]

theorem tget_tset_ne {α : Type} (d : α) (t : Tbl α) {n m : Nat} (v : α) (h : m ≠ n) :
    tget d (tset t n v) m = tget d t m := by
  induction t with
  | nil => simp [tset, tget, Ne.symm h]
  | cons x l ih =>
    obtain ⟨k, w⟩ := x
    by_cases h1 : k = n
    · subst h1; simp [tset, tget, Ne.symm h]
    · by_cases h2 : n < k
      · simp [tset, tget, h1, h2, Ne.symm h]
      · by_cases h3 : k = m
        · subst h3; simp [tset, tget, h, h2]
        · simp [tset, tget, h1, h2, h3, ih]

theorem tget_tset {α : Type} (d : α) (t : Tbl α) (n m : Nat) (v : α) :
    tget d (tset t n v) m = if m = n then v else tget d t m := by
  by_cases h : m = n
  · simp [h]
  · simp [h, tget_tset_ne d t v h]

/-! ## Byte memories -/

theorem Memory.above_le {lo hi : Nat} {m : Memory} (h : Memory.above hi m = true) (hl : lo ≤ hi) :
    Memory.above lo m = true := by
  cases m with
  | nil => rfl
  | cons x t =>
    obtain ⟨k, v⟩ := x
    simp only [Memory.above, Bool.and_eq_true, decide_eq_true_eq] at h ⊢
    exact ⟨⟨Nat.le_trans hl h.1.1, h.1.2⟩, h.2⟩

theorem mget_of_above {lo : Nat} {m : Memory} {a : Nat} (h : Memory.above lo m = true) (ha : a < lo) : mget m a = 0 := by
  cases m with
  | nil => rfl
  | cons x t =>
    obtain ⟨k, v⟩ := x
    simp only [Memory.above, Bool.and_eq_true, decide_eq_true_eq] at h
    have h1 : ¬ k = a := by omega
    have h2 : a < k := by omega
    simp [mget, h1, h2]

theorem Memory.above_mput {lo : Nat} {m : Memory} (a : Nat) (v : Byte) (h : Memory.above lo m = true) (ha : lo ≤ a) :
    Memory.above lo (mput m a v) = true := by
  induction m generalizing lo with
  | nil =>
    by_cases hv : v = 0#8 <;> simp [mput, Memory.above, hv, ha]
  | cons x t ih =>
    obtain ⟨k, w⟩ := x
    simp only [Memory.above, Bool.and_eq_true, decide_eq_true_eq] at h
    obtain ⟨⟨h1, h2⟩, h3⟩ := h
    have h2 : ¬ w = 0#8 := h2
    by_cases hk : k = a
    · subst hk
      by_cases hv : v = 0#8
      · simp only [mput, hv, if_true]; exact Memory.above_le h3 (by omega)
      · simp [mput, hv, Memory.above, h1, h3]
    · by_cases hlt : a < k
      · by_cases hv : v = 0#8
        · simp [mput, hk, hlt, hv, Memory.above, h1, h2, h3]
        · have : a + 1 ≤ k := hlt
          simp [mput, hk, hlt, hv, Memory.above, ha, this, h2, h3]
      · have := ih h3 (by omega)
        simp [mput, hk, hlt, Memory.above, h1, h2, this]

/-- A write of one byte keeps the canonical form. -/
theorem Memory.wf_mput {m : Memory} (a : Nat) (v : Byte) (h : m.wf = true) : Memory.wf (mput m a v) = true :=
  Memory.above_mput a v h (Nat.zero_le a)

/-- A read after a write: the byte written there, every other byte as before. -/
theorem mget_mput {m : Memory} (a b : Nat) (v : Byte) (h : m.wf = true) :
    mget (mput m a v) b = if b = a then v else mget m b := by
  suffices H : ∀ (lo : Nat) (m : Memory), Memory.above lo m = true →
      mget (mput m a v) b = if b = a then v else mget m b from H 0 m h
  intro lo m
  induction m generalizing lo with
  | nil =>
    intro _
    by_cases hv : v = 0#8
    · by_cases hb : b = a <;> simp [mput, mget, hv, hb]
    · by_cases hb : b = a
      · simp [mput, mget, hv, hb]
      · simp [mput, mget, hv, hb, Ne.symm hb]
  | cons x t ih =>
    obtain ⟨k, w⟩ := x
    intro h
    simp only [Memory.above, Bool.and_eq_true, decide_eq_true_eq] at h
    obtain ⟨⟨_, _⟩, h3⟩ := h
    by_cases hk : k = a
    · subst hk
      by_cases hv : v = 0#8
      · by_cases hb : b = k
        · subst hb
          simp only [mput, hv, if_true]
          exact mget_of_above h3 (by omega)
        · by_cases hb2 : b < k
          · have e1 : mget t b = 0 := mget_of_above h3 (by omega)
            have : ¬ k = b := fun e => hb e.symm
            simp [mput, hv, mget, hb, this, hb2, e1]
          · have : ¬ k = b := fun e => hb e.symm
            simp [mput, hv, mget, hb, this, hb2]
      · by_cases hb : b = k
        · simp [mput, mget, hv, hb]
        · have : ¬ k = b := fun e => hb e.symm
          simp [mput, mget, hv, hb, this]
    · by_cases hlt : a < k
      · by_cases hv : v = 0#8
        · by_cases hb : b = a
          · subst hb; simp [mput, mget, hk, hlt, hv]
          · simp [mput, mget, hk, hlt, hv, hb]
        · by_cases hb : b = a
          · subst hb; simp [mput, mget, hk, hlt, hv]
          · have hab : ¬ a = b := fun e => hb e.symm
            by_cases h5 : b < a
            · have h6 : ¬ k = b := by omega
              have h7 : b < k := by omega
              simp [mput, mget, hk, hlt, hv, hb, hab, h5, h6, h7]
            · simp [mput, mget, hk, hlt, hv, hb, hab, h5]
      · by_cases hb : k = b
        · subst hb
          have : ¬ k = a := hk
          simp [mput, mget, hk, hlt]
        · by_cases h5 : b < k
          · have h6 : ¬ b = a := by omega
            simp [mput, mget, hk, hlt, hb, h5, h6]
          · have := ih (k + 1) h3
            simp [mput, mget, hk, hlt, hb, h5, this]

theorem Memory.wf_mstore {m : Memory} (a v n : Nat) (h : m.wf = true) : Memory.wf (mstore m a v n) = true := by
  induction n generalizing m a v with
  | zero => exact h
  | succ n ih => exact ih _ _ (Memory.wf_mput _ _ h)

theorem Memory.wf_mstoreMask {m : Memory} (a v mask n : Nat) (h : m.wf = true) :
    Memory.wf (mstoreMask m a v mask n) = true := by
  induction n generalizing m a v mask with
  | zero => exact h
  | succ n ih =>
    refine ih _ _ _ ?_
    by_cases hm : mask % 2 = 1
    · simpa [hm] using Memory.wf_mput _ _ h
    · simpa [hm] using h

theorem Memory.above_filter {lo : Nat} {m : Memory} (p : Host.Cell → Bool) (h : Memory.above lo m = true) :
    Memory.above lo (m.filter p) = true := by
  induction m generalizing lo with
  | nil => rfl
  | cons x t ih =>
    obtain ⟨k, w⟩ := x
    simp only [Memory.above, Bool.and_eq_true, decide_eq_true_eq] at h
    obtain ⟨⟨h1, h2⟩, h3⟩ := h
    have h2 : ¬ w = 0#8 := h2
    by_cases hp : p (k, w) = true
    · simp [List.filter, hp, Memory.above, h1, h2, ih h3]
    · simp only [List.filter, hp]
      exact Memory.above_le (ih h3) (by omega)

theorem Memory.wf_mcut {m : Memory} (a n : Nat) (h : m.wf = true) : Memory.wf (mcut m a n) = true :=
  Memory.above_filter _ h

theorem Memory.wf_mpaste {m : Memory} (a : Nat) (l : Memory) (h : m.wf = true) : Memory.wf (mpaste m a l) = true := by
  unfold mpaste
  induction l generalizing m with
  | nil => exact h
  | cons x t ih => exact ih (Memory.wf_mput _ _ h)

/-- A read of one byte after a store of `n` bytes: outside them as before. -/
theorem mget_mstore_out {m : Memory} (a v n b : Nat) (h : m.wf = true) (hb : b < a ∨ a + n ≤ b) :
    mget (mstore m a v n) b = mget m b := by
  induction n generalizing m a v with
  | zero => rfl
  | succ n ih =>
    have hne : b ≠ a := by omega
    rw [mstore, ih _ _ (Memory.wf_mput _ _ h) (by omega), mget_mput _ _ _ h]
    simp [hne]

/-- A read of one byte within a store of `n` bytes: the byte of the value. -/
theorem mget_mstore_in {m : Memory} (a v n i : Nat) (h : m.wf = true) (hi : i < n) :
    mget (mstore m a v n) (a + i) = BitVec.ofNat 8 (v / 256 ^ i) := by
  induction n generalizing m a v i with
  | zero => omega
  | succ n ih =>
    rw [mstore]
    cases i with
    | zero =>
      rw [mget_mstore_out _ _ _ _ (Memory.wf_mput _ _ h) (by omega), mget_mput _ _ _ h]
      simp
    | succ j =>
      have e : a + (j + 1) = a + 1 + j := by omega
      rw [e, ih _ _ _ (Memory.wf_mput _ _ h) (by omega), Nat.pow_succ, Nat.mul_comm, Nat.div_div_eq_div_mul]

end Sys2Proof.Machine
end

