-- ==== Sys2Proof/Laws/State.lean ====
section
/-! SUPPORT. What each update of a record of the state leaves in each field (generated from the list of fields), and
register reads after writes. -/

set_option Elab.async false

namespace Sys2Proof.Machine

open Sys2Proof

variable (s : State) (n m : Nat)

/-! ## Thread records -/

@[simp] theorem State.modThr_eq (g : Thread → Thread) : s.modThr n g = s.setThr n (g (s.thr n)) := rfl
@[simp] theorem State.thr_setThr (k : Thread) : (s.setThr n k).thr m = if m = n then k else s.thr m :=
  tget_tset _ _ _ _ _
@[simp] theorem State.core_setThr (k : Thread) : (s.setThr n k).core m = s.core m := rfl
@[simp] theorem State.forme_setThr (k : Thread) : (s.setThr n k).forme m = s.forme m := rfl
@[simp] theorem State.die_setThr (k : Thread) : (s.setThr n k).die m = s.die m := rfl
@[simp] theorem State.ctx_setThr (k : Thread) : (s.setThr n k).ctx m = s.ctx m := rfl
@[simp] theorem State.grp_setThr (k : Thread) : (s.setThr n k).grp m = s.grp m := rfl
@[simp] theorem State.ker_setThr (k : Thread) : (s.setThr n k).ker m = s.ker m := rfl
@[simp] theorem State.dpow_setThr (k : Thread) : (s.setThr n k).dpow m = s.dpow m := rfl
@[simp] theorem State.setThr_gtick (k : Thread) : (s.setThr n k).gtick = s.gtick := rfl
@[simp] theorem State.setThr_cyc (k : Thread) : (s.setThr n k).cyc = s.cyc := rfl
@[simp] theorem State.setThr_agenda (k : Thread) : (s.setThr n k).agenda = s.agenda := rfl
@[simp] theorem State.setThr_turn (k : Thread) : (s.setThr n k).turn = s.turn := rfl
@[simp] theorem State.setThr_cur (k : Thread) : (s.setThr n k).cur = s.cur := rfl
@[simp] theorem State.setThr_ir (k : Thread) : (s.setThr n k).ir = s.ir := rfl
@[simp] theorem State.setThr_oracle (k : Thread) : (s.setThr n k).oracle = s.oracle := rfl
@[simp] theorem State.setThr_clockFree (k : Thread) : (s.setThr n k).clockFree = s.clockFree := rfl
@[simp] theorem State.setThr_wakeSeq (k : Thread) : (s.setThr n k).wakeSeq = s.wakeSeq := rfl
@[simp] theorem State.setThr_net (k : Thread) : (s.setThr n k).net = s.net := rfl
@[simp] theorem State.setThr_mem (k : Thread) : (s.setThr n k).mem = s.mem := rfl
@[simp] theorem State.setThr_lm (k : Thread) : (s.setThr n k).lm = s.lm := rfl
@[simp] theorem State.setThr_acc (k : Thread) : (s.setThr n k).acc = s.acc := rfl
@[simp] theorem State.setThr_planes (k : Thread) : (s.setThr n k).planes = s.planes := rfl
@[simp] theorem State.setThr_threads (k : Thread) : (s.setThr n k).threads = tset s.threads n k := rfl
@[simp] theorem State.setThr_nextUid (k : Thread) : (s.setThr n k).nextUid = s.nextUid := rfl
@[simp] theorem State.setThr_cores (k : Thread) : (s.setThr n k).cores = s.cores := rfl
@[simp] theorem State.setThr_formes (k : Thread) : (s.setThr n k).formes = s.formes := rfl
@[simp] theorem State.setThr_dies (k : Thread) : (s.setThr n k).dies = s.dies := rfl
@[simp] theorem State.setThr_dir (k : Thread) : (s.setThr n k).dir = s.dir := rfl
@[simp] theorem State.setThr_poison (k : Thread) : (s.setThr n k).poison = s.poison := rfl
@[simp] theorem State.setThr_quoins (k : Thread) : (s.setThr n k).quoins = s.quoins := rfl
@[simp] theorem State.setThr_faults (k : Thread) : (s.setThr n k).faults = s.faults := rfl
@[simp] theorem State.setThr_heldTraps (k : Thread) : (s.setThr n k).heldTraps = s.heldTraps := rfl
@[simp] theorem State.setThr_ctxs (k : Thread) : (s.setThr n k).ctxs = s.ctxs := rfl
@[simp] theorem State.setThr_parts (k : Thread) : (s.setThr n k).parts = s.parts := rfl
@[simp] theorem State.setThr_kernels (k : Thread) : (s.setThr n k).kernels = s.kernels := rfl
@[simp] theorem State.setThr_groups (k : Thread) : (s.setThr n k).groups = s.groups := rfl
@[simp] theorem State.setThr_nextGid (k : Thread) : (s.setThr n k).nextGid = s.nextGid := rfl
@[simp] theorem State.setThr_orders (k : Thread) : (s.setThr n k).orders = s.orders := rfl
@[simp] theorem State.setThr_links (k : Thread) : (s.setThr n k).links = s.links := rfl
@[simp] theorem State.setThr_bindings (k : Thread) : (s.setThr n k).bindings = s.bindings := rfl
@[simp] theorem State.setThr_windows (k : Thread) : (s.setThr n k).windows = s.windows := rfl
@[simp] theorem State.setThr_rings (k : Thread) : (s.setThr n k).rings = s.rings := rfl
@[simp] theorem State.setThr_peers (k : Thread) : (s.setThr n k).peers = s.peers := rfl
@[simp] theorem State.setThr_blocks (k : Thread) : (s.setThr n k).blocks = s.blocks := rfl
@[simp] theorem State.setThr_podOut (k : Thread) : (s.setThr n k).podOut = s.podOut := rfl
@[simp] theorem State.setThr_buckets (k : Thread) : (s.setThr n k).buckets = s.buckets := rfl
@[simp] theorem State.setThr_power (k : Thread) : (s.setThr n k).power = s.power := rfl
@[simp] theorem State.setThr_diePower (k : Thread) : (s.setThr n k).diePower = s.diePower := rfl
@[simp] theorem State.setThr_observe (k : Thread) : (s.setThr n k).observe = s.observe := rfl
@[simp] theorem State.setThr_sparedRows (k : Thread) : (s.setThr n k).sparedRows = s.sparedRows := rfl
@[simp] theorem State.setThr_sparedVault (k : Thread) : (s.setThr n k).sparedVault = s.sparedVault := rfl
@[simp] theorem State.setThr_units (k : Thread) : (s.setThr n k).units = s.units := rfl
@[simp] theorem State.setThr_hold (k : Thread) : (s.setThr n k).hold = s.hold := rfl
@[simp] theorem State.setThr_heldUntil (k : Thread) : (s.setThr n k).heldUntil = s.heldUntil := rfl
@[simp] theorem State.setThr_answers (k : Thread) : (s.setThr n k).answers = s.answers := rfl

/-! ## Core records -/

@[simp] theorem State.modCore_eq (g : Core → Core) : s.modCore n g = s.setCore n (g (s.core n)) := rfl
@[simp] theorem State.core_setCore (k : Core) : (s.setCore n k).core m = if m = n then k else s.core m :=
  tget_tset _ _ _ _ _
@[simp] theorem State.thr_setCore (k : Core) : (s.setCore n k).thr m = s.thr m := rfl
@[simp] theorem State.forme_setCore (k : Core) : (s.setCore n k).forme m = s.forme m := rfl
@[simp] theorem State.die_setCore (k : Core) : (s.setCore n k).die m = s.die m := rfl
@[simp] theorem State.ctx_setCore (k : Core) : (s.setCore n k).ctx m = s.ctx m := rfl
@[simp] theorem State.grp_setCore (k : Core) : (s.setCore n k).grp m = s.grp m := rfl
@[simp] theorem State.ker_setCore (k : Core) : (s.setCore n k).ker m = s.ker m := rfl
@[simp] theorem State.dpow_setCore (k : Core) : (s.setCore n k).dpow m = s.dpow m := rfl
@[simp] theorem State.setCore_gtick (k : Core) : (s.setCore n k).gtick = s.gtick := rfl
@[simp] theorem State.setCore_cyc (k : Core) : (s.setCore n k).cyc = s.cyc := rfl
@[simp] theorem State.setCore_agenda (k : Core) : (s.setCore n k).agenda = s.agenda := rfl
@[simp] theorem State.setCore_turn (k : Core) : (s.setCore n k).turn = s.turn := rfl
@[simp] theorem State.setCore_cur (k : Core) : (s.setCore n k).cur = s.cur := rfl
@[simp] theorem State.setCore_ir (k : Core) : (s.setCore n k).ir = s.ir := rfl
@[simp] theorem State.setCore_oracle (k : Core) : (s.setCore n k).oracle = s.oracle := rfl
@[simp] theorem State.setCore_clockFree (k : Core) : (s.setCore n k).clockFree = s.clockFree := rfl
@[simp] theorem State.setCore_wakeSeq (k : Core) : (s.setCore n k).wakeSeq = s.wakeSeq := rfl
@[simp] theorem State.setCore_net (k : Core) : (s.setCore n k).net = s.net := rfl
@[simp] theorem State.setCore_mem (k : Core) : (s.setCore n k).mem = s.mem := rfl
@[simp] theorem State.setCore_lm (k : Core) : (s.setCore n k).lm = s.lm := rfl
@[simp] theorem State.setCore_acc (k : Core) : (s.setCore n k).acc = s.acc := rfl
@[simp] theorem State.setCore_planes (k : Core) : (s.setCore n k).planes = s.planes := rfl
@[simp] theorem State.setCore_threads (k : Core) : (s.setCore n k).threads = s.threads := rfl
@[simp] theorem State.setCore_nextUid (k : Core) : (s.setCore n k).nextUid = s.nextUid := rfl
@[simp] theorem State.setCore_cores (k : Core) : (s.setCore n k).cores = tset s.cores n k := rfl
@[simp] theorem State.setCore_formes (k : Core) : (s.setCore n k).formes = s.formes := rfl
@[simp] theorem State.setCore_dies (k : Core) : (s.setCore n k).dies = s.dies := rfl
@[simp] theorem State.setCore_dir (k : Core) : (s.setCore n k).dir = s.dir := rfl
@[simp] theorem State.setCore_poison (k : Core) : (s.setCore n k).poison = s.poison := rfl
@[simp] theorem State.setCore_quoins (k : Core) : (s.setCore n k).quoins = s.quoins := rfl
@[simp] theorem State.setCore_faults (k : Core) : (s.setCore n k).faults = s.faults := rfl
@[simp] theorem State.setCore_heldTraps (k : Core) : (s.setCore n k).heldTraps = s.heldTraps := rfl
@[simp] theorem State.setCore_ctxs (k : Core) : (s.setCore n k).ctxs = s.ctxs := rfl
@[simp] theorem State.setCore_parts (k : Core) : (s.setCore n k).parts = s.parts := rfl
@[simp] theorem State.setCore_kernels (k : Core) : (s.setCore n k).kernels = s.kernels := rfl
@[simp] theorem State.setCore_groups (k : Core) : (s.setCore n k).groups = s.groups := rfl
@[simp] theorem State.setCore_nextGid (k : Core) : (s.setCore n k).nextGid = s.nextGid := rfl
@[simp] theorem State.setCore_orders (k : Core) : (s.setCore n k).orders = s.orders := rfl
@[simp] theorem State.setCore_links (k : Core) : (s.setCore n k).links = s.links := rfl
@[simp] theorem State.setCore_bindings (k : Core) : (s.setCore n k).bindings = s.bindings := rfl
@[simp] theorem State.setCore_windows (k : Core) : (s.setCore n k).windows = s.windows := rfl
@[simp] theorem State.setCore_rings (k : Core) : (s.setCore n k).rings = s.rings := rfl
@[simp] theorem State.setCore_peers (k : Core) : (s.setCore n k).peers = s.peers := rfl
@[simp] theorem State.setCore_blocks (k : Core) : (s.setCore n k).blocks = s.blocks := rfl
@[simp] theorem State.setCore_podOut (k : Core) : (s.setCore n k).podOut = s.podOut := rfl
@[simp] theorem State.setCore_buckets (k : Core) : (s.setCore n k).buckets = s.buckets := rfl
@[simp] theorem State.setCore_power (k : Core) : (s.setCore n k).power = s.power := rfl
@[simp] theorem State.setCore_diePower (k : Core) : (s.setCore n k).diePower = s.diePower := rfl
@[simp] theorem State.setCore_observe (k : Core) : (s.setCore n k).observe = s.observe := rfl
@[simp] theorem State.setCore_sparedRows (k : Core) : (s.setCore n k).sparedRows = s.sparedRows := rfl
@[simp] theorem State.setCore_sparedVault (k : Core) : (s.setCore n k).sparedVault = s.sparedVault := rfl
@[simp] theorem State.setCore_units (k : Core) : (s.setCore n k).units = s.units := rfl
@[simp] theorem State.setCore_hold (k : Core) : (s.setCore n k).hold = s.hold := rfl
@[simp] theorem State.setCore_heldUntil (k : Core) : (s.setCore n k).heldUntil = s.heldUntil := rfl
@[simp] theorem State.setCore_answers (k : Core) : (s.setCore n k).answers = s.answers := rfl

/-! ## Forme records -/

@[simp] theorem State.modForme_eq (g : Forme → Forme) : s.modForme n g = s.setForme n (g (s.forme n)) := rfl
@[simp] theorem State.forme_setForme (k : Forme) : (s.setForme n k).forme m = if m = n then k else s.forme m :=
  tget_tset _ _ _ _ _
@[simp] theorem State.thr_setForme (k : Forme) : (s.setForme n k).thr m = s.thr m := rfl
@[simp] theorem State.core_setForme (k : Forme) : (s.setForme n k).core m = s.core m := rfl
@[simp] theorem State.die_setForme (k : Forme) : (s.setForme n k).die m = s.die m := rfl
@[simp] theorem State.ctx_setForme (k : Forme) : (s.setForme n k).ctx m = s.ctx m := rfl
@[simp] theorem State.grp_setForme (k : Forme) : (s.setForme n k).grp m = s.grp m := rfl
@[simp] theorem State.ker_setForme (k : Forme) : (s.setForme n k).ker m = s.ker m := rfl
@[simp] theorem State.dpow_setForme (k : Forme) : (s.setForme n k).dpow m = s.dpow m := rfl
@[simp] theorem State.setForme_gtick (k : Forme) : (s.setForme n k).gtick = s.gtick := rfl
@[simp] theorem State.setForme_cyc (k : Forme) : (s.setForme n k).cyc = s.cyc := rfl
@[simp] theorem State.setForme_agenda (k : Forme) : (s.setForme n k).agenda = s.agenda := rfl
@[simp] theorem State.setForme_turn (k : Forme) : (s.setForme n k).turn = s.turn := rfl
@[simp] theorem State.setForme_cur (k : Forme) : (s.setForme n k).cur = s.cur := rfl
@[simp] theorem State.setForme_ir (k : Forme) : (s.setForme n k).ir = s.ir := rfl
@[simp] theorem State.setForme_oracle (k : Forme) : (s.setForme n k).oracle = s.oracle := rfl
@[simp] theorem State.setForme_clockFree (k : Forme) : (s.setForme n k).clockFree = s.clockFree := rfl
@[simp] theorem State.setForme_wakeSeq (k : Forme) : (s.setForme n k).wakeSeq = s.wakeSeq := rfl
@[simp] theorem State.setForme_net (k : Forme) : (s.setForme n k).net = s.net := rfl
@[simp] theorem State.setForme_mem (k : Forme) : (s.setForme n k).mem = s.mem := rfl
@[simp] theorem State.setForme_lm (k : Forme) : (s.setForme n k).lm = s.lm := rfl
@[simp] theorem State.setForme_acc (k : Forme) : (s.setForme n k).acc = s.acc := rfl
@[simp] theorem State.setForme_planes (k : Forme) : (s.setForme n k).planes = s.planes := rfl
@[simp] theorem State.setForme_threads (k : Forme) : (s.setForme n k).threads = s.threads := rfl
@[simp] theorem State.setForme_nextUid (k : Forme) : (s.setForme n k).nextUid = s.nextUid := rfl
@[simp] theorem State.setForme_cores (k : Forme) : (s.setForme n k).cores = s.cores := rfl
@[simp] theorem State.setForme_formes (k : Forme) : (s.setForme n k).formes = tset s.formes n k := rfl
@[simp] theorem State.setForme_dies (k : Forme) : (s.setForme n k).dies = s.dies := rfl
@[simp] theorem State.setForme_dir (k : Forme) : (s.setForme n k).dir = s.dir := rfl
@[simp] theorem State.setForme_poison (k : Forme) : (s.setForme n k).poison = s.poison := rfl
@[simp] theorem State.setForme_quoins (k : Forme) : (s.setForme n k).quoins = s.quoins := rfl
@[simp] theorem State.setForme_faults (k : Forme) : (s.setForme n k).faults = s.faults := rfl
@[simp] theorem State.setForme_heldTraps (k : Forme) : (s.setForme n k).heldTraps = s.heldTraps := rfl
@[simp] theorem State.setForme_ctxs (k : Forme) : (s.setForme n k).ctxs = s.ctxs := rfl
@[simp] theorem State.setForme_parts (k : Forme) : (s.setForme n k).parts = s.parts := rfl
@[simp] theorem State.setForme_kernels (k : Forme) : (s.setForme n k).kernels = s.kernels := rfl
@[simp] theorem State.setForme_groups (k : Forme) : (s.setForme n k).groups = s.groups := rfl
@[simp] theorem State.setForme_nextGid (k : Forme) : (s.setForme n k).nextGid = s.nextGid := rfl
@[simp] theorem State.setForme_orders (k : Forme) : (s.setForme n k).orders = s.orders := rfl
@[simp] theorem State.setForme_links (k : Forme) : (s.setForme n k).links = s.links := rfl
@[simp] theorem State.setForme_bindings (k : Forme) : (s.setForme n k).bindings = s.bindings := rfl
@[simp] theorem State.setForme_windows (k : Forme) : (s.setForme n k).windows = s.windows := rfl
@[simp] theorem State.setForme_rings (k : Forme) : (s.setForme n k).rings = s.rings := rfl
@[simp] theorem State.setForme_peers (k : Forme) : (s.setForme n k).peers = s.peers := rfl
@[simp] theorem State.setForme_blocks (k : Forme) : (s.setForme n k).blocks = s.blocks := rfl
@[simp] theorem State.setForme_podOut (k : Forme) : (s.setForme n k).podOut = s.podOut := rfl
@[simp] theorem State.setForme_buckets (k : Forme) : (s.setForme n k).buckets = s.buckets := rfl
@[simp] theorem State.setForme_power (k : Forme) : (s.setForme n k).power = s.power := rfl
@[simp] theorem State.setForme_diePower (k : Forme) : (s.setForme n k).diePower = s.diePower := rfl
@[simp] theorem State.setForme_observe (k : Forme) : (s.setForme n k).observe = s.observe := rfl
@[simp] theorem State.setForme_sparedRows (k : Forme) : (s.setForme n k).sparedRows = s.sparedRows := rfl
@[simp] theorem State.setForme_sparedVault (k : Forme) : (s.setForme n k).sparedVault = s.sparedVault := rfl
@[simp] theorem State.setForme_units (k : Forme) : (s.setForme n k).units = s.units := rfl
@[simp] theorem State.setForme_hold (k : Forme) : (s.setForme n k).hold = s.hold := rfl
@[simp] theorem State.setForme_heldUntil (k : Forme) : (s.setForme n k).heldUntil = s.heldUntil := rfl
@[simp] theorem State.setForme_answers (k : Forme) : (s.setForme n k).answers = s.answers := rfl

/-! ## Die records -/

@[simp] theorem State.modDie_eq (g : Die → Die) : s.modDie n g = s.setDie n (g (s.die n)) := rfl
@[simp] theorem State.die_setDie (k : Die) : (s.setDie n k).die m = if m = n then k else s.die m :=
  tget_tset _ _ _ _ _
@[simp] theorem State.thr_setDie (k : Die) : (s.setDie n k).thr m = s.thr m := rfl
@[simp] theorem State.core_setDie (k : Die) : (s.setDie n k).core m = s.core m := rfl
@[simp] theorem State.forme_setDie (k : Die) : (s.setDie n k).forme m = s.forme m := rfl
@[simp] theorem State.ctx_setDie (k : Die) : (s.setDie n k).ctx m = s.ctx m := rfl
@[simp] theorem State.grp_setDie (k : Die) : (s.setDie n k).grp m = s.grp m := rfl
@[simp] theorem State.ker_setDie (k : Die) : (s.setDie n k).ker m = s.ker m := rfl
@[simp] theorem State.dpow_setDie (k : Die) : (s.setDie n k).dpow m = s.dpow m := rfl
@[simp] theorem State.setDie_gtick (k : Die) : (s.setDie n k).gtick = s.gtick := rfl
@[simp] theorem State.setDie_cyc (k : Die) : (s.setDie n k).cyc = s.cyc := rfl
@[simp] theorem State.setDie_agenda (k : Die) : (s.setDie n k).agenda = s.agenda := rfl
@[simp] theorem State.setDie_turn (k : Die) : (s.setDie n k).turn = s.turn := rfl
@[simp] theorem State.setDie_cur (k : Die) : (s.setDie n k).cur = s.cur := rfl
@[simp] theorem State.setDie_ir (k : Die) : (s.setDie n k).ir = s.ir := rfl
@[simp] theorem State.setDie_oracle (k : Die) : (s.setDie n k).oracle = s.oracle := rfl
@[simp] theorem State.setDie_clockFree (k : Die) : (s.setDie n k).clockFree = s.clockFree := rfl
@[simp] theorem State.setDie_wakeSeq (k : Die) : (s.setDie n k).wakeSeq = s.wakeSeq := rfl
@[simp] theorem State.setDie_net (k : Die) : (s.setDie n k).net = s.net := rfl
@[simp] theorem State.setDie_mem (k : Die) : (s.setDie n k).mem = s.mem := rfl
@[simp] theorem State.setDie_lm (k : Die) : (s.setDie n k).lm = s.lm := rfl
@[simp] theorem State.setDie_acc (k : Die) : (s.setDie n k).acc = s.acc := rfl
@[simp] theorem State.setDie_planes (k : Die) : (s.setDie n k).planes = s.planes := rfl
@[simp] theorem State.setDie_threads (k : Die) : (s.setDie n k).threads = s.threads := rfl
@[simp] theorem State.setDie_nextUid (k : Die) : (s.setDie n k).nextUid = s.nextUid := rfl
@[simp] theorem State.setDie_cores (k : Die) : (s.setDie n k).cores = s.cores := rfl
@[simp] theorem State.setDie_formes (k : Die) : (s.setDie n k).formes = s.formes := rfl
@[simp] theorem State.setDie_dies (k : Die) : (s.setDie n k).dies = tset s.dies n k := rfl
@[simp] theorem State.setDie_dir (k : Die) : (s.setDie n k).dir = s.dir := rfl
@[simp] theorem State.setDie_poison (k : Die) : (s.setDie n k).poison = s.poison := rfl
@[simp] theorem State.setDie_quoins (k : Die) : (s.setDie n k).quoins = s.quoins := rfl
@[simp] theorem State.setDie_faults (k : Die) : (s.setDie n k).faults = s.faults := rfl
@[simp] theorem State.setDie_heldTraps (k : Die) : (s.setDie n k).heldTraps = s.heldTraps := rfl
@[simp] theorem State.setDie_ctxs (k : Die) : (s.setDie n k).ctxs = s.ctxs := rfl
@[simp] theorem State.setDie_parts (k : Die) : (s.setDie n k).parts = s.parts := rfl
@[simp] theorem State.setDie_kernels (k : Die) : (s.setDie n k).kernels = s.kernels := rfl
@[simp] theorem State.setDie_groups (k : Die) : (s.setDie n k).groups = s.groups := rfl
@[simp] theorem State.setDie_nextGid (k : Die) : (s.setDie n k).nextGid = s.nextGid := rfl
@[simp] theorem State.setDie_orders (k : Die) : (s.setDie n k).orders = s.orders := rfl
@[simp] theorem State.setDie_links (k : Die) : (s.setDie n k).links = s.links := rfl
@[simp] theorem State.setDie_bindings (k : Die) : (s.setDie n k).bindings = s.bindings := rfl
@[simp] theorem State.setDie_windows (k : Die) : (s.setDie n k).windows = s.windows := rfl
@[simp] theorem State.setDie_rings (k : Die) : (s.setDie n k).rings = s.rings := rfl
@[simp] theorem State.setDie_peers (k : Die) : (s.setDie n k).peers = s.peers := rfl
@[simp] theorem State.setDie_blocks (k : Die) : (s.setDie n k).blocks = s.blocks := rfl
@[simp] theorem State.setDie_podOut (k : Die) : (s.setDie n k).podOut = s.podOut := rfl
@[simp] theorem State.setDie_buckets (k : Die) : (s.setDie n k).buckets = s.buckets := rfl
@[simp] theorem State.setDie_power (k : Die) : (s.setDie n k).power = s.power := rfl
@[simp] theorem State.setDie_diePower (k : Die) : (s.setDie n k).diePower = s.diePower := rfl
@[simp] theorem State.setDie_observe (k : Die) : (s.setDie n k).observe = s.observe := rfl
@[simp] theorem State.setDie_sparedRows (k : Die) : (s.setDie n k).sparedRows = s.sparedRows := rfl
@[simp] theorem State.setDie_sparedVault (k : Die) : (s.setDie n k).sparedVault = s.sparedVault := rfl
@[simp] theorem State.setDie_units (k : Die) : (s.setDie n k).units = s.units := rfl
@[simp] theorem State.setDie_hold (k : Die) : (s.setDie n k).hold = s.hold := rfl
@[simp] theorem State.setDie_heldUntil (k : Die) : (s.setDie n k).heldUntil = s.heldUntil := rfl
@[simp] theorem State.setDie_answers (k : Die) : (s.setDie n k).answers = s.answers := rfl

/-! ## Ctx records -/

@[simp] theorem State.modCtx_eq (g : Ctx → Ctx) : s.modCtx n g = s.setCtx n (g (s.ctx n)) := rfl
@[simp] theorem State.ctx_setCtx (k : Ctx) : (s.setCtx n k).ctx m = if m = n then k else s.ctx m :=
  tget_tset _ _ _ _ _
@[simp] theorem State.thr_setCtx (k : Ctx) : (s.setCtx n k).thr m = s.thr m := rfl
@[simp] theorem State.core_setCtx (k : Ctx) : (s.setCtx n k).core m = s.core m := rfl
@[simp] theorem State.forme_setCtx (k : Ctx) : (s.setCtx n k).forme m = s.forme m := rfl
@[simp] theorem State.die_setCtx (k : Ctx) : (s.setCtx n k).die m = s.die m := rfl
@[simp] theorem State.grp_setCtx (k : Ctx) : (s.setCtx n k).grp m = s.grp m := rfl
@[simp] theorem State.ker_setCtx (k : Ctx) : (s.setCtx n k).ker m = s.ker m := rfl
@[simp] theorem State.dpow_setCtx (k : Ctx) : (s.setCtx n k).dpow m = s.dpow m := rfl
@[simp] theorem State.setCtx_gtick (k : Ctx) : (s.setCtx n k).gtick = s.gtick := rfl
@[simp] theorem State.setCtx_cyc (k : Ctx) : (s.setCtx n k).cyc = s.cyc := rfl
@[simp] theorem State.setCtx_agenda (k : Ctx) : (s.setCtx n k).agenda = s.agenda := rfl
@[simp] theorem State.setCtx_turn (k : Ctx) : (s.setCtx n k).turn = s.turn := rfl
@[simp] theorem State.setCtx_cur (k : Ctx) : (s.setCtx n k).cur = s.cur := rfl
@[simp] theorem State.setCtx_ir (k : Ctx) : (s.setCtx n k).ir = s.ir := rfl
@[simp] theorem State.setCtx_oracle (k : Ctx) : (s.setCtx n k).oracle = s.oracle := rfl
@[simp] theorem State.setCtx_clockFree (k : Ctx) : (s.setCtx n k).clockFree = s.clockFree := rfl
@[simp] theorem State.setCtx_wakeSeq (k : Ctx) : (s.setCtx n k).wakeSeq = s.wakeSeq := rfl
@[simp] theorem State.setCtx_net (k : Ctx) : (s.setCtx n k).net = s.net := rfl
@[simp] theorem State.setCtx_mem (k : Ctx) : (s.setCtx n k).mem = s.mem := rfl
@[simp] theorem State.setCtx_lm (k : Ctx) : (s.setCtx n k).lm = s.lm := rfl
@[simp] theorem State.setCtx_acc (k : Ctx) : (s.setCtx n k).acc = s.acc := rfl
@[simp] theorem State.setCtx_planes (k : Ctx) : (s.setCtx n k).planes = s.planes := rfl
@[simp] theorem State.setCtx_threads (k : Ctx) : (s.setCtx n k).threads = s.threads := rfl
@[simp] theorem State.setCtx_nextUid (k : Ctx) : (s.setCtx n k).nextUid = s.nextUid := rfl
@[simp] theorem State.setCtx_cores (k : Ctx) : (s.setCtx n k).cores = s.cores := rfl
@[simp] theorem State.setCtx_formes (k : Ctx) : (s.setCtx n k).formes = s.formes := rfl
@[simp] theorem State.setCtx_dies (k : Ctx) : (s.setCtx n k).dies = s.dies := rfl
@[simp] theorem State.setCtx_dir (k : Ctx) : (s.setCtx n k).dir = s.dir := rfl
@[simp] theorem State.setCtx_poison (k : Ctx) : (s.setCtx n k).poison = s.poison := rfl
@[simp] theorem State.setCtx_quoins (k : Ctx) : (s.setCtx n k).quoins = s.quoins := rfl
@[simp] theorem State.setCtx_faults (k : Ctx) : (s.setCtx n k).faults = s.faults := rfl
@[simp] theorem State.setCtx_heldTraps (k : Ctx) : (s.setCtx n k).heldTraps = s.heldTraps := rfl
@[simp] theorem State.setCtx_ctxs (k : Ctx) : (s.setCtx n k).ctxs = tset s.ctxs n k := rfl
@[simp] theorem State.setCtx_parts (k : Ctx) : (s.setCtx n k).parts = s.parts := rfl
@[simp] theorem State.setCtx_kernels (k : Ctx) : (s.setCtx n k).kernels = s.kernels := rfl
@[simp] theorem State.setCtx_groups (k : Ctx) : (s.setCtx n k).groups = s.groups := rfl
@[simp] theorem State.setCtx_nextGid (k : Ctx) : (s.setCtx n k).nextGid = s.nextGid := rfl
@[simp] theorem State.setCtx_orders (k : Ctx) : (s.setCtx n k).orders = s.orders := rfl
@[simp] theorem State.setCtx_links (k : Ctx) : (s.setCtx n k).links = s.links := rfl
@[simp] theorem State.setCtx_bindings (k : Ctx) : (s.setCtx n k).bindings = s.bindings := rfl
@[simp] theorem State.setCtx_windows (k : Ctx) : (s.setCtx n k).windows = s.windows := rfl
@[simp] theorem State.setCtx_rings (k : Ctx) : (s.setCtx n k).rings = s.rings := rfl
@[simp] theorem State.setCtx_peers (k : Ctx) : (s.setCtx n k).peers = s.peers := rfl
@[simp] theorem State.setCtx_blocks (k : Ctx) : (s.setCtx n k).blocks = s.blocks := rfl
@[simp] theorem State.setCtx_podOut (k : Ctx) : (s.setCtx n k).podOut = s.podOut := rfl
@[simp] theorem State.setCtx_buckets (k : Ctx) : (s.setCtx n k).buckets = s.buckets := rfl
@[simp] theorem State.setCtx_power (k : Ctx) : (s.setCtx n k).power = s.power := rfl
@[simp] theorem State.setCtx_diePower (k : Ctx) : (s.setCtx n k).diePower = s.diePower := rfl
@[simp] theorem State.setCtx_observe (k : Ctx) : (s.setCtx n k).observe = s.observe := rfl
@[simp] theorem State.setCtx_sparedRows (k : Ctx) : (s.setCtx n k).sparedRows = s.sparedRows := rfl
@[simp] theorem State.setCtx_sparedVault (k : Ctx) : (s.setCtx n k).sparedVault = s.sparedVault := rfl
@[simp] theorem State.setCtx_units (k : Ctx) : (s.setCtx n k).units = s.units := rfl
@[simp] theorem State.setCtx_hold (k : Ctx) : (s.setCtx n k).hold = s.hold := rfl
@[simp] theorem State.setCtx_heldUntil (k : Ctx) : (s.setCtx n k).heldUntil = s.heldUntil := rfl
@[simp] theorem State.setCtx_answers (k : Ctx) : (s.setCtx n k).answers = s.answers := rfl

/-! ## Group records -/

@[simp] theorem State.modGrp_eq (g : Group → Group) : s.modGrp n g = s.setGrp n (g (s.grp n)) := rfl
@[simp] theorem State.grp_setGrp (k : Group) : (s.setGrp n k).grp m = if m = n then k else s.grp m :=
  tget_tset _ _ _ _ _
@[simp] theorem State.thr_setGrp (k : Group) : (s.setGrp n k).thr m = s.thr m := rfl
@[simp] theorem State.core_setGrp (k : Group) : (s.setGrp n k).core m = s.core m := rfl
@[simp] theorem State.forme_setGrp (k : Group) : (s.setGrp n k).forme m = s.forme m := rfl
@[simp] theorem State.die_setGrp (k : Group) : (s.setGrp n k).die m = s.die m := rfl
@[simp] theorem State.ctx_setGrp (k : Group) : (s.setGrp n k).ctx m = s.ctx m := rfl
@[simp] theorem State.ker_setGrp (k : Group) : (s.setGrp n k).ker m = s.ker m := rfl
@[simp] theorem State.dpow_setGrp (k : Group) : (s.setGrp n k).dpow m = s.dpow m := rfl
@[simp] theorem State.setGrp_gtick (k : Group) : (s.setGrp n k).gtick = s.gtick := rfl
@[simp] theorem State.setGrp_cyc (k : Group) : (s.setGrp n k).cyc = s.cyc := rfl
@[simp] theorem State.setGrp_agenda (k : Group) : (s.setGrp n k).agenda = s.agenda := rfl
@[simp] theorem State.setGrp_turn (k : Group) : (s.setGrp n k).turn = s.turn := rfl
@[simp] theorem State.setGrp_cur (k : Group) : (s.setGrp n k).cur = s.cur := rfl
@[simp] theorem State.setGrp_ir (k : Group) : (s.setGrp n k).ir = s.ir := rfl
@[simp] theorem State.setGrp_oracle (k : Group) : (s.setGrp n k).oracle = s.oracle := rfl
@[simp] theorem State.setGrp_clockFree (k : Group) : (s.setGrp n k).clockFree = s.clockFree := rfl
@[simp] theorem State.setGrp_wakeSeq (k : Group) : (s.setGrp n k).wakeSeq = s.wakeSeq := rfl
@[simp] theorem State.setGrp_net (k : Group) : (s.setGrp n k).net = s.net := rfl
@[simp] theorem State.setGrp_mem (k : Group) : (s.setGrp n k).mem = s.mem := rfl
@[simp] theorem State.setGrp_lm (k : Group) : (s.setGrp n k).lm = s.lm := rfl
@[simp] theorem State.setGrp_acc (k : Group) : (s.setGrp n k).acc = s.acc := rfl
@[simp] theorem State.setGrp_planes (k : Group) : (s.setGrp n k).planes = s.planes := rfl
@[simp] theorem State.setGrp_threads (k : Group) : (s.setGrp n k).threads = s.threads := rfl
@[simp] theorem State.setGrp_nextUid (k : Group) : (s.setGrp n k).nextUid = s.nextUid := rfl
@[simp] theorem State.setGrp_cores (k : Group) : (s.setGrp n k).cores = s.cores := rfl
@[simp] theorem State.setGrp_formes (k : Group) : (s.setGrp n k).formes = s.formes := rfl
@[simp] theorem State.setGrp_dies (k : Group) : (s.setGrp n k).dies = s.dies := rfl
@[simp] theorem State.setGrp_dir (k : Group) : (s.setGrp n k).dir = s.dir := rfl
@[simp] theorem State.setGrp_poison (k : Group) : (s.setGrp n k).poison = s.poison := rfl
@[simp] theorem State.setGrp_quoins (k : Group) : (s.setGrp n k).quoins = s.quoins := rfl
@[simp] theorem State.setGrp_faults (k : Group) : (s.setGrp n k).faults = s.faults := rfl
@[simp] theorem State.setGrp_heldTraps (k : Group) : (s.setGrp n k).heldTraps = s.heldTraps := rfl
@[simp] theorem State.setGrp_ctxs (k : Group) : (s.setGrp n k).ctxs = s.ctxs := rfl
@[simp] theorem State.setGrp_parts (k : Group) : (s.setGrp n k).parts = s.parts := rfl
@[simp] theorem State.setGrp_kernels (k : Group) : (s.setGrp n k).kernels = s.kernels := rfl
@[simp] theorem State.setGrp_groups (k : Group) : (s.setGrp n k).groups = tset s.groups n k := rfl
@[simp] theorem State.setGrp_nextGid (k : Group) : (s.setGrp n k).nextGid = s.nextGid := rfl
@[simp] theorem State.setGrp_orders (k : Group) : (s.setGrp n k).orders = s.orders := rfl
@[simp] theorem State.setGrp_links (k : Group) : (s.setGrp n k).links = s.links := rfl
@[simp] theorem State.setGrp_bindings (k : Group) : (s.setGrp n k).bindings = s.bindings := rfl
@[simp] theorem State.setGrp_windows (k : Group) : (s.setGrp n k).windows = s.windows := rfl
@[simp] theorem State.setGrp_rings (k : Group) : (s.setGrp n k).rings = s.rings := rfl
@[simp] theorem State.setGrp_peers (k : Group) : (s.setGrp n k).peers = s.peers := rfl
@[simp] theorem State.setGrp_blocks (k : Group) : (s.setGrp n k).blocks = s.blocks := rfl
@[simp] theorem State.setGrp_podOut (k : Group) : (s.setGrp n k).podOut = s.podOut := rfl
@[simp] theorem State.setGrp_buckets (k : Group) : (s.setGrp n k).buckets = s.buckets := rfl
@[simp] theorem State.setGrp_power (k : Group) : (s.setGrp n k).power = s.power := rfl
@[simp] theorem State.setGrp_diePower (k : Group) : (s.setGrp n k).diePower = s.diePower := rfl
@[simp] theorem State.setGrp_observe (k : Group) : (s.setGrp n k).observe = s.observe := rfl
@[simp] theorem State.setGrp_sparedRows (k : Group) : (s.setGrp n k).sparedRows = s.sparedRows := rfl
@[simp] theorem State.setGrp_sparedVault (k : Group) : (s.setGrp n k).sparedVault = s.sparedVault := rfl
@[simp] theorem State.setGrp_units (k : Group) : (s.setGrp n k).units = s.units := rfl
@[simp] theorem State.setGrp_hold (k : Group) : (s.setGrp n k).hold = s.hold := rfl
@[simp] theorem State.setGrp_heldUntil (k : Group) : (s.setGrp n k).heldUntil = s.heldUntil := rfl
@[simp] theorem State.setGrp_answers (k : Group) : (s.setGrp n k).answers = s.answers := rfl

/-! ## Kernel records -/

@[simp] theorem State.modKer_eq (g : Kernel → Kernel) : s.modKer n g = s.setKer n (g (s.ker n)) := rfl
@[simp] theorem State.ker_setKer (k : Kernel) : (s.setKer n k).ker m = if m = n then k else s.ker m :=
  tget_tset _ _ _ _ _
@[simp] theorem State.thr_setKer (k : Kernel) : (s.setKer n k).thr m = s.thr m := rfl
@[simp] theorem State.core_setKer (k : Kernel) : (s.setKer n k).core m = s.core m := rfl
@[simp] theorem State.forme_setKer (k : Kernel) : (s.setKer n k).forme m = s.forme m := rfl
@[simp] theorem State.die_setKer (k : Kernel) : (s.setKer n k).die m = s.die m := rfl
@[simp] theorem State.ctx_setKer (k : Kernel) : (s.setKer n k).ctx m = s.ctx m := rfl
@[simp] theorem State.grp_setKer (k : Kernel) : (s.setKer n k).grp m = s.grp m := rfl
@[simp] theorem State.dpow_setKer (k : Kernel) : (s.setKer n k).dpow m = s.dpow m := rfl
@[simp] theorem State.setKer_gtick (k : Kernel) : (s.setKer n k).gtick = s.gtick := rfl
@[simp] theorem State.setKer_cyc (k : Kernel) : (s.setKer n k).cyc = s.cyc := rfl
@[simp] theorem State.setKer_agenda (k : Kernel) : (s.setKer n k).agenda = s.agenda := rfl
@[simp] theorem State.setKer_turn (k : Kernel) : (s.setKer n k).turn = s.turn := rfl
@[simp] theorem State.setKer_cur (k : Kernel) : (s.setKer n k).cur = s.cur := rfl
@[simp] theorem State.setKer_ir (k : Kernel) : (s.setKer n k).ir = s.ir := rfl
@[simp] theorem State.setKer_oracle (k : Kernel) : (s.setKer n k).oracle = s.oracle := rfl
@[simp] theorem State.setKer_clockFree (k : Kernel) : (s.setKer n k).clockFree = s.clockFree := rfl
@[simp] theorem State.setKer_wakeSeq (k : Kernel) : (s.setKer n k).wakeSeq = s.wakeSeq := rfl
@[simp] theorem State.setKer_net (k : Kernel) : (s.setKer n k).net = s.net := rfl
@[simp] theorem State.setKer_mem (k : Kernel) : (s.setKer n k).mem = s.mem := rfl
@[simp] theorem State.setKer_lm (k : Kernel) : (s.setKer n k).lm = s.lm := rfl
@[simp] theorem State.setKer_acc (k : Kernel) : (s.setKer n k).acc = s.acc := rfl
@[simp] theorem State.setKer_planes (k : Kernel) : (s.setKer n k).planes = s.planes := rfl
@[simp] theorem State.setKer_threads (k : Kernel) : (s.setKer n k).threads = s.threads := rfl
@[simp] theorem State.setKer_nextUid (k : Kernel) : (s.setKer n k).nextUid = s.nextUid := rfl
@[simp] theorem State.setKer_cores (k : Kernel) : (s.setKer n k).cores = s.cores := rfl
@[simp] theorem State.setKer_formes (k : Kernel) : (s.setKer n k).formes = s.formes := rfl
@[simp] theorem State.setKer_dies (k : Kernel) : (s.setKer n k).dies = s.dies := rfl
@[simp] theorem State.setKer_dir (k : Kernel) : (s.setKer n k).dir = s.dir := rfl
@[simp] theorem State.setKer_poison (k : Kernel) : (s.setKer n k).poison = s.poison := rfl
@[simp] theorem State.setKer_quoins (k : Kernel) : (s.setKer n k).quoins = s.quoins := rfl
@[simp] theorem State.setKer_faults (k : Kernel) : (s.setKer n k).faults = s.faults := rfl
@[simp] theorem State.setKer_heldTraps (k : Kernel) : (s.setKer n k).heldTraps = s.heldTraps := rfl
@[simp] theorem State.setKer_ctxs (k : Kernel) : (s.setKer n k).ctxs = s.ctxs := rfl
@[simp] theorem State.setKer_parts (k : Kernel) : (s.setKer n k).parts = s.parts := rfl
@[simp] theorem State.setKer_kernels (k : Kernel) : (s.setKer n k).kernels = tset s.kernels n k := rfl
@[simp] theorem State.setKer_groups (k : Kernel) : (s.setKer n k).groups = s.groups := rfl
@[simp] theorem State.setKer_nextGid (k : Kernel) : (s.setKer n k).nextGid = s.nextGid := rfl
@[simp] theorem State.setKer_orders (k : Kernel) : (s.setKer n k).orders = s.orders := rfl
@[simp] theorem State.setKer_links (k : Kernel) : (s.setKer n k).links = s.links := rfl
@[simp] theorem State.setKer_bindings (k : Kernel) : (s.setKer n k).bindings = s.bindings := rfl
@[simp] theorem State.setKer_windows (k : Kernel) : (s.setKer n k).windows = s.windows := rfl
@[simp] theorem State.setKer_rings (k : Kernel) : (s.setKer n k).rings = s.rings := rfl
@[simp] theorem State.setKer_peers (k : Kernel) : (s.setKer n k).peers = s.peers := rfl
@[simp] theorem State.setKer_blocks (k : Kernel) : (s.setKer n k).blocks = s.blocks := rfl
@[simp] theorem State.setKer_podOut (k : Kernel) : (s.setKer n k).podOut = s.podOut := rfl
@[simp] theorem State.setKer_buckets (k : Kernel) : (s.setKer n k).buckets = s.buckets := rfl
@[simp] theorem State.setKer_power (k : Kernel) : (s.setKer n k).power = s.power := rfl
@[simp] theorem State.setKer_diePower (k : Kernel) : (s.setKer n k).diePower = s.diePower := rfl
@[simp] theorem State.setKer_observe (k : Kernel) : (s.setKer n k).observe = s.observe := rfl
@[simp] theorem State.setKer_sparedRows (k : Kernel) : (s.setKer n k).sparedRows = s.sparedRows := rfl
@[simp] theorem State.setKer_sparedVault (k : Kernel) : (s.setKer n k).sparedVault = s.sparedVault := rfl
@[simp] theorem State.setKer_units (k : Kernel) : (s.setKer n k).units = s.units := rfl
@[simp] theorem State.setKer_hold (k : Kernel) : (s.setKer n k).hold = s.hold := rfl
@[simp] theorem State.setKer_heldUntil (k : Kernel) : (s.setKer n k).heldUntil = s.heldUntil := rfl
@[simp] theorem State.setKer_answers (k : Kernel) : (s.setKer n k).answers = s.answers := rfl

/-! ## DiePower records -/

@[simp] theorem State.modDpow_eq (g : DiePower → DiePower) : s.modDpow n g = s.setDpow n (g (s.dpow n)) := rfl
@[simp] theorem State.dpow_setDpow (k : DiePower) : (s.setDpow n k).dpow m = if m = n then k else s.dpow m :=
  tget_tset _ _ _ _ _
@[simp] theorem State.thr_setDpow (k : DiePower) : (s.setDpow n k).thr m = s.thr m := rfl
@[simp] theorem State.core_setDpow (k : DiePower) : (s.setDpow n k).core m = s.core m := rfl
@[simp] theorem State.forme_setDpow (k : DiePower) : (s.setDpow n k).forme m = s.forme m := rfl
@[simp] theorem State.die_setDpow (k : DiePower) : (s.setDpow n k).die m = s.die m := rfl
@[simp] theorem State.ctx_setDpow (k : DiePower) : (s.setDpow n k).ctx m = s.ctx m := rfl
@[simp] theorem State.grp_setDpow (k : DiePower) : (s.setDpow n k).grp m = s.grp m := rfl
@[simp] theorem State.ker_setDpow (k : DiePower) : (s.setDpow n k).ker m = s.ker m := rfl
@[simp] theorem State.setDpow_gtick (k : DiePower) : (s.setDpow n k).gtick = s.gtick := rfl
@[simp] theorem State.setDpow_cyc (k : DiePower) : (s.setDpow n k).cyc = s.cyc := rfl
@[simp] theorem State.setDpow_agenda (k : DiePower) : (s.setDpow n k).agenda = s.agenda := rfl
@[simp] theorem State.setDpow_turn (k : DiePower) : (s.setDpow n k).turn = s.turn := rfl
@[simp] theorem State.setDpow_cur (k : DiePower) : (s.setDpow n k).cur = s.cur := rfl
@[simp] theorem State.setDpow_ir (k : DiePower) : (s.setDpow n k).ir = s.ir := rfl
@[simp] theorem State.setDpow_oracle (k : DiePower) : (s.setDpow n k).oracle = s.oracle := rfl
@[simp] theorem State.setDpow_clockFree (k : DiePower) : (s.setDpow n k).clockFree = s.clockFree := rfl
@[simp] theorem State.setDpow_wakeSeq (k : DiePower) : (s.setDpow n k).wakeSeq = s.wakeSeq := rfl
@[simp] theorem State.setDpow_net (k : DiePower) : (s.setDpow n k).net = s.net := rfl
@[simp] theorem State.setDpow_mem (k : DiePower) : (s.setDpow n k).mem = s.mem := rfl
@[simp] theorem State.setDpow_lm (k : DiePower) : (s.setDpow n k).lm = s.lm := rfl
@[simp] theorem State.setDpow_acc (k : DiePower) : (s.setDpow n k).acc = s.acc := rfl
@[simp] theorem State.setDpow_planes (k : DiePower) : (s.setDpow n k).planes = s.planes := rfl
@[simp] theorem State.setDpow_threads (k : DiePower) : (s.setDpow n k).threads = s.threads := rfl
@[simp] theorem State.setDpow_nextUid (k : DiePower) : (s.setDpow n k).nextUid = s.nextUid := rfl
@[simp] theorem State.setDpow_cores (k : DiePower) : (s.setDpow n k).cores = s.cores := rfl
@[simp] theorem State.setDpow_formes (k : DiePower) : (s.setDpow n k).formes = s.formes := rfl
@[simp] theorem State.setDpow_dies (k : DiePower) : (s.setDpow n k).dies = s.dies := rfl
@[simp] theorem State.setDpow_dir (k : DiePower) : (s.setDpow n k).dir = s.dir := rfl
@[simp] theorem State.setDpow_poison (k : DiePower) : (s.setDpow n k).poison = s.poison := rfl
@[simp] theorem State.setDpow_quoins (k : DiePower) : (s.setDpow n k).quoins = s.quoins := rfl
@[simp] theorem State.setDpow_faults (k : DiePower) : (s.setDpow n k).faults = s.faults := rfl
@[simp] theorem State.setDpow_heldTraps (k : DiePower) : (s.setDpow n k).heldTraps = s.heldTraps := rfl
@[simp] theorem State.setDpow_ctxs (k : DiePower) : (s.setDpow n k).ctxs = s.ctxs := rfl
@[simp] theorem State.setDpow_parts (k : DiePower) : (s.setDpow n k).parts = s.parts := rfl
@[simp] theorem State.setDpow_kernels (k : DiePower) : (s.setDpow n k).kernels = s.kernels := rfl
@[simp] theorem State.setDpow_groups (k : DiePower) : (s.setDpow n k).groups = s.groups := rfl
@[simp] theorem State.setDpow_nextGid (k : DiePower) : (s.setDpow n k).nextGid = s.nextGid := rfl
@[simp] theorem State.setDpow_orders (k : DiePower) : (s.setDpow n k).orders = s.orders := rfl
@[simp] theorem State.setDpow_links (k : DiePower) : (s.setDpow n k).links = s.links := rfl
@[simp] theorem State.setDpow_bindings (k : DiePower) : (s.setDpow n k).bindings = s.bindings := rfl
@[simp] theorem State.setDpow_windows (k : DiePower) : (s.setDpow n k).windows = s.windows := rfl
@[simp] theorem State.setDpow_rings (k : DiePower) : (s.setDpow n k).rings = s.rings := rfl
@[simp] theorem State.setDpow_peers (k : DiePower) : (s.setDpow n k).peers = s.peers := rfl
@[simp] theorem State.setDpow_blocks (k : DiePower) : (s.setDpow n k).blocks = s.blocks := rfl
@[simp] theorem State.setDpow_podOut (k : DiePower) : (s.setDpow n k).podOut = s.podOut := rfl
@[simp] theorem State.setDpow_buckets (k : DiePower) : (s.setDpow n k).buckets = s.buckets := rfl
@[simp] theorem State.setDpow_power (k : DiePower) : (s.setDpow n k).power = s.power := rfl
@[simp] theorem State.setDpow_diePower (k : DiePower) : (s.setDpow n k).diePower = tset s.diePower n k := rfl
@[simp] theorem State.setDpow_observe (k : DiePower) : (s.setDpow n k).observe = s.observe := rfl
@[simp] theorem State.setDpow_sparedRows (k : DiePower) : (s.setDpow n k).sparedRows = s.sparedRows := rfl
@[simp] theorem State.setDpow_sparedVault (k : DiePower) : (s.setDpow n k).sparedVault = s.sparedVault := rfl
@[simp] theorem State.setDpow_units (k : DiePower) : (s.setDpow n k).units = s.units := rfl
@[simp] theorem State.setDpow_hold (k : DiePower) : (s.setDpow n k).hold = s.hold := rfl
@[simp] theorem State.setDpow_heldUntil (k : DiePower) : (s.setDpow n k).heldUntil = s.heldUntil := rfl
@[simp] theorem State.setDpow_answers (k : DiePower) : (s.setDpow n k).answers = s.answers := rfl

/-! ## Threads -/

variable (t : Thread) (r : BitVec 4) (v : Word)

@[simp] theorem Thread.retire_st : t.retire.st = t.st := rfl
@[simp] theorem Thread.retire_runnable : t.retire.runnable = t.runnable := rfl
@[simp] theorem Thread.retire_wokenAt : t.retire.wokenAt = t.wokenAt := rfl
@[simp] theorem Thread.retire_prio : t.retire.prio = t.prio := rfl
@[simp] theorem Thread.retire_saved : t.retire.saved = t.saved := rfl
@[simp] theorem Thread.retire_core : t.retire.core = t.core := rfl
@[simp] theorem Thread.retire_slot : t.retire.slot = t.slot := rfl
@[simp] theorem Thread.retire_slotFrom : t.retire.slotFrom = t.slotFrom := rfl
@[simp] theorem Thread.retire_target : t.retire.target = t.target := rfl
@[simp] theorem Thread.retire_gid : t.retire.gid = t.gid := rfl
@[simp] theorem Thread.retire_index : t.retire.index = t.index := rfl
@[simp] theorem Thread.retire_rank : t.retire.rank = t.rank := rfl
@[simp] theorem Thread.retire_thrid : t.retire.thrid = t.thrid := rfl
@[simp] theorem Thread.retire_regs : t.retire.regs = t.regs := rfl
@[simp] theorem Thread.retire_pc : t.retire.pc = t.pc + 4 := rfl
@[simp] theorem Thread.retire_oc : t.retire.oc = t.oc := rfl
@[simp] theorem Thread.retire_vregs : t.retire.vregs = t.vregs := rfl
@[simp] theorem Thread.retire_vmask : t.retire.vmask = t.vmask := rfl
@[simp] theorem Thread.retire_vrm : t.retire.vrm = t.vrm := rfl
@[simp] theorem Thread.retire_dphase : t.retire.dphase = t.dphase := rfl
@[simp] theorem Thread.retire_pushref : t.retire.pushref = t.pushref := rfl
@[simp] theorem Thread.retire_yldlim : t.retire.yldlim = t.yldlim := rfl
@[simp] theorem Thread.retire_cycles : t.retire.cycles = t.cycles := rfl
@[simp] theorem Thread.retire_instret : t.retire.instret = t.instret + 1 := rfl
@[simp] theorem Thread.retire_moves : t.retire.moves = t.moves := rfl
@[simp] theorem Thread.retire_dirty : t.retire.dirty = t.dirty := rfl
@[simp] theorem Thread.retire_cursor : t.retire.cursor = t.cursor := rfl
@[simp] theorem Thread.retire_bytes : t.retire.bytes = t.bytes := rfl
@[simp] theorem Thread.retire_trail : t.retire.trail = t.trail := rfl
@[simp] theorem Thread.retire_wake : t.retire.wake = t.wake := rfl
@[simp] theorem Thread.retire_wait : t.retire.wait = t.wait := rfl
@[simp] theorem Thread.retire_waitFrom : t.retire.waitFrom = t.waitFrom := rfl
@[simp] theorem Thread.retire_movedPending : t.retire.movedPending = t.movedPending := rfl
@[simp] theorem Thread.retire_pushes : t.retire.pushes = t.pushes := rfl
@[simp] theorem Thread.retire_refusal : t.retire.refusal = t.refusal := rfl
@[simp] theorem Thread.retire_remote : t.retire.remote = t.remote := rfl
@[simp] theorem Thread.retire_ending : t.retire.ending = t.ending := rfl
@[simp] theorem Thread.retire_last : t.retire.last = t.last := rfl
@[simp] theorem Thread.retire_late : t.retire.late = t.late := rfl
@[simp] theorem Thread.retire_trap : t.retire.trap = t.trap := rfl
@[simp] theorem Thread.retire_arrived : t.retire.arrived = t.arrived := rfl
@[simp] theorem Thread.retire_linked : t.retire.linked = t.linked := rfl
@[simp] theorem Thread.retire_agent : t.retire.agent = t.agent := rfl
@[simp] theorem Thread.retire_interval : t.retire.interval = t.interval := rfl
@[simp] theorem Thread.retire_epoch : t.retire.epoch = t.epoch := rfl
@[simp] theorem Thread.retire_acq : t.retire.acq = t.acq := rfl
@[simp] theorem Thread.retire_overflow : t.retire.overflow = t.overflow := rfl
@[simp] theorem Thread.retire_seen : t.retire.seen = t.seen := rfl
@[simp] theorem Thread.retire_releasing : t.retire.releasing = t.releasing := rfl
@[simp] theorem Thread.retire_sig : t.retire.sig = t.sig := rfl
@[simp] theorem Thread.setReg_st : (t.setReg r v).st = t.st := by
  unfold Thread.setReg; split <;> rfl
@[simp] theorem Thread.setReg_runnable : (t.setReg r v).runnable = t.runnable := by
  unfold Thread.setReg; split <;> rfl
@[simp] theorem Thread.setReg_wokenAt : (t.setReg r v).wokenAt = t.wokenAt := by
  unfold Thread.setReg; split <;> rfl
@[simp] theorem Thread.setReg_prio : (t.setReg r v).prio = t.prio := by
  unfold Thread.setReg; split <;> rfl
@[simp] theorem Thread.setReg_saved : (t.setReg r v).saved = t.saved := by
  unfold Thread.setReg; split <;> rfl
@[simp] theorem Thread.setReg_core : (t.setReg r v).core = t.core := by
  unfold Thread.setReg; split <;> rfl
@[simp] theorem Thread.setReg_slot : (t.setReg r v).slot = t.slot := by
  unfold Thread.setReg; split <;> rfl
@[simp] theorem Thread.setReg_slotFrom : (t.setReg r v).slotFrom = t.slotFrom := by
  unfold Thread.setReg; split <;> rfl
@[simp] theorem Thread.setReg_target : (t.setReg r v).target = t.target := by
  unfold Thread.setReg; split <;> rfl
@[simp] theorem Thread.setReg_gid : (t.setReg r v).gid = t.gid := by
  unfold Thread.setReg; split <;> rfl
@[simp] theorem Thread.setReg_index : (t.setReg r v).index = t.index := by
  unfold Thread.setReg; split <;> rfl
@[simp] theorem Thread.setReg_rank : (t.setReg r v).rank = t.rank := by
  unfold Thread.setReg; split <;> rfl
@[simp] theorem Thread.setReg_thrid : (t.setReg r v).thrid = t.thrid := by
  unfold Thread.setReg; split <;> rfl
@[simp] theorem Thread.setReg_pc : (t.setReg r v).pc = t.pc := by
  unfold Thread.setReg; split <;> rfl
@[simp] theorem Thread.setReg_oc : (t.setReg r v).oc = t.oc := by
  unfold Thread.setReg; split <;> rfl
@[simp] theorem Thread.setReg_vregs : (t.setReg r v).vregs = t.vregs := by
  unfold Thread.setReg; split <;> rfl
@[simp] theorem Thread.setReg_vmask : (t.setReg r v).vmask = t.vmask := by
  unfold Thread.setReg; split <;> rfl
@[simp] theorem Thread.setReg_vrm : (t.setReg r v).vrm = t.vrm := by
  unfold Thread.setReg; split <;> rfl
@[simp] theorem Thread.setReg_dphase : (t.setReg r v).dphase = t.dphase := by
  unfold Thread.setReg; split <;> rfl
@[simp] theorem Thread.setReg_pushref : (t.setReg r v).pushref = t.pushref := by
  unfold Thread.setReg; split <;> rfl
@[simp] theorem Thread.setReg_yldlim : (t.setReg r v).yldlim = t.yldlim := by
  unfold Thread.setReg; split <;> rfl
@[simp] theorem Thread.setReg_cycles : (t.setReg r v).cycles = t.cycles := by
  unfold Thread.setReg; split <;> rfl
@[simp] theorem Thread.setReg_instret : (t.setReg r v).instret = t.instret := by
  unfold Thread.setReg; split <;> rfl
@[simp] theorem Thread.setReg_moves : (t.setReg r v).moves = t.moves := by
  unfold Thread.setReg; split <;> rfl
@[simp] theorem Thread.setReg_dirty : (t.setReg r v).dirty = t.dirty := by
  unfold Thread.setReg; split <;> rfl
@[simp] theorem Thread.setReg_cursor : (t.setReg r v).cursor = t.cursor := by
  unfold Thread.setReg; split <;> rfl
@[simp] theorem Thread.setReg_bytes : (t.setReg r v).bytes = t.bytes := by
  unfold Thread.setReg; split <;> rfl
@[simp] theorem Thread.setReg_trail : (t.setReg r v).trail = t.trail := by
  unfold Thread.setReg; split <;> rfl
@[simp] theorem Thread.setReg_wake : (t.setReg r v).wake = t.wake := by
  unfold Thread.setReg; split <;> rfl
@[simp] theorem Thread.setReg_wait : (t.setReg r v).wait = t.wait := by
  unfold Thread.setReg; split <;> rfl
@[simp] theorem Thread.setReg_waitFrom : (t.setReg r v).waitFrom = t.waitFrom := by
  unfold Thread.setReg; split <;> rfl
@[simp] theorem Thread.setReg_movedPending : (t.setReg r v).movedPending = t.movedPending := by
  unfold Thread.setReg; split <;> rfl
@[simp] theorem Thread.setReg_pushes : (t.setReg r v).pushes = t.pushes := by
  unfold Thread.setReg; split <;> rfl
@[simp] theorem Thread.setReg_refusal : (t.setReg r v).refusal = t.refusal := by
  unfold Thread.setReg; split <;> rfl
@[simp] theorem Thread.setReg_remote : (t.setReg r v).remote = t.remote := by
  unfold Thread.setReg; split <;> rfl
@[simp] theorem Thread.setReg_ending : (t.setReg r v).ending = t.ending := by
  unfold Thread.setReg; split <;> rfl
@[simp] theorem Thread.setReg_last : (t.setReg r v).last = t.last := by
  unfold Thread.setReg; split <;> rfl
@[simp] theorem Thread.setReg_late : (t.setReg r v).late = t.late := by
  unfold Thread.setReg; split <;> rfl
@[simp] theorem Thread.setReg_trap : (t.setReg r v).trap = t.trap := by
  unfold Thread.setReg; split <;> rfl
@[simp] theorem Thread.setReg_arrived : (t.setReg r v).arrived = t.arrived := by
  unfold Thread.setReg; split <;> rfl
@[simp] theorem Thread.setReg_linked : (t.setReg r v).linked = t.linked := by
  unfold Thread.setReg; split <;> rfl
@[simp] theorem Thread.setReg_agent : (t.setReg r v).agent = t.agent := by
  unfold Thread.setReg; split <;> rfl
@[simp] theorem Thread.setReg_interval : (t.setReg r v).interval = t.interval := by
  unfold Thread.setReg; split <;> rfl
@[simp] theorem Thread.setReg_epoch : (t.setReg r v).epoch = t.epoch := by
  unfold Thread.setReg; split <;> rfl
@[simp] theorem Thread.setReg_acq : (t.setReg r v).acq = t.acq := by
  unfold Thread.setReg; split <;> rfl
@[simp] theorem Thread.setReg_overflow : (t.setReg r v).overflow = t.overflow := by
  unfold Thread.setReg; split <;> rfl
@[simp] theorem Thread.setReg_seen : (t.setReg r v).seen = t.seen := by
  unfold Thread.setReg; split <;> rfl
@[simp] theorem Thread.setReg_releasing : (t.setReg r v).releasing = t.releasing := by
  unfold Thread.setReg; split <;> rfl
@[simp] theorem Thread.setReg_sig : (t.setReg r v).sig = t.sig := by
  unfold Thread.setReg; split <;> rfl

@[simp] theorem Thread.reg_retire : t.retire.reg r = t.reg r := rfl

/-- A register read after a write: a write to x0 is discarded, and x0 reads zero (R51). -/
@[simp] theorem Thread.reg_setReg (q : BitVec 4) :
    (t.setReg r v).reg q = if q = r ∧ r ≠ 0 then v else t.reg q := by
  unfold Thread.setReg Thread.reg
  by_cases hr : r = 0
  · subst hr
    by_cases hq : q = 0 <;> simp [hq]
  · by_cases hq : q = 0
    · subst hq
      rw [if_neg hr, if_pos rfl, if_pos rfl, if_neg (fun e => hr e.1.symm)]
    · simp only [hr, hq, if_false, ne_eq, not_false_eq_true, and_true]
      rw [tget_tset]
      by_cases h : q = r
      · simp [h]
      · have : ¬ q.toNat = r.toNat := fun e => h (BitVec.eq_of_toNat_eq e)
        simp [h, this]

@[simp] theorem Thread.reg_zero : t.reg 0 = 0 := rfl

/-! ## The thread in execution -/

@[simp] theorem State.modMe_eq (f : Thread → Thread) : s.modMe f = s.setThr s.cur (f (s.thr s.cur)) := rfl
theorem State.me_eq : s.me = s.thr s.cur := rfl
@[simp] theorem State.me_setThr : (s.setThr s.cur t).me = t := by simp [State.me]
@[simp] theorem State.me_setCore (k : Core) : (s.setCore n k).me = s.me := rfl
@[simp] theorem State.me_setForme (k : Forme) : (s.setForme n k).me = s.me := rfl
@[simp] theorem State.me_setDie (k : Die) : (s.setDie n k).me = s.me := rfl
@[simp] theorem State.me_setGrp (k : Group) : (s.setGrp n k).me = s.me := rfl

end Sys2Proof.Machine
end

