-- ==== Sys2Proof/Laws/Ops.lean ====
section
/-! SUPPORT. What each shared operation can do, said once: fires of wakes, event counts, completions, waits, plain
register results and the ends of claims. -/

set_option Elab.async false

namespace Sys2Proof.Machine

open Sys2Proof

variable (s : State)

/-! ## Fires (R83, R98) -/

theorem tget_map_thread (f : Nat → Thread → Thread) (h : ∀ n, f n Thread.fresh = Thread.fresh) (l : Tbl Thread) (u : Nat) :
    tget Thread.fresh (l.map (fun x => (x.1, f x.1 x.2))) u = f u (tget Thread.fresh l u) := by
  induction l with
  | nil => simp [tget, h]
  | cons x l ih =>
    obtain ⟨k, t⟩ := x
    by_cases e : k = u
    · subst e; simp [tget]
    · simpa [tget, e] using ih

/-- What a fire does to one thread. -/
theorem State.thr_fireIf (p : Nat → Thread → WakeCond → Bool) (u : Nat) :
    (s.fireIf p).thr u = if (s.thr u).armed (p u (s.thr u)) then Thread.fire s.wakeSeq (s.thr u) else s.thr u := by
  have h := tget_map_thread (fun n t => if t.armed (p n t) then Thread.fire s.wakeSeq t else t)
    (fun n => by simp [Thread.armed, Thread.fresh]) s.threads u
  have e : (fun x : Nat × Thread => if x.2.armed (p x.1 x.2) then (x.1, Thread.fire s.wakeSeq x.2) else x) =
      (fun x => (x.1, if x.2.armed (p x.1 x.2) then Thread.fire s.wakeSeq x.2 else x.2)) := by
    funext x; split <;> rfl
  simp only [State.fireIf, State.thr, e]
  exact h

/-- A fire changes nothing but threads and the order of wakes. -/
theorem State.fireIf_frame (p : Nat → Thread → WakeCond → Bool) :
    s.fireIf p = { s with threads := (s.fireIf p).threads, wakeSeq := s.wakeSeq + 1 } := rfl

/-- What a fire does to a thread that is in no wait and not parked: the wake remembers it. -/
theorem Thread.fire_of_issues (seq : Nat) (t : Thread) (h : t.issues) : ∃ w, Thread.fire seq t = { t with wake := w } := by
  obtain ⟨h1, h2⟩ := h
  cases hw : t.wake with
  | none =>
    have e : Thread.fire seq t = t := by simp [Thread.fire, hw]
    exact ⟨none, by rw [e, ← hw]⟩
  | some w =>
    refine ⟨some { w with fired := w.fired + 1 }, ?_⟩
    simp only [Thread.fire, hw, h1, h2]
    cases t.saved <;> simp [h1]

/-! ## Plain register results (R53) -/

theorem State.sameBytes_refl : s.sameBytes s := fun _ => ⟨rfl, rfl, rfl⟩

theorem State.onlyMe_setThr (t : Thread) : s.onlyMe (s.setThr s.cur t) :=
  ⟨rfl, fun u h => by simp [h], fun _ => ⟨rfl, rfl, rfl⟩⟩

theorem State.plain_eq (f : Thread → Thread) : s.plain f = s.setThr s.cur (f s.me).retire := rfl

@[simp] theorem State.me_plain (f : Thread → Thread) : (s.plain f).me = (f s.me).retire := by
  rw [State.plain_eq, State.me_setThr]

@[simp] theorem State.me_modMe (f : Thread → Thread) : (s.modMe f).me = f s.me := by
  rw [State.modMe_eq, State.me_setThr]; rfl

/-- A plain register result is one. -/
theorem State.gives_write (rd : BitVec 4) (f : Thread → Word) : s.gives (s.write rd f) rd (f s.me) := by
  have e : (s.write rd f).me = (s.me.setReg rd (f s.me)).retire := s.me_plain _
  refine ⟨s.onlyMe_setThr _, fun q => ?_, ?_⟩
  · rw [e, Thread.reg_retire, Thread.reg_setReg]
    by_cases h : q = rd
    · subst h; simp
    · simp [h]
  · rw [e]
    unfold Thread.setReg Thread.retire
    split <;> rfl

end Sys2Proof.Machine
end

