-- ==== Sys2Proof/Laws/Frame.lean ====
section
/-! SUPPORT. Frames: which fields of the state an operation leaves as they were, said once per shared operation. A goal
`Frame T s (op s')` is reduced by the operation's step lemma to `Frame T s s'`. -/

set_option Elab.async false

namespace Sys2Proof.Machine

open Sys2Proof

/-- The fields of the state. -/
inductive Field where
  | fGtick | fCyc | fAgenda | fTurn | fCur | fIr | fOracle | fClockFree | fWakeSeq | fNet | fMem | fLm | fAcc | fPlanes | fThreads | fNextUid | fCores | fFormes | fDies | fDir | fPoison | fQuoins | fFaults | fHeldTraps | fCtxs | fParts | fKernels | fGroups | fNextGid | fOrders | fLinks | fBindings | fWindows | fRings | fPeers | fBlocks | fPodOut | fBuckets | fPower | fDiePower | fObserve | fSparedRows | fSparedVault | fUnits | fHold | fHeldUntil | fAnswers
  deriving DecidableEq, Repr

/-- A field reads the same in two states. -/
def Field.same (s t : State) : Field → Prop
  | .fGtick => t.gtick = s.gtick
  | .fCyc => t.cyc = s.cyc
  | .fAgenda => t.agenda = s.agenda
  | .fTurn => t.turn = s.turn
  | .fCur => t.cur = s.cur
  | .fIr => t.ir = s.ir
  | .fOracle => t.oracle = s.oracle
  | .fClockFree => t.clockFree = s.clockFree
  | .fWakeSeq => t.wakeSeq = s.wakeSeq
  | .fNet => t.net = s.net
  | .fMem => t.mem = s.mem
  | .fLm => t.lm = s.lm
  | .fAcc => t.acc = s.acc
  | .fPlanes => t.planes = s.planes
  | .fThreads => t.threads = s.threads
  | .fNextUid => t.nextUid = s.nextUid
  | .fCores => t.cores = s.cores
  | .fFormes => t.formes = s.formes
  | .fDies => t.dies = s.dies
  | .fDir => t.dir = s.dir
  | .fPoison => t.poison = s.poison
  | .fQuoins => t.quoins = s.quoins
  | .fFaults => t.faults = s.faults
  | .fHeldTraps => t.heldTraps = s.heldTraps
  | .fCtxs => t.ctxs = s.ctxs
  | .fParts => t.parts = s.parts
  | .fKernels => t.kernels = s.kernels
  | .fGroups => t.groups = s.groups
  | .fNextGid => t.nextGid = s.nextGid
  | .fOrders => t.orders = s.orders
  | .fLinks => t.links = s.links
  | .fBindings => t.bindings = s.bindings
  | .fWindows => t.windows = s.windows
  | .fRings => t.rings = s.rings
  | .fPeers => t.peers = s.peers
  | .fBlocks => t.blocks = s.blocks
  | .fPodOut => t.podOut = s.podOut
  | .fBuckets => t.buckets = s.buckets
  | .fPower => t.power = s.power
  | .fDiePower => t.diePower = s.diePower
  | .fObserve => t.observe = s.observe
  | .fSparedRows => t.sparedRows = s.sparedRows
  | .fSparedVault => t.sparedVault = s.sparedVault
  | .fUnits => t.units = s.units
  | .fHold => t.hold = s.hold
  | .fHeldUntil => t.heldUntil = s.heldUntil
  | .fAnswers => t.answers = s.answers

/-- Two states whose fields all read the same are one. -/
theorem State.eq_of_same {s t : State} (h : ∀ f : Field, f.same s t) : t = s := by
  obtain ⟨a0, a1, a2, a3, a4, a5, a6, a7, a8, a9, a10, a11, a12, a13, a14, a15, a16, a17, a18, a19, a20, a21, a22, a23, a24, a25, a26, a27, a28, a29, a30, a31, a32, a33, a34, a35, a36, a37, a38, a39, a40, a41, a42, a43, a44, a45, a46⟩ := s
  obtain ⟨b0, b1, b2, b3, b4, b5, b6, b7, b8, b9, b10, b11, b12, b13, b14, b15, b16, b17, b18, b19, b20, b21, b22, b23, b24, b25, b26, b27, b28, b29, b30, b31, b32, b33, b34, b35, b36, b37, b38, b39, b40, b41, b42, b43, b44, b45, b46⟩ := t
  have all := fun f => h f
  obtain rfl : b0 = a0 := all .fGtick
  obtain rfl : b1 = a1 := all .fCyc
  obtain rfl : b2 = a2 := all .fAgenda
  obtain rfl : b3 = a3 := all .fTurn
  obtain rfl : b4 = a4 := all .fCur
  obtain rfl : b5 = a5 := all .fIr
  obtain rfl : b6 = a6 := all .fOracle
  obtain rfl : b7 = a7 := all .fClockFree
  obtain rfl : b8 = a8 := all .fWakeSeq
  obtain rfl : b9 = a9 := all .fNet
  obtain rfl : b10 = a10 := all .fMem
  obtain rfl : b11 = a11 := all .fLm
  obtain rfl : b12 = a12 := all .fAcc
  obtain rfl : b13 = a13 := all .fPlanes
  obtain rfl : b14 = a14 := all .fThreads
  obtain rfl : b15 = a15 := all .fNextUid
  obtain rfl : b16 = a16 := all .fCores
  obtain rfl : b17 = a17 := all .fFormes
  obtain rfl : b18 = a18 := all .fDies
  obtain rfl : b19 = a19 := all .fDir
  obtain rfl : b20 = a20 := all .fPoison
  obtain rfl : b21 = a21 := all .fQuoins
  obtain rfl : b22 = a22 := all .fFaults
  obtain rfl : b23 = a23 := all .fHeldTraps
  obtain rfl : b24 = a24 := all .fCtxs
  obtain rfl : b25 = a25 := all .fParts
  obtain rfl : b26 = a26 := all .fKernels
  obtain rfl : b27 = a27 := all .fGroups
  obtain rfl : b28 = a28 := all .fNextGid
  obtain rfl : b29 = a29 := all .fOrders
  obtain rfl : b30 = a30 := all .fLinks
  obtain rfl : b31 = a31 := all .fBindings
  obtain rfl : b32 = a32 := all .fWindows
  obtain rfl : b33 = a33 := all .fRings
  obtain rfl : b34 = a34 := all .fPeers
  obtain rfl : b35 = a35 := all .fBlocks
  obtain rfl : b36 = a36 := all .fPodOut
  obtain rfl : b37 = a37 := all .fBuckets
  obtain rfl : b38 = a38 := all .fPower
  obtain rfl : b39 = a39 := all .fDiePower
  obtain rfl : b40 = a40 := all .fObserve
  obtain rfl : b41 = a41 := all .fSparedRows
  obtain rfl : b42 = a42 := all .fSparedVault
  obtain rfl : b43 = a43 := all .fUnits
  obtain rfl : b44 = a44 := all .fHold
  obtain rfl : b45 = a45 := all .fHeldUntil
  obtain rfl : b46 = a46 := all .fAnswers
  rfl

/-- Every field but those of a list reads the same. -/
structure Frame (T : List Field) (s t : State) : Prop where
  same : ∀ f, f ∉ T → f.same s t

theorem Frame.refl (T : List Field) (s : State) : Frame T s s := ⟨fun f _ => by cases f <;> rfl⟩

theorem Frame.trans {T : List Field} {s t r : State} (h : Frame T s t) (k : Frame T t r) : Frame T s r :=
  ⟨fun f m => by
    have a := h.same f m
    have b := k.same f m
    cases f <;> exact b.trans a⟩

theorem Frame.mono {T U : List Field} {s t : State} (h : Frame T s t) (m : ∀ f, f ∈ T → f ∈ U) : Frame U s t :=
  ⟨fun f k => h.same f (fun e => k (m f e))⟩

/-- Two states that keep the same fields of a third, and agree on the others, are one. -/
theorem Frame.eq {T : List Field} {s t r : State} (h : Frame T s t) (g : Frame T s r) (k : ∀ f, f ∈ T → f.same r t) :
    t = r := State.eq_of_same (fun f => by
  by_cases m : f ∈ T
  · exact k f m
  · have a := h.same f m
    have b := g.same f m
    cases f <;> exact a.trans b.symm)

theorem Frame.foldl {α : Type} {T : List Field} (f : State → α → State) (h : ∀ s x, Frame T s (f s x)) (l : List α) :
    ∀ s : State, Frame T s (l.foldl f s) := by
  induction l with
  | nil => exact fun s => Frame.refl T s
  | cons x l ih => exact fun s => (h s x).trans (ih _)

theorem Frame.ite {T : List Field} {s t r : State} {p : Prop} [Decidable p] (h : Frame T s t) (k : Frame T s r) :
    Frame T s (if p then t else r) := by
  split
  · exact h
  · exact k

section
variable {T : List Field} {s t : State} (h : Frame T s t)
include h

theorem Frame.gtick (m : Field.fGtick ∉ T := by decide) : t.gtick = s.gtick := h.same _ m
theorem Frame.cyc (m : Field.fCyc ∉ T := by decide) : t.cyc = s.cyc := h.same _ m
theorem Frame.agenda (m : Field.fAgenda ∉ T := by decide) : t.agenda = s.agenda := h.same _ m
theorem Frame.turn (m : Field.fTurn ∉ T := by decide) : t.turn = s.turn := h.same _ m
theorem Frame.cur (m : Field.fCur ∉ T := by decide) : t.cur = s.cur := h.same _ m
theorem Frame.ir (m : Field.fIr ∉ T := by decide) : t.ir = s.ir := h.same _ m
theorem Frame.oracle (m : Field.fOracle ∉ T := by decide) : t.oracle = s.oracle := h.same _ m
theorem Frame.clockFree (m : Field.fClockFree ∉ T := by decide) : t.clockFree = s.clockFree := h.same _ m
theorem Frame.wakeSeq (m : Field.fWakeSeq ∉ T := by decide) : t.wakeSeq = s.wakeSeq := h.same _ m
theorem Frame.net (m : Field.fNet ∉ T := by decide) : t.net = s.net := h.same _ m
theorem Frame.mem (m : Field.fMem ∉ T := by decide) : t.mem = s.mem := h.same _ m
theorem Frame.lm (m : Field.fLm ∉ T := by decide) : t.lm = s.lm := h.same _ m
theorem Frame.acc (m : Field.fAcc ∉ T := by decide) : t.acc = s.acc := h.same _ m
theorem Frame.planes (m : Field.fPlanes ∉ T := by decide) : t.planes = s.planes := h.same _ m
theorem Frame.threads (m : Field.fThreads ∉ T := by decide) : t.threads = s.threads := h.same _ m
theorem Frame.nextUid (m : Field.fNextUid ∉ T := by decide) : t.nextUid = s.nextUid := h.same _ m
theorem Frame.cores (m : Field.fCores ∉ T := by decide) : t.cores = s.cores := h.same _ m
theorem Frame.formes (m : Field.fFormes ∉ T := by decide) : t.formes = s.formes := h.same _ m
theorem Frame.dies (m : Field.fDies ∉ T := by decide) : t.dies = s.dies := h.same _ m
theorem Frame.dir (m : Field.fDir ∉ T := by decide) : t.dir = s.dir := h.same _ m
theorem Frame.poison (m : Field.fPoison ∉ T := by decide) : t.poison = s.poison := h.same _ m
theorem Frame.quoins (m : Field.fQuoins ∉ T := by decide) : t.quoins = s.quoins := h.same _ m
theorem Frame.faults (m : Field.fFaults ∉ T := by decide) : t.faults = s.faults := h.same _ m
theorem Frame.heldTraps (m : Field.fHeldTraps ∉ T := by decide) : t.heldTraps = s.heldTraps := h.same _ m
theorem Frame.ctxs (m : Field.fCtxs ∉ T := by decide) : t.ctxs = s.ctxs := h.same _ m
theorem Frame.parts (m : Field.fParts ∉ T := by decide) : t.parts = s.parts := h.same _ m
theorem Frame.kernels (m : Field.fKernels ∉ T := by decide) : t.kernels = s.kernels := h.same _ m
theorem Frame.groups (m : Field.fGroups ∉ T := by decide) : t.groups = s.groups := h.same _ m
theorem Frame.nextGid (m : Field.fNextGid ∉ T := by decide) : t.nextGid = s.nextGid := h.same _ m
theorem Frame.orders (m : Field.fOrders ∉ T := by decide) : t.orders = s.orders := h.same _ m
theorem Frame.links (m : Field.fLinks ∉ T := by decide) : t.links = s.links := h.same _ m
theorem Frame.bindings (m : Field.fBindings ∉ T := by decide) : t.bindings = s.bindings := h.same _ m
theorem Frame.windows (m : Field.fWindows ∉ T := by decide) : t.windows = s.windows := h.same _ m
theorem Frame.rings (m : Field.fRings ∉ T := by decide) : t.rings = s.rings := h.same _ m
theorem Frame.peers (m : Field.fPeers ∉ T := by decide) : t.peers = s.peers := h.same _ m
theorem Frame.blocks (m : Field.fBlocks ∉ T := by decide) : t.blocks = s.blocks := h.same _ m
theorem Frame.podOut (m : Field.fPodOut ∉ T := by decide) : t.podOut = s.podOut := h.same _ m
theorem Frame.buckets (m : Field.fBuckets ∉ T := by decide) : t.buckets = s.buckets := h.same _ m
theorem Frame.power (m : Field.fPower ∉ T := by decide) : t.power = s.power := h.same _ m
theorem Frame.diePower (m : Field.fDiePower ∉ T := by decide) : t.diePower = s.diePower := h.same _ m
theorem Frame.observe (m : Field.fObserve ∉ T := by decide) : t.observe = s.observe := h.same _ m
theorem Frame.sparedRows (m : Field.fSparedRows ∉ T := by decide) : t.sparedRows = s.sparedRows := h.same _ m
theorem Frame.sparedVault (m : Field.fSparedVault ∉ T := by decide) : t.sparedVault = s.sparedVault := h.same _ m
theorem Frame.units (m : Field.fUnits ∉ T := by decide) : t.units = s.units := h.same _ m
theorem Frame.hold (m : Field.fHold ∉ T := by decide) : t.hold = s.hold := h.same _ m
theorem Frame.heldUntil (m : Field.fHeldUntil ∉ T := by decide) : t.heldUntil = s.heldUntil := h.same _ m
theorem Frame.answers (m : Field.fAnswers ∉ T := by decide) : t.answers = s.answers := h.same _ m

end

section
variable {T : List Field} {s t : State} (h : Frame T s t)
include h

theorem Frame.setThr (n : Nat) (k : Thread) (m : Field.fThreads ∈ T := by decide) : Frame T s (t.setThr n k) :=
  h.trans ⟨fun f e => by cases f <;> first | rfl | exact absurd m e⟩
theorem Frame.modThr (n : Nat) (k : Thread → Thread) (m : Field.fThreads ∈ T := by decide) : Frame T s (t.modThr n k) := h.setThr _ _ m
theorem Frame.setCore (n : Nat) (k : Core) (m : Field.fCores ∈ T := by decide) : Frame T s (t.setCore n k) :=
  h.trans ⟨fun f e => by cases f <;> first | rfl | exact absurd m e⟩
theorem Frame.modCore (n : Nat) (k : Core → Core) (m : Field.fCores ∈ T := by decide) : Frame T s (t.modCore n k) := h.setCore _ _ m
theorem Frame.setForme (n : Nat) (k : Forme) (m : Field.fFormes ∈ T := by decide) : Frame T s (t.setForme n k) :=
  h.trans ⟨fun f e => by cases f <;> first | rfl | exact absurd m e⟩
theorem Frame.modForme (n : Nat) (k : Forme → Forme) (m : Field.fFormes ∈ T := by decide) : Frame T s (t.modForme n k) := h.setForme _ _ m
theorem Frame.setDie (n : Nat) (k : Die) (m : Field.fDies ∈ T := by decide) : Frame T s (t.setDie n k) :=
  h.trans ⟨fun f e => by cases f <;> first | rfl | exact absurd m e⟩
theorem Frame.modDie (n : Nat) (k : Die → Die) (m : Field.fDies ∈ T := by decide) : Frame T s (t.modDie n k) := h.setDie _ _ m
theorem Frame.setCtx (n : Nat) (k : Ctx) (m : Field.fCtxs ∈ T := by decide) : Frame T s (t.setCtx n k) :=
  h.trans ⟨fun f e => by cases f <;> first | rfl | exact absurd m e⟩
theorem Frame.modCtx (n : Nat) (k : Ctx → Ctx) (m : Field.fCtxs ∈ T := by decide) : Frame T s (t.modCtx n k) := h.setCtx _ _ m
theorem Frame.setGrp (n : Nat) (k : Group) (m : Field.fGroups ∈ T := by decide) : Frame T s (t.setGrp n k) :=
  h.trans ⟨fun f e => by cases f <;> first | rfl | exact absurd m e⟩
theorem Frame.modGrp (n : Nat) (k : Group → Group) (m : Field.fGroups ∈ T := by decide) : Frame T s (t.modGrp n k) := h.setGrp _ _ m
theorem Frame.setKer (n : Nat) (k : Kernel) (m : Field.fKernels ∈ T := by decide) : Frame T s (t.setKer n k) :=
  h.trans ⟨fun f e => by cases f <;> first | rfl | exact absurd m e⟩
theorem Frame.modKer (n : Nat) (k : Kernel → Kernel) (m : Field.fKernels ∈ T := by decide) : Frame T s (t.modKer n k) := h.setKer _ _ m
theorem Frame.setDpow (n : Nat) (k : DiePower) (m : Field.fDiePower ∈ T := by decide) : Frame T s (t.setDpow n k) :=
  h.trans ⟨fun f e => by cases f <;> first | rfl | exact absurd m e⟩
theorem Frame.modDpow (n : Nat) (k : DiePower → DiePower) (m : Field.fDiePower ∈ T := by decide) : Frame T s (t.modDpow n k) := h.setDpow _ _ m
theorem Frame.modMe (k : Thread → Thread) (m : Field.fThreads ∈ T := by decide) : Frame T s (t.modMe k) := h.setThr _ _ m

theorem Frame.withGtick (x) (m : Field.fGtick ∈ T := by decide) : Frame T s { t with gtick := x } :=
  h.trans ⟨fun f e => by cases f <;> first | rfl | exact absurd m e⟩
theorem Frame.withCyc (x) (m : Field.fCyc ∈ T := by decide) : Frame T s { t with cyc := x } :=
  h.trans ⟨fun f e => by cases f <;> first | rfl | exact absurd m e⟩
theorem Frame.withAgenda (x) (m : Field.fAgenda ∈ T := by decide) : Frame T s { t with agenda := x } :=
  h.trans ⟨fun f e => by cases f <;> first | rfl | exact absurd m e⟩
theorem Frame.withTurn (x) (m : Field.fTurn ∈ T := by decide) : Frame T s { t with turn := x } :=
  h.trans ⟨fun f e => by cases f <;> first | rfl | exact absurd m e⟩
theorem Frame.withCur (x) (m : Field.fCur ∈ T := by decide) : Frame T s { t with cur := x } :=
  h.trans ⟨fun f e => by cases f <;> first | rfl | exact absurd m e⟩
theorem Frame.withIr (x) (m : Field.fIr ∈ T := by decide) : Frame T s { t with ir := x } :=
  h.trans ⟨fun f e => by cases f <;> first | rfl | exact absurd m e⟩
theorem Frame.withOracle (x) (m : Field.fOracle ∈ T := by decide) : Frame T s { t with oracle := x } :=
  h.trans ⟨fun f e => by cases f <;> first | rfl | exact absurd m e⟩
theorem Frame.withClockFree (x) (m : Field.fClockFree ∈ T := by decide) : Frame T s { t with clockFree := x } :=
  h.trans ⟨fun f e => by cases f <;> first | rfl | exact absurd m e⟩
theorem Frame.withWakeSeq (x) (m : Field.fWakeSeq ∈ T := by decide) : Frame T s { t with wakeSeq := x } :=
  h.trans ⟨fun f e => by cases f <;> first | rfl | exact absurd m e⟩
theorem Frame.withNet (x) (m : Field.fNet ∈ T := by decide) : Frame T s { t with net := x } :=
  h.trans ⟨fun f e => by cases f <;> first | rfl | exact absurd m e⟩
theorem Frame.withMem (x) (m : Field.fMem ∈ T := by decide) : Frame T s { t with mem := x } :=
  h.trans ⟨fun f e => by cases f <;> first | rfl | exact absurd m e⟩
theorem Frame.withLm (x) (m : Field.fLm ∈ T := by decide) : Frame T s { t with lm := x } :=
  h.trans ⟨fun f e => by cases f <;> first | rfl | exact absurd m e⟩
theorem Frame.withAcc (x) (m : Field.fAcc ∈ T := by decide) : Frame T s { t with acc := x } :=
  h.trans ⟨fun f e => by cases f <;> first | rfl | exact absurd m e⟩
theorem Frame.withPlanes (x) (m : Field.fPlanes ∈ T := by decide) : Frame T s { t with planes := x } :=
  h.trans ⟨fun f e => by cases f <;> first | rfl | exact absurd m e⟩
theorem Frame.withThreads (x) (m : Field.fThreads ∈ T := by decide) : Frame T s { t with threads := x } :=
  h.trans ⟨fun f e => by cases f <;> first | rfl | exact absurd m e⟩
theorem Frame.withNextUid (x) (m : Field.fNextUid ∈ T := by decide) : Frame T s { t with nextUid := x } :=
  h.trans ⟨fun f e => by cases f <;> first | rfl | exact absurd m e⟩
theorem Frame.withCores (x) (m : Field.fCores ∈ T := by decide) : Frame T s { t with cores := x } :=
  h.trans ⟨fun f e => by cases f <;> first | rfl | exact absurd m e⟩
theorem Frame.withFormes (x) (m : Field.fFormes ∈ T := by decide) : Frame T s { t with formes := x } :=
  h.trans ⟨fun f e => by cases f <;> first | rfl | exact absurd m e⟩
theorem Frame.withDies (x) (m : Field.fDies ∈ T := by decide) : Frame T s { t with dies := x } :=
  h.trans ⟨fun f e => by cases f <;> first | rfl | exact absurd m e⟩
theorem Frame.withDir (x) (m : Field.fDir ∈ T := by decide) : Frame T s { t with dir := x } :=
  h.trans ⟨fun f e => by cases f <;> first | rfl | exact absurd m e⟩
theorem Frame.withPoison (x) (m : Field.fPoison ∈ T := by decide) : Frame T s { t with poison := x } :=
  h.trans ⟨fun f e => by cases f <;> first | rfl | exact absurd m e⟩
theorem Frame.withQuoins (x) (m : Field.fQuoins ∈ T := by decide) : Frame T s { t with quoins := x } :=
  h.trans ⟨fun f e => by cases f <;> first | rfl | exact absurd m e⟩
theorem Frame.withFaults (x) (m : Field.fFaults ∈ T := by decide) : Frame T s { t with faults := x } :=
  h.trans ⟨fun f e => by cases f <;> first | rfl | exact absurd m e⟩
theorem Frame.withHeldTraps (x) (m : Field.fHeldTraps ∈ T := by decide) : Frame T s { t with heldTraps := x } :=
  h.trans ⟨fun f e => by cases f <;> first | rfl | exact absurd m e⟩
theorem Frame.withCtxs (x) (m : Field.fCtxs ∈ T := by decide) : Frame T s { t with ctxs := x } :=
  h.trans ⟨fun f e => by cases f <;> first | rfl | exact absurd m e⟩
theorem Frame.withParts (x) (m : Field.fParts ∈ T := by decide) : Frame T s { t with parts := x } :=
  h.trans ⟨fun f e => by cases f <;> first | rfl | exact absurd m e⟩
theorem Frame.withKernels (x) (m : Field.fKernels ∈ T := by decide) : Frame T s { t with kernels := x } :=
  h.trans ⟨fun f e => by cases f <;> first | rfl | exact absurd m e⟩
theorem Frame.withGroups (x) (m : Field.fGroups ∈ T := by decide) : Frame T s { t with groups := x } :=
  h.trans ⟨fun f e => by cases f <;> first | rfl | exact absurd m e⟩
theorem Frame.withNextGid (x) (m : Field.fNextGid ∈ T := by decide) : Frame T s { t with nextGid := x } :=
  h.trans ⟨fun f e => by cases f <;> first | rfl | exact absurd m e⟩
theorem Frame.withOrders (x) (m : Field.fOrders ∈ T := by decide) : Frame T s { t with orders := x } :=
  h.trans ⟨fun f e => by cases f <;> first | rfl | exact absurd m e⟩
theorem Frame.withLinks (x) (m : Field.fLinks ∈ T := by decide) : Frame T s { t with links := x } :=
  h.trans ⟨fun f e => by cases f <;> first | rfl | exact absurd m e⟩
theorem Frame.withBindings (x) (m : Field.fBindings ∈ T := by decide) : Frame T s { t with bindings := x } :=
  h.trans ⟨fun f e => by cases f <;> first | rfl | exact absurd m e⟩
theorem Frame.withWindows (x) (m : Field.fWindows ∈ T := by decide) : Frame T s { t with windows := x } :=
  h.trans ⟨fun f e => by cases f <;> first | rfl | exact absurd m e⟩
theorem Frame.withRings (x) (m : Field.fRings ∈ T := by decide) : Frame T s { t with rings := x } :=
  h.trans ⟨fun f e => by cases f <;> first | rfl | exact absurd m e⟩
theorem Frame.withPeers (x) (m : Field.fPeers ∈ T := by decide) : Frame T s { t with peers := x } :=
  h.trans ⟨fun f e => by cases f <;> first | rfl | exact absurd m e⟩
theorem Frame.withBlocks (x) (m : Field.fBlocks ∈ T := by decide) : Frame T s { t with blocks := x } :=
  h.trans ⟨fun f e => by cases f <;> first | rfl | exact absurd m e⟩
theorem Frame.withPodOut (x) (m : Field.fPodOut ∈ T := by decide) : Frame T s { t with podOut := x } :=
  h.trans ⟨fun f e => by cases f <;> first | rfl | exact absurd m e⟩
theorem Frame.withBuckets (x) (m : Field.fBuckets ∈ T := by decide) : Frame T s { t with buckets := x } :=
  h.trans ⟨fun f e => by cases f <;> first | rfl | exact absurd m e⟩
theorem Frame.withPower (x) (m : Field.fPower ∈ T := by decide) : Frame T s { t with power := x } :=
  h.trans ⟨fun f e => by cases f <;> first | rfl | exact absurd m e⟩
theorem Frame.withDiePower (x) (m : Field.fDiePower ∈ T := by decide) : Frame T s { t with diePower := x } :=
  h.trans ⟨fun f e => by cases f <;> first | rfl | exact absurd m e⟩
theorem Frame.withObserve (x) (m : Field.fObserve ∈ T := by decide) : Frame T s { t with observe := x } :=
  h.trans ⟨fun f e => by cases f <;> first | rfl | exact absurd m e⟩
theorem Frame.withSparedRows (x) (m : Field.fSparedRows ∈ T := by decide) : Frame T s { t with sparedRows := x } :=
  h.trans ⟨fun f e => by cases f <;> first | rfl | exact absurd m e⟩
theorem Frame.withSparedVault (x) (m : Field.fSparedVault ∈ T := by decide) : Frame T s { t with sparedVault := x } :=
  h.trans ⟨fun f e => by cases f <;> first | rfl | exact absurd m e⟩
theorem Frame.withUnits (x) (m : Field.fUnits ∈ T := by decide) : Frame T s { t with units := x } :=
  h.trans ⟨fun f e => by cases f <;> first | rfl | exact absurd m e⟩
theorem Frame.withHold (x) (m : Field.fHold ∈ T := by decide) : Frame T s { t with hold := x } :=
  h.trans ⟨fun f e => by cases f <;> first | rfl | exact absurd m e⟩
theorem Frame.withHeldUntil (x) (m : Field.fHeldUntil ∈ T := by decide) : Frame T s { t with heldUntil := x } :=
  h.trans ⟨fun f e => by cases f <;> first | rfl | exact absurd m e⟩
theorem Frame.withAnswers (x) (m : Field.fAnswers ∈ T := by decide) : Frame T s { t with answers := x } :=
  h.trans ⟨fun f e => by cases f <;> first | rfl | exact absurd m e⟩

end

end Sys2Proof.Machine
end

