-- ==== Sys2Proof/Laws/Shared.lean ====
section
/-! SUPPORT. What the shared operations of Machine/Ops.lean leave as it was: reads and writes at the home, ends of
claims, counts, completions, waits and traps. -/

set_option Elab.async false

namespace Sys2Proof.Machine

open Sys2Proof

theorem Frame.send {T : List Field} {s t : State} (h : Frame T s t) (x : Msg) (m : Field.fNet ∈ T := by decide) :
    Frame T s (t.send x) := h.withNet _ m

theorem Frame.fireIf {T : List Field} {s t : State} (h : Frame T s t) (p : Nat → Thread → WakeCond → Bool)
    (m : Field.fThreads ∈ T := by decide) (n : Field.fWakeSeq ∈ T := by decide) : Frame T s (t.fireIf p) :=
  h.trans ⟨fun f e => by cases f <;> first | rfl | exact absurd m e | exact absurd n e⟩

theorem Frame.count {T : List Field} {s t : State} (h : Frame T s t) (c ctx code k : Nat)
    (m : Field.fDies ∈ T := by decide) (n : Field.fCores ∈ T := by decide) : Frame T s (t.count c ctx code k) :=
  (h.modDie _ _ m).modCore _ _ n

theorem Frame.countMe {T : List Field} {s t : State} (h : Frame T s t) (code : Nat)
    (m : Field.fDies ∈ T := by decide) (n : Field.fCores ∈ T := by decide) : Frame T s (t.countMe code) :=
  h.count _ _ _ _ m n

/-- The fields that reads and writes at the home may change. -/
abbrev homeFields : List Field := [.fMem, .fCores, .fDir]
abbrev writeFields : List Field := [.fMem, .fCores, .fDir, .fThreads, .fWakeSeq]

/-- The fields that the end of a claim may change. -/
abbrev claimFields : List Field := [.fCores, .fThreads, .fWakeSeq, .fNet]

variable (s : State)

theorem State.setEntry_frame (line : Nat) (e : DirEntry) : Frame [.fDir] s (s.setEntry line e) := by
  unfold State.setEntry
  split
  · exact (Frame.refl _ s).withDir _
  · exact (Frame.refl _ s).withDir _

theorem State.takeCopy_frame (line c : Nat) (keep : Bool) : Frame [.fMem, .fCores] s (s.takeCopy line c keep) := by
  unfold State.takeCopy
  split
  · exact Frame.refl _ s
  · rename_i x _
    have h : Frame [.fMem, .fCores] s (match x.st with
      | .m => s.setHomeLine line x.data
      | .u k => s.setHomeLine line (combineLine k (s.homeLine line) x.data x.valid 32)
      | _ => s) := by
      split
      · exact (Frame.refl _ s).withMem _
      · exact (Frame.refl _ s).withMem _
      · exact Frame.refl _ s
    exact Frame.ite (h.modCore _ _) (h.modCore _ _)

theorem State.recallShare_frame (line : Nat) : Frame homeFields s (s.recallShare line) := by
  unfold State.recallShare
  have h (keep : Bool) := Frame.foldl (T := homeFields) (fun s c => s.takeCopy line c keep)
    (fun s x => (s.takeCopy_frame line x keep).mono (by decide)) (s.entry line).cores s
  dsimp only
  split
  · exact (h true).trans ((State.setEntry_frame _ _ _).mono (by decide))
  · exact (h false).trans ((State.setEntry_frame _ _ _).mono (by decide))
  · exact Frame.refl _ s

theorem State.recallAll_frame (line : Nat) : Frame homeFields s (s.recallAll line) :=
  (Frame.foldl (T := homeFields) (fun s c => s.takeCopy line c false)
    (fun s x => (s.takeCopy_frame line x false).mono (by decide)) (s.entry line).cores s).trans
    ((State.setEntry_frame _ _ _).mono (by decide))

theorem State.homeRead_frame (pa n : Nat) : Frame homeFields s (s.homeRead pa n).1 :=
  Frame.foldl State.recallShare State.recallShare_frame (linesOf pa n) s

theorem State.wrote_frame (line : Nat) : Frame [.fThreads, .fWakeSeq] s (s.wrote line) := (Frame.refl _ s).fireIf _

theorem State.homeWrite_frame (pa n v : Nat) : Frame writeFields s (s.homeWrite pa n v) := by
  unfold State.homeWrite
  have h := (Frame.foldl State.recallAll State.recallAll_frame (linesOf pa n) s).mono (U := writeFields) (by decide)
  exact (h.withMem _).trans (Frame.foldl State.wrote (fun s x => (s.wrote_frame x).mono (by decide)) _ _)

theorem State.count_frame (c ctx code n : Nat) : Frame [.fCores, .fDies] s (s.count c ctx code n) :=
  (Frame.refl _ s).count _ _ _ _

theorem State.countDie_frame (d code unit n : Nat) : Frame [.fDies] s (s.countDie d code unit n) :=
  (Frame.refl _ s).modDie _ _

theorem State.hotMiss_frame (home line die quad : Nat) :
    Frame [.fCores, .fDies, .fClockFree] s (s.hotMiss home line die quad) := by
  unfold State.hotMiss
  dsimp only
  repeat' split
  all_goals first
    | exact Frame.refl _ s
    | exact (Frame.refl _ s).withClockFree _
    | exact (((Frame.refl _ s).withClockFree _).setCore _ _).modDie _ _

/-! ## Claims -/

theorem State.refetch_frame (c : Nat) (p : Claim → Bool) : Frame claimFields s (s.refetch c p) := by
  unfold State.refetch
  exact (((Frame.refl _ s).withWakeSeq _).setCore _ _).trans
    (Frame.foldl _ (fun s _ => (Frame.refl _ s).send _) _ _)

theorem State.giveUpLine_frame (c : Nat) (x : L1Line) : Frame claimFields s (s.giveUpLine c x) := by
  unfold State.giveUpLine
  split
  · exact Frame.refl _ s
  · exact Frame.ite (((Frame.refl _ s).send _).trans (State.refetch_frame _ _ _)) ((Frame.refl _ s).send _)

theorem State.install_frame (c : Nat) (x : L1Line) : Frame claimFields s (s.install c x) := by
  unfold State.install
  dsimp only
  split
  · exact (Frame.refl _ s).modCore _ _
  · split
    · exact s.giveUpLine_frame _ _
    · exact ((Frame.refl _ s).modCore _ _).trans (State.giveUpLine_frame _ _ _)

theorem State.serveBudgetOnce_frame (c : Nat) : Frame claimFields s (s.serveBudgetOnce c) := by
  unfold State.serveBudgetOnce
  dsimp only
  split
  · exact Frame.refl _ s
  · exact Frame.ite (((Frame.refl _ s).setCore _ _).fireIf _) (Frame.refl _ s)

theorem State.serveBudget_frame (c : Nat) : Frame claimFields s (s.serveBudget c) :=
  Frame.foldl _ (fun s _ => s.serveBudgetOnce_frame c) _ _

theorem State.claimReady_frame (c uid : Nat) (pc ea : Word) :
    Frame [.fCores, .fThreads, .fWakeSeq] s (s.claimReady c uid pc ea) := by
  unfold State.claimReady
  exact ((Frame.refl _ s).modCore _ _).fireIf _

theorem State.dropAlias_frame (c line : Nat) (raw : Bool) : Frame claimFields s (s.dropAlias c line raw) := by
  unfold State.dropAlias
  split
  · exact Frame.ite (Frame.refl _ s) (((Frame.refl _ s).modCore _ _).trans (State.giveUpLine_frame _ _ _))
  · exact Frame.refl _ s

theorem State.takeGrant_frame (c line home : Nat) (st : LState) (d : BitVec 1024) :
    Frame claimFields s (s.takeGrant c line home st d) := by
  have h : Frame claimFields s (s.putGrant c line home st d) := by
    unfold State.putGrant
    dsimp only
    repeat' split
    all_goals first
      | exact Frame.refl _ s
      | exact s.install_frame _ _
      | exact (s.dropAlias_frame _ _ _).trans (State.install_frame _ _ _)
      | exact (((Frame.refl _ s).modCore _ _).trans (State.giveUpLine_frame _ _ _)).trans (State.install_frame _ _ _)
  exact h.trans (Frame.foldl _ (fun s x => (s.claimReady_frame _ _ _ _).mono (by decide)) _ _)

theorem State.performRecall_frame (c : Nat) (m : Msg) : Frame claimFields s (s.performRecall c m) := by
  unfold State.performRecall
  dsimp only
  repeat' split
  all_goals first
    | exact Frame.refl _ s
    | exact (Frame.refl _ s).send _
    | exact ((Frame.refl _ s).modCore _ _).send _
    | exact s.takeGrant_frame _ _ _ _ _

theorem State.undefer_frame (c : Nat) : Frame claimFields s (s.undefer c) := by
  unfold State.undefer
  exact ((Frame.refl _ s).setCore _ _).trans
    (Frame.foldl (fun s m => s.performRecall c m) (fun s m => s.performRecall_frame c m) _ _)

theorem State.serveEntry_frame (c : Nat) (need : Need) :
    Frame [.fCores, .fThreads, .fWakeSeq] s (s.serveEntry c need) := by
  unfold State.serveEntry
  dsimp only
  repeat' split
  all_goals first
    | exact Frame.refl _ s
    | exact s.claimReady_frame _ _ _ _

theorem State.lookAgain_frame (c : Nat) (p : Claim → Bool) : Frame claimFields s (s.lookAgain c p) :=
  Frame.foldl _ (fun s _ => (Frame.refl _ s).send _) _ _

theorem State.unblock_frame (c set : Nat) : Frame claimFields s (s.unblock c set) := s.lookAgain_frame c _

theorem State.afterClaim_frame (c : Nat) (x : Claim) : Frame claimFields s (s.afterClaim c x) := by
  unfold State.afterClaim
  have h : Frame claimFields s (if x.remote = true ∧ x.copy.isSome = true then
      s.send { src := c, dst := homeAgent x.home, line := x.line, kind := .claimReturn x.uid none } else s) :=
    Frame.ite ((Frame.refl _ s).send _) (Frame.refl _ s)
  refine Frame.trans ?_ (State.serveBudget_frame _ c)
  have k := (h.fireIf (fun _ _ w => match w with
    | .unpinned c' l => decide (c' = c ∧ l = x.line)
    | .setFree c' k => decide (c' = c ∧ k = x.line % 64)
    | _ => false)).trans (State.unblock_frame _ c (x.line % 64))
  exact Frame.ite (k.trans ((State.serveEntry_frame _ _ _).mono (by decide))) k

theorem State.endClaims_frame (c : Nat) (p : Claim → Bool) : Frame claimFields s (s.endClaims c p) := by
  unfold State.endClaims
  exact (((Frame.refl _ s).setCore _ _).trans
    (Frame.foldl (fun s x => s.afterClaim c x) (fun s x => s.afterClaim_frame c x) _ _)).trans
    (State.undefer_frame _ _)

theorem State.endAllClaims_frame (u : Nat) : Frame claimFields s (s.endAllClaims u) :=
  (((Frame.refl _ s).modCore _ _).trans (State.endClaims_frame _ _ _)).trans (State.serveBudget_frame _ _)

theorem State.writeBackRaw_frame (c : Nat) : Frame claimFields s (s.writeBackRaw c) :=
  ((Frame.refl _ s).modCore _ _).trans (Frame.foldl _ (fun s x => s.giveUpLine_frame c x) _ _)

/-! ## Completions and waits -/

theorem State.complete_frame (nb : BitVec 1) (c : OCode) :
    Frame [.fThreads, .fCores, .fDies] s (s.complete nb c) := by
  unfold State.complete
  dsimp only
  repeat' split
  all_goals first
    | exact (Frame.refl _ s).modMe _
    | exact ((Frame.refl _ s).modMe _).countMe _

theorem State.completeP_frame (nb : BitVec 1) (c : OCode) :
    Frame [.fThreads, .fCores, .fDies, .fGroups] s (s.completeP nb c) := by
  have h := (s.complete_frame nb c).mono (U := [.fThreads, .fCores, .fDies, .fGroups]) (by decide)
  exact Frame.ite (h.modGrp _ _) h

theorem State.notReady_frame (nb : BitVec 1) (c : OCode) (w : WakeCond) :
    Frame [.fThreads, .fCores, .fDies, .fWakeSeq] s (s.notReady nb c w) := by
  unfold State.notReady
  split
  · exact ((Frame.refl _ s).modMe _).countMe _
  · exact (((Frame.refl _ s).withWakeSeq _).modMe _).countMe _

/-! ## Traps -/

theorem State.traceHw_frame (c : Nat) (r : TraceRec) : Frame [.fCores, .fDies] s (s.traceHw c r) := by
  unfold State.traceHw
  repeat' split
  all_goals first
    | exact Frame.refl _ s
    | exact (Frame.refl _ s).modCore _ _
    | exact ((Frame.refl _ s).modCore _ _).count _ _ _ _

/-- The fields that taking a trap may change. -/
abbrev trapFields : List Field :=
  [.fMem, .fCores, .fDir, .fThreads, .fWakeSeq, .fNet, .fDies, .fHeldTraps, .fCtxs]

theorem State.markEntry_frame (entry p : Nat) (dirty : Bool) : Frame [.fMem] s (s.markEntry entry p dirty) :=
  Frame.ite (Frame.refl _ s) ((Frame.refl _ s).withMem _)

theorem State.markMask_frame (ctx p : Nat) : Frame [.fMem] s (s.markMask ctx p) := by
  unfold State.markMask
  repeat' split
  all_goals first
    | exact Frame.refl _ s
    | exact s.markEntry_frame _ _ _

/-- The walk of hardware for itself changes memory alone: the marks of the leaves (R273). -/
theorem State.reach_frame (ctx va : Nat) (write : Bool) (x : State × Nat) (h : s.reach ctx va write = some x) :
    Frame [.fMem] s x.1 := by
  unfold State.reach at h
  split at h
  · obtain rfl := Option.some.inj h
    exact (s.markMask_frame _ _).trans (State.markEntry_frame _ _ _ _)
  · cases h

theorem State.putTrap_frame (ctx pa : Nat) (r : TrapRec) (rest : List TrapRec) :
    Frame trapFields s (s.putTrap ctx pa r rest) := by
  unfold State.putTrap
  exact (Frame.withHeldTraps (T := trapFields) (((s.homeWrite_frame _ _ _).trans
    (State.homeWrite_frame _ _ _ _)).mono (by decide)) _).modCtx _ _

theorem State.writeTrap_frame (ctx : Nat) : Frame trapFields s ((s.writeTrap ctx).getD s) := by
  unfold State.writeTrap
  dsimp only
  repeat' split
  all_goals first
    | exact Frame.refl _ s
    | rename_i t pa e _
      exact (((s.reach_frame _ _ _ _ e).mono (by decide)).trans (t.putTrap_frame _ _ _ _)).modThr _ _

theorem State.trapRelease_frame (ctx u : Nat) : Frame claimFields s (s.trapRelease ctx u) :=
  Frame.ite (Frame.refl _ s) (Frame.foldl _ (fun s c => s.writeBackRaw_frame c) _ _)

theorem State.holdTrap_frame (ctx : Nat) (r : TrapRec) : Frame [.fHeldTraps, .fCtxs] s (s.holdTrap ctx r) :=
  ((Frame.refl _ s).withHeldTraps _).modCtx _ _

theorem State.trap_frame (u : Nat) (cls : TrapClass) (pc va extra : Word) (insn : Nat) :
    Frame trapFields s (s.trap u cls pc va extra insn) := by
  unfold State.trap
  dsimp only
  have h (f : Thread → Thread) (ctx : Nat) (r : TrapRec) : Frame trapFields s
      ((((s.endAllClaims u).modThr u f).trapRelease ctx u).holdTrap ctx r) :=
    ((((s.endAllClaims_frame u).mono (by decide)).modThr u f).trans
      ((State.trapRelease_frame _ _ _).mono (by decide))).trans ((State.holdTrap_frame _ _ _).mono (by decide))
  have k (f : Thread → Thread) (ctx : Nat) (r : TrapRec) (c : Nat) (q : TraceRec) : Frame trapFields s
      (((((s.endAllClaims u).modThr u f).trapRelease ctx u).holdTrap ctx r).traceHw c q) :=
    (h f ctx r).trans ((State.traceHw_frame _ c q).mono (by decide))
  exact Frame.ite ((k _ _ _ _ _).trans (State.writeTrap_frame _ _)) (k _ _ _ _ _)

theorem State.trapMe_frame (cls : TrapClass) (va extra : Word) : Frame trapFields s (s.trapMe cls va extra) :=
  (s.trap_frame _ _ _ _ _ _).modMe _

end Sys2Proof.Machine
end

