-- ==== Sys2Proof/Laws/Traps.lean ====
section
/-! SUPPORT. What taking a trap does to a thread (R108, R109): only its state, its record, its wake and its counts
change. -/

set_option Elab.async false

namespace Sys2Proof.Machine

open Sys2Proof

/-- A thread in no wait and not parked: a fire of its wake only marks it. -/
def Thread.calm (t : Thread) : Prop := t.wait = .none ∧ t.st ≠ .parked

/-- Two records of a thread that differ at most in the armed wake. -/
structure Thread.WakeOnly (a b : Thread) : Prop where
  eq : b = { a with wake := b.wake }

theorem Thread.WakeOnly.refl (a : Thread) : a.WakeOnly a := ⟨rfl⟩

theorem Thread.WakeOnly.trans {a b c : Thread} (h : a.WakeOnly b) (k : b.WakeOnly c) : a.WakeOnly c := by
  have e := k.eq
  rw [h.eq] at e
  exact ⟨e⟩

theorem Thread.WakeOnly.calm {a b : Thread} (h : a.WakeOnly b) (k : a.calm) : b.calm := by
  rw [h.eq]
  exact k

theorem Thread.calm_of_issues {a : Thread} (h : a.issues) : a.calm := ⟨h.2, by rw [h.1]; decide⟩

theorem Thread.fire_calm (seq : Nat) (t : Thread) (h : t.calm) : t.WakeOnly (Thread.fire seq t) := by
  obtain ⟨h1, h2⟩ := h
  refine ⟨?_⟩
  unfold Thread.fire
  cases t.wake with
  | none => rfl
  | some w =>
    simp only [h1]
    split
    · rfl
    · simp [h2]

/-- Thread `u` of a state, seen through an operation that can only mark its wake where it is calm, and that leaves it as it
was where no wake is armed. -/
structure Marks (u : Nat) (s t : State) : Prop where
  keeps : (s.thr u).calm → (s.thr u).WakeOnly (t.thr u)
  unarmed : (s.thr u).wake = none → t.thr u = s.thr u

theorem Marks.refl (u : Nat) (s : State) : Marks u s s := ⟨fun _ => .refl _, fun _ => rfl⟩

theorem Marks.of_eq {u : Nat} {s t : State} (h : t.thr u = s.thr u) : Marks u s t := ⟨fun _ => by
  rw [h]; exact .refl _, fun _ => h⟩

theorem Marks.of_frame {T : List Field} {s t : State} (u : Nat) (h : Frame T s t) (m : Field.fThreads ∉ T := by decide) :
    Marks u s t := .of_eq (by unfold State.thr; rw [h.threads m])

theorem Marks.trans {u : Nat} {s t r : State} (h : Marks u s t) (k : Marks u t r) : Marks u s r :=
  ⟨fun c => (h.keeps c).trans (k.keeps ((h.keeps c).calm c)),
    fun c => (k.unarmed (by rw [h.unarmed c]; exact c)).trans (h.unarmed c)⟩

theorem Marks.foldl {α : Type} (u : Nat) (f : State → α → State) (h : ∀ s x, Marks u s (f s x)) (l : List α) :
    ∀ s : State, Marks u s (l.foldl f s) := by
  induction l with
  | nil => exact fun s => Marks.refl u s
  | cons x l ih => exact fun s => (h s x).trans (ih _)

theorem Marks.fireIf {u : Nat} {s t : State} (h : Marks u s t) (p : Nat → Thread → WakeCond → Bool) :
    Marks u s (t.fireIf p) := h.trans ⟨fun c => by
  rw [State.thr_fireIf]
  split
  · exact Thread.fire_calm _ _ c
  · exact .refl _, fun c => by
  rw [State.thr_fireIf, Thread.armed, c]
  exact if_neg Bool.false_ne_true⟩

theorem Marks.ite {u : Nat} {s t r : State} {p : Prop} [Decidable p] (h : Marks u s t) (k : Marks u s r) :
    Marks u s (if p then t else r) := by
  split
  · exact h
  · exact k

section
variable (u : Nat) (s : State)

theorem State.setCore_marks (c : Nat) (k : Core) : Marks u s (s.setCore c k) := .of_eq rfl

theorem State.homeWrite_marks (pa n v : Nat) : Marks u s (s.homeWrite pa n v) := by
  unfold State.homeWrite
  have h := Frame.foldl State.recallAll State.recallAll_frame (linesOf pa n) s
  exact (Marks.of_frame u ((h.mono (U := [.fMem, .fCores, .fDir]) (by decide)).withMem _)).trans
    (Marks.foldl u _ (fun s x => (Marks.refl u s).fireIf _) _ _)

theorem State.putTrap_marks (ctx pa : Nat) (r : TrapRec) (rest : List TrapRec) : Marks u s (s.putTrap ctx pa r rest) :=
  ((s.homeWrite_marks u _ _ _).trans (State.homeWrite_marks u _ _ _ _)).trans (Marks.of_eq rfl)

/-- The write of a held trap record marks wakes, and counts the release for its thread (R326). -/
theorem State.writeTrap_marks (ctx : Nat) : Marks u s ((s.writeTrap ctx).getD s) ∨
    ∃ t : State, Marks u s t ∧ ((s.writeTrap ctx).getD s).thr u = (t.thr u).released := by
  unfold State.writeTrap
  dsimp only
  repeat' split
  all_goals first
    | exact .inl (Marks.refl u s)
    | rename_i r rest _ _ _ _ t pa e _
      have m := (Marks.of_frame u (s.reach_frame _ _ _ _ e)).trans (t.putTrap_marks u ctx pa r rest)
      by_cases h : r.uid = u
      · exact .inr ⟨_, m, by simp [h]⟩
      · exact .inl (m.trans (Marks.of_eq (by simp [Ne.symm h])))

theorem State.serveBudgetOnce_marks (c : Nat) : Marks u s (s.serveBudgetOnce c) := by
  unfold State.serveBudgetOnce
  dsimp only
  split
  · exact Marks.refl u s
  · exact Marks.ite ((s.setCore_marks u _ _).fireIf _) (Marks.refl u s)

theorem State.serveBudget_marks (c : Nat) : Marks u s (s.serveBudget c) :=
  Marks.foldl u _ (fun s _ => s.serveBudgetOnce_marks u c) _ _

theorem State.claimReady_marks (c uid : Nat) (pc ea : Word) : Marks u s (s.claimReady c uid pc ea) := by
  unfold State.claimReady
  exact (s.setCore_marks u _ _).fireIf _

theorem State.serveEntry_marks (c : Nat) (need : Need) : Marks u s (s.serveEntry c need) := by
  unfold State.serveEntry
  dsimp only
  repeat' split
  all_goals first
    | exact Marks.refl u s
    | exact s.claimReady_marks u _ _ _ _

theorem Marks.send {s t : State} (h : Marks u s t) (m : Msg) : Marks u s (t.send m) := h.trans (.of_eq rfl)

theorem State.refetch_marks (c : Nat) (p : Claim → Bool) : Marks u s (s.refetch c p) := by
  unfold State.refetch
  refine Marks.trans ?_ (Marks.foldl u _ (fun s _ => (Marks.refl u s).send u _) _ _)
  exact .of_eq rfl

theorem State.giveUpLine_marks (c : Nat) (x : L1Line) : Marks u s (s.giveUpLine c x) := by
  unfold State.giveUpLine
  split
  · exact Marks.refl u s
  · exact Marks.ite (((Marks.refl u s).send u _).trans (State.refetch_marks u _ _ _)) ((Marks.refl u s).send u _)

theorem State.install_marks (c : Nat) (x : L1Line) : Marks u s (s.install c x) := by
  unfold State.install
  dsimp only
  split
  · exact s.setCore_marks u _ _
  · split
    · exact s.giveUpLine_marks u _ _
    · exact (s.setCore_marks u _ _).trans (State.giveUpLine_marks u _ _ _)

theorem State.dropAlias_marks (c line : Nat) (raw : Bool) : Marks u s (s.dropAlias c line raw) := by
  unfold State.dropAlias
  split
  · exact Marks.ite (Marks.refl u s) ((s.setCore_marks u _ _).trans (State.giveUpLine_marks u _ _ _))
  · exact Marks.refl u s

theorem State.takeGrant_marks (c line home : Nat) (st : LState) (d : BitVec 1024) :
    Marks u s (s.takeGrant c line home st d) := by
  have h : Marks u s (s.putGrant c line home st d) := by
    unfold State.putGrant
    dsimp only
    repeat' split
    all_goals first
      | exact Marks.refl u s
      | exact s.install_marks u _ _
      | exact (s.dropAlias_marks u _ _ _).trans (State.install_marks u _ _ _)
      | exact ((s.setCore_marks u _ _).trans (State.giveUpLine_marks u _ _ _)).trans (State.install_marks u _ _ _)
  exact h.trans (Marks.foldl u _ (fun s _ => s.claimReady_marks u _ _ _ _) _ _)

theorem State.performRecall_marks (c : Nat) (m : Msg) : Marks u s (s.performRecall c m) := by
  unfold State.performRecall
  dsimp only
  repeat' split
  all_goals first
    | exact Marks.refl u s
    | exact (Marks.refl u s).send u _
    | exact (s.setCore_marks u _ _).send u _
    | exact s.takeGrant_marks u _ _ _ _ _

theorem State.undefer_marks (c : Nat) : Marks u s (s.undefer c) := by
  unfold State.undefer
  exact (s.setCore_marks u _ _).trans (Marks.foldl u _ (fun s m => s.performRecall_marks u c m) _ _)

theorem State.unblock_marks (c set : Nat) : Marks u s (s.unblock c set) :=
  Marks.foldl u _ (fun s _ => (Marks.refl u s).send u _) _ _


theorem State.afterClaim_marks (c : Nat) (x : Claim) : Marks u s (s.afterClaim c x) := by
  unfold State.afterClaim
  have h : Marks u s (if x.remote = true ∧ x.copy.isSome = true then
      s.send { src := c, dst := homeAgent x.home, line := x.line, kind := .claimReturn x.uid none } else s) :=
    Marks.ite (Marks.of_eq rfl) (Marks.refl u s)
  have k := (h.fireIf (fun _ _ w => match w with
    | .unpinned c' l => decide (c' = c ∧ l = x.line)
    | .setFree c' k => decide (c' = c ∧ k = x.line % 64)
    | _ => false)).trans (State.unblock_marks u _ c (x.line % 64))
  exact (Marks.ite (k.trans (State.serveEntry_marks u _ _ _)) k).trans (State.serveBudget_marks u _ _)

theorem State.endClaims_marks (c : Nat) (p : Claim → Bool) : Marks u s (s.endClaims c p) := by
  unfold State.endClaims
  exact ((s.setCore_marks u _ _).trans (Marks.foldl u _ (fun s x => s.afterClaim_marks u c x) _ _)).trans
    (State.undefer_marks u _ _)

theorem State.endAllClaims_marks (v : Nat) : Marks u s (s.endAllClaims v) :=
  ((s.setCore_marks u _ _).trans (State.endClaims_marks u _ _ _)).trans (State.serveBudget_marks u _ _)

theorem State.writeBackRaw_marks (c : Nat) : Marks u s (s.writeBackRaw c) :=
  (s.setCore_marks u _ _).trans (Marks.foldl u _ (fun s x => s.giveUpLine_marks u c x) _ _)

theorem State.trapRelease_marks (ctx v : Nat) : Marks u s (s.trapRelease ctx v) :=
  Marks.ite (Marks.refl u s) (Marks.foldl u _ (fun s c => s.writeBackRaw_marks u c) _ _)

theorem State.traceHw_marks (c : Nat) (r : TraceRec) : Marks u s (s.traceHw c r) := .of_frame u (s.traceHw_frame c r)

end

/-- A thread that becomes TRAPPED with a record, as the write of held records leaves it. -/
theorem State.thr_trapped (s : State) (u : Nat) (r : TrapRec) (ctx c : Nat) (x : TraceRec) (p : Prop) [Decidable p]
    (h : (s.thr u).calm) : ∃ w n, (n = (s.thr u).interval ∨ n = (s.thr u).released.interval) ∧
      State.thr (if p then
          (((((s.endAllClaims u).modThr u (fun t => t.trapped r)).trapRelease ctx u).holdTrap ctx r).traceHw c x
            |>.writeTrap ctx).getD
            (((((s.endAllClaims u).modThr u (fun t => t.trapped r)).trapRelease ctx u).holdTrap ctx r).traceHw c x)
        else ((((s.endAllClaims u).modThr u (fun t => t.trapped r)).trapRelease ctx u).holdTrap ctx r).traceHw c x) u =
        { (s.thr u).trapped r with wake := w, interval := n } := by
  have h1 := ((State.endAllClaims_marks u s u).keeps h).eq
  generalize ha : s.endAllClaims u = a at h1 ⊢
  have e2 : (a.modThr u (fun t => t.trapped r)).thr u = (a.thr u).trapped r := (a.thr_setThr u u _).trans (if_pos rfl)
  generalize a.modThr u (fun t => t.trapped r) = b at e2 ⊢
  have m : ∀ q, Marks u b q → ∃ w, q.thr u = { (s.thr u).trapped r with wake := w } := by
    intro q k
    have w3 := (k.keeps (by rw [e2]; exact ⟨rfl, fun k => TState.noConfusion k⟩)).eq
    refine ⟨(q.thr u).wake, ?_⟩
    rw [w3, e2, h1]
    rfl
  have e : Marks u b (((b.trapRelease ctx u).holdTrap ctx r).traceHw c x) :=
    ((State.trapRelease_marks u b ctx u).trans (r := (b.trapRelease ctx u).holdTrap ctx r) (Marks.of_eq rfl)).trans
      (State.traceHw_marks u _ c x)
  generalize ((b.trapRelease ctx u).holdTrap ctx r).traceHw c x = q at e ⊢
  split
  · obtain w | ⟨t, m', e'⟩ := q.writeTrap_marks u ctx
    · obtain ⟨w, e⟩ := m _ (e.trans w)
      exact ⟨w, _, .inl rfl, e⟩
    · obtain ⟨w, e⟩ := m t (e.trans m')
      exact ⟨w, _, .inr rfl, by rw [e', e]; rfl⟩
  · obtain ⟨w, e⟩ := m q e
    exact ⟨w, _, .inl rfl, e⟩

/-- Taking a trap leaves every register and CSR of the thread as it was (R108); where its record is written at once, the
thread's release is counted (R326). -/
theorem State.thr_trap (s : State) (u : Nat) (cls : TrapClass) (pc va extra : Word) (insn : Nat) (h : (s.thr u).calm) :
    ∃ w n, (n = (s.thr u).interval ∨ n = (s.thr u).released.interval) ∧
      (s.trap u cls pc va extra insn).thr u =
        { (s.thr u).trapped (s.trapRec u cls pc va extra insn) with wake := w, interval := n } := by
  unfold State.trap
  exact s.thr_trapped u _ _ _ _ _ h

/-- An instruction that traps leaves its thread TRAPPED at its PC, with no register changed (R78, R108, R109). -/
theorem State.trapMe_me (s : State) (cls : TrapClass) (va extra : Word) (h : s.me.calm) :
    (s.trapMe cls va extra).me.trappedFrom s.me cls va extra s.ir := by
  obtain ⟨w, n, hn, e⟩ := s.thr_trap s.cur cls s.me.pc va extra s.ir h
  have c : (s.trap s.cur cls s.me.pc va extra s.ir).cur = s.cur := (s.trap_frame _ _ _ _ _ _).cur
  have e' : (s.trapMe cls va extra).me = { (s.trap s.cur cls s.me.pc va extra s.ir).thr s.cur with
      instret := ((s.trap s.cur cls s.me.pc va extra s.ir).thr s.cur).instret + 1 } := by
    unfold State.trapMe
    rw [State.me_modMe]
    have m (q : State) (k : q.cur = s.cur) : q.me = q.thr s.cur := by rw [← k]; rfl
    rw [m _ c]
  rw [e', e]
  refine ⟨⟨_, rfl, rfl, rfl, rfl, rfl, rfl, rfl, rfl⟩, hn, ?_⟩
  obtain ⟨k1, k2⟩ := h
  have : s.thr s.cur = s.me := rfl
  rw [this]
  simp only [Thread.trapped, State.trapRec, k1]

end Sys2Proof.Machine
end

