-- ==== Sys2Proof/Laws/TrapFrame.lean ====
section
/-! SUPPORT. What taking a trap leaves of other threads and of physical memory (R108 to R110). -/

set_option Elab.async false

namespace Sys2Proof.Machine

open Sys2Proof

/-- Physical memory, seen through an operation that keeps its canonical form and changes no byte outside a set. -/
structure MemIn (P : Nat → Prop) (s t : State) : Prop where
  keeps : Memory.wf s.mem = true → Memory.wf t.mem = true ∧ ∀ a, ¬ P a → mget t.mem a = mget s.mem a

variable {P : Nat → Prop} {s t r : State}

theorem MemIn.of_eq (h : t.mem = s.mem) : MemIn P s t := ⟨fun w => by
  rw [h]
  exact ⟨w, fun _ _ => rfl⟩⟩

theorem MemIn.refl (s : State) : MemIn P s s := .of_eq rfl

theorem MemIn.of_frame {T : List Field} (h : Frame T s t) (m : Field.fMem ∉ T := by decide) : MemIn P s t :=
  .of_eq (h.mem m)

theorem MemIn.trans (h : MemIn P s t) (k : MemIn P t r) : MemIn P s r := ⟨fun w =>
  have a := h.keeps w
  have b := k.keeps a.1
  ⟨b.1, fun x n => (b.2 x n).trans (a.2 x n)⟩⟩

theorem MemIn.foldl {α : Type} (f : State → α → State) (l : List α) (h : ∀ x ∈ l, ∀ s, MemIn P s (f s x)) :
    ∀ s : State, MemIn P s (l.foldl f s) := by
  induction l with
  | nil => exact fun s => .refl s
  | cons x l ih =>
    exact fun s => (h x (by simp) s).trans (ih (fun y m => h y (by simp [m])) _)

theorem MemIn.ite {p : Prop} [Decidable p] (h : MemIn P s t) (k : MemIn P s r) : MemIn P s (if p then t else r) := by
  split
  · exact h
  · exact k

theorem MemIn.modCore (h : MemIn P s t) (c : Nat) (f : Core → Core) : MemIn P s (t.modCore c f) := h.trans (.of_eq rfl)

/-- A store within the set. -/
theorem MemIn.store (s : State) (a v n : Nat) (p : ∀ b, a ≤ b → b < a + n → P b) :
    MemIn P s { s with mem := mstore s.mem a v n } :=
  ⟨fun w => ⟨Memory.wf_mstore _ _ _ w, fun b q =>
      mget_mstore_out _ _ _ _ w (by
        by_cases k : b < a
        · exact .inl k
        · by_cases l : b < a + n
          · exact absurd (p b (by omega) l) q
          · exact .inr (by omega))⟩⟩

theorem State.setHomeLine_mem (line : Nat) (d : BitVec 1024) (h : ∀ a, a / 128 = line → P a) :
    MemIn P s (s.setHomeLine line d) := by
  unfold State.setHomeLine
  exact MemIn.store s _ _ _ (fun b _ _ => h b (by omega))

theorem State.takeCopy_mem (line c : Nat) (keep : Bool) (h : ∀ a, a / 128 = line → P a) :
    MemIn P s (s.takeCopy line c keep) := by
  unfold State.takeCopy
  split
  · exact .refl s
  · rename_i x _
    have k : MemIn P s (match x.st with
      | .m => s.setHomeLine line x.data
      | .u k => s.setHomeLine line (combineLine k (s.homeLine line) x.data x.valid 32)
      | _ => s) := by
      split
      · exact State.setHomeLine_mem _ _ h
      · exact State.setHomeLine_mem _ _ h
      · exact .refl s
    exact MemIn.ite (k.modCore _ _) (k.modCore _ _)

theorem State.recallAll_mem (line : Nat) (h : ∀ a, a / 128 = line → P a) : MemIn P s (s.recallAll line) :=
  (MemIn.foldl _ _ (fun c _ s => State.takeCopy_mem (s := s) line c false h) s).trans
    (.of_frame (State.setEntry_frame _ _ _))

/-- A write at the home changes no byte outside its lines. -/
theorem State.homeWrite_mem (pa n v : Nat) (h : ∀ a, a / 128 ∈ linesOf pa n → P a) : MemIn P s (s.homeWrite pa n v) := by
  unfold State.homeWrite
  have k := MemIn.foldl (P := P) State.recallAll (linesOf pa n)
    (fun l m s => State.recallAll_mem (s := s) l (fun a e => h a (e ▸ m))) s
  generalize (linesOf pa n).foldl State.recallAll s = q at k ⊢
  dsimp only
  have m : MemIn P q { q with mem := mstore q.mem pa v n } := .store q pa v n (fun b x y => h b (by
    unfold linesOf
    simp only [List.mem_map, List.mem_range]
    exact ⟨b / 128 - pa / 128, by omega, by omega⟩))
  exact (k.trans m).trans (MemIn.foldl State.wrote _ (fun l _ s => .of_eq rfl) _)

theorem State.markEntry_mem (entry p : Nat) (dirty : Bool) (h : ∀ a, entry ≤ a → a < entry + 8 → P a) :
    MemIn P s (s.markEntry entry p dirty) := by
  unfold State.markEntry
  dsimp only
  generalize (p ||| 128 ||| if dirty = true then 256 else 0) = w
  by_cases k : w = p
  · rw [if_pos k]
    exact .refl s
  · rw [if_neg k]
    exact .store s entry w 8 h

theorem walkRaw_mem (h : t.mem = s.mem) (va n : Nat) : ∀ base lv, walkRaw t va base lv n = walkRaw s va base lv n := by
  induction n with
  | zero => intro _ _; rfl
  | succ n ih =>
    intro base lv
    simp only [walkRaw, h, ih]

theorem State.walk_raw {ctx va lv p ea : Nat} {hs : List Nat} (h : s.walk ctx va = .leaf lv p ea hs) :
    walkRaw s va (s.ctx ctx).root 0 3 = .inl (some (lv, p, ea)) := by
  unfold State.walk at h
  split at h
  · rename_i e
    split at h
    · obtain ⟨rfl, rfl, rfl, -⟩ := h
      exact e
    · exact absurd h (by simp)
  · exact absurd h (by simp)
  · exact absurd h (by simp)

theorem State.maskLeaf_raw {ctx i a q eb : Nat} (h : s.maskLeaf ctx i = some (a, q, eb)) :
    ∃ lw, walkRaw s (((s.ctx ctx).masks.toNat + 64 * i) % 2 ^ 64) (s.ctx ctx).root 0 3 = .inl (some (lw, q, eb)) := by
  unfold State.maskLeaf at h
  dsimp only at h
  obtain ⟨h, -⟩ := Option.filter_eq_some_iff.mp h
  split at h
  · rename_i lw p ea e
    simp only [Option.some.injEq, Prod.mk.injEq] at h
    obtain ⟨-, rfl, rfl⟩ := h
    exact ⟨lw, e⟩
  · exact absurd h (by simp)

/-- The write of the oldest held trap record of a context changes its bytes alone. -/
theorem State.writeTrap_mem (ctx : Nat) : MemIn (s.trapByte ctx) s ((s.writeTrap ctx).getD s) := by
  unfold State.writeTrap
  dsimp only
  repeat' split
  all_goals first
    | exact .refl s
    | skip
  rename_i r rest _ _ _ _ t pa e _
  unfold State.reach at e
  split at e
  · rename_i lv p ea hs w
    have raw := State.walk_raw w
    obtain ⟨rfl, rfl⟩ := Prod.mk.injEq .. ▸ Option.some.inj e
    have mask : MemIn (s.trapByte ctx) s (s.markMask ctx p) := by
      unfold State.markMask
      split
      · rename_i hm
        split
        · rename_i a q eb f
          obtain ⟨lw, g⟩ := State.maskLeaf_raw f
          exact State.markEntry_mem _ _ _ (fun a k l => .inr ⟨lv, p, ea, raw, .inr (.inr ⟨lw, q, eb, hm, g, k, l⟩)⟩)
        · exact .refl s
      · exact .refl s
    have leaf := State.markEntry_mem (P := s.trapByte ctx) (s := s.markMask ctx p) ea p true
      (fun a k l => .inr ⟨lv, p, ea, raw, .inr (.inl ⟨k, l⟩)⟩)
    have write : MemIn (s.trapByte ctx) ((s.markMask ctx p).markEntry ea p true)
        (((s.markMask ctx p).markEntry ea p true).putTrap ctx (leafPa lv p
          (((s.ctx ctx).tring.toNat + 64 * ((s.ctx ctx).ttail % 2 ^ (s.ctx ctx).tlg)) % 2 ^ 64)) r rest) := by
      unfold State.putTrap
      refine (MemIn.trans (State.homeWrite_mem _ _ _ (fun a m => .inr ⟨lv, p, ea, raw, .inl m⟩))
        (State.homeWrite_mem _ _ _ (fun a m => .inl ?_))).trans (.of_eq rfl)
      have c : ((s.markMask ctx p).markEntry ea p true).ctxs = s.ctxs :=
        ((s.markMask_frame ctx p).trans (State.markEntry_frame _ ea p true)).ctxs
      have c' : ((s.markMask ctx p).markEntry ea p true).ctx ctx = s.ctx ctx := by
        unfold State.ctx
        rw [c]
      rw [c'] at m
      exact m
    exact ((mask.trans leaf).trans write).trans (.of_eq rfl)
  · exact absurd e (by simp)

theorem State.trapByte_of {ctx q : Nat} (h : t.ctx ctx = { s.ctx ctx with tseq := q }) (m : t.mem = s.mem) :
    t.trapByte ctx = s.trapByte ctx := by
  funext a
  simp only [State.trapByte, h, walkRaw_mem m]

/-- The write of the oldest held record, seen from a thread that the record is not of. -/
theorem State.writeTrap_marks_other (u ctx : Nat) (h : ∀ r ∈ (tget [] s.heldTraps ctx).head?, r.uid ≠ u) :
    Marks u s ((s.writeTrap ctx).getD s) := by
  unfold State.writeTrap
  dsimp only
  repeat' split
  all_goals first
    | exact Marks.refl u s
    | skip
  rename_i r rest e _ _ _ t pa w _
  have n : r.uid ≠ u := h r (by rw [e]; rfl)
  exact ((Marks.of_frame u (s.reach_frame _ _ _ _ w)).trans (t.putTrap_marks u ctx pa r rest)).trans
    (.of_eq (by simp [Ne.symm n]))

/-- Taking a trap leaves a thread as it was that is another one and waits for nothing, and physical memory outside the
record's bytes (R108 to R110). -/
theorem State.trap_facts (s : State) (u : Nat) (cls : TrapClass) (pc va extra : Word) (insn : Nat) :
    MemIn (s.trapByte (s.grp (s.thr u).gid).ctx) s (s.trap u cls pc va extra insn) ∧
      ∀ v, v ≠ u → Marks v s (s.trap u cls pc va extra insn) := by
  unfold State.trap
  dsimp only
  generalize hr : s.trapRec u cls pc va extra insn = r
  have ru : r.uid = u := by rw [← hr]; rfl
  generalize hc : (s.grp (s.thr u).gid).ctx = ctx
  have f1 := s.endAllClaims_frame u
  have m1 := fun v => State.endAllClaims_marks v s u
  generalize s.endAllClaims u = a at f1 m1 ⊢
  have f2 := a.modThr u (fun t => t.trapped r)
  generalize hb : a.modThr u (fun t => t.trapped r) = b
  have e2 : b.heldTraps = a.heldTraps ∧ b.mem = a.mem ∧ b.ctxs = a.ctxs ∧ ∀ v, v ≠ u → b.thr v = a.thr v := by
    rw [← hb]
    exact ⟨rfl, rfl, rfl, fun v n => (a.thr_setThr u v _).trans (if_neg n)⟩
  have f3 := State.trapRelease_frame b ctx u
  have m3 := fun v => State.trapRelease_marks v b ctx u
  generalize b.trapRelease ctx u = d at f3 m3 ⊢
  have held : tget [] (d.holdTrap ctx r).heldTraps ctx = tget [] s.heldTraps ctx ++ [r] := by
    unfold State.holdTrap
    have e : d.heldTraps = s.heldTraps := by rw [f3.heldTraps, e2.1, f1.heldTraps]
    rw [e]
    exact tget_tset_self _ _ _ _
  have ctxs : (d.holdTrap ctx r).ctx ctx = { d.ctx ctx with tseq := (d.ctx ctx).tseq + 1 } := by
    unfold State.holdTrap
    exact tget_tset_self _ _ _ _
  have mem3 : (d.holdTrap ctx r).mem = s.mem := by
    show d.mem = s.mem
    rw [f3.mem, e2.2.1, f1.mem]
  have same : d.ctx ctx = s.ctx ctx := by
    unfold State.ctx
    rw [f3.ctxs, e2.2.2.1, f1.ctxs]
  have m4 : ∀ v, v ≠ u → Marks v s (d.holdTrap ctx r) := fun v n =>
    (((m1 v).trans (.of_eq (e2.2.2.2 v n))).trans (m3 v)).trans (.of_eq rfl)
  rw [same] at ctxs
  generalize d.holdTrap ctx r = h at held ctxs mem3 m4 ⊢
  generalize hx : ({ tick := _, kind := 2, ctx := ctx, core := _, slot := _, index := _, pc := pc, value := _ } : TraceRec) = x
  have f5 := h.traceHw_frame (s.thr u).core x
  have m5 := fun v => State.traceHw_marks v h (s.thr u).core x
  generalize h.traceHw (s.thr u).core x = q at f5 m5 ⊢
  have mem5 : q.mem = s.mem := by rw [f5.mem, mem3]
  have ctx5 : q.ctx ctx = { s.ctx ctx with tseq := (s.ctx ctx).tseq + 1 } := by
    rw [← ctxs]
    unfold State.ctx
    rw [f5.ctxs]
  have held5 : tget [] q.heldTraps ctx = tget [] s.heldTraps ctx ++ [r] := by rw [f5.heldTraps, held]
  refine ⟨MemIn.ite ?_ (.of_eq mem5), fun v n => ?_⟩
  · have w := q.writeTrap_mem ctx
    rw [State.trapByte_of ctx5 mem5] at w
    exact (MemIn.of_eq mem5).trans w
  · have m6 := (m4 v n).trans (m5 v)
    split
    · rename_i one
      refine m6.trans (State.writeTrap_marks_other v ctx (fun y hy => ?_))
      rw [held5] at hy one
      have none : tget [] s.heldTraps ctx = [] := by
        cases e : tget [] s.heldTraps ctx with
        | nil => rfl
        | cons z l => rw [e] at one; simp at one
      rw [none] at hy
      obtain rfl : r = y := by simpa using hy
      rw [ru]
      exact Ne.symm n
    · exact m6

/-- So it is with a trap of the thread in execution. -/
theorem State.trapMe_facts (s : State) (cls : TrapClass) (va extra : Word) :
    s.trapMemory (s.trapMe cls va extra) ∧
      ∀ v, v ≠ s.cur → (s.thr v).wake = none → (s.trapMe cls va extra).thr v = s.thr v := by
  obtain ⟨m, k⟩ := s.trap_facts s.cur cls s.me.pc va extra s.ir
  have c : (s.trap s.cur cls s.me.pc va extra s.ir).cur = s.cur := (s.trap_frame _ _ _ _ _ _).cur
  refine ⟨fun w a n => (m.keeps w).2 a n, fun v n e => ?_⟩
  unfold State.trapMe
  rw [State.modMe_eq, State.thr_setThr, c, if_neg n]
  exact (k v n).unarmed e

end Sys2Proof.Machine
end

