-- ==== Sys2Proof/Laws/Complete.lean ====
section
/-! SUPPORT. What the ends of instructions leave (R26, R31, R83): completions, waits, event counts, and the end of an
operation that holds no claim. -/

set_option Elab.async false

namespace Sys2Proof.Machine

open Sys2Proof

variable (s : State)

/-- Two states whose cores, threads and thread in execution read the same, with the rest as a frame says. -/
structure Same (T : List Field) (s t : State) : Prop where
  frame : Frame T s t
  core : ∀ k, t.core k = s.core k
  thr : ∀ u, t.thr u = s.thr u
  cur : t.cur = s.cur

theorem Same.refl (T : List Field) : Same T s s := ⟨.refl T s, fun _ => rfl, fun _ => rfl, rfl⟩

theorem Same.me {T : List Field} {s t : State} (h : Same T s t) : t.me = s.me := by
  unfold State.me
  rw [h.cur, h.thr]

theorem Same.trans {T : List Field} {s t r : State} (h : Same T s t) (k : Same T t r) : Same T s r :=
  ⟨h.frame.trans k.frame, fun c => (k.core c).trans (h.core c), fun u => (k.thr u).trans (h.thr u), k.cur.trans h.cur⟩

/-- A core written as it stands. -/
theorem State.setCore_self (c : Nat) (k : Core) (h : k = s.core c) : Same [.fCores] s (s.setCore c k) :=
  ⟨(Frame.refl _ s).setCore _ _, fun n => by
    rw [State.core_setCore]
    split
    · rename_i e
      subst e
      exact h
    · rfl, fun _ => rfl, rfl⟩

theorem State.undefer_none (c : Nat) (d : (s.core c).deferred = []) : Same [.fCores] s (s.undefer c) := by
  unfold State.undefer
  simp only [d, List.filter_nil, List.foldl_nil]
  exact s.setCore_self c _ (by rw [← d])

/-- The end of claims where none is held and no request is deferred changes nothing. -/
theorem State.endClaims_none (c : Nat) (p : Claim → Bool) (h : (s.core c).claims.filter p = [])
    (d : (s.core c).deferred = []) : Same [.fCores] s (s.endClaims c p) := by
  have e : (s.core c).claims.filter (fun x => !p x) = (s.core c).claims := by
    rw [List.filter_eq_self]
    intro x m
    rw [List.filter_eq_nil_iff] at h
    simpa using h x m
  unfold State.endClaims
  dsimp only
  rw [h, List.foldl_nil]
  have h1 := s.setCore_self c { s.core c with claims := (s.core c).claims.filter (fun x => !p x) } (by rw [e])
  exact h1.trans (State.undefer_none _ c (by rw [h1.core c]; exact d))

/-- The end of an operation that holds no claim changes nothing (R85). -/
theorem State.endOp_unclaimed (ea : Word) (h : s.unclaimed ea) : Same [.fCores] s (s.endOp ea) := by
  refine s.endClaims_none _ _ ?_ h.2
  have := h.1
  unfold Core.findClaim at this
  rw [List.find?_eq_none] at this
  rw [List.filter_eq_nil_iff]
  exact this

/-! ## Event counts -/

theorem Core.pmcCount_eq (k : Core) (ctx code n i : Nat) : k.pmcCount ctx code n i =
    { k with pmc := (k.pmcCount ctx code n i).pmc } := by
  unfold Core.pmcCount
  dsimp only
  split <;> rfl

theorem Core.countAll_eq (k : Core) (ctx code n : Nat) : k.countAll ctx code n =
    { k with pmc := (k.countAll ctx code n).pmc } := by
  unfold Core.countAll
  rw [Core.pmcCount_eq, Core.pmcCount_eq (k := Core.pmcCount _ _ _ _ 1), Core.pmcCount_eq (k := Core.pmcCount _ _ _ _ 0),
    Core.pmcCount_eq k]

/-- A count changes no part of a core but its programmable counters. -/
theorem State.core_count (c ctx code n k : Nat) :
    (s.count c ctx code n).core k = { s.core k with pmc := ((s.count c ctx code n).core k).pmc } := by
  unfold State.count
  simp only [State.modCore_eq, State.core_setCore]
  split
  · rename_i e
    subst e
    exact Core.countAll_eq _ _ _ _
  · rfl

/-- A count changes no part of a die but its counters. -/
theorem State.die_count (c ctx code n d : Nat) :
    (s.count c ctx code n).die d = { s.die d with counters := ((s.count c ctx code n).die d).counters } := by
  have e : (s.count c ctx code n).die d = (s.modDie (coreDie c) (fun d => d.count code (coreLocal c) n)).die d := rfl
  rw [e, State.modDie_eq, State.die_setDie]
  split
  · rename_i e
    subst e
    rfl
  · rfl

@[simp] theorem State.thr_count (c ctx code n u : Nat) : (s.count c ctx code n).thr u = s.thr u := rfl

@[simp] theorem State.thr_countMe (code u : Nat) : (s.countMe code).thr u = s.thr u := rfl

@[simp] theorem State.me_countMe (code : Nat) : (s.countMe code).me = s.me := rfl

/-! ## Completions -/

/-- What an operation on the thread in execution alone leaves of the threads. -/
theorem State.thr_modMe (f : Thread → Thread) (u : Nat) : (s.modMe f).thr u = if u = s.cur then f s.me else s.thr u := by
  rw [State.modMe_eq, State.thr_setThr]
  rfl

/-- Completion with RDY (R26). -/
theorem State.complete_rdy (nb : BitVec 1) : s.complete nb .rdy = s.setThr s.cur (s.me.completed nb .rdy) := by
  unfold State.complete Thread.completed
  by_cases h : nb = 1
  · simp only [h, and_self, if_true, true_or]
    rfl
  · simp only [h, false_and, if_false, if_true, ne_eq, not_true, or_self]
    rfl

/-- Completion with RDY is progress of the group (R356). -/
theorem State.completeP_rdy (nb : BitVec 1) : s.completeP nb .rdy =
    (s.setThr s.cur (s.me.completed nb .rdy)).modGrp s.me.gid (fun x => { x with wdCount := 0 }) := by
  unfold State.completeP
  rw [if_pos (.inl rfl), State.complete_rdy]
  rfl

theorem State.completeP_rdy_facts (nb : BitVec 1) :
    Frame [.fThreads, .fGroups] s (s.completeP nb .rdy) ∧ (∀ u, u ≠ s.cur → (s.completeP nb .rdy).thr u = s.thr u) ∧
      s.progressed (s.completeP nb .rdy) ∧ (s.completeP nb .rdy).me = s.me.completed nb .rdy := by
  rw [State.completeP_rdy]
  refine ⟨((Frame.refl _ s).setThr _ _).modGrp _ _, fun u h => ?_, fun g => ?_, ?_⟩
  · show (s.setThr _ _).thr u = _
    rw [State.thr_setThr, if_neg h]
  · rw [State.modGrp_eq, State.grp_setGrp]
    split
    · rename_i e
      subst e
      rfl
    · rfl
  · show (s.setThr _ _).me = _
    rw [State.me_setThr]

/-- Completion with another outcome that completes without effect. -/
theorem State.complete_other (nb : BitVec 1) (c : OCode) (h : c ≠ .rdy) : s.complete nb c =
    (s.setThr s.cur (s.me.completed nb c)).countMe (0x1000 + c.code) := by
  unfold State.complete Thread.completed
  simp only [h, and_false, if_false, ne_eq, not_false_eq_true, or_true, if_true]
  rfl

/-- An instruction that ends with a completion other than RDY ends so. -/
theorem State.ends_of {s : State} {i : Instr} {nb : BitVec 1} {c : OCode} (h : exec i s = .next (s.complete nb c)) :
    s.ends i nb c := by
  refine ⟨_, h, ?_⟩
  by_cases e : c = .rdy
  · subst e
    rw [State.complete_rdy]
    exact ⟨rfl, fun u k => by rw [State.thr_setThr, if_neg k], fun _ => rfl, fun _ => rfl, by rw [State.me_setThr]⟩
  · rw [State.complete_other s nb c e]
    refine ⟨?_, fun u k => ?_, fun k => State.core_count _ _ _ _ _ k, fun d => State.die_count _ _ _ _ _ d, ?_⟩
    · refine Frame.eq (T := [.fThreads, .fCores, .fDies]) (((Frame.refl _ s).setThr _ _).countMe _)
        ⟨fun f m => ?_⟩ (fun f m => ?_)
      · cases f <;> first | rfl | exact absurd (by decide) m
      · fin_cases m <;> rfl
    · rw [State.thr_countMe, State.thr_setThr, if_neg k]
    · rw [State.me_countMe, State.me_setThr]

/-- An instruction that is not ready stops its thread so. -/
theorem State.stops_of {s : State} {i : Instr} {nb : BitVec 1} {c : OCode} {w : WakeCond}
    (h : exec i s = .next (s.notReady nb c w)) : s.stops i nb c w := by
  refine ⟨_, h, ?_⟩
  unfold State.notReady Thread.stoppedAt
  by_cases e : nb = 1
  · rw [if_pos e, if_pos e]
    refine ⟨?_, fun u k => ?_, fun k => State.core_count _ _ _ _ _ k, fun d => State.die_count _ _ _ _ _ d, ?_⟩
    · refine Frame.eq (T := [.fThreads, .fCores, .fDies, .fWakeSeq]) (((Frame.refl _ s).modMe _).countMe _)
        ⟨fun f m => ?_⟩ (fun f m => ?_)
      · cases f <;> first | rfl | exact absurd (by decide) m
      · fin_cases m <;> rfl
    · rw [State.thr_countMe, State.thr_modMe, if_neg k]
    · rw [State.me_countMe, State.me_modMe]
      rfl
  · rw [if_neg e, if_neg e]
    refine ⟨?_, fun u k => ?_, fun k => State.core_count _ _ _ _ _ k, fun d => State.die_count _ _ _ _ _ d, ?_⟩
    · refine Frame.eq (T := [.fThreads, .fCores, .fDies, .fWakeSeq])
        ((((Frame.refl _ s).withWakeSeq _).modMe _).countMe _) ⟨fun f m => ?_⟩ (fun f m => ?_)
      · cases f <;> first | rfl | exact absurd (by decide) m
      · fin_cases m <;> rfl
    · rw [State.thr_countMe, State.thr_modMe, if_neg k]
      rfl
    · rw [State.me_countMe, State.me_modMe]
      rfl

/-- An instruction that answers with a trap of its thread traps so. -/
theorem State.traps_of {s : State} {i : Instr} {cls : TrapClass} {va extra : Word}
    (h : exec i s = .next (s.trapMe cls va extra)) (k : s.me.issues) : s.traps i cls va extra := by
  have f := s.trapMe_frame cls va extra
  exact ⟨_, h, s.trapMe_me _ _ _ (Thread.calm_of_issues k), f.cur, f.lm, f.acc, f.planes, f.formes, f.groups, f.kernels,
    f.power, (s.trapMe_facts cls va extra).2, (s.trapMe_facts cls va extra).1⟩

/-- A register written, and a completion with RDY. -/
theorem State.results_of {s s' : State} {i : Instr} {nb : BitVec 1} {rd : BitVec 4} {v : Word} (e : Same [.fCores] s s')
    (h : exec i s = .next ((s'.modMe (fun t => t.setReg rd v)).completeP nb .rdy)) : s.results i nb rd v := by
  have m : (s'.modMe (fun t => t.setReg rd v)).me = s.me.setReg rd v := by rw [State.me_modMe, e.me]
  have g : (s.me.setReg rd v).gid = s.me.gid := by
    unfold Thread.setReg
    split <;> rfl
  obtain ⟨f, o, p, q⟩ := (s'.modMe (fun t => t.setReg rd v)).completeP_rdy_facts nb
  refine ⟨_, h, ?_, fun u k => ?_, fun k => ?_, fun x => ?_, fun x => ?_, ?_⟩
  · refine Frame.eq (T := [.fThreads, .fCores, .fGroups]) (Frame.trans
      ((e.frame.mono (by decide)).modMe _) (f.mono (by decide))) ⟨fun f m => ?_⟩ (fun f m => ?_)
    · cases f <;> first | rfl | exact absurd (by decide) m
    · fin_cases m <;> rfl
  · rw [o u (by show u ≠ s'.cur; rw [e.cur]; exact k), State.thr_modMe, e.cur, if_neg k, e.thr]
  · have : ∀ q : State, q.core k = tget Core.fresh q.cores k := fun _ => rfl
    rw [this, f.cores]
    exact e.core k
  · have := p x
    rw [m, g] at this
    rw [this]
    have c : ∀ q : State, q.grp x = tget Group.fresh q.groups x := fun _ => rfl
    rw [c (s'.modMe _), show (s'.modMe (fun t => t.setReg rd v)).groups = s'.groups from rfl, e.frame.groups]
    rfl
  · rw [q, m]
    have c : ∀ t : Thread, (t.completed nb .rdy).reg x = t.reg x := fun _ => rfl
    rw [c, Thread.reg_setReg]
    by_cases h : x = rd
    · subst h; simp
    · simp [h]
  · rw [q, m]
    unfold Thread.setReg
    split <;> rfl

end Sys2Proof.Machine
end

