-- ==== Sys2Proof/Laws/PerInstr.lean ====
section
/-! SUPPORT. One lemma per constructor of `Instr`: its encoding is a 32-bit word (R27). -/

set_option Elab.async false

namespace Sys2Proof.Laws.Fits

/-- The encoding of an instruction is a 32-bit word. -/
def Statement (i : Instr) : Prop := encode i < 2 ^ 32

theorem lui (rd : BitVec 4) (imm : BitVec 20) : Statement (.lui rd imm) := by
  have h_rd := rd.isLt
  have h_imm := imm.isLt
  simp only [Statement, encode]
  try simp only [bits]
  omega

theorem auipc (rd : BitVec 4) (imm : BitVec 20) : Statement (.auipc rd imm) := by
  have h_rd := rd.isLt
  have h_imm := imm.isLt
  simp only [Statement, encode]
  try simp only [bits]
  omega

theorem jal (rd : BitVec 4) (imm : BitVec 20) : Statement (.jal rd imm) := by
  have h_rd := rd.isLt
  have h_imm := imm.isLt
  simp only [Statement, encode]
  try simp only [bits]
  omega

theorem jalr (rd : BitVec 4) (rs1 : BitVec 4) (imm : BitVec 12) : Statement (.jalr rd rs1 imm) := by
  have h_rd := rd.isLt
  have h_rs1 := rs1.isLt
  have h_imm := imm.isLt
  simp only [Statement, encode]
  try simp only [bits]
  omega

theorem beq (rs1 : BitVec 4) (rs2 : BitVec 4) (imm : BitVec 12) : Statement (.beq rs1 rs2 imm) := by
  have h_rs1 := rs1.isLt
  have h_rs2 := rs2.isLt
  have h_imm := imm.isLt
  simp only [Statement, encode]
  try simp only [bits]
  omega

theorem bne (rs1 : BitVec 4) (rs2 : BitVec 4) (imm : BitVec 12) : Statement (.bne rs1 rs2 imm) := by
  have h_rs1 := rs1.isLt
  have h_rs2 := rs2.isLt
  have h_imm := imm.isLt
  simp only [Statement, encode]
  try simp only [bits]
  omega

theorem blt (rs1 : BitVec 4) (rs2 : BitVec 4) (imm : BitVec 12) : Statement (.blt rs1 rs2 imm) := by
  have h_rs1 := rs1.isLt
  have h_rs2 := rs2.isLt
  have h_imm := imm.isLt
  simp only [Statement, encode]
  try simp only [bits]
  omega

theorem bge (rs1 : BitVec 4) (rs2 : BitVec 4) (imm : BitVec 12) : Statement (.bge rs1 rs2 imm) := by
  have h_rs1 := rs1.isLt
  have h_rs2 := rs2.isLt
  have h_imm := imm.isLt
  simp only [Statement, encode]
  try simp only [bits]
  omega

theorem bltu (rs1 : BitVec 4) (rs2 : BitVec 4) (imm : BitVec 12) : Statement (.bltu rs1 rs2 imm) := by
  have h_rs1 := rs1.isLt
  have h_rs2 := rs2.isLt
  have h_imm := imm.isLt
  simp only [Statement, encode]
  try simp only [bits]
  omega

theorem bgeu (rs1 : BitVec 4) (rs2 : BitVec 4) (imm : BitVec 12) : Statement (.bgeu rs1 rs2 imm) := by
  have h_rs1 := rs1.isLt
  have h_rs2 := rs2.isLt
  have h_imm := imm.isLt
  simp only [Statement, encode]
  try simp only [bits]
  omega

theorem lb (rd : BitVec 4) (rs1 : BitVec 4) (imm : BitVec 12) : Statement (.lb rd rs1 imm) := by
  have h_rd := rd.isLt
  have h_rs1 := rs1.isLt
  have h_imm := imm.isLt
  simp only [Statement, encode]
  try simp only [bits]
  omega

theorem lh (rd : BitVec 4) (rs1 : BitVec 4) (imm : BitVec 12) : Statement (.lh rd rs1 imm) := by
  have h_rd := rd.isLt
  have h_rs1 := rs1.isLt
  have h_imm := imm.isLt
  simp only [Statement, encode]
  try simp only [bits]
  omega

theorem lw (rd : BitVec 4) (rs1 : BitVec 4) (imm : BitVec 12) : Statement (.lw rd rs1 imm) := by
  have h_rd := rd.isLt
  have h_rs1 := rs1.isLt
  have h_imm := imm.isLt
  simp only [Statement, encode]
  try simp only [bits]
  omega

theorem ld (rd : BitVec 4) (rs1 : BitVec 4) (imm : BitVec 12) : Statement (.ld rd rs1 imm) := by
  have h_rd := rd.isLt
  have h_rs1 := rs1.isLt
  have h_imm := imm.isLt
  simp only [Statement, encode]
  try simp only [bits]
  omega

theorem lbu (rd : BitVec 4) (rs1 : BitVec 4) (imm : BitVec 12) : Statement (.lbu rd rs1 imm) := by
  have h_rd := rd.isLt
  have h_rs1 := rs1.isLt
  have h_imm := imm.isLt
  simp only [Statement, encode]
  try simp only [bits]
  omega

theorem lhu (rd : BitVec 4) (rs1 : BitVec 4) (imm : BitVec 12) : Statement (.lhu rd rs1 imm) := by
  have h_rd := rd.isLt
  have h_rs1 := rs1.isLt
  have h_imm := imm.isLt
  simp only [Statement, encode]
  try simp only [bits]
  omega

theorem lwu (rd : BitVec 4) (rs1 : BitVec 4) (imm : BitVec 12) : Statement (.lwu rd rs1 imm) := by
  have h_rd := rd.isLt
  have h_rs1 := rs1.isLt
  have h_imm := imm.isLt
  simp only [Statement, encode]
  try simp only [bits]
  omega

theorem sb (rs1 : BitVec 4) (rs2 : BitVec 4) (imm : BitVec 12) : Statement (.sb rs1 rs2 imm) := by
  have h_rs1 := rs1.isLt
  have h_rs2 := rs2.isLt
  have h_imm := imm.isLt
  simp only [Statement, encode]
  try simp only [bits]
  omega

theorem sh (rs1 : BitVec 4) (rs2 : BitVec 4) (imm : BitVec 12) : Statement (.sh rs1 rs2 imm) := by
  have h_rs1 := rs1.isLt
  have h_rs2 := rs2.isLt
  have h_imm := imm.isLt
  simp only [Statement, encode]
  try simp only [bits]
  omega

theorem sw (rs1 : BitVec 4) (rs2 : BitVec 4) (imm : BitVec 12) : Statement (.sw rs1 rs2 imm) := by
  have h_rs1 := rs1.isLt
  have h_rs2 := rs2.isLt
  have h_imm := imm.isLt
  simp only [Statement, encode]
  try simp only [bits]
  omega

theorem sd (rs1 : BitVec 4) (rs2 : BitVec 4) (imm : BitVec 12) : Statement (.sd rs1 rs2 imm) := by
  have h_rs1 := rs1.isLt
  have h_rs2 := rs2.isLt
  have h_imm := imm.isLt
  simp only [Statement, encode]
  try simp only [bits]
  omega

theorem addi (rd : BitVec 4) (rs1 : BitVec 4) (imm : BitVec 12) : Statement (.addi rd rs1 imm) := by
  have h_rd := rd.isLt
  have h_rs1 := rs1.isLt
  have h_imm := imm.isLt
  simp only [Statement, encode]
  try simp only [bits]
  omega

theorem slti (rd : BitVec 4) (rs1 : BitVec 4) (imm : BitVec 12) : Statement (.slti rd rs1 imm) := by
  have h_rd := rd.isLt
  have h_rs1 := rs1.isLt
  have h_imm := imm.isLt
  simp only [Statement, encode]
  try simp only [bits]
  omega

theorem sltiu (rd : BitVec 4) (rs1 : BitVec 4) (imm : BitVec 12) : Statement (.sltiu rd rs1 imm) := by
  have h_rd := rd.isLt
  have h_rs1 := rs1.isLt
  have h_imm := imm.isLt
  simp only [Statement, encode]
  try simp only [bits]
  omega

theorem xori (rd : BitVec 4) (rs1 : BitVec 4) (imm : BitVec 12) : Statement (.xori rd rs1 imm) := by
  have h_rd := rd.isLt
  have h_rs1 := rs1.isLt
  have h_imm := imm.isLt
  simp only [Statement, encode]
  try simp only [bits]
  omega

theorem ori (rd : BitVec 4) (rs1 : BitVec 4) (imm : BitVec 12) : Statement (.ori rd rs1 imm) := by
  have h_rd := rd.isLt
  have h_rs1 := rs1.isLt
  have h_imm := imm.isLt
  simp only [Statement, encode]
  try simp only [bits]
  omega

theorem andi (rd : BitVec 4) (rs1 : BitVec 4) (imm : BitVec 12) : Statement (.andi rd rs1 imm) := by
  have h_rd := rd.isLt
  have h_rs1 := rs1.isLt
  have h_imm := imm.isLt
  simp only [Statement, encode]
  try simp only [bits]
  omega

theorem slli (rd : BitVec 4) (rs1 : BitVec 4) (sh : BitVec 6) : Statement (.slli rd rs1 sh) := by
  have h_rd := rd.isLt
  have h_rs1 := rs1.isLt
  have h_sh := sh.isLt
  simp only [Statement, encode]
  try simp only [bits]
  omega

theorem srli (rd : BitVec 4) (rs1 : BitVec 4) (sh : BitVec 6) : Statement (.srli rd rs1 sh) := by
  have h_rd := rd.isLt
  have h_rs1 := rs1.isLt
  have h_sh := sh.isLt
  simp only [Statement, encode]
  try simp only [bits]
  omega

theorem srai (rd : BitVec 4) (rs1 : BitVec 4) (sh : BitVec 6) : Statement (.srai rd rs1 sh) := by
  have h_rd := rd.isLt
  have h_rs1 := rs1.isLt
  have h_sh := sh.isLt
  simp only [Statement, encode]
  try simp only [bits]
  omega

theorem addiw (rd : BitVec 4) (rs1 : BitVec 4) (imm : BitVec 12) : Statement (.addiw rd rs1 imm) := by
  have h_rd := rd.isLt
  have h_rs1 := rs1.isLt
  have h_imm := imm.isLt
  simp only [Statement, encode]
  try simp only [bits]
  omega

theorem slliw (rd : BitVec 4) (rs1 : BitVec 4) (sh : BitVec 5) : Statement (.slliw rd rs1 sh) := by
  have h_rd := rd.isLt
  have h_rs1 := rs1.isLt
  have h_sh := sh.isLt
  simp only [Statement, encode]
  try simp only [bits]
  omega

theorem srliw (rd : BitVec 4) (rs1 : BitVec 4) (sh : BitVec 5) : Statement (.srliw rd rs1 sh) := by
  have h_rd := rd.isLt
  have h_rs1 := rs1.isLt
  have h_sh := sh.isLt
  simp only [Statement, encode]
  try simp only [bits]
  omega

theorem sraiw (rd : BitVec 4) (rs1 : BitVec 4) (sh : BitVec 5) : Statement (.sraiw rd rs1 sh) := by
  have h_rd := rd.isLt
  have h_rs1 := rs1.isLt
  have h_sh := sh.isLt
  simp only [Statement, encode]
  try simp only [bits]
  omega

theorem add (rd : BitVec 4) (rs1 : BitVec 4) (rs2 : BitVec 4) : Statement (.add rd rs1 rs2) := by
  have h_rd := rd.isLt
  have h_rs1 := rs1.isLt
  have h_rs2 := rs2.isLt
  simp only [Statement, encode]
  try simp only [bits]
  omega

theorem sub (rd : BitVec 4) (rs1 : BitVec 4) (rs2 : BitVec 4) : Statement (.sub rd rs1 rs2) := by
  have h_rd := rd.isLt
  have h_rs1 := rs1.isLt
  have h_rs2 := rs2.isLt
  simp only [Statement, encode]
  try simp only [bits]
  omega

theorem sll (rd : BitVec 4) (rs1 : BitVec 4) (rs2 : BitVec 4) : Statement (.sll rd rs1 rs2) := by
  have h_rd := rd.isLt
  have h_rs1 := rs1.isLt
  have h_rs2 := rs2.isLt
  simp only [Statement, encode]
  try simp only [bits]
  omega

theorem slt (rd : BitVec 4) (rs1 : BitVec 4) (rs2 : BitVec 4) : Statement (.slt rd rs1 rs2) := by
  have h_rd := rd.isLt
  have h_rs1 := rs1.isLt
  have h_rs2 := rs2.isLt
  simp only [Statement, encode]
  try simp only [bits]
  omega

theorem sltu (rd : BitVec 4) (rs1 : BitVec 4) (rs2 : BitVec 4) : Statement (.sltu rd rs1 rs2) := by
  have h_rd := rd.isLt
  have h_rs1 := rs1.isLt
  have h_rs2 := rs2.isLt
  simp only [Statement, encode]
  try simp only [bits]
  omega

theorem xorr (rd : BitVec 4) (rs1 : BitVec 4) (rs2 : BitVec 4) : Statement (.xorr rd rs1 rs2) := by
  have h_rd := rd.isLt
  have h_rs1 := rs1.isLt
  have h_rs2 := rs2.isLt
  simp only [Statement, encode]
  try simp only [bits]
  omega

theorem srl (rd : BitVec 4) (rs1 : BitVec 4) (rs2 : BitVec 4) : Statement (.srl rd rs1 rs2) := by
  have h_rd := rd.isLt
  have h_rs1 := rs1.isLt
  have h_rs2 := rs2.isLt
  simp only [Statement, encode]
  try simp only [bits]
  omega

theorem sra (rd : BitVec 4) (rs1 : BitVec 4) (rs2 : BitVec 4) : Statement (.sra rd rs1 rs2) := by
  have h_rd := rd.isLt
  have h_rs1 := rs1.isLt
  have h_rs2 := rs2.isLt
  simp only [Statement, encode]
  try simp only [bits]
  omega

theorem orr (rd : BitVec 4) (rs1 : BitVec 4) (rs2 : BitVec 4) : Statement (.orr rd rs1 rs2) := by
  have h_rd := rd.isLt
  have h_rs1 := rs1.isLt
  have h_rs2 := rs2.isLt
  simp only [Statement, encode]
  try simp only [bits]
  omega

theorem andr (rd : BitVec 4) (rs1 : BitVec 4) (rs2 : BitVec 4) : Statement (.andr rd rs1 rs2) := by
  have h_rd := rd.isLt
  have h_rs1 := rs1.isLt
  have h_rs2 := rs2.isLt
  simp only [Statement, encode]
  try simp only [bits]
  omega

theorem addw (rd : BitVec 4) (rs1 : BitVec 4) (rs2 : BitVec 4) : Statement (.addw rd rs1 rs2) := by
  have h_rd := rd.isLt
  have h_rs1 := rs1.isLt
  have h_rs2 := rs2.isLt
  simp only [Statement, encode]
  try simp only [bits]
  omega

theorem subw (rd : BitVec 4) (rs1 : BitVec 4) (rs2 : BitVec 4) : Statement (.subw rd rs1 rs2) := by
  have h_rd := rd.isLt
  have h_rs1 := rs1.isLt
  have h_rs2 := rs2.isLt
  simp only [Statement, encode]
  try simp only [bits]
  omega

theorem sllw (rd : BitVec 4) (rs1 : BitVec 4) (rs2 : BitVec 4) : Statement (.sllw rd rs1 rs2) := by
  have h_rd := rd.isLt
  have h_rs1 := rs1.isLt
  have h_rs2 := rs2.isLt
  simp only [Statement, encode]
  try simp only [bits]
  omega

theorem srlw (rd : BitVec 4) (rs1 : BitVec 4) (rs2 : BitVec 4) : Statement (.srlw rd rs1 rs2) := by
  have h_rd := rd.isLt
  have h_rs1 := rs1.isLt
  have h_rs2 := rs2.isLt
  simp only [Statement, encode]
  try simp only [bits]
  omega

theorem sraw (rd : BitVec 4) (rs1 : BitVec 4) (rs2 : BitVec 4) : Statement (.sraw rd rs1 rs2) := by
  have h_rd := rd.isLt
  have h_rs1 := rs1.isLt
  have h_rs2 := rs2.isLt
  simp only [Statement, encode]
  try simp only [bits]
  omega

theorem mul (rd : BitVec 4) (rs1 : BitVec 4) (rs2 : BitVec 4) : Statement (.mul rd rs1 rs2) := by
  have h_rd := rd.isLt
  have h_rs1 := rs1.isLt
  have h_rs2 := rs2.isLt
  simp only [Statement, encode]
  try simp only [bits]
  omega

theorem mulh (rd : BitVec 4) (rs1 : BitVec 4) (rs2 : BitVec 4) : Statement (.mulh rd rs1 rs2) := by
  have h_rd := rd.isLt
  have h_rs1 := rs1.isLt
  have h_rs2 := rs2.isLt
  simp only [Statement, encode]
  try simp only [bits]
  omega

theorem mulhsu (rd : BitVec 4) (rs1 : BitVec 4) (rs2 : BitVec 4) : Statement (.mulhsu rd rs1 rs2) := by
  have h_rd := rd.isLt
  have h_rs1 := rs1.isLt
  have h_rs2 := rs2.isLt
  simp only [Statement, encode]
  try simp only [bits]
  omega

theorem mulhu (rd : BitVec 4) (rs1 : BitVec 4) (rs2 : BitVec 4) : Statement (.mulhu rd rs1 rs2) := by
  have h_rd := rd.isLt
  have h_rs1 := rs1.isLt
  have h_rs2 := rs2.isLt
  simp only [Statement, encode]
  try simp only [bits]
  omega

theorem div (rd : BitVec 4) (rs1 : BitVec 4) (rs2 : BitVec 4) : Statement (.div rd rs1 rs2) := by
  have h_rd := rd.isLt
  have h_rs1 := rs1.isLt
  have h_rs2 := rs2.isLt
  simp only [Statement, encode]
  try simp only [bits]
  omega

theorem divu (rd : BitVec 4) (rs1 : BitVec 4) (rs2 : BitVec 4) : Statement (.divu rd rs1 rs2) := by
  have h_rd := rd.isLt
  have h_rs1 := rs1.isLt
  have h_rs2 := rs2.isLt
  simp only [Statement, encode]
  try simp only [bits]
  omega

theorem rem (rd : BitVec 4) (rs1 : BitVec 4) (rs2 : BitVec 4) : Statement (.rem rd rs1 rs2) := by
  have h_rd := rd.isLt
  have h_rs1 := rs1.isLt
  have h_rs2 := rs2.isLt
  simp only [Statement, encode]
  try simp only [bits]
  omega

theorem remu (rd : BitVec 4) (rs1 : BitVec 4) (rs2 : BitVec 4) : Statement (.remu rd rs1 rs2) := by
  have h_rd := rd.isLt
  have h_rs1 := rs1.isLt
  have h_rs2 := rs2.isLt
  simp only [Statement, encode]
  try simp only [bits]
  omega

theorem mulw (rd : BitVec 4) (rs1 : BitVec 4) (rs2 : BitVec 4) : Statement (.mulw rd rs1 rs2) := by
  have h_rd := rd.isLt
  have h_rs1 := rs1.isLt
  have h_rs2 := rs2.isLt
  simp only [Statement, encode]
  try simp only [bits]
  omega

theorem divw (rd : BitVec 4) (rs1 : BitVec 4) (rs2 : BitVec 4) : Statement (.divw rd rs1 rs2) := by
  have h_rd := rd.isLt
  have h_rs1 := rs1.isLt
  have h_rs2 := rs2.isLt
  simp only [Statement, encode]
  try simp only [bits]
  omega

theorem divuw (rd : BitVec 4) (rs1 : BitVec 4) (rs2 : BitVec 4) : Statement (.divuw rd rs1 rs2) := by
  have h_rd := rd.isLt
  have h_rs1 := rs1.isLt
  have h_rs2 := rs2.isLt
  simp only [Statement, encode]
  try simp only [bits]
  omega

theorem remw (rd : BitVec 4) (rs1 : BitVec 4) (rs2 : BitVec 4) : Statement (.remw rd rs1 rs2) := by
  have h_rd := rd.isLt
  have h_rs1 := rs1.isLt
  have h_rs2 := rs2.isLt
  simp only [Statement, encode]
  try simp only [bits]
  omega

theorem remuw (rd : BitVec 4) (rs1 : BitVec 4) (rs2 : BitVec 4) : Statement (.remuw rd rs1 rs2) := by
  have h_rd := rd.isLt
  have h_rs1 := rs1.isLt
  have h_rs2 := rs2.isLt
  simp only [Statement, encode]
  try simp only [bits]
  omega

theorem czeroEqz (rd : BitVec 4) (rs1 : BitVec 4) (rs2 : BitVec 4) : Statement (.czeroEqz rd rs1 rs2) := by
  have h_rd := rd.isLt
  have h_rs1 := rs1.isLt
  have h_rs2 := rs2.isLt
  simp only [Statement, encode]
  try simp only [bits]
  omega

theorem czeroNez (rd : BitVec 4) (rs1 : BitVec 4) (rs2 : BitVec 4) : Statement (.czeroNez rd rs1 rs2) := by
  have h_rd := rd.isLt
  have h_rs1 := rs1.isLt
  have h_rs2 := rs2.isLt
  simp only [Statement, encode]
  try simp only [bits]
  omega

theorem fence (rd : BitVec 5) (rs1 : BitVec 5) (pred : BitVec 4) (succ : BitVec 4) : Statement (.fence rd rs1 pred succ) := by
  have h_rd := rd.isLt
  have h_rs1 := rs1.isLt
  have h_pred := pred.isLt
  have h_succ := succ.isLt
  simp only [Statement, encode]
  try simp only [bits]
  omega

theorem fenceTso (rd : BitVec 5) (rs1 : BitVec 5) (pred : BitVec 4) (succ : BitVec 4) : Statement (.fenceTso rd rs1 pred succ) := by
  have h_rd := rd.isLt
  have h_rs1 := rs1.isLt
  have h_pred := pred.isLt
  have h_succ := succ.isLt
  simp only [Statement, encode]
  try simp only [bits]
  omega

theorem ecall : Statement .ecall := by
  unfold Statement
  decide

theorem ebreak : Statement .ebreak := by
  unfold Statement
  decide

theorem csrrw (rd : BitVec 4) (rs1 : BitVec 4) (csr : BitVec 12) : Statement (.csrrw rd rs1 csr) := by
  have h_rd := rd.isLt
  have h_rs1 := rs1.isLt
  have h_csr := csr.isLt
  simp only [Statement, encode]
  try simp only [bits]
  omega

theorem csrrs (rd : BitVec 4) (rs1 : BitVec 4) (csr : BitVec 12) : Statement (.csrrs rd rs1 csr) := by
  have h_rd := rd.isLt
  have h_rs1 := rs1.isLt
  have h_csr := csr.isLt
  simp only [Statement, encode]
  try simp only [bits]
  omega

theorem csrrc (rd : BitVec 4) (rs1 : BitVec 4) (csr : BitVec 12) : Statement (.csrrc rd rs1 csr) := by
  have h_rd := rd.isLt
  have h_rs1 := rs1.isLt
  have h_csr := csr.isLt
  simp only [Statement, encode]
  try simp only [bits]
  omega

theorem csrrwi (rd : BitVec 4) (csr : BitVec 12) (uimm : BitVec 5) : Statement (.csrrwi rd csr uimm) := by
  have h_rd := rd.isLt
  have h_csr := csr.isLt
  have h_uimm := uimm.isLt
  simp only [Statement, encode]
  try simp only [bits]
  omega

theorem csrrsi (rd : BitVec 4) (csr : BitVec 12) (uimm : BitVec 5) : Statement (.csrrsi rd csr uimm) := by
  have h_rd := rd.isLt
  have h_csr := csr.isLt
  have h_uimm := uimm.isLt
  simp only [Statement, encode]
  try simp only [bits]
  omega

theorem csrrci (rd : BitVec 4) (csr : BitVec 12) (uimm : BitVec 5) : Statement (.csrrci rd csr uimm) := by
  have h_rd := rd.isLt
  have h_csr := csr.isLt
  have h_uimm := uimm.isLt
  simp only [Statement, encode]
  try simp only [bits]
  omega

theorem pld (rd : BitVec 4) (base : BitVec 4) (imm : BitVec 12) (width : BitVec 3) (nb : BitVec 1) : Statement (.pld rd base imm width nb) := by
  have h_rd := rd.isLt
  have h_base := base.isLt
  have h_imm := imm.isLt
  have h_width := width.isLt
  have h_nb := nb.isLt
  simp only [Statement, encode]
  try simp only [bits]
  omega

theorem pst (rs : BitVec 4) (base : BitVec 4) (imm : BitVec 12) (width : BitVec 3) (nb : BitVec 1) : Statement (.pst rs base imm width nb) := by
  have h_rs := rs.isLt
  have h_base := base.isLt
  have h_imm := imm.isLt
  have h_width := width.isLt
  have h_nb := nb.isLt
  simp only [Statement, encode]
  try simp only [bits]
  omega

theorem pldBr (rd : BitVec 4) (base : BitVec 4) (off : BitVec 12) (width : BitVec 3) : Statement (.pldBr rd base off width) := by
  have h_rd := rd.isLt
  have h_base := base.isLt
  have h_off := off.isLt
  have h_width := width.isLt
  simp only [Statement, encode]
  try simp only [bits]
  omega

theorem pstBr (rs : BitVec 4) (base : BitVec 4) (off : BitVec 12) (width : BitVec 3) : Statement (.pstBr rs base off width) := by
  have h_rs := rs.isLt
  have h_base := base.isLt
  have h_off := off.isLt
  have h_width := width.isLt
  simp only [Statement, encode]
  try simp only [bits]
  omega

theorem bo (off : BitVec 12) (cond : BitVec 4) : Statement (.bo off cond) := by
  have h_off := off.isLt
  have h_cond := cond.isLt
  simp only [Statement, encode]
  try simp only [bits]
  omega

theorem yield : Statement .yield := by
  unfold Statement
  decide

theorem yieldN (rs1 : BitVec 4) : Statement (.yieldN rs1) := by
  have h_rs1 := rs1.isLt
  simp only [Statement, encode]
  try simp only [bits]
  omega

theorem sleep (rs1 : BitVec 4) : Statement (.sleep rs1) := by
  have h_rs1 := rs1.isLt
  simp only [Statement, encode]
  try simp only [bits]
  omega

theorem thrSpawn (rd : BitVec 4) (rs1 : BitVec 4) (rs2 : BitVec 4) (nb : BitVec 1) : Statement (.thrSpawn rd rs1 rs2 nb) := by
  have h_rd := rd.isLt
  have h_rs1 := rs1.isLt
  have h_rs2 := rs2.isLt
  have h_nb := nb.isLt
  simp only [Statement, encode]
  try simp only [bits]
  omega

theorem thrExit : Statement .thrExit := by
  unfold Statement
  decide

theorem go (rs1 : BitVec 4) : Statement (.go rs1) := by
  have h_rs1 := rs1.isLt
  simp only [Statement, encode]
  try simp only [bits]
  omega

theorem msend (rs1 : BitVec 4) (rs2 : BitVec 4) (nb : BitVec 1) : Statement (.msend rs1 rs2 nb) := by
  have h_rs1 := rs1.isLt
  have h_rs2 := rs2.isLt
  have h_nb := nb.isLt
  simp only [Statement, encode]
  try simp only [bits]
  omega

theorem mrecv (rd : BitVec 4) (nb : BitVec 1) : Statement (.mrecv rd nb) := by
  have h_rd := rd.isLt
  have h_nb := nb.isLt
  simp only [Statement, encode]
  try simp only [bits]
  omega

theorem mfrom (rd : BitVec 4) (nb : BitVec 1) : Statement (.mfrom rd nb) := by
  have h_rd := rd.isLt
  have h_nb := nb.isLt
  simp only [Statement, encode]
  try simp only [bits]
  omega

theorem mark (rs1 : BitVec 4) (nb : BitVec 1) : Statement (.mark rs1 nb) := by
  have h_rs1 := rs1.isLt
  have h_nb := nb.isLt
  simp only [Statement, encode]
  try simp only [bits]
  omega

theorem qinit (rs1 : BitVec 4) (nb : BitVec 1) : Statement (.qinit rs1 nb) := by
  have h_rs1 := rs1.isLt
  have h_nb := nb.isLt
  simp only [Statement, encode]
  try simp only [bits]
  omega

theorem qacq (rd : BitVec 4) (rs1 : BitVec 4) (nb : BitVec 1) : Statement (.qacq rd rs1 nb) := by
  have h_rd := rd.isLt
  have h_rs1 := rs1.isLt
  have h_nb := nb.isLt
  simp only [Statement, encode]
  try simp only [bits]
  omega

theorem qwait (rs1 : BitVec 4) (nb : BitVec 1) : Statement (.qwait rs1 nb) := by
  have h_rs1 := rs1.isLt
  have h_nb := nb.isLt
  simp only [Statement, encode]
  try simp only [bits]
  omega

theorem qgive (rs1 : BitVec 4) (rs2 : BitVec 4) (nb : BitVec 1) : Statement (.qgive rs1 rs2 nb) := by
  have h_rs1 := rs1.isLt
  have h_rs2 := rs2.isLt
  have h_nb := nb.isLt
  simp only [Statement, encode]
  try simp only [bits]
  omega

theorem qswap (rs1 : BitVec 4) (rs2 : BitVec 4) (nb : BitVec 1) : Statement (.qswap rs1 rs2 nb) := by
  have h_rs1 := rs1.isLt
  have h_rs2 := rs2.isLt
  have h_nb := nb.isLt
  simp only [Statement, encode]
  try simp only [bits]
  omega

theorem qdrop (rs1 : BitVec 4) (nb : BitVec 1) : Statement (.qdrop rs1 nb) := by
  have h_rs1 := rs1.isLt
  have h_nb := nb.isLt
  simp only [Statement, encode]
  try simp only [bits]
  omega

theorem qrel (rs1 : BitVec 4) (nb : BitVec 1) : Statement (.qrel rs1 nb) := by
  have h_rs1 := rs1.isLt
  have h_nb := nb.isLt
  simp only [Statement, encode]
  try simp only [bits]
  omega

theorem qstat (rd : BitVec 4) (rs1 : BitVec 4) (nb : BitVec 1) : Statement (.qstat rd rs1 nb) := by
  have h_rd := rd.isLt
  have h_rs1 := rs1.isLt
  have h_nb := nb.isLt
  simp only [Statement, encode]
  try simp only [bits]
  omega

theorem amoAdd (rd : BitVec 4) (rs1 : BitVec 4) (rs2 : BitVec 4) (width : BitVec 1) (scope : BitVec 3) (nb : BitVec 1) : Statement (.amoAdd rd rs1 rs2 width scope nb) := by
  have h_rd := rd.isLt
  have h_rs1 := rs1.isLt
  have h_rs2 := rs2.isLt
  have h_width := width.isLt
  have h_scope := scope.isLt
  have h_nb := nb.isLt
  simp only [Statement, encode]
  try simp only [bits]
  omega

theorem amoAnd (rd : BitVec 4) (rs1 : BitVec 4) (rs2 : BitVec 4) (width : BitVec 1) (scope : BitVec 3) (nb : BitVec 1) : Statement (.amoAnd rd rs1 rs2 width scope nb) := by
  have h_rd := rd.isLt
  have h_rs1 := rs1.isLt
  have h_rs2 := rs2.isLt
  have h_width := width.isLt
  have h_scope := scope.isLt
  have h_nb := nb.isLt
  simp only [Statement, encode]
  try simp only [bits]
  omega

theorem amoOr (rd : BitVec 4) (rs1 : BitVec 4) (rs2 : BitVec 4) (width : BitVec 1) (scope : BitVec 3) (nb : BitVec 1) : Statement (.amoOr rd rs1 rs2 width scope nb) := by
  have h_rd := rd.isLt
  have h_rs1 := rs1.isLt
  have h_rs2 := rs2.isLt
  have h_width := width.isLt
  have h_scope := scope.isLt
  have h_nb := nb.isLt
  simp only [Statement, encode]
  try simp only [bits]
  omega

theorem amoXor (rd : BitVec 4) (rs1 : BitVec 4) (rs2 : BitVec 4) (width : BitVec 1) (scope : BitVec 3) (nb : BitVec 1) : Statement (.amoXor rd rs1 rs2 width scope nb) := by
  have h_rd := rd.isLt
  have h_rs1 := rs1.isLt
  have h_rs2 := rs2.isLt
  have h_width := width.isLt
  have h_scope := scope.isLt
  have h_nb := nb.isLt
  simp only [Statement, encode]
  try simp only [bits]
  omega

theorem amoMin (rd : BitVec 4) (rs1 : BitVec 4) (rs2 : BitVec 4) (width : BitVec 1) (scope : BitVec 3) (nb : BitVec 1) : Statement (.amoMin rd rs1 rs2 width scope nb) := by
  have h_rd := rd.isLt
  have h_rs1 := rs1.isLt
  have h_rs2 := rs2.isLt
  have h_width := width.isLt
  have h_scope := scope.isLt
  have h_nb := nb.isLt
  simp only [Statement, encode]
  try simp only [bits]
  omega

theorem amoMax (rd : BitVec 4) (rs1 : BitVec 4) (rs2 : BitVec 4) (width : BitVec 1) (scope : BitVec 3) (nb : BitVec 1) : Statement (.amoMax rd rs1 rs2 width scope nb) := by
  have h_rd := rd.isLt
  have h_rs1 := rs1.isLt
  have h_rs2 := rs2.isLt
  have h_width := width.isLt
  have h_scope := scope.isLt
  have h_nb := nb.isLt
  simp only [Statement, encode]
  try simp only [bits]
  omega

theorem amoMinu (rd : BitVec 4) (rs1 : BitVec 4) (rs2 : BitVec 4) (width : BitVec 1) (scope : BitVec 3) (nb : BitVec 1) : Statement (.amoMinu rd rs1 rs2 width scope nb) := by
  have h_rd := rd.isLt
  have h_rs1 := rs1.isLt
  have h_rs2 := rs2.isLt
  have h_width := width.isLt
  have h_scope := scope.isLt
  have h_nb := nb.isLt
  simp only [Statement, encode]
  try simp only [bits]
  omega

theorem amoMaxu (rd : BitVec 4) (rs1 : BitVec 4) (rs2 : BitVec 4) (width : BitVec 1) (scope : BitVec 3) (nb : BitVec 1) : Statement (.amoMaxu rd rs1 rs2 width scope nb) := by
  have h_rd := rd.isLt
  have h_rs1 := rs1.isLt
  have h_rs2 := rs2.isLt
  have h_width := width.isLt
  have h_scope := scope.isLt
  have h_nb := nb.isLt
  simp only [Statement, encode]
  try simp only [bits]
  omega

theorem amoSwap (rd : BitVec 4) (rs1 : BitVec 4) (rs2 : BitVec 4) (width : BitVec 1) (scope : BitVec 3) (nb : BitVec 1) : Statement (.amoSwap rd rs1 rs2 width scope nb) := by
  have h_rd := rd.isLt
  have h_rs1 := rs1.isLt
  have h_rs2 := rs2.isLt
  have h_width := width.isLt
  have h_scope := scope.isLt
  have h_nb := nb.isLt
  simp only [Statement, encode]
  try simp only [bits]
  omega

theorem amoCas (rd : BitVec 4) (rs1 : BitVec 4) (rs2 : BitVec 4) (width : BitVec 1) (scope : BitVec 3) (nb : BitVec 1) : Statement (.amoCas rd rs1 rs2 width scope nb) := by
  have h_rd := rd.isLt
  have h_rs1 := rs1.isLt
  have h_rs2 := rs2.isLt
  have h_width := width.isLt
  have h_scope := scope.isLt
  have h_nb := nb.isLt
  simp only [Statement, encode]
  try simp only [bits]
  omega

theorem red (rs1 : BitVec 4) (rs2 : BitVec 4) (kind : BitVec 4) (nb : BitVec 1) : Statement (.red rs1 rs2 kind nb) := by
  have h_rs1 := rs1.isLt
  have h_rs2 := rs2.isLt
  have h_kind := kind.isLt
  have h_nb := nb.isLt
  simp only [Statement, encode]
  try simp only [bits]
  omega

theorem lineWb (rs1 : BitVec 4) (nb : BitVec 1) : Statement (.lineWb rs1 nb) := by
  have h_rs1 := rs1.isLt
  have h_nb := nb.isLt
  simp only [Statement, encode]
  try simp only [bits]
  omega

theorem lineInv (rs1 : BitVec 4) (nb : BitVec 1) : Statement (.lineInv rs1 nb) := by
  have h_rs1 := rs1.isLt
  have h_nb := nb.isLt
  simp only [Statement, encode]
  try simp only [bits]
  omega

theorem lineWbinv (rs1 : BitVec 4) (nb : BitVec 1) : Statement (.lineWbinv rs1 nb) := by
  have h_rs1 := rs1.isLt
  have h_nb := nb.isLt
  simp only [Statement, encode]
  try simp only [bits]
  omega

theorem pqPush (rs1 : BitVec 4) (nb : BitVec 1) : Statement (.pqPush rs1 nb) := by
  have h_rs1 := rs1.isLt
  have h_nb := nb.isLt
  simp only [Statement, encode]
  try simp only [bits]
  omega

theorem pqDone (rs1 : BitVec 4) (nb : BitVec 1) : Statement (.pqDone rs1 nb) := by
  have h_rs1 := rs1.isLt
  have h_nb := nb.isLt
  simp only [Statement, encode]
  try simp only [bits]
  omega

theorem pqResume (nb : BitVec 1) : Statement (.pqResume nb) := by
  have h_nb := nb.isLt
  simp only [Statement, encode]
  try simp only [bits]
  omega

theorem cbitTest (rd : BitVec 4) (rs1 : BitVec 4) (rs2 : BitVec 4) (nb : BitVec 1) : Statement (.cbitTest rd rs1 rs2 nb) := by
  have h_rd := rd.isLt
  have h_rs1 := rs1.isLt
  have h_rs2 := rs2.isLt
  have h_nb := nb.isLt
  simp only [Statement, encode]
  try simp only [bits]
  omega

theorem ksub (rd : BitVec 4) (rs1 : BitVec 4) (rs2 : BitVec 4) (nb : BitVec 1) : Statement (.ksub rd rs1 rs2 nb) := by
  have h_rd := rd.isLt
  have h_rs1 := rs1.isLt
  have h_rs2 := rs2.isLt
  have h_nb := nb.isLt
  simp only [Statement, encode]
  try simp only [bits]
  omega

theorem barArrive (rd : BitVec 4) (kind : BitVec 2) (idx : BitVec 6) (nb : BitVec 1) : Statement (.barArrive rd kind idx nb) := by
  have h_rd := rd.isLt
  have h_kind := kind.isLt
  have h_idx := idx.isLt
  have h_nb := nb.isLt
  simp only [Statement, encode]
  try simp only [bits]
  omega

theorem barWait (rs1 : BitVec 4) (kind : BitVec 2) (idx : BitVec 6) (nb : BitVec 1) : Statement (.barWait rs1 kind idx nb) := by
  have h_rs1 := rs1.isLt
  have h_kind := kind.isLt
  have h_idx := idx.isLt
  have h_nb := nb.isLt
  simp only [Statement, encode]
  try simp only [bits]
  omega

theorem barAw (rd : BitVec 4) (kind : BitVec 2) (idx : BitVec 6) (nb : BitVec 1) : Statement (.barAw rd kind idx nb) := by
  have h_rd := rd.isLt
  have h_kind := kind.isLt
  have h_idx := idx.isLt
  have h_nb := nb.isLt
  simp only [Statement, encode]
  try simp only [bits]
  omega

theorem barCfg (rs1 : BitVec 4) (kind : BitVec 2) (idx : BitVec 6) (nb : BitVec 1) : Statement (.barCfg rs1 kind idx nb) := by
  have h_rs1 := rs1.isLt
  have h_kind := kind.isLt
  have h_idx := idx.isLt
  have h_nb := nb.isLt
  simp only [Statement, encode]
  try simp only [bits]
  omega

theorem fnc (kind : BitVec 2) (scope : BitVec 3) (nb : BitVec 1) : Statement (.fnc kind scope nb) := by
  have h_kind := kind.isLt
  have h_scope := scope.isLt
  have h_nb := nb.isLt
  simp only [Statement, encode]
  try simp only [bits]
  omega

theorem plda (rd : BitVec 4) (rs1 : BitVec 4) (width : BitVec 3) (scope : BitVec 3) (nb : BitVec 1) : Statement (.plda rd rs1 width scope nb) := by
  have h_rd := rd.isLt
  have h_rs1 := rs1.isLt
  have h_width := width.isLt
  have h_scope := scope.isLt
  have h_nb := nb.isLt
  simp only [Statement, encode]
  try simp only [bits]
  omega

theorem pstr (rs : BitVec 4) (rs1 : BitVec 4) (width : BitVec 3) (scope : BitVec 3) (nb : BitVec 1) : Statement (.pstr rs rs1 width scope nb) := by
  have h_rs := rs.isLt
  have h_rs1 := rs1.isLt
  have h_width := width.isLt
  have h_scope := scope.isLt
  have h_nb := nb.isLt
  simp only [Statement, encode]
  try simp only [bits]
  omega

theorem pshD (rs : BitVec 4) (rs1 : BitVec 4) (c8 : BitVec 8) (nb : BitVec 1) : Statement (.pshD rs rs1 c8 nb) := by
  have h_rs := rs.isLt
  have h_rs1 := rs1.isLt
  have h_c8 := c8.isLt
  have h_nb := nb.isLt
  simp only [Statement, encode]
  try simp only [bits]
  omega

theorem pshLine (rs1 : BitVec 4) (c8 : BitVec 8) (nb : BitVec 1) : Statement (.pshLine rs1 c8 nb) := by
  have h_rs1 := rs1.isLt
  have h_c8 := c8.isLt
  have h_nb := nb.isLt
  simp only [Statement, encode]
  try simp only [bits]
  omega

theorem rngWb (rs1 : BitVec 4) (rlen : BitVec 4) (kind : BitVec 2) (idx : BitVec 6) (nb : BitVec 1) : Statement (.rngWb rs1 rlen kind idx nb) := by
  have h_rs1 := rs1.isLt
  have h_rlen := rlen.isLt
  have h_kind := kind.isLt
  have h_idx := idx.isLt
  have h_nb := nb.isLt
  simp only [Statement, encode]
  try simp only [bits]
  omega

theorem rngInv (rs1 : BitVec 4) (rlen : BitVec 4) (kind : BitVec 2) (idx : BitVec 6) (nb : BitVec 1) : Statement (.rngInv rs1 rlen kind idx nb) := by
  have h_rs1 := rs1.isLt
  have h_rlen := rlen.isLt
  have h_kind := kind.isLt
  have h_idx := idx.isLt
  have h_nb := nb.isLt
  simp only [Statement, encode]
  try simp only [bits]
  omega

theorem rngWbinv (rs1 : BitVec 4) (rlen : BitVec 4) (kind : BitVec 2) (idx : BitVec 6) (nb : BitVec 1) : Statement (.rngWbinv rs1 rlen kind idx nb) := by
  have h_rs1 := rs1.isLt
  have h_rlen := rlen.isLt
  have h_kind := kind.isLt
  have h_idx := idx.isLt
  have h_nb := nb.isLt
  simp only [Statement, encode]
  try simp only [bits]
  omega

theorem gxKick (rs1 : BitVec 4) (c8 : BitVec 6) (nb : BitVec 1) : Statement (.gxKick rs1 c8 nb) := by
  have h_rs1 := rs1.isLt
  have h_c8 := c8.isLt
  have h_nb := nb.isLt
  simp only [Statement, encode]
  try simp only [bits]
  omega

theorem lc (rd : BitVec 4) (c8 : BitVec 8) (nb : BitVec 1) : Statement (.lc rd c8 nb) := by
  have h_rd := rd.isLt
  have h_c8 := c8.isLt
  have h_nb := nb.isLt
  simp only [Statement, encode]
  try simp only [bits]
  omega

theorem tiLoad (rs1 : BitVec 4) (c8 : BitVec 8) (nb : BitVec 1) : Statement (.tiLoad rs1 c8 nb) := by
  have h_rs1 := rs1.isLt
  have h_c8 := c8.isLt
  have h_nb := nb.isLt
  simp only [Statement, encode]
  try simp only [bits]
  omega

theorem tiInv (c8 : BitVec 8) (nb : BitVec 1) : Statement (.tiInv c8 nb) := by
  have h_c8 := c8.isLt
  have h_nb := nb.isLt
  simp only [Statement, encode]
  try simp only [bits]
  omega

theorem vadd (vd : BitVec 3) (vs1 : BitVec 3) (vs2 : BitVec 3) (et : BitVec 3) (m : BitVec 1) : Statement (.vadd vd vs1 vs2 et m) := by
  have h_vd := vd.isLt
  have h_vs1 := vs1.isLt
  have h_vs2 := vs2.isLt
  have h_et := et.isLt
  have h_m := m.isLt
  simp only [Statement, encode]
  try simp only [bits]
  omega

theorem vsub (vd : BitVec 3) (vs1 : BitVec 3) (vs2 : BitVec 3) (et : BitVec 3) (m : BitVec 1) : Statement (.vsub vd vs1 vs2 et m) := by
  have h_vd := vd.isLt
  have h_vs1 := vs1.isLt
  have h_vs2 := vs2.isLt
  have h_et := et.isLt
  have h_m := m.isLt
  simp only [Statement, encode]
  try simp only [bits]
  omega

theorem vmul (vd : BitVec 3) (vs1 : BitVec 3) (vs2 : BitVec 3) (et : BitVec 3) (m : BitVec 1) : Statement (.vmul vd vs1 vs2 et m) := by
  have h_vd := vd.isLt
  have h_vs1 := vs1.isLt
  have h_vs2 := vs2.isLt
  have h_et := et.isLt
  have h_m := m.isLt
  simp only [Statement, encode]
  try simp only [bits]
  omega

theorem vfma (vd : BitVec 3) (vs1 : BitVec 3) (vs2 : BitVec 3) (et : BitVec 3) (m : BitVec 1) : Statement (.vfma vd vs1 vs2 et m) := by
  have h_vd := vd.isLt
  have h_vs1 := vs1.isLt
  have h_vs2 := vs2.isLt
  have h_et := et.isLt
  have h_m := m.isLt
  simp only [Statement, encode]
  try simp only [bits]
  omega

theorem vminu (vd : BitVec 3) (vs1 : BitVec 3) (vs2 : BitVec 3) (et : BitVec 3) (m : BitVec 1) : Statement (.vminu vd vs1 vs2 et m) := by
  have h_vd := vd.isLt
  have h_vs1 := vs1.isLt
  have h_vs2 := vs2.isLt
  have h_et := et.isLt
  have h_m := m.isLt
  simp only [Statement, encode]
  try simp only [bits]
  omega

theorem vmin (vd : BitVec 3) (vs1 : BitVec 3) (vs2 : BitVec 3) (et : BitVec 3) (m : BitVec 1) : Statement (.vmin vd vs1 vs2 et m) := by
  have h_vd := vd.isLt
  have h_vs1 := vs1.isLt
  have h_vs2 := vs2.isLt
  have h_et := et.isLt
  have h_m := m.isLt
  simp only [Statement, encode]
  try simp only [bits]
  omega

theorem vmax (vd : BitVec 3) (vs1 : BitVec 3) (vs2 : BitVec 3) (et : BitVec 3) (m : BitVec 1) : Statement (.vmax vd vs1 vs2 et m) := by
  have h_vd := vd.isLt
  have h_vs1 := vs1.isLt
  have h_vs2 := vs2.isLt
  have h_et := et.isLt
  have h_m := m.isLt
  simp only [Statement, encode]
  try simp only [bits]
  omega

theorem vabs (vd : BitVec 3) (vs1 : BitVec 3) (et : BitVec 3) (m : BitVec 1) : Statement (.vabs vd vs1 et m) := by
  have h_vd := vd.isLt
  have h_vs1 := vs1.isLt
  have h_et := et.isLt
  have h_m := m.isLt
  simp only [Statement, encode]
  try simp only [bits]
  omega

theorem vneg (vd : BitVec 3) (vs1 : BitVec 3) (et : BitVec 3) (m : BitVec 1) : Statement (.vneg vd vs1 et m) := by
  have h_vd := vd.isLt
  have h_vs1 := vs1.isLt
  have h_et := et.isLt
  have h_m := m.isLt
  simp only [Statement, encode]
  try simp only [bits]
  omega

theorem vdiv (vd : BitVec 3) (vs1 : BitVec 3) (vs2 : BitVec 3) (et : BitVec 3) (m : BitVec 1) : Statement (.vdiv vd vs1 vs2 et m) := by
  have h_vd := vd.isLt
  have h_vs1 := vs1.isLt
  have h_vs2 := vs2.isLt
  have h_et := et.isLt
  have h_m := m.isLt
  simp only [Statement, encode]
  try simp only [bits]
  omega

theorem vsqrt (vd : BitVec 3) (vs1 : BitVec 3) (et : BitVec 3) (m : BitVec 1) : Statement (.vsqrt vd vs1 et m) := by
  have h_vd := vd.isLt
  have h_vs1 := vs1.isLt
  have h_et := et.isLt
  have h_m := m.isLt
  simp only [Statement, encode]
  try simp only [bits]
  omega

theorem vrcpe (vd : BitVec 3) (vs1 : BitVec 3) (et : BitVec 3) (m : BitVec 1) : Statement (.vrcpe vd vs1 et m) := by
  have h_vd := vd.isLt
  have h_vs1 := vs1.isLt
  have h_et := et.isLt
  have h_m := m.isLt
  simp only [Statement, encode]
  try simp only [bits]
  omega

theorem vrsqe (vd : BitVec 3) (vs1 : BitVec 3) (et : BitVec 3) (m : BitVec 1) : Statement (.vrsqe vd vs1 et m) := by
  have h_vd := vd.isLt
  have h_vs1 := vs1.isLt
  have h_et := et.isLt
  have h_m := m.isLt
  simp only [Statement, encode]
  try simp only [bits]
  omega

theorem vmaxu (vd : BitVec 3) (vs1 : BitVec 3) (vs2 : BitVec 3) (et : BitVec 3) (m : BitVec 1) : Statement (.vmaxu vd vs1 vs2 et m) := by
  have h_vd := vd.isLt
  have h_vs1 := vs1.isLt
  have h_vs2 := vs2.isLt
  have h_et := et.isLt
  have h_m := m.isLt
  simp only [Statement, encode]
  try simp only [bits]
  omega

theorem vand (vd : BitVec 3) (vs1 : BitVec 3) (vs2 : BitVec 3) (et : BitVec 3) (m : BitVec 1) : Statement (.vand vd vs1 vs2 et m) := by
  have h_vd := vd.isLt
  have h_vs1 := vs1.isLt
  have h_vs2 := vs2.isLt
  have h_et := et.isLt
  have h_m := m.isLt
  simp only [Statement, encode]
  try simp only [bits]
  omega

theorem vor (vd : BitVec 3) (vs1 : BitVec 3) (vs2 : BitVec 3) (et : BitVec 3) (m : BitVec 1) : Statement (.vor vd vs1 vs2 et m) := by
  have h_vd := vd.isLt
  have h_vs1 := vs1.isLt
  have h_vs2 := vs2.isLt
  have h_et := et.isLt
  have h_m := m.isLt
  simp only [Statement, encode]
  try simp only [bits]
  omega

theorem vxor (vd : BitVec 3) (vs1 : BitVec 3) (vs2 : BitVec 3) (et : BitVec 3) (m : BitVec 1) : Statement (.vxor vd vs1 vs2 et m) := by
  have h_vd := vd.isLt
  have h_vs1 := vs1.isLt
  have h_vs2 := vs2.isLt
  have h_et := et.isLt
  have h_m := m.isLt
  simp only [Statement, encode]
  try simp only [bits]
  omega

theorem vshl (vd : BitVec 3) (vs1 : BitVec 3) (vs2 : BitVec 3) (et : BitVec 3) (m : BitVec 1) : Statement (.vshl vd vs1 vs2 et m) := by
  have h_vd := vd.isLt
  have h_vs1 := vs1.isLt
  have h_vs2 := vs2.isLt
  have h_et := et.isLt
  have h_m := m.isLt
  simp only [Statement, encode]
  try simp only [bits]
  omega

theorem vshr (vd : BitVec 3) (vs1 : BitVec 3) (vs2 : BitVec 3) (et : BitVec 3) (m : BitVec 1) : Statement (.vshr vd vs1 vs2 et m) := by
  have h_vd := vd.isLt
  have h_vs1 := vs1.isLt
  have h_vs2 := vs2.isLt
  have h_et := et.isLt
  have h_m := m.isLt
  simp only [Statement, encode]
  try simp only [bits]
  omega

theorem vsra (vd : BitVec 3) (vs1 : BitVec 3) (vs2 : BitVec 3) (et : BitVec 3) (m : BitVec 1) : Statement (.vsra vd vs1 vs2 et m) := by
  have h_vd := vd.isLt
  have h_vs1 := vs1.isLt
  have h_vs2 := vs2.isLt
  have h_et := et.isLt
  have h_m := m.isLt
  simp only [Statement, encode]
  try simp only [bits]
  omega

theorem vcmpEq (vs1 : BitVec 3) (vs2 : BitVec 3) (et : BitVec 3) (m : BitVec 1) : Statement (.vcmpEq vs1 vs2 et m) := by
  have h_vs1 := vs1.isLt
  have h_vs2 := vs2.isLt
  have h_et := et.isLt
  have h_m := m.isLt
  simp only [Statement, encode]
  try simp only [bits]
  omega

theorem vcmpNe (vs1 : BitVec 3) (vs2 : BitVec 3) (et : BitVec 3) (m : BitVec 1) : Statement (.vcmpNe vs1 vs2 et m) := by
  have h_vs1 := vs1.isLt
  have h_vs2 := vs2.isLt
  have h_et := et.isLt
  have h_m := m.isLt
  simp only [Statement, encode]
  try simp only [bits]
  omega

theorem vcmpLt (vs1 : BitVec 3) (vs2 : BitVec 3) (et : BitVec 3) (m : BitVec 1) : Statement (.vcmpLt vs1 vs2 et m) := by
  have h_vs1 := vs1.isLt
  have h_vs2 := vs2.isLt
  have h_et := et.isLt
  have h_m := m.isLt
  simp only [Statement, encode]
  try simp only [bits]
  omega

theorem vcmpLe (vs1 : BitVec 3) (vs2 : BitVec 3) (et : BitVec 3) (m : BitVec 1) : Statement (.vcmpLe vs1 vs2 et m) := by
  have h_vs1 := vs1.isLt
  have h_vs2 := vs2.isLt
  have h_et := et.isLt
  have h_m := m.isLt
  simp only [Statement, encode]
  try simp only [bits]
  omega

theorem vsel (vd : BitVec 3) (vs1 : BitVec 3) (vs2 : BitVec 3) (et : BitVec 3) : Statement (.vsel vd vs1 vs2 et) := by
  have h_vd := vd.isLt
  have h_vs1 := vs1.isLt
  have h_vs2 := vs2.isLt
  have h_et := et.isLt
  simp only [Statement, encode]
  try simp only [bits]
  omega

theorem vcmpLtu (vs1 : BitVec 3) (vs2 : BitVec 3) (et : BitVec 3) (m : BitVec 1) : Statement (.vcmpLtu vs1 vs2 et m) := by
  have h_vs1 := vs1.isLt
  have h_vs2 := vs2.isLt
  have h_et := et.isLt
  have h_m := m.isLt
  simp only [Statement, encode]
  try simp only [bits]
  omega

theorem vbc (vd : BitVec 3) (xs : BitVec 4) (et : BitVec 3) (m : BitVec 1) : Statement (.vbc vd xs et m) := by
  have h_vd := vd.isLt
  have h_xs := xs.isLt
  have h_et := et.isLt
  have h_m := m.isLt
  simp only [Statement, encode]
  try simp only [bits]
  omega

theorem vbcC (vd : BitVec 3) (c8 : BitVec 8) (et : BitVec 3) : Statement (.vbcC vd c8 et) := by
  have h_vd := vd.isLt
  have h_c8 := c8.isLt
  have h_et := et.isLt
  simp only [Statement, encode]
  try simp only [bits]
  omega

theorem vmv (vd : BitVec 3) (vs1 : BitVec 3) (et : BitVec 3) (m : BitVec 1) : Statement (.vmv vd vs1 et m) := by
  have h_vd := vd.isLt
  have h_vs1 := vs1.isLt
  have h_et := et.isLt
  have h_m := m.isLt
  simp only [Statement, encode]
  try simp only [bits]
  omega

theorem vmvClean : Statement .vmvClean := by
  unfold Statement
  decide

theorem vext (vs1 : BitVec 3) (xs : BitVec 4) (et : BitVec 3) : Statement (.vext vs1 xs et) := by
  have h_vs1 := vs1.isLt
  have h_xs := xs.isLt
  have h_et := et.isLt
  simp only [Statement, encode]
  try simp only [bits]
  omega

theorem vcvt (vd : BitVec 3) (vs1 : BitVec 3) (src : BitVec 3) (et : BitVec 3) (m : BitVec 1) : Statement (.vcvt vd vs1 src et m) := by
  have h_vd := vd.isLt
  have h_vs1 := vs1.isLt
  have h_src := src.isLt
  have h_et := et.isLt
  have h_m := m.isLt
  simp only [Statement, encode]
  try simp only [bits]
  omega

theorem vcvt8 (vd : BitVec 3) (vs1 : BitVec 3) (src : BitVec 3) (et : BitVec 3) (m : BitVec 1) : Statement (.vcvt8 vd vs1 src et m) := by
  have h_vd := vd.isLt
  have h_vs1 := vs1.isLt
  have h_src := src.isLt
  have h_et := et.isLt
  have h_m := m.isLt
  simp only [Statement, encode]
  try simp only [bits]
  omega

theorem vredAdd (vd : BitVec 3) (vs1 : BitVec 3) (et : BitVec 3) (m : BitVec 1) : Statement (.vredAdd vd vs1 et m) := by
  have h_vd := vd.isLt
  have h_vs1 := vs1.isLt
  have h_et := et.isLt
  have h_m := m.isLt
  simp only [Statement, encode]
  try simp only [bits]
  omega

theorem vredMax (vd : BitVec 3) (vs1 : BitVec 3) (et : BitVec 3) (m : BitVec 1) : Statement (.vredMax vd vs1 et m) := by
  have h_vd := vd.isLt
  have h_vs1 := vs1.isLt
  have h_et := et.isLt
  have h_m := m.isLt
  simp only [Statement, encode]
  try simp only [bits]
  omega

theorem vredMin (vd : BitVec 3) (vs1 : BitVec 3) (et : BitVec 3) (m : BitVec 1) : Statement (.vredMin vd vs1 et m) := by
  have h_vd := vd.isLt
  have h_vs1 := vs1.isLt
  have h_et := et.isLt
  have h_m := m.isLt
  simp only [Statement, encode]
  try simp only [bits]
  omega

theorem vdot (vd : BitVec 3) (vs1 : BitVec 3) (vs2 : BitVec 3) (et : BitVec 3) (m : BitVec 1) : Statement (.vdot vd vs1 vs2 et m) := by
  have h_vd := vd.isLt
  have h_vs1 := vs1.isLt
  have h_vs2 := vs2.isLt
  have h_et := et.isLt
  have h_m := m.isLt
  simp only [Statement, encode]
  try simp only [bits]
  omega

theorem vperm (vd : BitVec 3) (vs1 : BitVec 3) (vs2 : BitVec 3) (et : BitVec 3) (m : BitVec 1) : Statement (.vperm vd vs1 vs2 et m) := by
  have h_vd := vd.isLt
  have h_vs1 := vs1.isLt
  have h_vs2 := vs2.isLt
  have h_et := et.isLt
  have h_m := m.isLt
  simp only [Statement, encode]
  try simp only [bits]
  omega

theorem vslide (vd : BitVec 3) (vs1 : BitVec 3) (xs : BitVec 4) (et : BitVec 3) (m : BitVec 1) : Statement (.vslide vd vs1 xs et m) := by
  have h_vd := vd.isLt
  have h_vs1 := vs1.isLt
  have h_xs := xs.isLt
  have h_et := et.isLt
  have h_m := m.isLt
  simp only [Statement, encode]
  try simp only [bits]
  omega

theorem vld (vd : BitVec 3) (xs : BitVec 4) (lane : BitVec 2) (m : BitVec 1) (nb : BitVec 1) : Statement (.vld vd xs lane m nb) := by
  have h_vd := vd.isLt
  have h_xs := xs.isLt
  have h_lane := lane.isLt
  have h_m := m.isLt
  have h_nb := nb.isLt
  simp only [Statement, encode]
  try simp only [bits]
  omega

theorem vst (vd : BitVec 3) (xs : BitVec 4) (lane : BitVec 2) (m : BitVec 1) (nb : BitVec 1) : Statement (.vst vd xs lane m nb) := by
  have h_vd := vd.isLt
  have h_xs := xs.isLt
  have h_lane := lane.isLt
  have h_m := m.isLt
  have h_nb := nb.isLt
  simp only [Statement, encode]
  try simp only [bits]
  omega

theorem vldx (vd : BitVec 3) (vs1 : BitVec 3) (xs : BitVec 4) (lane : BitVec 2) (m : BitVec 1) (nb : BitVec 1) : Statement (.vldx vd vs1 xs lane m nb) := by
  have h_vd := vd.isLt
  have h_vs1 := vs1.isLt
  have h_xs := xs.isLt
  have h_lane := lane.isLt
  have h_m := m.isLt
  have h_nb := nb.isLt
  simp only [Statement, encode]
  try simp only [bits]
  omega

theorem vstx (vd : BitVec 3) (vs1 : BitVec 3) (xs : BitVec 4) (lane : BitVec 2) (m : BitVec 1) (nb : BitVec 1) : Statement (.vstx vd vs1 xs lane m nb) := by
  have h_vd := vd.isLt
  have h_vs1 := vs1.isLt
  have h_xs := xs.isLt
  have h_lane := lane.isLt
  have h_m := m.isLt
  have h_nb := nb.isLt
  simp only [Statement, encode]
  try simp only [bits]
  omega

theorem claimDataArrival (n : Nat) : Statement (.claimDataArrival n) := Nat.two_pow_pos 32

theorem holdWindowClose (kind : Nat) (core : Nat) (uid : Nat) : Statement (.holdWindowClose kind core uid) := Nat.two_pow_pos 32

theorem yieldTimeout (uid : Nat) : Statement (.yieldTimeout uid) := Nat.two_pow_pos 32

theorem sleepEnd (uid : Nat) : Statement (.sleepEnd uid) := Nat.two_pow_pos 32

theorem swapIn (core : Nat) : Statement (.swapIn core) := Nat.two_pow_pos 32

theorem swapOut (core : Nat) : Statement (.swapOut core) := Nat.two_pow_pos 32

theorem migrationArrival (uid : Nat) : Statement (.migrationArrival uid) := Nat.two_pow_pos 32

theorem mailboxFlit (core : Nat) (k : Nat) : Statement (.mailboxFlit core k) := Nat.two_pow_pos 32

theorem messageAck (core : Nat) (k : Nat) : Statement (.messageAck core k) := Nat.two_pow_pos 32

theorem messageNack (core : Nat) (k : Nat) : Statement (.messageNack core k) := Nat.two_pow_pos 32

theorem messageReplay (core : Nat) (k : Nat) : Statement (.messageReplay core k) := Nat.two_pow_pos 32

theorem trapRecordWrite (ctx : Nat) : Statement (.trapRecordWrite ctx) := Nat.two_pow_pos 32

theorem watchdogExpiry (gid : Nat) : Statement (.watchdogExpiry gid) := Nat.two_pow_pos 32

theorem readRequest (n : Nat) : Statement (.readRequest n) := Nat.two_pow_pos 32

theorem exclusiveRequest (n : Nat) : Statement (.exclusiveRequest n) := Nat.two_pow_pos 32

theorem uRequest (n : Nat) : Statement (.uRequest n) := Nat.two_pow_pos 32

theorem pushWrite (n : Nat) : Statement (.pushWrite n) := Nat.two_pow_pos 32

theorem evictionNotice (n : Nat) : Statement (.evictionNotice n) := Nat.two_pow_pos 32

theorem writeBack (n : Nat) : Statement (.writeBack n) := Nat.two_pow_pos 32

theorem acknowledgement (n : Nat) : Statement (.acknowledgement n) := Nat.two_pow_pos 32

theorem invalidation (n : Nat) : Statement (.invalidation n) := Nat.two_pow_pos 32

theorem shareRecall (n : Nat) : Statement (.shareRecall n) := Nat.two_pow_pos 32

theorem updateRecall (n : Nat) : Statement (.updateRecall n) := Nat.two_pow_pos 32

theorem pushFill (n : Nat) : Statement (.pushFill n) := Nat.two_pow_pos 32

theorem pushCompletion (n : Nat) : Statement (.pushCompletion n) := Nat.two_pow_pos 32

theorem claimCopyReturn (n : Nat) : Statement (.claimCopyReturn n) := Nat.two_pow_pos 32

theorem untrackedWriteBack (n : Nat) : Statement (.untrackedWriteBack n) := Nat.two_pow_pos 32

theorem hostWrite (loc : Nat × Nat) (size : Nat) (val : BitVec 64) : Statement (.hostWrite loc size val) := Nat.two_pow_pos 32

theorem hostRead (loc : Nat × Nat) (size : Nat) : Statement (.hostRead loc size) := Nat.two_pow_pos 32

theorem barrierRelease (kind : Nat) (unit : Nat) (idx : Nat) (core : Nat) : Statement (.barrierRelease kind unit idx core) := Nat.two_pow_pos 32

theorem semRemoteArrival (entry : Nat) (pkg : Nat) (uid : Nat) : Statement (.semRemoteArrival entry pkg uid) := Nat.two_pow_pos 32

theorem semArrivalReply (uid : Nat) (phase : Nat) : Statement (.semArrivalReply uid phase) := Nat.two_pow_pos 32

theorem semPhaseUpdate (entry : Nat) (phase : Nat) : Statement (.semPhaseUpdate entry phase) := Nat.two_pow_pos 32

theorem pressArbitration (fid : Nat) : Statement (.pressArbitration fid) := Nat.two_pow_pos 32

theorem lstat (fid : Nat) : Statement (.lstat fid) := Nat.two_pow_pos 32

theorem flip (fid : Nat) : Statement (.flip fid) := Nat.two_pow_pos 32

theorem stream (fid : Nat) : Statement (.stream fid) := Nat.two_pow_pos 32

theorem aclr (fid : Nat) : Statement (.aclr fid) := Nat.two_pow_pos 32

theorem drain (fid : Nat) : Statement (.drain fid) := Nat.two_pow_pos 32

theorem acopy (fid : Nat) : Statement (.acopy fid) := Nat.two_pow_pos 32

theorem aload (fid : Nat) : Statement (.aload fid) := Nat.two_pow_pos 32

theorem pressMark (fid : Nat) : Statement (.pressMark fid) := Nat.two_pow_pos 32

theorem share (fid : Nat) : Statement (.share fid) := Nat.two_pow_pos 32

theorem groupQueueDiscard (gid : Nat) : Statement (.groupQueueDiscard gid) := Nat.two_pow_pos 32

theorem galleyChain (die : Nat) (ch : Nat) : Statement (.galleyChain die ch) := Nat.two_pow_pos 32

theorem copy (die : Nat) (ch : Nat) (rec : Nat) (chunk : Nat) : Statement (.copy die ch rec chunk) := Nat.two_pow_pos 32

theorem compose (die : Nat) (ch : Nat) (rec : Nat) (chunk : Nat) : Statement (.compose die ch rec chunk) := Nat.two_pow_pos 32

theorem scatter (die : Nat) (ch : Nat) (rec : Nat) (chunk : Nat) : Statement (.scatter die ch rec chunk) := Nat.two_pow_pos 32

theorem fill (die : Nat) (ch : Nat) (rec : Nat) (chunk : Nat) : Statement (.fill die ch rec chunk) := Nat.two_pow_pos 32

theorem convert (die : Nat) (ch : Nat) (rec : Nat) (chunk : Nat) : Statement (.convert die ch rec chunk) := Nat.two_pow_pos 32

theorem galleyChunkDone (die : Nat) (ch : Nat) (rec : Nat) (chunk : Nat) : Statement (.galleyChunkDone die ch rec chunk) := Nat.two_pow_pos 32

theorem sweep (fid : Nat) : Statement (.sweep fid) := Nat.two_pow_pos 32

theorem tableWalk (fid : Nat) : Statement (.tableWalk fid) := Nat.two_pow_pos 32

theorem faultRingWrite (ctx : Nat) : Statement (.faultRingWrite ctx) := Nat.two_pow_pos 32

theorem queueDoorbell (ctx : Nat) (q : Nat) : Statement (.queueDoorbell ctx q) := Nat.two_pow_pos 32

theorem queueEnable (ctx : Nat) (q : Nat) : Statement (.queueEnable ctx q) := Nat.two_pow_pos 32

theorem queueDisable (ctx : Nat) (q : Nat) : Statement (.queueDisable ctx q) := Nat.two_pow_pos 32

theorem queueCancel (ctx : Nat) (q : Nat) (c : Nat) : Statement (.queueCancel ctx q c) := Nat.two_pow_pos 32

theorem dependenceMet (ctx : Nat) (q : Nat) : Statement (.dependenceMet ctx q) := Nat.two_pow_pos 32

theorem kernelAdmit (die : Nat) (ctx : Nat) : Statement (.kernelAdmit die ctx) := Nat.two_pow_pos 32

theorem groupPlace (kid : Nat) : Statement (.groupPlace kid) := Nat.two_pow_pos 32

theorem kernelDrainComplete (kid : Nat) : Statement (.kernelDrainComplete kid) := Nat.two_pow_pos 32

theorem kernelCancel (kid : Nat) : Statement (.kernelCancel kid) := Nat.two_pow_pos 32

theorem kernelFaultMark (kid : Nat) : Statement (.kernelFaultMark kid) := Nat.two_pow_pos 32

theorem groupSave (gid : Nat) : Statement (.groupSave gid) := Nat.two_pow_pos 32

theorem groupRestore (gid : Nat) (place : Nat) : Statement (.groupRestore gid place) := Nat.two_pow_pos 32

theorem tenantSliceEnd (part : Nat) : Statement (.tenantSliceEnd part) := Nat.two_pow_pos 32

theorem contextPublish (pa : Nat) : Statement (.contextPublish pa) := Nat.two_pow_pos 32

theorem contextFaultMark (ctx : Nat) : Statement (.contextFaultMark ctx) := Nat.two_pow_pos 32

theorem contextTeardown (ctx : Nat) : Statement (.contextTeardown ctx) := Nat.two_pow_pos 32

theorem imageRestore (src : Nat) (dst : Nat × Nat) (version : Nat) : Statement (.imageRestore src dst version) := Nat.two_pow_pos 32

theorem bucketRefill (core : Nat) : Statement (.bucketRefill core) := Nat.two_pow_pos 32

theorem fansResolve (die : Nat) (ctx : Nat) (seq : Nat) : Statement (.fansResolve die ctx seq) := Nat.two_pow_pos 32

theorem fansDecline (die : Nat) (ctx : Nat) (seq : Nat) : Statement (.fansDecline die ctx seq) := Nat.two_pow_pos 32

theorem shoot (die : Nat) (ctx : Nat) (va : Nat) (len : Nat) (icache : Bool) : Statement (.shoot die ctx va len icache) := Nat.two_pow_pos 32

theorem assnDieBarrier (die : Nat) (ctx : Nat) (idx : Nat) : Statement (.assnDieBarrier die ctx idx) := Nat.two_pow_pos 32

theorem assnGalleyChannel (die : Nat) (ctx : Nat) (ch : Nat) : Statement (.assnGalleyChannel die ctx ch) := Nat.two_pow_pos 32

theorem tresResume (die : Nat) (ctx : Nat) (seq : Nat) (pc : BitVec 64) (a0 : BitVec 64) (a1 : BitVec 64) : Statement (.tresResume die ctx seq pc a0 a1) := Nat.two_pow_pos 32

theorem tresEnd (die : Nat) (ctx : Nat) (seq : Nat) : Statement (.tresEnd die ctx seq) := Nat.two_pow_pos 32

theorem linkDataFlit (link : Nat) (flip : BitVec 512) (room : Bool) : Statement (.linkDataFlit link flip room) := Nat.two_pow_pos 32

theorem linkAck (link : Nat × BitVec 512) : Statement (.linkAck link) := Nat.two_pow_pos 32

theorem linkNack (link : Nat × BitVec 512) : Statement (.linkNack link) := Nat.two_pow_pos 32

theorem linkBackoffExpiry (link : Nat) : Statement (.linkBackoffExpiry link) := Nat.two_pow_pos 32

theorem linkReplayTimeout (link : Nat) : Statement (.linkReplayTimeout link) := Nat.two_pow_pos 32

theorem linkEnable (link : Nat) : Statement (.linkEnable link) := Nat.two_pow_pos 32

theorem linkTrainingDone (link : Nat) (lanes : Nat) : Statement (.linkTrainingDone link lanes) := Nat.two_pow_pos 32

theorem laneMarginal (link : Nat) (lane : Nat) : Statement (.laneMarginal link lane) := Nat.two_pow_pos 32

theorem laneLost (link : Nat) : Statement (.laneLost link) := Nat.two_pow_pos 32

theorem linkDrainRequest (link : Nat) : Statement (.linkDrainRequest link) := Nat.two_pow_pos 32

theorem linkWindowDrained (link : Nat) : Statement (.linkWindowDrained link) := Nat.two_pow_pos 32

theorem spareSwapComplete (link : Nat) : Statement (.spareSwapComplete link) := Nat.two_pow_pos 32

theorem portRingDoorbell (ring : Nat) : Statement (.portRingDoorbell ring) := Nat.two_pow_pos 32

theorem networkSend (ring : Nat) : Statement (.networkSend ring) := Nat.two_pow_pos 32

theorem storageRead (ring : Nat) : Statement (.storageRead ring) := Nat.two_pow_pos 32

theorem storageWrite (ring : Nat) : Statement (.storageWrite ring) := Nat.two_pow_pos 32

theorem storageFlush (ring : Nat) : Statement (.storageFlush ring) := Nat.two_pow_pos 32

theorem nvmeCompletion (ring : Nat) (status : Nat) (data : List (BitVec 64)) : Statement (.nvmeCompletion ring status data) := Nat.two_pow_pos 32

theorem traceDrain (core : Nat) : Statement (.traceDrain core) := Nat.two_pow_pos 32

theorem snapshot : Statement .snapshot := Nat.two_pow_pos 32

theorem stopOnTick : Statement .stopOnTick := Nat.two_pow_pos 32

theorem stopctlArm (val : BitVec 64) : Statement (.stopctlArm val) := Nat.two_pow_pos 32

theorem registerWrite (pa : Nat) (val : BitVec 64) : Statement (.registerWrite pa val) := Nat.two_pow_pos 32

theorem gtickDiscipline (double : Bool) : Statement (.gtickDiscipline double) := Nat.two_pow_pos 32

theorem powerGood : Statement .powerGood := Nat.two_pow_pos 32

theorem powerGoodFall : Statement .powerGoodFall := Nat.two_pow_pos 32

theorem firmwareVerify (image : Nat) : Statement (.firmwareVerify image) := Nat.two_pow_pos 32

theorem dieStart (die : Nat) (pass : Bool) : Statement (.dieStart die pass) := Nat.two_pow_pos 32

theorem attestationReport (nonce : BitVec 384) (ask : Nat × Nat) : Statement (.attestationReport nonce ask) := Nat.two_pow_pos 32

theorem managementReset : Statement .managementReset := Nat.two_pow_pos 32

theorem scanOut : Statement .scanOut := Nat.two_pow_pos 32

theorem pwrcapWrite (val : BitVec 64) : Statement (.pwrcapWrite val) := Nat.two_pow_pos 32

theorem preqWrite (die : Nat) (val : BitVec 64) : Statement (.preqWrite die val) := Nat.two_pow_pos 32

theorem pstateTransitionDone (die : Nat) : Statement (.pstateTransitionDone die) := Nat.two_pow_pos 32

theorem ceilingBoundary (energy : Nat) (l0 : Nat) (l1 : Nat) (l2 : Nat) (l3 : Nat) : Statement (.ceilingBoundary energy l0 l1 l2 l3) := Nat.two_pow_pos 32

theorem thermalSample (die : Nat) (celsius : Nat) : Statement (.thermalSample die celsius) := Nat.two_pow_pos 32

theorem droopDetect (fid : Nat) (stretch : Bool) : Statement (.droopDetect fid stretch) := Nat.two_pow_pos 32

theorem park (die : Nat) : Statement (.park die) := Nat.two_pow_pos 32

theorem parkShutdownDone (die : Nat) : Statement (.parkShutdownDone die) := Nat.two_pow_pos 32

theorem unpark (die : Nat) : Statement (.unpark die) := Nat.two_pow_pos 32

theorem unparkStartDone (die : Nat) : Statement (.unparkStartDone die) := Nat.two_pow_pos 32

theorem dieDrain (die : Nat) : Statement (.dieDrain die) := Nat.two_pow_pos 32

theorem firmwareHandover (image : Nat) : Statement (.firmwareHandover image) := Nat.two_pow_pos 32

theorem expansionTableUpdate (die : Nat) (table : Nat) : Statement (.expansionTableUpdate die table) := Nat.two_pow_pos 32

theorem softError (pa : Nat) (correctable : Bool) : Statement (.softError pa correctable) := Nat.two_pow_pos 32

theorem rowSparing (die : Nat) (vault : Nat) (row : Nat) : Statement (.rowSparing die vault row) := Nat.two_pow_pos 32

theorem vaultRecalibration (die : Nat) (vault : Nat) : Statement (.vaultRecalibration die vault) := Nat.two_pow_pos 32

theorem vaultSparing (die : Nat) (vault : Nat) (switch : Bool) : Statement (.vaultSparing die vault switch) := Nat.two_pow_pos 32

theorem coreRetire (core : Nat) : Statement (.coreRetire core) := Nat.two_pow_pos 32

theorem illegalInstructionWord : Statement .illegalInstructionWord := Nat.two_pow_pos 32

theorem lanternCoreAccess (op : Nat) (pa : Nat) (size : Nat) (val : BitVec 64) : Statement (.lanternCoreAccess op pa size val) := Nat.two_pow_pos 32

theorem pageThaw (ctx : Nat) (va : Nat) : Statement (.pageThaw ctx va) := Nat.two_pow_pos 32

theorem homePageRecall (pa : Nat) (len : Nat) : Statement (.homePageRecall pa len) := Nat.two_pow_pos 32

theorem contextMigrate (ctx : Nat) : Statement (.contextMigrate ctx) := Nat.two_pow_pos 32

theorem coreReturnToService (core : Nat) : Statement (.coreReturnToService core) := Nat.two_pow_pos 32

theorem podJoin (pkg : Nat) : Statement (.podJoin pkg) := Nat.two_pow_pos 32

theorem fusedMinimumRaise (version : Nat) : Statement (.fusedMinimumRaise version) := Nat.two_pow_pos 32

end Sys2Proof.Laws.Fits
end

