-- ==== Sys2Proof/Tests/Slice0.lean ====
section
/-! SUPPORT. Tests of the model, each on one word, one operation or one step, with the expected result taken from the
rules of spec/; and, for every obligation with hypotheses, a witness that meets the hypotheses of each clause. -/

set_option Elab.async false
set_option exponentiation.threshold 2000

namespace Sys2Proof.Tests

open Sys2Proof Sys2Proof.Machine

/-! ## Well-formedness and decoding -/

/-- R29 to R43: each check of WellFormed refuses a term that breaks it and accepts its neighbour. -/
theorem test_wellformed :
    (Instr.pld 1 2 0 7 1).wf = false ∧ (Instr.pld 1 2 0 6 1).wf = true ∧
    (Instr.pst 1 2 0 4 1).wf = false ∧ (Instr.pst 1 2 0 3 1).wf = true ∧
    (Instr.pldBr 1 2 0 7).wf = false ∧ (Instr.pstBr 1 2 0 4).wf = false ∧
    (Instr.amoAdd 1 2 3 0 6 0).wf = false ∧ (Instr.amoAdd 1 2 3 0 5 0).wf = true ∧
    (Instr.red 1 2 13 0).wf = false ∧ (Instr.red 1 2 12 0).wf = true ∧
    (Instr.barArrive 1 0 8 0).wf = false ∧ (Instr.barArrive 1 0 7 0).wf = true ∧
    (Instr.barWait 1 1 16 0).wf = false ∧ (Instr.barWait 1 2 63 0).wf = true ∧
    (Instr.fnc 3 0 0).wf = false ∧ (Instr.fnc 2 6 0).wf = false ∧ (Instr.fnc 2 5 0).wf = true ∧
    (Instr.plda 1 2 7 0 0).wf = false ∧ (Instr.plda 1 2 0 6 0).wf = false ∧ (Instr.pstr 1 2 4 0 0).wf = false ∧
    (Instr.rngWb 1 2 0 0 0).wf = false ∧ (Instr.rngWb 1 2 3 0 0).wf = false ∧ (Instr.rngInv 1 2 1 16 0).wf = false ∧
    (Instr.vminu 1 2 3 4 0).wf = false ∧ (Instr.vdiv 1 2 3 3 0).wf = false ∧ (Instr.vcvt8 1 2 0 7 0).wf = false ∧
    (Instr.vcvt8 1 2 4 4 0).wf = false ∧ (Instr.vdot 1 2 3 2 0).wf = false ∧ (Instr.vdot 1 2 3 7 0).wf = false ∧
    (Instr.vldx 1 1 2 3 0 0).wf = false ∧ (Instr.vldx 1 2 2 3 0 0).wf = true := by
  decide


/-- R53: upper immediates, jumps and branches of the standard. The offset of `jal` and of the branches stands in the
shuffled fields of the RISC-V formats J and B. -/
theorem test_decode_jumps : ∀ x ∈ ([
    (0b10000001001000110100_01010_0110111, .lui 10 0x81234#20),
    (0b10000001001000110100_01010_0010111, .auipc 10 0x81234#20),
    (0b1_0101010101_1_10100101_01010_1101111, .jal 10 (1#1 ++ 0xA5#8 ++ 1#1 ++ 0x155#10)),
    (0b100000000001_01011_000_01010_1100111, .jalr 10 11 0x801#12),
    (0b1_101010_01100_01011_000_1001_1_1100011, .beq 11 12 (1#1 ++ 1#1 ++ 0x2A#6 ++ 0x9#4)),
    (0b1_101010_01100_01011_001_1001_1_1100011, .bne 11 12 (1#1 ++ 1#1 ++ 0x2A#6 ++ 0x9#4)),
    (0b1_101010_01100_01011_100_1001_1_1100011, .blt 11 12 (1#1 ++ 1#1 ++ 0x2A#6 ++ 0x9#4)),
    (0b1_101010_01100_01011_101_1001_1_1100011, .bge 11 12 (1#1 ++ 1#1 ++ 0x2A#6 ++ 0x9#4)),
    (0b1_101010_01100_01011_110_1001_1_1100011, .bltu 11 12 (1#1 ++ 1#1 ++ 0x2A#6 ++ 0x9#4)),
    (0b1_101010_01100_01011_111_1001_1_1100011, .bgeu 11 12 (1#1 ++ 1#1 ++ 0x2A#6 ++ 0x9#4))] :
    List (Nat × Instr)), decode x.1 = some x.2 := by
  decide +kernel

/-- R53, R58: the standard loads and stores, funct3 the width code of R33. -/
theorem test_decode_loads : ∀ x ∈ ([
    (0b100000000001_01011_000_01010_0000011, .lb 10 11 0x801#12),
    (0b100000000001_01011_001_01010_0000011, .lh 10 11 0x801#12),
    (0b100000000001_01011_010_01010_0000011, .lw 10 11 0x801#12),
    (0b100000000001_01011_011_01010_0000011, .ld 10 11 0x801#12),
    (0b100000000001_01011_100_01010_0000011, .lbu 10 11 0x801#12),
    (0b100000000001_01011_101_01010_0000011, .lhu 10 11 0x801#12),
    (0b100000000001_01011_110_01010_0000011, .lwu 10 11 0x801#12),
    (0b1000010_01100_01011_000_10101_0100011, .sb 11 12 (0x42#7 ++ 0x15#5)),
    (0b1000010_01100_01011_001_10101_0100011, .sh 11 12 (0x42#7 ++ 0x15#5)),
    (0b1000010_01100_01011_010_10101_0100011, .sw 11 12 (0x42#7 ++ 0x15#5)),
    (0b1000010_01100_01011_011_10101_0100011, .sd 11 12 (0x42#7 ++ 0x15#5))] :
    List (Nat × Instr)), decode x.1 = some x.2 := by
  decide +kernel

/-- R53: the immediate forms. -/
theorem test_decode_immediates : ∀ x ∈ ([
    (0b100000000001_01011_000_01010_0010011, .addi 10 11 0x801#12),
    (0b100000000001_01011_010_01010_0010011, .slti 10 11 0x801#12),
    (0b100000000001_01011_011_01010_0010011, .sltiu 10 11 0x801#12),
    (0b100000000001_01011_100_01010_0010011, .xori 10 11 0x801#12),
    (0b100000000001_01011_110_01010_0010011, .ori 10 11 0x801#12),
    (0b100000000001_01011_111_01010_0010011, .andi 10 11 0x801#12),
    (0b000000100101_01011_001_01010_0010011, .slli 10 11 0x25#6),
    (0b000000100101_01011_101_01010_0010011, .srli 10 11 0x25#6),
    (0b010000100101_01011_101_01010_0010011, .srai 10 11 0x25#6),
    (0b100000000001_01011_000_01010_0011011, .addiw 10 11 0x801#12),
    (0b000000010101_01011_001_01010_0011011, .slliw 10 11 0x15#5),
    (0b000000010101_01011_101_01010_0011011, .srliw 10 11 0x15#5),
    (0b010000010101_01011_101_01010_0011011, .sraiw 10 11 0x15#5)] :
    List (Nat × Instr)), decode x.1 = some x.2 := by
  decide +kernel

/-- R53: the register forms. -/
theorem test_decode_registers : ∀ x ∈ ([
    (0b0000000_01100_01011_000_01010_0110011, .add 10 11 12),
    (0b0100000_01100_01011_000_01010_0110011, .sub 10 11 12),
    (0b0000000_01100_01011_001_01010_0110011, .sll 10 11 12),
    (0b0000000_01100_01011_010_01010_0110011, .slt 10 11 12),
    (0b0000000_01100_01011_011_01010_0110011, .sltu 10 11 12),
    (0b0000000_01100_01011_100_01010_0110011, .xorr 10 11 12),
    (0b0000000_01100_01011_101_01010_0110011, .srl 10 11 12),
    (0b0100000_01100_01011_101_01010_0110011, .sra 10 11 12),
    (0b0000000_01100_01011_110_01010_0110011, .orr 10 11 12),
    (0b0000000_01100_01011_111_01010_0110011, .andr 10 11 12),
    (0b0000000_01100_01011_000_01010_0111011, .addw 10 11 12),
    (0b0100000_01100_01011_000_01010_0111011, .subw 10 11 12),
    (0b0000000_01100_01011_001_01010_0111011, .sllw 10 11 12),
    (0b0000000_01100_01011_101_01010_0111011, .srlw 10 11 12),
    (0b0100000_01100_01011_101_01010_0111011, .sraw 10 11 12)] :
    List (Nat × Instr)), decode x.1 = some x.2 := by
  decide +kernel

/-- R53: multiply, divide and conditional zero. -/
theorem test_decode_multiplies : ∀ x ∈ ([
    (0b0000001_01100_01011_000_01010_0110011, .mul 10 11 12),
    (0b0000001_01100_01011_001_01010_0110011, .mulh 10 11 12),
    (0b0000001_01100_01011_010_01010_0110011, .mulhsu 10 11 12),
    (0b0000001_01100_01011_011_01010_0110011, .mulhu 10 11 12),
    (0b0000001_01100_01011_100_01010_0110011, .div 10 11 12),
    (0b0000001_01100_01011_101_01010_0110011, .divu 10 11 12),
    (0b0000001_01100_01011_110_01010_0110011, .rem 10 11 12),
    (0b0000001_01100_01011_111_01010_0110011, .remu 10 11 12),
    (0b0000001_01100_01011_000_01010_0111011, .mulw 10 11 12),
    (0b0000001_01100_01011_100_01010_0111011, .divw 10 11 12),
    (0b0000001_01100_01011_101_01010_0111011, .divuw 10 11 12),
    (0b0000001_01100_01011_110_01010_0111011, .remw 10 11 12),
    (0b0000001_01100_01011_111_01010_0111011, .remuw 10 11 12),
    (0b0000111_01100_01011_101_01010_0110011, .czeroEqz 10 11 12),
    (0b0000111_01100_01011_111_01010_0110011, .czeroNez 10 11 12)] :
    List (Nat × Instr)), decode x.1 = some x.2 := by
  decide +kernel

/-- R29, R53: FENCE, whose rd and rs1 fields name no register, ECALL, EBREAK and the CSR forms. -/
theorem test_decode_system : ∀ x ∈ ([
    (0b0000_1010_0101_10010_000_11111_0001111, .fence 0x1F 0x12 0xA 0x5),
    (0b1000_0011_0011_00000_000_00000_0001111, .fenceTso 0 0 3 3),
    (0b000000000000_00000_000_00000_1110011, .ecall),
    (0b000000000001_00000_000_00000_1110011, .ebreak),
    (0b100000000010_01011_001_01010_1110011, .csrrw 10 11 0x802#12),
    (0b100000000010_01011_010_01010_1110011, .csrrs 10 11 0x802#12),
    (0b100000000010_01011_011_01010_1110011, .csrrc 10 11 0x802#12),
    (0b100000000010_11011_101_01010_1110011, .csrrwi 10 0x802#12 0x1B),
    (0b100000000010_11011_110_01010_1110011, .csrrsi 10 0x802#12 0x1B),
    (0b100000000010_11011_111_01010_1110011, .csrrci 10 0x802#12 0x1B)] :
    List (Nat × Instr)), decode x.1 = some x.2 := by
  decide +kernel

/-- R33 to R35: the DM and DB formats; the words of the second line are the manual's own (R24, R35). -/
theorem test_decode_probes : ∀ x ∈ ([
    (0b100000000001_1011_0_110_1010_1_0001011, .pld 10 11 0x801#12 6 1),
    (0b100000000001_1011_1_011_1010_0_0001011, .pst 10 11 0x801#12 3 0),
    (0b000000000100_1010_0_010_0101_0_0101011, .pldBr 5 10 4 2),
    (0b100000000001_1011_1_011_1010_0_0101011, .pstBr 10 11 0x801#12 3),
    (0b000000000011_0000_0_000_1010_1_0101011, .bo 3 10),
    (0b111111111111_0000_0_000_1111_1_0101011, .bo 0xFFF#12 15)] :
    List (Nat × Instr)), decode x.1 = some x.2 := by
  decide +kernel

/-- R38: the DR rows of the thread. -/
theorem test_decode_thread : ∀ x ∈ ([
    (0b00000000_0000_0000_0000_0000_1_1011011, .yield),
    (0b00000001_0000_0000_1011_0000_1_1011011, .yieldN 11),
    (0b00000010_0000_0000_1011_0000_1_1011011, .sleep 11),
    (0b00000011_0000_1100_1011_1010_1_1011011, .thrSpawn 10 11 12 1),
    (0b00000100_0000_0000_0000_0000_0_1011011, .thrExit),
    (0b00000101_0000_0000_1011_0000_1_1011011, .go 11),
    (0b00010000_0000_1100_1011_0000_1_1011011, .msend 11 12 1),
    (0b00010001_0000_0000_0000_1010_1_1011011, .mrecv 10 1),
    (0b00010010_0000_0000_0000_1010_0_1011011, .mfrom 10 0),
    (0b01100000_0000_0000_1011_0000_0_1011011, .mark 11 0),
    (0b01100001_0000_1100_1011_1010_1_1011011, .ksub 10 11 12 1)] :
    List (Nat × Instr)), decode x.1 = some x.2 := by
  decide +kernel

/-- R38: the DR rows of the quoin. -/
theorem test_decode_quoin : ∀ x ∈ ([
    (0b00100000_0000_0000_1011_0000_0_1011011, .qinit 11 0),
    (0b00100001_0000_0000_1011_1010_1_1011011, .qacq 10 11 1),
    (0b00100010_0000_0000_1011_0000_1_1011011, .qwait 11 1),
    (0b00100011_0000_1100_1011_0000_1_1011011, .qgive 11 12 1),
    (0b00100100_0000_1100_1011_0000_1_1011011, .qswap 11 12 1),
    (0b00100101_0000_0000_1011_0000_1_1011011, .qdrop 11 1),
    (0b00100110_0000_0000_1011_0000_0_1011011, .qrel 11 0),
    (0b00100111_0000_0000_1011_1010_0_1011011, .qstat 10 11 0)] :
    List (Nat × Instr)), decode x.1 = some x.2 := by
  decide +kernel

/-- R38 to R40: atomics, updates, line operations and the press queue. aux[23] is the width of an atomic, aux[22:20]
its scope. -/
theorem test_decode_line : ∀ x ∈ ([
    (0b00110000_1101_1100_1011_1010_0_1011011, .amoAdd 10 11 12 1 5 0),
    (0b00110001_1101_1100_1011_1010_0_1011011, .amoAnd 10 11 12 1 5 0),
    (0b00110010_1101_1100_1011_1010_0_1011011, .amoOr 10 11 12 1 5 0),
    (0b00110011_1101_1100_1011_1010_0_1011011, .amoXor 10 11 12 1 5 0),
    (0b00110100_1101_1100_1011_1010_0_1011011, .amoMin 10 11 12 1 5 0),
    (0b00110101_1101_1100_1011_1010_0_1011011, .amoMax 10 11 12 1 5 0),
    (0b00110110_1101_1100_1011_1010_0_1011011, .amoMinu 10 11 12 1 5 0),
    (0b00110111_1101_1100_1011_1010_0_1011011, .amoMaxu 10 11 12 1 5 0),
    (0b00111000_1101_1100_1011_1010_0_1011011, .amoSwap 10 11 12 1 5 0),
    (0b00111001_0010_1100_1011_1010_1_1011011, .amoCas 10 11 12 0 2 1),
    (0b00111010_1100_1100_1011_0000_0_1011011, .red 11 12 0xC 0),
    (0b01000000_0000_0000_1011_0000_0_1011011, .lineWb 11 0),
    (0b01000001_0000_0000_1011_0000_0_1011011, .lineInv 11 0),
    (0b01000010_0000_0000_1011_0000_0_1011011, .lineWbinv 11 0),
    (0b01010000_0000_0000_1011_0000_1_1011011, .pqPush 11 1),
    (0b01010001_0000_0000_1011_0000_1_1011011, .pqDone 11 1),
    (0b01010010_0000_0000_0000_0000_0_1011011, .pqResume 0),
    (0b01010011_0000_1100_1011_1010_1_1011011, .cbitTest 10 11 12 1)] :
    List (Nat × Instr)), decode x.1 = some x.2 := by
  decide +kernel

/-- R41, R42: the DC rows. The selector holds the kind in [7:6] and the index in [5:0], or the kind, the width in
[5:3] and the scope in [2:0]. -/
theorem test_decode_barrier : ∀ x ∈ ([
    (0b10000000_0100_1111_0000_1010_0_1011011, .barArrive 10 1 0xF 0),
    (0b10000001_1111_1111_1011_0000_1_1011011, .barWait 11 3 0x3F 1),
    (0b10000010_1011_1111_0000_1010_1_1011011, .barAw 10 2 0x3F 1),
    (0b10000011_0000_0111_1011_0000_0_1011011, .barCfg 11 0 7 0),
    (0b10001000_1000_0101_0000_0000_0_1011011, .fnc 2 5 0),
    (0b10001001_0011_0100_1011_1010_0_1011011, .plda 10 11 6 4 0),
    (0b10001010_0101_1001_1011_1010_0_1011011, .pstr 10 11 3 1 0),
    (0b10010000_1000_0001_1011_1010_0_1011011, .pshD 10 11 0x81 0),
    (0b10010001_1000_0001_1011_0000_1_1011011, .pshLine 11 0x81 1),
    (0b10011000_0100_1111_1011_1100_0_1011011, .rngWb 11 12 1 0xF 0),
    (0b10011001_1011_1111_1011_1100_0_1011011, .rngInv 11 12 2 0x3F 0),
    (0b10011010_0100_0000_1011_1100_1_1011011, .rngWbinv 11 12 1 0 1),
    (0b10100000_0011_1111_1011_0000_0_1011011, .gxKick 11 0x3F 0),
    (0b10110000_0000_0001_0000_1010_0_1011011, .lc 10 1 0),
    (0b10111000_1000_0001_1011_0000_0_1011011, .tiLoad 11 0x81 0),
    (0b10111001_1000_0001_0000_0000_0_1011011, .tiInv 0x81 0)] :
    List (Nat × Instr)), decode x.1 = some x.2 := by
  decide +kernel

/-- R37, R43: the lanewise rows of DV. -/
theorem test_decode_vector : ∀ x ∈ ([
    (0b00000000_110_1_0000_011_010_001_1111011, .vadd 1 2 3 6 1),
    (0b00000001_000_1_0000_011_010_001_1111011, .vsub 1 2 3 0 1),
    (0b00000010_111_1_0000_011_010_001_1111011, .vmul 1 2 3 7 1),
    (0b00000011_101_1_0000_011_010_001_1111011, .vfma 1 2 3 5 1),
    (0b00000100_011_1_0000_011_010_001_1111011, .vminu 1 2 3 3 1),
    (0b00001101_000_1_0000_011_010_001_1111011, .vmaxu 1 2 3 0 1),
    (0b00000101_100_1_0000_011_010_001_1111011, .vmin 1 2 3 4 1),
    (0b00000110_011_1_0000_011_010_001_1111011, .vmax 1 2 3 3 1),
    (0b00000111_000_1_0000_000_010_001_1111011, .vabs 1 2 0 1),
    (0b00001000_111_1_0000_000_010_001_1111011, .vneg 1 2 7 1),
    (0b00001001_100_1_0000_011_010_001_1111011, .vdiv 1 2 3 4 1),
    (0b00001010_111_1_0000_000_010_001_1111011, .vsqrt 1 2 7 1),
    (0b00001011_100_1_0000_000_010_001_1111011, .vrcpe 1 2 4 1),
    (0b00001100_110_1_0000_000_010_001_1111011, .vrsqe 1 2 6 1),
    (0b00010000_011_1_0000_011_010_001_1111011, .vand 1 2 3 3 1),
    (0b00010001_000_1_0000_011_010_001_1111011, .vor 1 2 3 0 1),
    (0b00010010_001_1_0000_011_010_001_1111011, .vxor 1 2 3 1 1),
    (0b00010011_010_1_0000_011_010_001_1111011, .vshl 1 2 3 2 1),
    (0b00010100_011_1_0000_011_010_001_1111011, .vshr 1 2 3 3 1),
    (0b00010101_000_1_0000_011_010_001_1111011, .vsra 1 2 3 0 1),
    (0b00011000_111_1_0000_011_010_000_1111011, .vcmpEq 2 3 7 1),
    (0b00011001_000_1_0000_011_010_000_1111011, .vcmpNe 2 3 0 1),
    (0b00011010_100_1_0000_011_010_000_1111011, .vcmpLt 2 3 4 1),
    (0b00011011_110_1_0000_011_010_000_1111011, .vcmpLe 2 3 6 1),
    (0b00011101_011_1_0000_011_010_000_1111011, .vcmpLtu 2 3 3 1)] :
    List (Nat × Instr)), decode x.1 = some x.2 := by
  decide +kernel

/-- R37, R43, R44: the other rows of DV. `vmv` takes the sub-code 0 or 1 in xs, and a memory form its nb in et[2]. -/
theorem test_decode_moves : ∀ x ∈ ([
    (0b00011100_111_0_0000_011_010_001_1111011, .vsel 1 2 3 7),
    (0b00100000_110_1_1010_000_000_001_1111011, .vbc 1 10 6 1),
    (0b00100001_111_1_0000_001_000_001_1111011, .vbcC 1 0x81 7),
    (0b00100010_100_1_0000_000_010_001_1111011, .vmv 1 2 4 1),
    (0b00100010_000_0_0001_000_000_000_1111011, .vmvClean),
    (0b00100011_011_0_1010_000_010_000_1111011, .vext 2 10 3),
    (0b00101000_000_1_0000_111_010_001_1111011, .vcvt 1 2 7 0 1),
    (0b00101001_110_0_0000_011_010_001_1111011, .vcvt8 1 2 3 6 0),
    (0b00110000_111_1_0000_000_010_001_1111011, .vredAdd 1 2 7 1),
    (0b00110001_000_1_0000_000_010_001_1111011, .vredMax 1 2 0 1),
    (0b00110010_110_1_0000_000_010_001_1111011, .vredMin 1 2 6 1),
    (0b00110100_001_1_0000_011_010_001_1111011, .vdot 1 2 3 1 1),
    (0b00111000_011_1_0000_011_010_001_1111011, .vperm 1 2 3 3 1),
    (0b00111001_010_1_1010_000_010_001_1111011, .vslide 1 2 10 2 1),
    (0b01000000_011_1_1010_000_000_001_1111011, .vld 1 10 3 1 0),
    (0b01000001_110_0_1010_000_000_001_1111011, .vst 1 10 2 0 1),
    (0b01000010_001_1_1010_000_010_001_1111011, .vldx 1 2 10 1 1 0),
    (0b01000011_100_0_1010_000_010_001_1111011, .vstx 1 2 10 0 0 1)] :
    List (Nat × Instr)), decode x.1 = some x.2 := by
  decide +kernel

/-- R27 to R44: words that a rule refuses: a word without 0b11 in [1:0], a reserved major opcode, a register field of
16, a shift amount of a W form with [25] set, FENCE.I, FENCE with fm 1, MRET, a load of width 7, a probe load of width
7, a probe store of width 4, a fused probe store of width 4, `bo` with a base, `yield` with nb = 0, `thr.exit` with nb
= 1, a DR row not listed, an atomic at scope 6, `red` of kind 13, a core barrier of index 8, a forme barrier of index
16, `fnc` of kind 3, `fnc` with a width, `plda` of kind 1, `pstr` of kind 0, a sweep at a core barrier, `gx.kick` with
[7:6] set, `vand` on floats, `vdiv` on integers, `vdot` on INT32, `vdot` on FP64, `vcvt8` on FP64, `vcvt8` of sub-code
4, `vmv` of sub-code 2, `vldx` with vd = vs1. -/
theorem test_decode_refuses : ∀ w ∈ [
    0b0000000000000000000000000_0010010,
    0b0000000000000000000000000_1101011,
    0b0000000_00000_00000_000_10000_0110011,
    0b000000100000_00000_001_00000_0011011,
    0b0000_0000_0000_00000_001_00000_0001111,
    0b0001_0000_0000_00000_000_00000_0001111,
    0b001100000010_00000_000_00000_1110011,
    0b000000000000_00000_111_00000_0000011,
    0b000000000000_0000_0_111_0000_0_0001011,
    0b000000000000_0000_1_100_0000_0_0001011,
    0b000000000000_0000_1_100_0000_0_0101011,
    0b000000000000_0001_0_000_0000_1_0101011,
    0b00000000_0000_0000_0000_0000_0_1011011,
    0b00000100_0000_0000_0000_0000_1_1011011,
    0b00000110_0000_0000_0000_0000_1_1011011,
    0b00110000_0110_0000_0000_0000_0_1011011,
    0b00111010_1101_0000_0000_0000_0_1011011,
    0b10000000_0000_1000_0000_0000_0_1011011,
    0b10000000_0101_0000_0000_0000_0_1011011,
    0b10001000_1100_0000_0000_0000_0_1011011,
    0b10001000_0000_1000_0000_0000_0_1011011,
    0b10001001_0100_0000_0000_0000_0_1011011,
    0b10001010_0000_0000_0000_0000_0_1011011,
    0b10011000_0000_0000_0000_0000_0_1011011,
    0b10100000_0100_0000_0000_0000_0_1011011,
    0b00010000_100_0_0000_000_000_000_1111011,
    0b00001001_011_0_0000_000_000_000_1111011,
    0b00110100_010_0_0000_000_000_000_1111011,
    0b00110100_111_0_0000_000_000_000_1111011,
    0b00101001_111_0_0000_000_000_000_1111011,
    0b00101001_100_0_0000_100_000_000_1111011,
    0b00100010_000_0_0010_000_000_000_1111011,
    0b01000010_011_0_0000_000_000_000_1111011], decode w = none := by
  decide +kernel

/-! ## States of the tests -/

/-- One thread, number 1, READY in slot 0 of core 0 of die 0, of group 1 of context 0, at the first paged address. -/
def base : State := let s : State := State.reset.loadThread; { s with cur := 1, ir := 0 }

/-- The thread of a state, changed. -/
def me (f : Thread → Thread) (s : State) : State := { s with threads := tset s.threads s.cur (f (s.thr s.cur)) }

/-- A register of the thread set. -/
def set (r : Nat) (v : Word) (s : State) : State := me (fun t => { t with regs := tset t.regs r v }) s

/-- A leaf of the first level that maps an address onto the PA of the same number, homed at core 0. -/
def leaf (pte : Word) : TlbEntry := { asid := 0, level := 0, vpn := 0, pte := pte, homes := [0] }

/-- Core 0 holding that translation; 0x1FF is V, leaf, R, W, X, T, P, A and D (R269). -/
def paged (pte : Word) (s : State) : State := s.modCore 0 (fun k => { k with tlb := [leaf pte] })

/-- Context 0 with its record at 0x300000, a root table at 0x200000 and below it a table at 0x210000 whose leaf of 512 MiB
maps the first paged addresses onto the PAs of the same numbers; and a partition of all units. -/
def rooted (flags : Nat) (s : State) : State :=
  let m := mstore (mstore s.mem 0x200000 0x210001 8) 0x210040 (if flags = 0 then 0 else 0x100000000 + flags) 8
  let s : State := { s with mem := m, parts := [(0, { Partition.fresh with units := 2 ^ 32 - 1, tenants := 1 })] }
  s.setCtx 0 { s.ctx 0 with root := 0x200000, pa := 0x300000 }

/-- A line of core 0. -/
def line (n : Nat) (st : LState) : L1Line := { line := n, st := st, data := 0x0102030405060708, valid := 0, dirty := 0, home := 0 }

/-- Core 0 holding one line. -/
def holding (x : L1Line) (s : State) : State := s.modCore 0 (fun k => { k with l1 := [x] })

/-- A field of the next state, if there is one. -/
def after {α : Type} (i : Instr) (s : State) (f : State → α) : Option α :=
  match exec i s with
  | .next t => some (f t)
  | _ => none

/-! ## Witnesses: for each clause of an obligation, a state and operands that meet its hypotheses -/

/-- x11 is -1, x12 is 1, x13 the most negative number. -/
def numbers : State := set 11 (-1) (set 12 1 (set 13 0x8000000000000000 base))

theorem witness_multiplyDivide : numbers.me.reg 13 = BitVec.intMin 64 ∧ numbers.me.reg 11 = BitVec.allOnes 64 := by
  decide +kernel

theorem witness_jumpsAndBranches : numbers.me.issues ∧ numbers.me.reg 0 = 0 ∧
    (numbers.me.pc + ((2#20).signExtend 64) <<< 1).toNat % 4 = 0 ∧ (numbers.me.pc + ((1#20).signExtend 64) <<< 1).toNat % 4 ≠ 0 ∧
    ((0 + (5#12).signExtend 64) &&& ~~~(1 : Word)).toNat % 4 = 0 ∧ ((0 + (3#12).signExtend 64) &&& ~~~(1 : Word)).toNat % 4 ≠ 0 ∧
    (numbers.me.pc + ((0xFFE#12).signExtend 64) <<< 1).toNat % 4 = 0 ∧ (numbers.me.pc + ((0xFFF#12).signExtend 64) <<< 1).toNat % 4 ≠ 0 ∧
    numbers.me.reg 11 ≠ numbers.me.reg 12 ∧ (numbers.me.reg 11).toInt < (numbers.me.reg 12).toInt ∧
    (numbers.me.reg 12).toNat < (numbers.me.reg 11).toNat := by
  unfold Thread.issues
  decide +kernel

theorem witness_csrWrites : csrOf 0x800 = some .oc ∧ csrOf 0x801 = some .vmask ∧ csrOf 0x802 = some .vrm ∧
    csrOf 0x803 = some .dphase ∧ csrOf 0x804 = some .pushq ∧ csrOf 0x805 = some .pushref ∧ csrOf 0x806 = some .pweight ∧
    csrOf 0x807 = some .yldlim ∧ [Csr.oc, .vmask, .vrm, .dphase, .pushq, .pushref, .pweight, .yldlim].all Csr.writable = true ∧
    (csrOf 0x810).map Csr.writable = some true := by
  decide +kernel

theorem witness_csrReads : csrOf 0xC02 = some .instret ∧ csrOf 0xC87 = some .moves ∧ (csrOf 0x800).isSome = true ∧
    (csrOf 0x807).isSome = true ∧ (csrOf 0xC01).isSome = true ∧ (csrOf 0xC81).isSome = true ∧ (csrOf 0xC83).isSome = true ∧
    (csrOf 0xC86).isSome = true ∧
    (∀ n ∈ [0xC00, 0xC80, 0xC82, 0xC84, 0xC85, 0x810, 0x813, 0xC90, 0xC93], (csrOf n).isSome = true) := by
  decide +kernel

theorem witness_illegalTraps : base.me.issues ∧ csrOf 0x300 = none ∧ csrOf 0xC02 = some .instret ∧
    Csr.instret.writable = false := by
  unfold Thread.issues
  decide +kernel

/-- A push of the thread is pending. -/
def pushing (s : State) : State := me (fun t => { t with pushes := 1 }) s

/-- A side-log entry of another thread, for another page. -/
def logged : SideEntry := { uid := 2, ctx := 0, va := 0x200000000, width := 8, data := 0, seq := 0, pc := 0, sync := false }

/-- The side log of core 0 holding that entry. -/
def sideLogged : State := base.modCore 0 (fun k => { k with side := [logged] })

theorem witness_fenceCompletes : base.established base.cur 5 = true ∧ base.capped base.myCtx = false ∧
    (base.core base.myCore).side = [] ∧ base.clean ∧ base.noFetch ∧ (pushing base).clean ∧ (pushing base).noFetch ∧
    (pushing base).established 1 5 = false ∧ sideLogged.clean ∧ sideLogged.noFetch ∧
    sideLogged.established 1 5 = true ∧ (sideLogged.core sideLogged.myCore).side ≠ [] := by
  unfold State.clean State.noFetch
  decide +kernel

/-- Core 0 with a dirty untracked line beside a clean one. -/
def unclean : State :=
  let raw (l : Nat) (d : BitVec 128) : L1Line := { line := l, st := .raw, data := 0x1234, valid := 0xFF, dirty := d, home := 5 }
  set 11 0x100000000 (base.modCore 0 (fun k => { k with l1 := [raw 7 0x80, raw 8 0] }))

theorem witness_fenceCompletes_unclean : unclean.unclean ∧ unclean.capped unclean.myCtx = false ∧
    3 ≤ (3 : BitVec 3).toNat ∧ (∀ n ∈ [1, 2, 4, 8], (unclean.me.reg 11).toNat % n = 0) := by
  unfold State.unclean
  decide +kernel

theorem witness_systemTraps : base.me.issues ∧ base.clean ∧ base.established base.cur 5 = true ∧
    (base.core base.myCore).side = [] ∧ (pushing base).me.issues ∧ (pushing base).clean ∧
    (pushing base).established 1 5 = false ∧ sideLogged.me.issues ∧ sideLogged.clean ∧
    (sideLogged.core sideLogged.myCore).side ≠ [] := by
  unfold Thread.issues State.clean
  decide +kernel


/-! ### Loads, stores, atomics, pushes -/

/-- The first paged address in x11 under a translation, and the last doubleword of the local memory in x12. -/
def addressed : State := paged 0x1FF (set 11 0x100000000 (set 12 0x3FFF8 (set 13 0x40000 base)))

/-- The line of the first paged address. -/
def first : Nat := 0x2000000

theorem witness_loadsFromWindow : base.span 1 0 1 false = .lm 0 ∧ base.unclaimed 0 ∧
    base.span 1 0x3FFFF 1 false = .lm 0x3FFFF ∧ base.unclaimed 0x3FFFF ∧
    base.span 1 0x3FFFE 2 false = .lm 0x3FFFE ∧ base.span 1 0x3FFFC 4 false = .lm 0x3FFFC ∧
    base.span 1 0x3FFF8 8 false = .lm 0x3FFF8 ∧ base.span 1 0x3FFF1 8 false = .lm 0x3FFF1 ∧
    addressed.me.reg 12 = 0x3FFF8 ∧ addressed.span 1 0x3FFF8 8 false = .lm 0x3FFF8 ∧ addressed.unclaimed 0x3FFF8 := by
  unfold State.unclaimed
  decide +kernel

theorem witness_storesToWindow : base.memOk = true ∧ base.span 1 0 1 true = .lm 0 ∧ base.unclaimed 0 ∧
    base.span 1 0x6F8 8 true = .lm 0x6F8 ∧ base.span 1 0x800 8 true = .lm 0x800 ∧ base.span 1 0x3FFFE 2 true = .lm 0x3FFFE ∧
    base.span 1 0x3FFFC 4 true = .lm 0x3FFFC ∧ addressed.memOk = true ∧ addressed.me.reg 12 = 0x3FFF8 ∧
    addressed.span 1 0x3FFF8 8 true = .lm 0x3FFF8 ∧ addressed.unclaimed 0x3FFF8 := by
  unfold State.unclaimed
  decide +kernel

/-- Core 0 holding the line of the first paged address in a state. -/
def held (st : LState) : State := holding (line first st) addressed

/-- The clauses of `HoldsLine`, each of which a computation settles. -/
theorem holds {s : State} {ea : Word} {n : Nat} {w : Bool} {e : TlbEntry} {x : L1Line}
    (h : s.span s.cur ea n w = .paged ∧ ea.toNat % n = 0 ∧ s.myLog (pageOf ea.toNat) = [] ∧
      s.tlbHit s.myCore s.myCtx ea.toNat = some e ∧ paClass (leafPa e.level e.pte.toNat ea.toNat) ≠ .device ∧
      pteT e.pte.toNat = true ∧ pteR e.pte.toNat = true ∧
      (w = true → pteW e.pte.toNat = true ∧ pteD e.pte.toNat = true ∧ pteMG e.pte.toNat = false) ∧
      coreDie (e.home (leafPa e.level e.pte.toNat ea.toNat / 128)) = coreDie s.myCore ∧
      s.pendingWrite s.myCore (leafPa e.level e.pte.toNat ea.toNat / 128) = false ∧
      (s.core s.myCore).line (leafPa e.level e.pte.toNat ea.toNat / 128) = some x ∧
      leafPa e.level e.pte.toNat ea.toNat / 128 ∉ s.poison ∧ (s.ctx s.myCtx).race = 0 ∧ s.oracle = []) :
    s.HoldsLine ea n w e x := by
  obtain ⟨a, b, c, d, f, g, i, j, k, l, m, o, p, q⟩ := h
  exact ⟨a, b, c, d, f, g, i, j, k, l, m, o, p, q⟩

/-- The clauses of `ReachesRaw`. -/
theorem reachesRaw {s : State} {ea : Word} {n : Nat} {w : Bool} {e : TlbEntry}
    (h : s.span s.cur ea n w = .paged ∧ ea.toNat % n = 0 ∧ s.myLog (pageOf ea.toNat) = [] ∧
      s.tlbHit s.myCore s.myCtx ea.toNat = some e ∧ paClass (leafPa e.level e.pte.toNat ea.toNat) ≠ .device ∧
      pteT e.pte.toNat = false ∧ pteR e.pte.toNat = true ∧
      (w = true → pteW e.pte.toNat = true ∧ pteD e.pte.toNat = true ∧ pteMG e.pte.toNat = false) ∧
      s.pendingWrite s.myCore (leafPa e.level e.pte.toNat ea.toNat / 128) = false ∧
      leafPa e.level e.pte.toNat ea.toNat / 128 ∉ s.poison ∧ (s.ctx s.myCtx).race = 0 ∧ s.oracle = []) :
    s.ReachesRaw ea n w e := by
  obtain ⟨a, b, c, d, f, g, i, j, l, o, p, q⟩ := h
  exact ⟨a, b, c, d, f, g, i, j, l, o, p, q⟩

/-- The first paged page untracked, and an untracked copy of its first line that holds eight bytes. -/
def untracked : State := paged 0x1DF addressed
def rawLine : L1Line := { line first .raw with valid := 0xFF, dirty := 0xF0 }

theorem witness_probesHitLine_raw : (holding rawLine untracked).ReachesRaw 0x100000000 8 false (leaf 0x1DF) ∧
    (holding rawLine untracked).ReachesRaw 0x100000000 8 true (leaf 0x1DF) ∧ untracked.ReachesRaw 0x100000000 8 true (leaf 0x1DF) ∧
    (holding rawLine untracked).unclaimed 0x100000000 ∧ untracked.unclaimed 0x100000000 ∧
    ((holding rawLine untracked).core 0).line first = some rawLine ∧ (∀ i, i < 8 → rawLine.valid.getLsbD (0 + i) = true) ∧
    (holding rawLine untracked).noFetch ∧ untracked.noFetch ∧ untracked.me.trail = [] ∧ untracked.me.issues ∧
    (untracked.core 0).line first = none ∧ (untracked.core 0).waysUsed first < 8 :=
  ⟨reachesRaw (by decide +kernel), reachesRaw (by decide +kernel), reachesRaw (by decide +kernel),
    by unfold State.unclaimed; decide +kernel, by unfold State.unclaimed; decide +kernel, by decide +kernel, by decide +kernel,
    by unfold State.noFetch; decide +kernel, by unfold State.noFetch; decide +kernel, by decide +kernel,
    by unfold Thread.issues; decide +kernel, by decide +kernel, by decide +kernel⟩

theorem witness_probesHitLine : (held .sp).HoldsLine 0x100000000 8 false (leaf 0x1FF) (line first .sp) ∧
    (held .sp).unclaimed 0x100000000 ∧ (held .e).HoldsLine 0x100000000 8 true (leaf 0x1FF) (line first .e) ∧
    (held .e).unclaimed 0x100000000 ∧ (held .m).HoldsLine 0x100000000 1 true (leaf 0x1FF) (line first .m) ∧
    (held .m).me.issues ∧ (held .m).me.reg 11 = 0x100000000 :=
  ⟨holds (by decide +kernel), by unfold State.unclaimed; decide +kernel, holds (by decide +kernel),
    by unfold State.unclaimed; decide +kernel, holds (by decide +kernel),
    by unfold Thread.issues; decide +kernel, by decide +kernel⟩

/-- A fault request for the first paged page is open, and the core has no translation. -/
def faulting : State := let s : State := set 11 0x100000000 base
  { s with faults := [{ ctx := 0, page := 0x10000, va := 0x100000000, level := 0, malformed := false, kind := 0, seq := 1,
                        core := 0, written := true, reports := [] }] }

theorem witness_notPresentAccess :
    (∀ n ∈ [1, 2, 4, 8], faulting.span 1 0x100000000 n false = .paged ∧ faulting.span 1 0x100000000 n true = .paged) ∧
    faulting.myLog (pageOf 0x100000000) = [] ∧ faulting.inShadow 0 0x100000000 = false ∧ faulting.notThere 0 0 0x100000000 = true ∧
    (faulting.core 0).findClaim 1 faulting.me.pc 0 0x100000000 = none ∧ faulting.faultOpen 0 (pageOf 0x100000000) = true ∧
    (faulting.core 0).deferred = [] ∧ (faulting.core 0).side.length < 32 ∧
    (let s := faulting.modCore 0 (fun k => { k with side := List.replicate 32 logged })
     s.myLog (pageOf 0x100000000) = [] ∧ s.inShadow 0 0x100000000 = false ∧ s.notThere 0 0 0x100000000 = true ∧ s.faultOpen 0 (pageOf 0x100000000) = true ∧
       32 ≤ (s.core 0).side.length) := by
  decide +kernel

theorem witness_notPresentAccess_open : (let s : State := { faulting with faults := [] }
    s.faultOpen 0 (pageOf 0x100000000) = false ∧ s.walk 0 0x100000000 = .absent 0 false ∧
      s.notThere 0 0 0x100000000 = true ∧ s.myLog (pageOf 0x100000000) = []) := by
  decide +kernel

/-- A trap of this thread changes no byte at 0x1000, and another one waits for nothing. -/
theorem witness_traps : Memory.wf base.mem = true ∧ ¬ base.trapByte base.myCtx 0x1000 ∧
    (2 : Nat) ≠ base.cur ∧ (base.thr 2).wake = none := by
  refine ⟨by decide +kernel, ?_, by decide +kernel, by decide +kernel⟩
  have w : walkRaw base 0 0 0 3 = .inr (0, false) := by decide +kernel
  rintro (h | ⟨lv, p, ea, h, -⟩)
  · exact absurd h (by decide +kernel)
  · have h' : walkRaw base 0 0 0 3 = .inl (some (lv, p, ea)) := h
    rw [w] at h'
    exact absurd h' (by simp)

theorem witness_accessTraps : base.me.issues ∧ base.span 1 0x3FFFF 2 false = .window ∧ base.span 1 0x3FFFF 2 true = .window ∧
    base.span 1 0x40000 1 false = .access ∧ base.span 1 0xFFFFFFFF 1 true = .access ∧
    base.span 1 0xFFFFFFFF 2 false = .access ∧ base.span 1 0x700 8 true = .access ∧ base.span 1 0x6F9 8 true = .access ∧
    base.span 1 0x7FF 1 true = .access ∧ base.span 1 0x40000000000000 1 false = .access ∧
    inPaged 0x3FFFF = false ∧ 0x100000001 % 2 ≠ 0 ∧ inPaged 0x100000001 = true ∧
    (let s := base.setCtx 0 { base.ctx 0 with race := 1, shadow := 0x100000000 }
     s.me.issues ∧ 0x100000008 % 8 = 0 ∧ s.span 1 0x100000008 8 true = .paged ∧ s.inShadow s.myCtx 0x100000008 = true) := by
  unfold Thread.issues
  decide +kernel

theorem witness_atomicsOnWindow : addressed.memOk = true ∧ addressed.clean ∧ addressed.capScope 5 = 5 ∧
    addressed.me.reg 12 = 0x3FFF8 ∧ (0x3FFF8 : Word).toNat % 8 = 0 ∧ addressed.established 1 5 = true ∧
    (pushing addressed).established 1 5 = false ∧ (pushing addressed).clean ∧ addressed.span 1 0x3FFF8 8 true = .lm 0x3FFF8 ∧
    addressed.span 1 0x3FFF8 4 true = .lm 0x3FFF8 ∧ addressed.unclaimed 0x3FFF8 ∧ addressed.noFetch ∧
    (pushing addressed).noFetch := by
  unfold State.unclaimed State.clean State.noFetch
  decide +kernel

theorem witness_acquireReleaseForms : addressed.memOk = true ∧ addressed.clean ∧ addressed.span 1 0x3FFF8 8 false = .lm 0x3FFF8 ∧
    addressed.span 1 0x3FFF8 8 true = .lm 0x3FFF8 ∧ addressed.unclaimed 0x3FFF8 ∧ addressed.noFetch ∧
    (0x3FFF8 : Word).toNat % 8 = 0 ∧ (addressed.ctx addressed.myCtx).race = 0 ∧ addressed.established 1 5 = true ∧
    (pushing addressed).memOk = true ∧ (pushing addressed).clean ∧ (pushing addressed).noFetch ∧
    (pushing addressed).established 1 0 = false := by
  unfold State.unclaimed State.clean State.noFetch
  decide +kernel

theorem witness_redCombines : addressed.memOk = true ∧ addressed.span 1 0x3FFF8 (redWidth 1) true = .lm 0x3FFF8 ∧
    (0x3FFF8 : Word).toNat % redWidth 1 = 0 ∧ addressed.unclaimed 0x3FFF8 ∧ (held (.u 12)).memOk = true ∧
    (held (.u 12)).HoldsLine 0x100000000 (redWidth 12) true (leaf 0x1FF) (line first (.u 12)) ∧
    (held (.u 12)).unclaimed 0x100000000 :=
  ⟨by decide +kernel, by decide +kernel, by decide +kernel, by unfold State.unclaimed; decide +kernel,
    by decide +kernel, holds (by decide +kernel), by unfold State.unclaimed; decide +kernel⟩

/-- A claim of another thread on the line of the first paged address. -/
def pin : Claim :=
  { uid := 2, pc := 0, word := 0, ea := 0x100000000, need := .share, write := false, line := first, stage := .ready,
    opened := true, closes := 1, remote := false, copy := none, tag := 0, home := 0 }

theorem witness_lineOperations : inWindows 0x3FFF8 = true ∧ inWindows 0x11FFFF8 = true ∧
    inPaged (0x100000000 : Word).toNat = true ∧ addressed.me.reg 11 = 0x100000000 ∧ addressed.me.reg 12 = 0x3FFF8 ∧
    (∀ st ∈ [LState.s, .sp, .e, .m, .u 1, .raw],
      (held st).translated 0x100000000 (leaf 0x1FF) ∧ (held st).unclaimed 0x100000000 ∧ (held st).noFetch ∧
      ((held st).core 0).pinned first = false ∧ ((held st).core 0).line first = some (line first st)) ∧
    (addressed.core 0).line first = none ∧
    addressed.translated 0x100000000 (leaf 0x1FF) ∧ addressed.unclaimed 0x100000000 ∧ addressed.noFetch ∧
    (let s := (held .s).modCore 0 (fun k => { k with claims := [pin] })
     (s.core 0).pinned first = true ∧ s.translated 0x100000000 (leaf 0x1FF) ∧ s.unclaimed 0x100000000 ∧ s.noFetch) := by
  unfold State.unclaimed State.translated State.noFetch
  decide +kernel

/-- Constant word 0 naming core 1 of the home's die as the one target (R142). -/
def aimed (st : LState) : State := let s : State := held st; { s with lm := mstore s.lm 0 0x100000001 8 }

theorem witness_pushesLeave :
    inPaged (0x100000000 : Word).toNat = true ∧ inWindows 0x3FFF8 = true ∧ (0x3FFF8 : Word).toNat % 8 = 0 ∧
    (∀ st ∈ [LState.s, .m], ((aimed st).ctx (aimed st).myCtx).race = 0 ∧ (aimed st).me.reg 11 = 0x100000000 ∧
      (aimed st).translated 0x100000000 (leaf 0x1FF) ∧ (aimed st).unclaimed 0x100000000 ∧
      loadedValue (aimed st).lm 0 3 = 0x100000001 ∧ pushTargets 0 0x100000001 = some [1] ∧
      paClass 0x100000000 ≠ .device ∧ (aimed st).pendingWrite 0 first = false ∧
      (aimed st).pushEntryFree 0 0x100000000 = true ∧ ((aimed st).core 0).line first = some (line first st)) ∧
    pteT 0x1FF = true ∧ pteP 0x1FF = true ∧ pteW 0x1FF = true ∧ pteD 0x1FF = true ∧ pteMG 0x1FF = false ∧ pteR 0x1FF = true ∧
    pushTargets 0 0 = none ∧ (0x100000000 : Word).toNat % 8 = 0 ∧ addressed.inShadow addressed.myCtx 0x100000000 = false ∧
    loadedValue addressed.lm 0 3 = 0 := by
  unfold State.unclaimed State.translated
  decide +kernel

/-! ### The thread -/

/-- A second thread of the group, number 2, of index 1 and in slot 1. -/
def peer (f : Thread → Thread) (s : State) : State :=
  { s with threads := tset s.threads 2 (f { s.thr 1 with index := 1, slot := some 1 }), nextUid := 3 }

theorem witness_branchOnOutcome : base.me.oc.toNat = 0 ∧ (me (fun t => { t with oc := 13 }) base).me.oc.toNat = 13 ∧
    (me (fun t => { t with oc := 2 }) base).me.oc.toNat = 2 := by
  decide +kernel

theorem witness_yieldAndSleep : max 1 ((base.me.reg 0).toNat % 2 ^ 32) = 1 ∧ base.me.movedPending = false ∧ base.me.wake = none ∧
    (me (fun t => { t with movedPending := true }) base).me.movedPending = true ∧ (base.me.reg 0).toNat = 0 ∧
    (addressed.me.reg 11).toNat ≠ 0 ∧ WakeCond.mail.repeats = true ∧ (WakeCond.budget 0 0).repeats = false ∧
    (me (fun t => { t with wake := some { cond := .mail, fired := 1 } }) base).me.wake = some { cond := .mail, fired := 1 } ∧
    (let s := peer (fun t => { t with st := .waiting, wait := .yield 0 1, yldlim := 1 }) base
     let s : State := { s with gtick := 1 }
     (s.thr 2).saved = false ∧ (s.thr 2).st = .waiting ∧ (s.thr 2).wait = .yield 0 1 ∧ (s.thr 2).yldlim ≠ 0 ∧
       (s.thr 2).yldlim.toNat ≤ (s.gtick + 2 ^ 64 - 0) % 2 ^ 64) ∧
    (let s := peer (fun t => { t with st := .parked, wait := .sleep 0, movedPending := true }) base
     (s.thr 2).saved = false ∧ (s.thr 2).st = .parked ∧ (s.thr 2).wait = .sleep 0 ∧ (0 : Nat) ≤ s.gtick ∧
       (s.thr 2).movedPending = true) ∧
    (let s := peer (fun t => { t with st := .waiting, wait := .sleep 0 }) base
     (s.thr 2).wait = .sleep 0 ∧ (s.thr 2).movedPending = false) := by
  decide +kernel

/-- The sixteen slots of core 0 are taken: threads 2 to 16 beside thread 1. -/
def crowded : State := { base with
  threads := base.threads ++ (List.range 15).map (fun k => (k + 2, { base.thr 1 with index := k + 1, slot := some (k + 1) })) }

theorem witness_threadsStartAndEnd : (base.grp 1).tpg = 1 ∧ base.mailUid 1 1 = none ∧ base.freeSlot 0 = some 1 ∧
    base.established 1 0 = true ∧ base.established 1 2 = true ∧ base.cur ≠ base.nextUid ∧ (base.me.reg 0).toNat % 4 = 0 ∧
    (pushing base).established 1 0 = false ∧ (pushing base).established 1 2 = false ∧
    (set 11 2 base).me.reg 11 = 2 ∧ (2 : Word).toNat % 4 ≠ 0 ∧
    crowded.freeSlot 0 = none ∧ crowded.parkFree 0 = false ∧ (crowded.grp 1).tpg = 1 ∧ crowded.mailUid 1 16 = none ∧
    (∀ j, j < 16 → 1 ≤ j → crowded.mailUid 1 j ≠ none) ∧
    (let s : State := { base with threads := base.threads ++ (List.range 255).map (fun j =>
       (j + 2, { base.thr 1 with index := j + 1, st := .parked, slot := none })) }
     ∀ j, j < 256 → (s.grp 1).tpg ≤ j → s.mailUid 1 j ≠ none) := by
  decide +kernel

/-- The group spans forme 0 and its thread stands on core 1, so that the first paged address is homed elsewhere. -/
def spanned : State :=
  let s : State := (paged 0x1FF (set 11 0x100000000 (set 12 0x1000000 base)))
  let s := s.modGrp 1 (fun g => { g with forme := true, cores := (List.range 8).map id })
  let s := s.modCore 1 (fun k => { k with tlb := [leaf 0x1FF] })
  me (fun t => { t with core := 1, rank := 1 }) s

/-- That thread on its way to core 0. -/
def moving : State := me (fun t => { t with st := .migrating, target := 0, slot := none }) spanned

theorem witness_moving : spanned.span 1 0x100000000 1 false = .paged ∧
    spanned.translated 0x100000000 (leaf 0x1FF) ∧ paClass 0x100000000 ≠ .device ∧
    pteR 0x1FF = true ∧ pteT 0x1FF = true ∧ (leaf 0x1FF).home first = 0 ∧ spanned.myCore = 1 ∧ spanned.me.dirty = false ∧
    spanned.myGrp.forme = true ∧ coreForme 0 = coreForme 1 ∧ 0 ∈ spanned.myGrp.cores ∧ spanned.unclaimed 0x100000000 ∧
    spanned.me.issues ∧ (me (fun t => { t with dirty := true }) spanned).me.dirty = true ∧
    addressed.translated 0x100000000 (leaf 0x1FF) ∧ addressed.myCore = 0 ∧ addressed.unclaimed 0x100000000 ∧
    addressed.span 1 0x3FFF8 1 false = .lm 0x3FFF8 ∧ spanned.span 1 0x1000000 1 false = .lm 0 ∧
    pteT 0x1DF = false ∧ pteR 0x1DF = true ∧ (paged 0x1DF addressed).translated 0x100000000 (leaf 0x1DF) ∧
    (moving.thr 1).st = .migrating ∧ (moving.thr 1).target ≠ (moving.thr 1).core ∧ moving.freeSlot 0 = some 0 ∧
    (0 + (moving.core 0).mail.length) ≤ 32 ∧ (moving.core 1).mail = [] := by
  unfold Thread.issues State.unclaimed State.translated
  decide +kernel


/-! ### Messages and slots -/

/-- A message of the thread to its peer, in its outbound queue. -/
def sent (st : OutSt) : OutMsg :=
  { gid := 1, dest := 2, core := 0, sender := 1, src := 0, kind := 0, payload := 7, seq := 0, st := st }

/-- The thread and a READY peer on its core, with one message to it. -/
def sending (st : OutSt) (f : Thread → Thread) : State :=
  (peer f (set 11 1 base)).modCore 0 (fun k => { k with outq := [sent st] })

/-- A message for the thread in the mailbox of its core, behind one for the peer. -/
def mailed : State := (peer id base).modCore 0 (fun k => { k with
  mail := [{ gid := 1, dest := 2, src := 0, kind := 0, payload := 5 }, { gid := 1, dest := 1, src := 1, kind := 1, payload := 9 }] })

theorem witness_messageInstructions : base.mailDest (256 : Word) = none ∧ 256 ≤ (256 : Word).toNat ∧ base.mailDest 1 = none ∧
    (peer id base).mailDest 1 = some 2 ∧ (peer id base).established 1 1 = true ∧
    ((peer id base).core 0).outq = [] ∧ ((peer id base).core 0).entriesUsed .outbound < 16 ∧ (peer id base).unclaimed 1 ∧
    (sending (.replay 5) id).mailDest 1 = some 2 ∧ (sending (.replay 5) id).established 1 1 = true ∧
    ((sending (.replay 5) id).core 0).outq = [sent (.replay 5)] ∧ (sent (.replay 5)).dest = 2 ∧
    (mailed.core 0).mail = [{ gid := 1, dest := 2, src := 0, kind := 0, payload := 5 }] ++
      { gid := 1, dest := 1, src := 1, kind := 1, payload := 9 } :: [] ∧
    (base.core 0).mail = [] ∧ base.me.last = none ∧
    (me (fun t => { t with last := some (255, 1) }) base).me.last = some (255, 1) := by
  unfold State.unclaimed
  decide +kernel

theorem witness_messageEvents :
    (∀ st ∈ [OutSt.flying, .accepted, .nacked, .replay 0], ((sending st id).core 0).outq[0]? = some (sent st)) ∧
    ((sending .flying id).core 0).earlierOut 0 2 = false ∧ ((sending .flying id).thr 2).st ≠ .exited ∧
    (sending .flying id).asleep 1 = false ∧ ((sending .flying id).thr 2).st ≠ .migrating ∧
    ((sending .flying id).thr 2).core = 0 ∧ ((sending .flying id).core 0).mail.length < 32 ∧
    (sending .flying id).earlierMail (sent .flying) = false ∧
    ((sending .flying (fun t => { t with st := .migrating })).thr 2).st = .migrating ∧
    ((sending .flying (fun t => { t with st := .exited })).thr 2).st = .exited ∧
    0 ≤ (sending (.replay 0) id).now (coreDie 0) := by
  decide +kernel

/-- Thread 2 is PARKED and runnable on core 0. -/
def parkedPeer : State := peer (fun t => { t with st := .parked, runnable := true, slot := none }) base

/-- All slots of core 0 are taken, one thread WAITING, and thread 17 is runnable; the context has one park entry. -/
def swapping : State :=
  let s : State := { crowded with
    threads := tset (tset crowded.threads 2 { crowded.thr 2 with st := .waiting, wait := .retry }) 17
      { crowded.thr 1 with index := 16, st := .parked, runnable := true, slot := none } }
  s.setCtx 0 { s.ctx 0 with pcap := 2 }

theorem witness_slotEvents : parkedPeer.freeSlot 0 = some 1 ∧
    leastBy (fun v => (parkedPeer.thr v).wokenAt) (parkedPeer.runnables 0) = some 2 ∧ (parkedPeer.thr 2).wait = .none ∧
    (parkedPeer.thr 2).st = .parked ∧
    leastBy (fun v => (swapping.thr v).waitFrom) ((swapping.threads.filter (fun x =>
      decide (x.2.core = 0 ∧ x.2.st = .waiting) && x.2.slot.isSome && !x.2.saved)).map (·.1)) = some 2 ∧
    swapping.freeSlot 0 = none ∧ swapping.runnables 0 ≠ [] ∧ swapping.parkFree (swapping.ctxOf 2) = true ∧
    (∃ x ∈ (((held .s).modCore 0 (fun k => { k with claims := [{ pin with closes := 0 }] })).core 0).claims,
      x.uid = 2 ∧ x.opened = true ∧ x.closes ≤ base.now 0) ∧
    (∃ x ∈ ((base.modCore 0 (fun k => { k with reserved :=
        [{ op := { uid := 1, pc := 0, word := 0, ea := 0 }, opened := true, closes := 0 }] })).core 0).reserved,
      x.op.uid = 1 ∧ x.opened = true ∧ x.closes ≤ base.now 0) ∧
    (let s := base.modDie 3 (fun d => { d with tableRes := [{ uid := 1, quoin := 0, opened := true, closes := 0 }] })
     (∃ x ∈ (s.die 3).tableRes, x.uid = 1 ∧ x.opened = true ∧ x.closes ≤ base.now 0) ∧
       ∀ d, d < 3 → (s.die d).tableRes = []) ∧
    (base.thr 1).core = 0 := by
  decide +kernel

/-- A context whose trap ring is mapped, with one held record. -/
def trapHeld : State :=
  let r : TrapRec := { tick := 1, kernel := 2, group := 3, index := 4, pc := 5, core := 6, slot := 7, insn := 8, cls := .race,
                       va := 9, extra := 10, seq := 11, uid := 1 }
  let s : State := { base with heldTraps := [(0, [r])] }
  rooted 0x1FF (s.setCtx 0 { s.ctx 0 with tring := 0x100000000, tlg := 4 })

theorem witness_trapEvents : (tget [] trapHeld.heldTraps 0).length = 1 ∧ trapHeld.quietAll 0x300060 8 = true ∧
    trapHeld.quietAll 0x100000000 64 = true ∧ trapHeld.memOk = true ∧
    ((trapHeld.ctx 0).ttail + 2 ^ 32 - trapHeld.peek ((trapHeld.ctx 0).pa + 100) 4) % 2 ^ 32 < 2 ^ (trapHeld.ctx 0).tlg ∧
    (trapHeld.reach 0 (((trapHeld.ctx 0).tring.toNat + 64 * ((trapHeld.ctx 0).ttail % 2 ^ (trapHeld.ctx 0).tlg)) % 2 ^ 64)
      true).map (fun x => x.2) = some 0x100000000 ∧ trapHeld.logged 1 = false ∧ trapHeld.fenced 1 = true ∧
    (∀ l ∈ linesOf 0x100000000 64 ++ linesOf 0x300060 4, (trapHeld.entry l).holders = []) ∧
    (let s := base.modGrp 1 (fun g => { g with wdLimit := 3, wdCount := 3 })
     (s.grp 1).st = .running ∧ (s.grp 1).wdCount = (s.grp 1).wdLimit ∧ (s.thr 1).gid = 1 ∧ (s.thr 1).saved = false ∧
       (s.thr 1).ending = false ∧ (s.thr 1).st = .ready) := by
  decide +kernel

/-! ### Messages of coherence -/

/-- One message of core 1 to the home slice beside core 0, for line 5, and the line's entry. -/
def atHome (k : MsgKind) (e : DirEntry) : State :=
  { base with
    net := [{ src := 1, dst := 1024, line := 5, kind := k }], dir := [(5, e)],
    buckets := [(16, { Bucket.fresh with tokens := 1 })] }

/-- The entries of a home: no holder; shared by core 2; owned by core 2; in U of kind 1 at core 2; in W. -/
def entries : List DirEntry :=
  [DirEntry.fresh, { DirEntry.fresh with st := .s, holders := [2] }, { DirEntry.fresh with st := .ex, holders := [2] },
   { DirEntry.fresh with st := .u, holders := [2], kind := 1 },
   { DirEntry.fresh with st := .w, holders := [2], pending := 1, req := some { src := 2, dst := 1024, line := 5, kind := .exclReq 3 } }]

/-- A message stands first in the network and may be delivered. -/
theorem delivers {s : State} {m : Msg} (h : s.net[0]? = some m ∧ s.wayOpen (agentDie m.src) (agentDie m.dst) = true)
    (v : m.kind.brings = true → s.vaultHeld m.line = false) : s.Delivers 0 m := ⟨h.1, fun _ x => absurd x (by simp), h.2, v⟩

theorem witness_homeRequests :
    (∀ k ∈ [MsgKind.readReq 1, .fetchReq 1 3, .remoteReq 1 false, .remoteReq 1 true, .exclReq 1, .updReq 1 1, .updReq 1 0,
        .pushWrite 1 none 0 [2, 3], .pushWrite 1 (some 8) 7 [2]],
      ∀ e ∈ entries, (let s := atHome k e
        let m : Msg := { src := 1, dst := 1024, line := 5, kind := k }
        s.net[0]? = some m ∧ s.wayOpen (agentDie m.src) (agentDie m.dst) = true ∧ s.entry m.line = e ∧
        s.portServes 0 (s.payer m) = true ∧ s.vaultHeld m.line = false ∧ e.waitq = [] ∧ e.pins = [] ∧
        (s.modCore 0 (fun q => { q with port := [m] })).portServes 0 (s.payer m) = false ∧
        ({ s with heldUntil := [(vaultOf 5, 9)] } : State).vaultHeld m.line = true)) ∧
    (∀ e ∈ entries, e.st = .ex ∨ e.st = .u ∨ e.st = .s → e.cores.filter (fun c => decide (c ≠ 1)) ≠ [] ∧ e.cores ≠ []) ∧
    (∀ st ∈ [DState.s, .ex, .u], (let e : DirEntry := { DirEntry.fresh with st := st, holders := [1], kind := 1 }
       e.cores.filter (fun c => decide (c ≠ 1)) = [] ∧
       ({ e with coarse := true, holders := [] } : DirEntry).cores.filter (fun c => decide (c ≠ 1)) = [])) ∧
    ({ DirEntry.fresh with pins := [(4, true)] } : DirEntry).blocks (.readReq 1) = true ∧
    [2, 3].dedup.filter (atHome .evict DirEntry.fresh).pushable ≠ [] ∧
    [2].dedup.filter ((atHome .evict DirEntry.fresh).modCore 2 (fun k => { k with retired := true })).pushable = [] := by
  decide +kernel

theorem witness_homeReturns :
    (∀ k ∈ [MsgKind.evict, .writeBack 7 true, .writeBack 7 false, .uCopy 7 1 1, .ack none 0 0, .ack (some 7) 0 0,
        .pushReply true, .pushReply false, .claimReturn 1 (some 7), .rawWriteBack 7 1],
      ∀ e ∈ entries ++ [{ DirEntry.fresh with st := .ex, holders := [1] }, { DirEntry.fresh with st := .s, coarse := true, holders := [0] },
        { DirEntry.fresh with st := .w, holders := [2], pending := 2 }],
      (let m : Msg := { src := 1, dst := 1024, line := 5, kind := k }
       (atHome k e).net[0]? = some m ∧ (atHome k e).wayOpen (agentDie m.src) (agentDie m.dst) = true ∧
        (atHome k e).vaultHeld 5 = false ∧ (atHome k e).entry 5 = e ∧ (atHome k e).noneEnding ∧ (atHome k e).memOk = true ∧ e.waitq = [])) ∧
    (∀ e ∈ entries, e.st = .w → e.pending = 1 ∧ e.req = some { src := 2, dst := 1024, line := 5, kind := .exclReq 3 }) := by
  unfold State.noneEnding
  decide +kernel

/-- A message of the home to core 0, for the line of the first paged address, which the core holds in a state. -/
def atCore (k : MsgKind) (st : Option LState) : State :=
  { (match st with | some x => held x | none => addressed) with
    net := [{ src := 1024, dst := 0, line := first, kind := k }] }

theorem witness_coreMessages :
    (∀ k ∈ [MsgKind.inval, .shareRecall, .updRecall, .pushFill 7, .pushDone 1 1, .grant 1 .m 7],
      ∀ st ∈ [none, some LState.s, some .e, some .m, some (.u 1)],
        (atCore k st).net[0]? = some { src := 1024, dst := 0, line := first, kind := k } ∧
        (atCore k st).wayOpen (agentDie 1024) (agentDie 0) = true ∧
        ((atCore k st).core 0).line first = st.map (line first) ∧ ((atCore k st).core 0).defers first none = false ∧
        ((atCore k st).core 0).defers first (some .s) = false) ∧
    ((atCore .inval none).core 0).waysUsed first < 8 ∧ ((atCore .inval none).core 0).busyWays first < 8 ∧
    ((atCore .inval none).core 0).spCount < ((atCore .inval none).core 0).pushq.toNat ∧
    ((({ atCore .inval none with cores := [(0, { Core.fresh with pushq := 0 })] } : State).core 0).pushq.toNat = 0) ∧
    (((atCore .inval (some .s)).modCore 0 (fun k => { k with claims := [pin] })).core 0).defers first none = true := by
  decide +kernel

/-- A state whose I/O die exchanges traffic with die 0. -/
def joined (s : State) : State :=
  { s with links := (12, { Link.fresh with st := .up }) :: (13, { Link.fresh with st := .up }) :: s.links }

theorem witness_hostAccess : (joined base).ioReaches 0 = true ∧ (joined base).memOk = true ∧ ((joined base).entry 0).holders = [] ∧
    (joined base).quiet 0 = true ∧ (joined base).ioReaches 0x8000000000000 = true ∧ ((0 : Nat) = 0 ∨ base.hostFunction 0 0 = true) ∧
    ({ base with parts := [(0, { Partition.fresh with units := 1, tenants := 1, vfs := [63] })] } : State).hostFunction 63 0 = true ∧
    base.memOk = true ∧ paClass 0 = .dram 0 ∧ paClass 0x8000000000000 = .host ∧ base.quiet 0 = true ∧
    (120 / 128 = (120 + 8 - 1) / 128) ∧ (127 / 128 = (127 + 1 - 1) / 128) ∧ (base.entry 0).holders = [] ∧
    base.quiet (0x8000000000000 / 128) = true ∧
    (let s : State := joined { held .m with dir := [(first, { DirEntry.fresh with st := .ex, holders := [0] })] }
     s.memOk = true ∧ s.ioReaches 0x100000000 = true ∧ s.quiet (0x100000000 / 128) = true ∧ (s.entry (0x100000000 / 128)).st = .ex ∧
       (s.entry (0x100000000 / 128)).coarse = false ∧ (s.entry (0x100000000 / 128)).holders = [0] ∧
       (s.core 0).line (0x100000000 / 128) = some (line first .m) ∧ (line first .m).st = .m) := by
  decide +kernel


/-! ### Quoins, barriers, semaphores -/

/-- A place of a thread for the quoin at the first paged address. -/
def placeOf (st : PlaceSt) (owner : Option Nat) : Place :=
  { st := st, gen := 65535, owner := owner, ctx := 0, quoin := 0x8000000, key := 0x8000000 }

/-- A quoin at the first paged address, whose places are entries 0 and up of die 0, in x11 the handle of entry 0 and in
x12 that of entry 1. -/
def quoined (ps : List Place) : State :=
  let s : State := set 11 0xFFFF200008000000 (set 12 0xFFFF200108000000 (set 13 1 (rooted 0x1FF base)))
  let s : State := { s with quoins := [(0x8000000, { Quoin.fresh with places := List.range ps.length, names := [(0, 0x100000000)], pa := some 0x100000000 })] }
  s.modDie 0 (fun d => { d with places := (List.range ps.length).zip ps })

/-- Entry 0 granted to the thread and entry 1 waiting for its peer; and entries 0 and 1 both waiting for the thread. -/
def granted : State := peer id (quoined [placeOf .granted (some 1), placeOf .waiting (some 2)])
def twoWaiting : State := quoined [placeOf .waiting (some 1), placeOf .waiting (some 1)]

theorem witness_handleInstructions : base.me.issues ∧ (base.me.reg 11).getLsbD 45 = false ∧
    (granted.me.reg 11).getLsbD 45 = true ∧ (granted.me.reg 11).toNat / 2 ^ 48 ≠ 0 ∧
    (granted.me.reg 11).toNat / 2 ^ 46 % 4 = 0 ∧ (granted.me.reg 11).toNat / 2 ^ 32 % 8192 = 0 ∧
    ((quoined []).place 0 0).st = .free ∧ granted.checkHandle (granted.me.reg 11) true = .ok 0 0 ∧
    (granted.place 0 0).st = .granted ∧ granted.established 1 2 = true ∧ (pushing granted).established 1 2 = false ∧
    (granted.quoin (granted.place 0 0).key).die = 0 ∧ (granted.quoin (granted.place 0 0).key).places = 0 :: 1 :: [] ∧
    (granted.place 0 1).st = .waiting ∧ (granted.place 0 1).owner = some 2 ∧
    ((quoined [placeOf .granted (some 1)]).quoin 0x8000000).places = [0] ∧
    (quoined [placeOf .granted (some 1)]).checkHandle 0xFFFF200008000000 true = .ok 0 0 ∧
    twoWaiting.checkHandle (twoWaiting.me.reg 11) true = .ok 0 0 ∧ (twoWaiting.place 0 0).st = .waiting ∧
    twoWaiting.checkHandle (twoWaiting.me.reg 12) true = .ok 0 1 ∧ (twoWaiting.place 0 1).st = .waiting ∧
    granted.quoinBusy (granted.place 0 0).key = none ∧ twoWaiting.quoinBusy (twoWaiting.place 0 0).key = none ∧
    (let s : State := { granted with net := [{ src := 1, dst := homeAgent 0, line := first, kind := .evict }] }
     s.quoinBusy (s.place 0 0).key = some first ∧ s.established 1 2 = true) ∧
    (let s : State := { twoWaiting with net := [{ src := 1, dst := homeAgent 0, line := first, kind := .evict }] }
     s.quoinBusy (s.place 0 0).key = some first) ∧
    (twoWaiting.place 0 0).key = (twoWaiting.place 0 1).key ∧ (twoWaiting.place 0 0).quoin = (twoWaiting.place 0 1).quoin ∧ (base.mailDest 200 = none) ∧
    granted.mailDest (granted.me.reg 13) = some 2 ∧ granted.unclaimed 1 ∧ (granted.core 0).outq = [] ∧
    (granted.core 0).entriesUsed .outbound < 16 ∧ granted.me.issues ∧ twoWaiting.me.issues ∧
    (let s := quoined [placeOf .waiting (some 1), { placeOf .waiting (some 1) with key := 1 }]
     s.checkHandle (s.me.reg 11) true = .ok 0 0 ∧ s.checkHandle (s.me.reg 12) true = .ok 0 1 ∧
       (s.place 0 0).key ≠ (s.place 0 1).key) ∧
    (quoined [placeOf .granted (some 1), placeOf .waiting (some 1)]).checkHandle 0xFFFF200108000000 true = .ok 0 1 := by
  unfold Thread.issues State.unclaimed
  decide +kernel

/-- The thread with the quoin's address in x11, and the translation of it. -/
def atQuoin (ps : List Place) : State := set 11 0x100000000 (paged 0x1FF (quoined ps))

theorem witness_quoinInstructions :
    (∀ ps ∈ [[], [placeOf .granted (some 2)], [placeOf .waiting (some 2), placeOf .waiting (some 1)]],
      (atQuoin ps).quiet (0x100000000 / 128) = true ∧ (atQuoin ps).translated 0x100000000 (leaf 0x1FF) ∧
      (atQuoin ps).unclaimed 0x100000000 ∧ (atQuoin ps).me.linked = none ∧ (atQuoin ps).quoinKey 0 0x100000000 0x100000000 = 0x8000000 ∧
      ((atQuoin ps).quoin 0x8000000).places = List.range ps.length ∧ (atQuoin ps).me.issues ∧
      ((atQuoin ps).place 0 ps.length).st = .free ∧ (∀ j, j < ps.length → ((atQuoin ps).place 0 j).st ≠ .free) ∧
      ((atQuoin ps).die 0).usedPlaces + ((atQuoin ps).die 0).tableRes.length < 8192) ∧
    paClass 0x100000000 ≠ .device ∧ pteR 0x1FF = true ∧ pteW 0x1FF = true ∧ pteT 0x1FF = true ∧ pteMG 0x1FF = false ∧
    pteD 0x1FF = true ∧ (0x100000000 : Word).toNat % 32 = 0 ∧ coreDie ((leaf 0x1FF).home first) = 0 ∧
    (0x100000000 : Word).getLsbD 45 = false ∧ inPaged (0x100000000 : Word).toNat = true ∧
    inWindows 0x3FFE0 = true ∧ (0x3FFE0 : Word).toNat % 32 = 0 ∧
    (atQuoin [placeOf .granted (some 2)]).quoins.any (fun x => decide (x.1 = 0x8000000)) = true ∧
    (0xFFFF200008000000 : Word).getLsbD 45 = true ∧
    (quoined [placeOf .granted (some 2)]).checkHandle 0xFFFF200008000000 false = .ok 0 0 ∧
    (quoined [placeOf .dropped none]).checkHandle 0xFFFF200008000000 false = .ok 0 0 := by
  unfold Thread.issues State.unclaimed State.translated
  decide +kernel

/-- Core barrier 7 in a configuration, with a token in x11. -/
def barred (b : Bar) (v : Word) : State := set 11 v (base.modCore 0 (fun k => { k with bars := tset k.bars 7 b }))

/-- A barrier of its last phase that expects four and has counted some. -/
def counting (n : Nat) : Bar := { Bar.fresh with phase := 65535, expected := 4, arrived := n }

theorem witness_barrierInstructions : (0 : BitVec 2) ≠ 3 ∧ base.me.issues ∧ base.holdsBar 1 0 = false ∧
    (base.bar 0 0 8).expected = 0 ∧ base.me.arrived = none ∧ base.holdsBar 0 7 = true ∧
    (∀ n ∈ [0, 2, 3], ((barred (counting n) 65535).bar 0 0 7).expected ≠ 0 ∧
      (barred (counting n) 65535).established 1 0 = true ∧
      ((barred (counting n) 65535).bar 0 0 7).pending ((barred (counting n) 65535).now 0) 0 = false) ∧
    (pushing (barred (counting 0) 0)).established 1 0 = false ∧ (2 + 1 < 4) ∧ (4 ≤ 3 + 1) ∧ 65535 < 2 ^ 16 ∧
    (((counting 0).seen 0 0).1 + 2 ^ 16 - (65535 : Word).toNat % 2 ^ 16) % 2 ^ 16 = 0 ∧
    (((counting 0).seen 0 0).1 + 2 ^ 16 - (65534 : Word).toNat % 2 ^ 16) % 2 ^ 16 = 1 ∧
    2 ≤ (((counting 0).seen 0 0).1 + 2 ^ 16 - (65533 : Word).toNat % 2 ^ 16) % 2 ^ 16 ∧
    ((me (fun t => { t with arrived := some (t.pc, 65534) }) (barred (counting 0) 0)).me.arrived =
      some ((barred (counting 0) 0).me.pc, 65534)) ∧
    2 ^ 40 ≤ (0x10000000001 : Word).toNat ∧ (0x10000 : Word).toNat % 2 ^ 16 = 0 ∧ (0x100000001 : Word).toNat / 2 ^ 32 % 256 ≠ 0 ∧
    (0x10001 : Word).toNat / 2 ^ 16 % 2 ^ 16 ≠ 0 ∧ (0xFFFF : Word).toNat < 2 ^ 40 ∧ (0xFFFF : Word).toNat % 2 ^ 16 ≠ 0 ∧
    (0xFFFF : Word).toNat / 2 ^ 32 = 0 ∧ (0xFFFF : Word).toNat / 2 ^ 16 % 2 ^ 16 = 0 ∧
    ([(3, 0, 5, 0)] : Tbl (Nat × Nat × Nat)).find? (fun y => decide (y.1 = 3)) = some (3, 0, 5, 0) ∧
    0 ≤ base.now (unitDie 1 0) := by
  unfold Thread.issues
  decide +kernel

/-- A semaphore word in the line of the first paged address, which core 0 holds, named by constant word 63. -/
def semaphore (w : Nat) : State :=
  let s : State := holding { line first .m with data := BitVec.ofNat 1024 w } addressed
  { s with lm := mstore s.lm 504 0x100000000 8 }

theorem witness_semaphores :
    (∀ ar ∈ [0, 65534], (let w := 65535 * 2 ^ 48 + 65535 * 2 ^ 32 + ar * 2 ^ 16 + 3
       (semaphore w).semVa 63 = 0x100000000 ∧ (semaphore w).unclaimed 0x100000000 ∧ (semaphore w).clean ∧
       (semaphore w).established 1 ((semaphore w).capScope 3) = true ∧ (semaphore w).me.issues ∧ ar < 65535 ∧
       lineGet { line first .m with data := BitVec.ofNat 1024 w }.data 0 8 = w)) ∧
    (semaphore 5).HoldsLine 0x100000000 8 true (leaf 0x1FF) { line first .m with data := 5 } ∧
    (let s : State := { base with mem := mstore [] 0x100000000 (1 * 2 ^ 48 + 2 * 2 ^ 32 + 1 * 2 ^ 16 + 4) 8,
                                  bindings := [(7, .home 0x100000000 2), (8, .proxy 0x100000000 3 7)] }
     s.peek 0x100000000 8 = 1 * 2 ^ 48 + 2 * 2 ^ 32 + 1 * 2 ^ 16 + 4 ∧ 0x100000000 % 8 = 0 ∧
     tget Binding.none s.bindings 7 = .home 0x100000000 2 ∧ s.quiet first = true ∧ (s.entry first).holders = [] ∧
     tget Binding.none s.bindings 8 = .proxy 0x100000000 3 7 ∧
     32768 ≤ (0 + 2 ^ 16 - s.peek 0x100000000 8 / 2 ^ 48 % 2 ^ 16) % 2 ^ 16 ∧
     (1 + 2 ^ 16 - s.peek 0x100000000 8 / 2 ^ 48 % 2 ^ 16) % 2 ^ 16 < 32768) ∧
    (let s := me (fun t => { t with remote := some { pa := 0x100000000, reply := none } }) base
     (s.thr 1).remote = some { pa := 0x100000000, reply := none } ∧ s.quietAll 0x100000000 8 = true) :=
  ⟨by unfold State.unclaimed State.clean Thread.issues; decide +kernel, holds (by decide +kernel), by decide +kernel,
    by decide +kernel⟩


/-! ### Press, galleys, sweeps, vectors -/

/-- A command word in a state, pushed by the thread. -/
def cmd (w0 w1 w2 : Word) (st : CmdSt) : Cmd :=
  { w0 := w0, w1 := w1, w2 := w2, w3 := 0, phase := 0, uid := 1, pc := 0x100000000, agent := 0, interval := 0, epoch := 0,
    tids := 0, entry := none, st := st, unit := 0, ahead := [], faultVa := 0x100000000 }

/-- The press queue of core 0 and the planes of its press. -/
def pressed (q : List Cmd) (k : Press → Press) : State :=
  (base.setPq 0 { PQueue.fresh with cmds := q, lastMark := some 65535 }).modPress 0 k

theorem witness_pressQueueInstructions : base.me.issues ∧ base.myGrp.lm ≤ (0x40000 : Word).toNat ∧
    (0x3FFE0 : Word).toNat < base.myGrp.lm ∧ (0x3FFE0 : Word).toNat % 32 = 0 ∧ base.pressWordOk 0 0 0 0 = false ∧
    base.pressWordOk 2 0 0 0 = true ∧ base.pressWordOk (5 + 512 + 10 * 65536 + 2 ^ 24) 0 0 256 = true ∧
    base.established 1 1 = true ∧ (pushing base).established 1 1 = false ∧
    8 ≤ ((pressed (List.replicate 8 (cmd 2 0 0 .queued)) id).pq 0).cmds.length ∧ (base.pq 0).cmds.length < 8 ∧
    (base.ctx base.myCtx).race = 0 ∧ ((pressed [] id).pq 0).cmds = [] ∧ ((pressed [] id).pq 0).lastMark = some 65535 ∧
    (base.pq 0).lastMark ≠ some 65535 ∧
    (∀ st ∈ [CmdSt.queued, .started, .stoppedFault, .resolved, .stoppedError, .stoppedDeclined],
      ((pressed [cmd (8 + 7 * 2 ^ 48) 0 0 st] id).pq 0).cmds = [cmd (8 + 7 * 2 ^ 48) 0 0 st] ∧
      ((pressed [cmd (8 + 7 * 2 ^ 48) 0 0 st] id).pq 0).marked 7 = true ∧
      ((pressed [cmd (8 + 7 * 2 ^ 48) 0 0 st] id).pq 0).marked 8 = false) := by
  unfold Thread.issues
  decide +kernel

/-- A well-formed entry: INT32, simple, rank 1, one element at the first paged address. -/
def entryWords : List Word := [0x100000000, 2 + 16 + 256, 0x0001000100010001, 4, 0, 0, 0, 0]

/-- Two lines held M: that of the first paged address with the entry, and that of the table. -/
def tabled (e : List Word) : State :=
  let d := BitVec.ofNat 1024 ((List.range 8).foldl (fun n i => n + ((e[i]?).getD 0).toNat * 2 ^ (64 * i)) 0)
  let s := (addressed.modGrp 1 (fun g => { g with kid := 1 })).modCore 0 (fun k => { k with
    l1 := [{ line first .m with data := d }, line (first + 512) .m] })
  { s with kernels := [(1, { Kernel.fresh with words := [0, 0, 0, 0, 0x100010000], st := .running })] }

theorem witness_engineInstructions : base.me.issues ∧ canonical (0x40000000000000 : Word).toNat = false ∧
    canonical (0x100000000 : Word).toNat = true ∧ rangePaged 0x100000000 (2 ^ 40) = true ∧ rangePaged 0xFFFFFFFF 1 = false ∧
    (let s := spanned.modForme 0 (fun f => { f with bars := [(15, { Bar.fresh with expected := 1 })] })
     s.holdsBar 1 15 = true ∧ (s.bar 1 (unitOf 1 s.myCore) 15).expected ≠ 0 ∧ s.established 1 0 = true ∧
       (s.forme 0).sweeps.length < 8 ∧ s.me.issues) ∧
    (0x100000020 : Word).toNat % 64 ≠ 0 ∧ inPaged (0 : Word).toNat = false ∧ (0x100000000 : Word).toNat % 64 = 0 ∧
    inPaged (0x100000000 : Word).toNat = true ∧ (base.chan 0 63).holder ≠ some base.myCtx ∧
    (let s := addressed.modDie 0 (fun d => { d with chans := [(63, { Channel.fresh with holder := some 0 })] })
     (s.chan s.myDie 63).holder = some s.myCtx ∧ s.established 1 2 = true ∧ (s.chan s.myDie 63).kicks.length < 4) ∧
    base.myKer.tids = 0 ∧ (tabled entryWords).myKer.tids ≠ 0 ∧ (tabled entryWords).entryVa 0 = 0x100010000 ∧
    (tabled entryWords).unclaimed 0x100010000 ∧ (tabled entryWords).unclaimed 0x100010008 ∧ (tabled entryWords).unclaimed 0x100000000 ∧
    (tabled entryWords).me.reg 11 = 0x100000000 ∧ idOk 0 entryWords = true ∧ idOk 0 (List.replicate 8 0) = false ∧
    servesNeed .share .m = true ∧ first ≠ first + 512 := by
  unfold Thread.issues State.unclaimed
  decide +kernel

theorem witness_engineLines : (held .s).HoldsLine 0x100000000 8 false (leaf 0x1FF) (line first .s) ∧
    (tabled []).HoldsLine 0x100010008 8 true (leaf 0x1FF) (line (first + 512) .m) ∧
    (tabled []).HoldsLine 0x100010000 64 true (leaf 0x1FF) (line (first + 512) .m) ∧
    (tabled []).HoldsLine 0x100000000 64 false (leaf 0x1FF) { line first .m with data := 0 } ∧
    (List.range 8).map (fun i => BitVec.ofNat 64 (lineGet 0 0 64 / 2 ^ (64 * i))) = List.replicate 8 (0 : Word) := by
  exact ⟨holds (by decide +kernel), holds (by decide +kernel), holds (by decide +kernel), holds (by decide +kernel),
    by decide +kernel⟩

theorem witness_vectorTypes : (0 : BitVec 3).toNat < 4 ∧ (3 : BitVec 3).toNat < 4 ∧ (1 : BitVec 3).toNat < 2 ∧
    etType (4 : BitVec 3).toNat = .flt fp16 ∧ etType (5 : BitVec 3).toNat = .flt bf16 ∧
    etType (6 : BitVec 3).toNat = .flt fp32 ∧ etType (7 : BitVec 3).toNat = .flt fp64 ∧ fp32 ≠ fp64 ∧
    (0 : BitVec 3) = 0 ∧ (3 : BitVec 3) = 3 := by
  decide +kernel

theorem witness_floatingValues : fp64 = fp64 ∧ ({ mode := 4, ovf8 := false, thr := 255 } : Rnd).thr < 256 ∧
    (FVal.nan true).isNan = true ∧ (1 : Nat) ≠ 0 ∧ 0 < 2 ^ fp16.width ∧ (fdecode fp16 0x7BFF).isNan = false ∧
    0xFFFF < 2 ^ fp16.width := by
  decide +kernel

theorem witness_vectorMemory : addressed.memOk = true ∧ (0x3FFC0 : Word).toNat < 0x40000 ∧
    (∀ k, k < 64 → addressed.span 1 (0x3FFC0 + BitVec.ofNat 64 (1 * k)) 1 false = .lm (0x3FFC0 + 1 * k)) ∧
    (∀ k, k < 8 → addressed.span 1 (0x3FFC0 + BitVec.ofNat 64 (8 * k)) 8 true = .lm (0x3FFC0 + 8 * k)) ∧
    (∀ write, ∀ k, k < 8 → addressed.span 1 (0x2FC1 + BitVec.ofNat 64 (8 * k)) 8 write = .lm (0x2FC1 + 8 * k)) ∧
    0x3FFC0 % 8 = 0 ∧ 0x2FC1 % 8 ≠ 0 ∧ addressed.me.bytes = none ∧
    (addressed.core 0).claims = [] ∧ (addressed.core 0).deferred = [] ∧ addressed.me.cursor = none ∧
    (let s := me (fun t => { t with vregs := [(2, laneSet (laneSet 0 64 1 64) 64 2 8)], vmask := 6 }) addressed
     (∀ k, k < 8 → s.me.vmask.getLsbD k = true → s.span 1 (0x1000 + BitVec.ofNat 64 (laneGet (s.me.vreg 2) 64 k)) 8 true =
       .lm (if k = 1 then 0x1040 else 0x1008)) ∧ (0x1008 + 8 ≤ 0x1040)) ∧ (1 : BitVec 3) ≠ 2 ∧
    ¬ ((0x100000000 : Word).toNat < 0x40000 ∨ (0x1000000 ≤ (0x100000000 : Word).toNat ∧ (0x100000000 : Word).toNat < 0x1200000)) ∧
    (held .s).memOk = true ∧ (held .s).unclaimed 0x100000000 ∧ servesNeed .share .s = true := by
  unfold State.unclaimed
  decide +kernel

theorem witness_vectorLine : (held .s).HoldsLine 0x100000000 64 false (leaf 0x1FF) (line first .s) := holds (by decide +kernel)

/-- A press whose started command is at the head of the queue of position 0. -/
def pressing (w0 w1 w2 : Word) : State :=
  let active : Plane := { Plane.fresh with owner := some 0, loaded := true }
  let shadow : Plane := { Plane.fresh with owner := some 0 }
  pressed [cmd w0 w1 w2 .started] (fun k => { k with running := some 0, holders := [0], active := active, shadow := shadow })

theorem witness_pressCommands : (pressing 2 0 0).memOk = true ∧ ((pressing 2 0 0).groups.all (fun x => x.2.reinstall.isEmpty)) = true ∧
    Group.fresh.reinstall = [] ∧
    (let s := pressed [cmd 3 0 0 .queued] (fun k => { k with weights := [8, 8, 8, 8, 8, 8, 8, 8], active := { Plane.fresh with loaded := true }, holders := [0] })
     (s.pq 0).cmds = [cmd 3 0 0 .queued] ∧ (s.forme 0).press.running = none ∧ (s.forme 0).press.weights ≠ [] ∧
       (s.forme 0).press.pos = 0 ∧ s.pressEligible 0 0 = true ∧ (s.forme 0).press.count < (s.forme 0).press.weights.getD 0 0) ∧
    (∀ w0 ∈ [1, 2, 3 + 0x1000000, 4 + 0xA0000 + 0x40000000, 5 + 512 + 0xD0000, 6 + 0x20000, 7 + 0xA0000, 8, 9],
      ((pressing (BitVec.ofNat 64 w0) 0 512).pq 0).cmds = [cmd (BitVec.ofNat 64 w0) 0 512 .started] ∧
      ((pressing (BitVec.ofNat 64 w0) 0 512).forme 0).press.running = some 0 ∧ w0.testBit 8 = false) ∧
    ((pressing 1 0 0).forme 0).press.shadow.owner = some 0 ∧ 0 < typeBytes (pwType 1) ∧ 96 % typeBytes (pwType 1) = 0 ∧
    (3 + 0x1000000 : Word).toNat.testBit 11 = false ∧
    typesPair ((pressing 3 0 0).forme 0).press.active.type (pwType (3 + 0x1000000)) = true ∧
    (5 + 512 + 0xD0000 : Word).toNat / 512 % 4 = 1 ∧ (5 + 512 + 0xD0000 : Word).toNat.testBit 15 = false ∧
    type4 (pwType (5 + 512 + 0xD0000)) = some (.flt e5m2) ∧ typeBytes (pwType (5 + 512 + 0xD0000)) = 1 ∧
    (pressing (5 + 512 + 0xD0000) 0 4).windowByte 0 4 = 4 ∧ (0 + 4) / 8 = (4 + 0) / 8 ∧ typeBytes (pwType (7 + 0xA0000)) = 4 ∧
    ((pressing 9 0 0).forme 0).press.active.owner = some 0 ∧ 0 ∈ ((pressing 9 0 0).forme 0).press.holders ∧
    (∀ q, q < 8 → (1 : Nat).testBit q = true → (pressing 9 1 0).groupOn q = (pressing 9 1 0).groupOn 0) := by
  decide +kernel

/-- A transfer record of one INT32 point in channel 0 of die 0, from the first paged address to 0x100010000. -/
def rec1 (op kind : Nat) : GRec :=
  let e : List Word := [0x100000000, 2 + BitVec.ofNat 64 (16 * kind) + 256, 0x0001000100010001, 4, 0, 0, 0, 0]
  let d : List Word := [0x100010000, 2 + 16 + 256, 0x0001000100010001, 4, 0, 0, 0, 0]
  { chain := 0, kick := { va := 0x100020000, uid := 1, gid := 1, ctx := 0, core := 0, tids := 0, pc := 0, agent := 0, interval := 0, epoch := 0 },
    va := 0x100020000, words := [0, BitVec.ofNat 64 (2 ^ 63 + op * 2 ^ 56), 0x0010010010010000, 0, 0, 0, 0, 0],
    src := if op = 4 then [] else if kind = 2 ∧ op = 3 then d else e, dst := if kind = 2 ∧ op = 3 then e else d, tgt := d,
    entered := true, chunks := 1, written := [], ahead := [], done := [], faults := [], ends := [], skip := [],
    st := .running }

/-- The channel with that record, under a leaf with D set. -/
def chained (r : GRec) : State :=
  (rooted 0x1FF base).modDie 0 (fun d => { d with chans := [(0, { Channel.fresh with holder := some 0, recs := [r] })] })


/-- Nothing waits at any port. -/
theorem noPort {s : State} (h : s.cores.all (fun x => x.2.port.isEmpty) = true) (n : Nat) : (s.core n).port = [] := by
  have key : ∀ l : Tbl Core, l.all (fun x => x.2.port.isEmpty) = true → (tget Core.fresh l n).port = [] := by
    intro l
    induction l with
    | nil => intro _; rfl
    | cons x l ih =>
      intro h
      simp only [List.all_cons, Bool.and_eq_true, List.isEmpty_iff] at h
      unfold tget
      split
      · exact h.1
      · exact ih h.2
  exact key _ h

theorem witness_galleys : (chained (rec1 1 1)).memOk = true ∧
    (∀ x ∈ [(1, 1), (2, 2), (3, 2), (4, 1), (5, 1)], (let r := rec1 x.1 x.2
       ((chained r).chan 0 0).recs[0]? = some r ∧ r.op = x.1 ∧ r.entered = true ∧ r.chunks = 1 ∧ r.written = [] ∧ r.ahead = [] ∧
       r.st = .running ∧ (∀ e, e < 4 → r.extent e = 1) ∧ ((chained r).ctx 0).race = 0 ∧ r.width = 4)) ∧
    typeBytes (elemType (rec1 1 1).src (rec1 1 1).tgt) = 4 ∧ typeBytes (elemType (rec1 2 2).src (rec1 2 2).tgt) = 4 ∧
    typeBytes (elemType (rec1 3 2).src (rec1 3 2).tgt) = 4 ∧ idKind (rec1 1 1).src = 1 ∧ idKind (rec1 1 1).dst = 1 ∧
    idKind (rec1 2 2).src = 2 ∧ idKind (rec1 2 2).dst = 1 ∧ idKind (rec1 3 2).src = 1 ∧ idKind (rec1 3 2).dst = 2 ∧
    (rec1 4 1).src = [] ∧ idKind (rec1 4 1).dst = 1 ∧ type4 (idType (rec1 5 1).src) = some (.int true 32) ∧
    idElement (rec1 1 1).src [0, 0, 0, 0] = some 0x100000000 ∧ idElement (rec1 1 1).dst [0, 0, 0, 0] = some 0x100010000 ∧
    idElement (rec1 3 2).src [0, 0, 0, 0] = some 0x100010000 ∧ idElement (rec1 4 1).dst [0, 0, 0, 0] = some 0x100010000 ∧
    indexVa (rec1 2 2).src [0, 0, 0, 0] = 0x100000000 ∧ indexVa (rec1 3 2).dst [0, 0, 0, 0] = 0x100000000 ∧
    typeBytes (idType (rec1 2 2).src) = 4 ∧
    throughIndex (rec1 2 2).src (rec1 2 2).tgt [0, 0, 0, 0] 0 = some 0x100010000 ∧
    throughIndex (rec1 3 2).dst (rec1 3 2).tgt [0, 0, 0, 0] 0 = some 0x100010000 ∧
    mload (chained (rec1 2 2)).mem 0x100000000 4 = 0 ∧
    (∀ va ∈ [0x100000000, 0x100010000, 0x100020000], ∀ w ∈ [false, true],
      (chained (rec1 1 1)).look 0 va w false = .hit va 0x1000001FF 0x210040 0 ∧ ((chained (rec1 1 1)).entry (va / 128)).holders = [] ∧
      va % 128 + 64 ≤ 128) ∧ pteA 0x1FF = true ∧ pteD 0x1FF = true := by
  decide +kernel

/-- A channel whose queue holds one chain head, at the first paged address. -/
def kicked (w1 : Nat) : State :=
  let k : Kick := { (rec1 1 1).kick with va := 0x100000000 }
  let s : State := (rooted 0x1FF base).modDie 0 (fun d => { d with chans := [(0, { Channel.fresh with holder := some 0, kicks := [k] })] })
  { s with mem := mstore s.mem 0x100000008 w1 8 }

/-- A sweep of forme 0 with cores 0 and 1 still ahead, over the page of an untracked dirty line of core 0. -/
def sweeping (wb inv : Bool) : State :=
  let q : SweepReq := { uid := 1, gid := 1, ctx := 0, core := 0, start := 0x100000000, len := 65536, wb := wb, inv := inv, kind := 1,
                        idx := 0, left := [0, 1] }
  (rooted 0x1DF (holding { line first .raw with valid := 1, dirty := 1 } base)).modForme 0 (fun f => { f with sweeping := some q })

theorem witness_galleys_ports (r : GRec) (w1 : Nat) (wb inv : Bool) :
    (∀ h, ((chained r).core h).port = []) ∧ (∀ h, ((kicked w1).core h).port = []) ∧
    ∀ h, ((sweeping wb inv).core h).port = [] :=
  ⟨noPort rfl, noPort rfl, noPort rfl⟩

theorem witness_galleyChains :
    (∀ w1 ∈ [0, 2 ^ 63], (kicked w1).memOk = true ∧ (kicked w1).roundBefore 0 0 = [] ∧
      (kicked w1).markMask 0 0x1000001FF = kicked w1 ∧
      ((kicked w1).entry (0x100000000 / 128)).holders = [] ∧ ((kicked w1).visitRec 0 0).isNone = true ∧ ((kicked w1).chan 0 0).holder ≠ none ∧
      ((kicked w1).chan 0 0).chain = none ∧ ((kicked w1).chan 0 0).kicks.length = 1 ∧ ((kicked w1).chan 0 0).recs = [] ∧
      ((kicked w1).ctx 0).st = .running ∧ ((kicked w1).chan 0 0).waitFault = none ∧
      (kicked w1).look 0 0x100000000 false false = .hit 0x100000000 0x1000001FF 0x210040 0 ∧
      mload (kicked w1).mem 0x100000008 8 = w1) ∧ 2 ^ 63 / 2 ^ 56 % 128 = 0 ∧ 2 ^ 63 / 2 % 2 = 0 := by
  decide +kernel

theorem witness_galleyEnds :
    (let r : GRec := { rec1 1 1 with st := .finishing 1, written := [0], done := [0] }
     (chained r).roundBefore 0 0 = [] ∧ ((chained r).chan 0 0).holder ≠ none ∧
       ((chained r).chan 0 0).recs = [r] ∧ r.st = .finishing 1 ∧ r.done = r.written ∧ r.faults = [] ∧ r.ends = [] ∧
       r.skip = [] ∧ r.cobj = 0 ∧ r.va.toNat % 64 = 0 ∧ ((chained r).ctx r.kick.ctx).race = 0 ∧
       (chained r).look 0 0x100020000 true false = .hit 0x100020000 0x1000001FF 0x210040 0 ∧
       ((chained r).entry (0x100020000 / 128)).holders = [] ∧ (chained r).markMask 0 0x1000001FF = chained r ∧
       (chained r).walk 0 0x100020008 = .leaf 1 0x1000001FF 0x210040 [0] ∧
       (let h := (chained r).homeWrite 0x100020038 8 (r.firstClear % 2 ^ 32)
        h.walk 0 0x100020008 = .leaf 1 0x1000001FF 0x210040 [0] ∧ h.markMask 0 0x1000001FF = h)) ∧
    (let r : GRec := { rec1 1 1 with written := [0] }
     ((chained r).chan 0 0).recs[0]? = some r ∧ 0 ∈ r.written ∧ 0 ∉ r.done ∧ r.st = .running ∧ r.cobj = 0) ∧
    (let r : GRec := { rec1 1 1 with written := [0], words := [0, 0, 0, 0, 0, 0, 0x100030000, 0] }
     r.cobj = 0x100030000 ∧ r.cobj % 8 = 0 ∧ r.skip = [] ∧
       (chained r).look 0 0x100030010 true false = .hit 0x100030010 0x1000001FF 0x210040 0) := by
  decide +kernel

theorem witness_sweeps :
    (∀ x ∈ [(true, false), (false, true), (true, true)], (let s := sweeping x.1 x.2
       ((s.forme 0).sweeping.map (fun q => q.left)) = some [0, 1] ∧
       ((s.forme 0).sweeping.map (fun q => ((s.sweepWalks q).sweepWaits q 0, (s.sweepWalks q).sweepLines q 0))) =
         some (false, [{ line first .raw with valid := 1, dirty := 1 }]) ∧
       (s.core 0).pinned first = false ∧ (s.entry first).st = .i ∧
       (s.core 0).line first = some { line first .raw with valid := 1, dirty := 1 } ∧ s.net = [] ∧ s.memOk = true)) := by
  decide +kernel

/-! ### Translation, queues, kernels, contexts -/

/-- A thread's miss in the queue of forme 0, with its claim. -/
def missing (pte : Nat) : State :=
  let m : Miss := { core := 0, uid := 1, asid := 0, va := 0x100000000, write := false, kind := 0 }
  let x : Claim := { pin with uid := 1, need := .translation, stage := .walking, opened := false }
  ((rooted pte base).modForme 0 (fun f => { f with misses := [m] })).modCore 0 (fun k => { k with claims := [x] })

/-- A fault request whose ring and record are mapped, with the thread waiting for its answer. -/
def reported : State :=
  let w : Wake := { cond := .fault 0 0x10000 (some 0x100000000), fired := 0 }
  let s : State := rooted 0x1FF (me (fun t => { t with st := .waiting, wait := .retry, wake := some w }) faulting)
  let f : FaultReq := {
    ctx := 0, page := 0x10000, va := 0x100000000, level := 0, malformed := false, kind := 0, seq := 1, core := 0,
    written := false, reports := [] }
  State.setCtx { s with faults := [f] } 0 { s.ctx 0 with fring := 0x100010000, flg := 4 }

/-- A page under migration, with the thread waiting for its thaw. -/
def frozen : State :=
  let w : Wake := { cond := .thaw 0 0x10001, fired := 0 }
  rooted 0x3FF (me (fun t => { t with st := .waiting, wait := .retry, wake := some w }) base)

/-- The line of the first paged address, untracked and dirty in the same byte on cores 0 and 1. -/
def twice : State :=
  (holding { line first .raw with dirty := 1 } addressed).modCore 1 (fun k => { k with l1 := [{ line first .raw with dirty := 1 }] })

theorem witness_translation : (missing 0x1FF).memOk = true ∧ ((missing 0x1FF).forme 0).misses.length = 1 ∧
    ((missing 0x1FF).forme 0).tlb.find? (fun e => e.hits 0 0x100000000) = none ∧ ((missing 0x1FF).ctx 0).root % 8 = 0 ∧
    (missing 0x1FF).tlbHit 0 0 0x100000000 = none ∧ (missing 0x1FF).walk 0 0x100000000 = .leaf 1 0x1000001FF 0x210040 [0] ∧
    pteD 0x1FF = true ∧ (missing 0).walk 0 0x100000000 = .absent 1 false ∧ ((0 : Nat) ≠ 3) ∧
    reported.memOk = true ∧ (reported.faults.map (fun f => (f.ctx, f.written))) = [(0, false)] ∧
    reported.quietAll 0x300068 8 = true ∧ reported.quietAll 0x100010000 32 = true ∧ (reported.ctx 0).pa % 8 = 0 ∧
    (reported.reach 0 (((reported.ctx 0).fring.toNat + 32 * ((reported.ctx 0).ftail % 2 ^ (reported.ctx 0).flg)) % 2 ^ 64)
      true).map (fun x => x.2) = some 0x100010000 ∧
    ((reported.ctx 0).ftail + 2 ^ 32 - (reported.homeRead 0x30006C 4).2) % 2 ^ 32 < 2 ^ (reported.ctx 0).flg ∧
    0x300068 / 128 < 0x100010000 / 128 ∧ base.findFault 0 7 = none ∧ (base.die 3).shoot = none ∧
    frozen.walk 0 0x100000000 = .leaf 1 0x1000003FF 0x210040 [0] ∧ frozen.memOk = true ∧ pteMG 0x1000003FF = true ∧
    frozen.quoins = [] ∧ 0x10001 * 65536 / 2 ^ levelBits 1 = 0x100000000 % 2 ^ 55 / 2 ^ levelBits 1 ∧
    (frozen.thr 1).wake = some { cond := .thaw 0 0x10001, fired := 0 } ∧ (frozen.thr 1).wait = .retry ∧
    (frozen.thr 1).st = .waiting ∧ (frozen.thr 1).saved = false ∧ base.quietAll 0 1 = true := by
  decide +kernel

theorem witness_translation_verdicts :
    (reported.findFault 0 1).map (fun f => f.page) = some 0x10000 ∧ reported.faults.length = 1 ∧
    reported.logCores 0 = [] ∧ (reported.groups.all (fun g => g.2.save.all (fun r => r.side.isEmpty))) = true ∧
    (reported.threads.map (·.1)).Nodup ∧ reported.kernels = [] ∧ (reported.ctx 0).queues = [] ∧
    (reported.thr 1).wake = some { cond := .fault 0 0x10000 (some 0x100000000), fired := 0 } ∧ (reported.thr 1).wait = .retry ∧
    (reported.thr 1).st = .waiting ∧ (reported.thr 1).saved = false ∧ (reported.thr 1).ending = false ∧
    (let s : State := { held .m with dir := [(first, { DirEntry.fresh with st := .ex, holders := [0] })] }
     s.quietAll 0x100000000 128 = true ∧ linesOf 0x100000000 128 = [first] ∧ (s.entry first).cores = [0] ∧
       s.rawCopies first = [] ∧ s.memOk = true ∧ (s.core 0).line first = some (line first .m)) ∧
    twice.quietAll 0x100000000 128 = true ∧ (twice.rawCopies first).map (fun x => x.1) = [0, 1] ∧
    (1 : BitVec 128) &&& 1 ≠ 0 ∧ (base.ctx 0).chans = [] ∧
    (let k : ChanSave := { kicks := [], chain := none, serial := 0, next := 0, waitFault := none }
     let s := base.setCtx 0 { base.ctx 0 with chans := [(65, k)] }
     (s.ctx 0).chans = [(1 * 64 + 1, k)] ∧ s.ctxRuns 0 = true ∧ (s.chan 1 1).chain = none ∧ s.memOk = true) := by
  decide +kernel

theorem witness_trapVerdict :
    (let r : TrapRec := { tick := 1, kernel := 0, group := 1, index := 0, pc := 0x100000000, core := 0, slot := 0, insn := 0x73,
                          cls := .ecall, va := 0, extra := 5, seq := 3, uid := 1 }
     let s := me (fun t => { t with st := .trapped, trap := some r }) base
     let parked := me (fun t => { t with slot := none }) s
     s.trappedBy 0 3 = some (1, r) ∧ r.pressStop = false ∧ (s.thr 1).slot ≠ none ∧ parked.trappedBy 0 3 = some (1, r) ∧
       (parked.thr 1).slot = none ∧ s.placesOf 1 = []) := by
  decide +kernel

/-- A launch of one thread on one core: entry PC, counts and local memory. -/
def launch : List Word := [0x100000000, 0x100000001, 2048, 0, 0, 0, 0, 0, 0, 0, 0, 0, 0, 0, 0, 0]

/-- Queue 0 of context 0 in a state of the scheduler: its descriptor at 0x100040000, a ring of two records at 0x100050000 that
holds `n`, the first of them that launch, and its status array at 0x100060000; en as given. -/
def queued (st : QState) (n en : Nat) (r : List Word) : State :=
  let s : State := rooted 0x1FF base
  let w (m : Memory) (a v : Nat) : Memory := mstore m a v 8
  let m := w (w (w (w s.mem 0x100040000 0x100050000) 0x100040008 n) 0x100040020 (256 + 8 * en)) 0x100040028 0x100060000
  let m := r.zipIdx.foldl (fun m x => w m (0x100050000 + 8 * x.2) x.1.toNat) m
  State.setCtx { s with mem := m } 0 { s.ctx 0 with qtab := 0x100040000, queues := [(0, { QSched.fresh with st := st })] }

/-- The descriptor that this queue reads. -/
def desc (n en : Nat) : QDesc := { pa := 0x100040000, words := [0x100050000, n, 0, 0, 256 + 8 * en, 0x100060000, 0, 0] }

theorem witness_queueEvents :
    (∀ st ∈ [QState.disabled, .empty, .dependent, .ready, .stopped], ∀ n ∈ [0, 1, 2], ∀ en ∈ [0, 1],
      (queued st n en launch).hasQueues 0 = true ∧ (queued st n en launch).qdesc 0 0 = some (desc n en) ∧
      (queued st n en launch).memOk = true ∧ ((queued st n en launch).qs 0 0).st = st ∧
      (queued st n en launch).descOk 0 (desc n en) = true ∧ (desc n en).held = n ∧ (desc n en).lg = 1 ∧
      ((queued st n en launch).qs 0 0).skipped = [] ∧ ((queued st n en launch).qs 0 0).cidx = none ∧ (desc n en).cidx = 0 ∧
      (desc n en).ridx ∉ (desc n en).cut 0 ∧ (desc n en).en = decide (en = 1)) ∧
    (queued .empty 1 1 launch).look 0 ((desc 1 1).recVa 0) false false = .hit 0x100050000 0x1000001FF 0x210040 0 ∧
    0x100050000 % 128 = 0 ∧ ((queued .empty 1 1 launch).entry (0x100050000 / 128)).st = .i ∧
    mload (queued .empty 1 1 launch).mem 0x100050028 8 / 2 ^ 62 = 0 ∧ 2 ^ (desc 3 1).lg < (desc 3 1).held ∧
    (queued .empty 3 1 launch).qdesc 0 0 = some (desc 3 1) ∧ (queued .dependent 1 1 launch).schedules 0 = true := by
  decide +kernel

/-- The thread with the address of a record in x11, whose line its core holds, and queue 0, of `n` records, in x12. -/
def submitting (n en : Nat) : State :=
  holding (line first .s) (paged 0x1FF (set 11 0x100000000 (set 12 0 (queued .ready n en launch))))

theorem witness_ksub :
    (∀ n ∈ [0, 2], (let s := submitting n 1
      let s1 := ((s.releaseStep 3).1.touch (.line first 0)).endOp 0x100000000
      s.me.issues ∧ s.memOk = true ∧ s.me.reg 11 = 0x100000000 ∧ s.me.reg 12 = 0 ∧ s.unclaimed 0x100000000 ∧ s.clean ∧
      s.established s.cur 3 = true ∧ s.look 0 (s.descVa 0 0) true false = .hit 0x100040000 0x1000001FF 0x210040 0 ∧
      s.look 0 (s.descVa 0 0) false false = .hit 0x100040000 0x1000001FF 0x210040 0 ∧ s.markWalk 0 (s.descVa 0 0) = s ∧
      s.descAt 0 0 false = some (desc n 1) ∧ (desc n 1).en = true ∧ (desc n 1).word 6 % 8 ≠ 4 ∧ s.descOk 0 (desc n 1) = true ∧
      (desc n 1).held = n ∧ (desc n 1).lg = 1 ∧ s1.qdesc 0 0 = some (desc n 1))) ∧
    (let s := submitting 0 1
     let s1 := ((s.releaseStep 3).1.touch (.line first 0)).endOp 0x100000000
     s1.look 0 ((desc 0 1).recVa (desc 0 1).widx) true false = .hit 0x100050000 0x1000001FF 0x210040 0) ∧
    servesNeed .share .s = true ∧ 0x100050000 % 128 = 0 ∧ (desc 0 1).pa % 8 = 0 ∧
    0x100050000 / 128 ≠ ((desc 0 1).pa + 8) / 128 ∧
    (0x100000000 : Word).toNat % 128 = 0 ∧ inPaged (0x100000000 : Word).toNat = true ∧ (8 : Word).toNat % 128 ≠ 0 ∧
    63 < (64 : Word).toNat ∧
    (let s := submitting 0 0
     s.look 0 (s.descVa 0 0) true false = .hit 0x100040000 0x1000001FF 0x210040 0 ∧
       s.look 0 (s.descVa 0 0) false false = .hit 0x100040000 0x1000001FF 0x210040 0 ∧ s.markWalk 0 (s.descVa 0 0) = s ∧
       s.descAt 0 0 false = some (desc 0 0) ∧ (desc 0 0).en = false) := by
  unfold Thread.issues State.unclaimed State.clean
  decide +kernel

theorem witness_ksubLine : (submitting 0 1).HoldsLine 0x100000000 128 false (leaf 0x1FF) (line first .s) ∧
    (submitting 2 1).HoldsLine 0x100000000 128 false (leaf 0x1FF) (line first .s) :=
  ⟨holds (by decide +kernel), holds (by decide +kernel)⟩

/-- Queue 0, of two records, whose descriptor holds a cancel index. -/
def cancelled (st : QState) (c : Nat) : State :=
  let s := queued st 1 1 launch
  { s with mem := mstore s.mem 0x100040018 c 8 }

theorem witness_queueStates :
    (∀ st ∈ [QState.empty, .dependent, .ready], ((queued st 1 1 launch).qs 0 0).due = []) ∧
    (∀ st ∈ [QState.dependent, .ready], (queued st 1 1 launch).headOpen 0 0 (desc 1 1) = false) ∧
    (∀ st ∈ [QState.empty, .ready], ∀ en ∈ [0, 1], (let s := queued st 0 en launch
       let s : State := { s with mem := mstore s.mem 0x100040020 (0x1F7 + 8 * en) 8 }
       s.hasQueues 0 = true ∧ (s.qdesc 0 0).map (fun d => (s.descOk 0 d, d.en)) = some (false, decide (en = 1)) ∧
         (s.qs 0 0).st = st)) ∧
    (let r := launch.set 5 0xC000000000000000
     let s := queued .empty 1 1 r
     (s.markDesc 0 0).look 0 ((desc 1 1).recVa 0) false false = .hit 0x100050000 0x1000001FF 0x210040 0 ∧
       mload (s.markDesc 0 0).mem 0x100050028 8 / 2 ^ 62 = 3 ∧ s.schedules 0 = true ∧ (desc 1 1).held = 1 ∧
       (s.markDesc 0 0).look 0 ((desc 1 1).statVa 0) true false = .hit 0x100060000 0x1000001FF 0x210040 0) ∧
    (∀ st ∈ [QState.disabled, .empty, .dependent, .ready, .stopped], (let s := cancelled st 1
       (s.qdesc 0 0).map (fun d => (d.cidx, decide (d.ridx ∈ d.cut 1), decide (d.held = 1 ∧ d.pa % 64 = 0))) =
         some (1, true, true) ∧ (s.qs 0 0).st = st ∧ (s.qs 0 0).skipped = [] ∧ (s.qs 0 0).cidx = none ∧
       (s.qs 0 0).due = [] ∧ ((s.qdesc 0 0).map (fun d => (s.markDesc 0 0).look 0 (d.statVa d.ridx) true false)) =
         some (.hit 0x100060000 0x1000001FF 0x210040 0))) ∧
    pteA 0x1000001FF = true ∧ pteD 0x1000001FF = true ∧ 0x100060000 % 16 = 0 ∧ 0x100060000 / 128 ≠ 0x100040000 / 128 := by
  decide +kernel

theorem witness_queueDependences :
    (let r := (launch.set 5 0x4000000000000001).set 6 0x100070000
     let s := queued .dependent 1 1 r
     let s : State := { s with mem := mstore s.mem 0x100070000 (1 * 2 ^ 48 + 1 * 2 ^ 32 + 3) 8 }
     mload s.mem 0x100050028 8 / 2 ^ 62 = 1 ∧ s.look 0 0x100070000 false false = .hit 0x100070000 0x1000001FF 0x210040 0 ∧
       0x100070000 % 8 = 0 ∧ semMalformed (s.peek 0x100070000 8) = false ∧ semExpected (s.peek 0x100070000 8) ≠ 0 ∧
       (semPhase (s.peek 0x100070000 8) + 2 ^ 16 - 1) % 2 ^ 16 < 2 ^ 15) ∧
    (let r := launch.set 5 (0x8000000000000000 + 63 * 0x10000 + 5)
     let s := (queued .dependent 1 1 r).modDie 0 (fun d => { d with bars := [(63, { Bar.fresh with holder := some 0, expected := 1, phase := 5 })] })
     mload s.mem 0x100050028 8 / 2 ^ 62 = 2 ∧ mload s.mem 0x100050028 8 / 2 ^ 16 % 64 = 63 ∧ (s.bar 2 0 63).holder = some 0 ∧
       (s.bar 2 0 63).expected ≠ 0 ∧ ((s.bar 2 0 63).phase + 2 ^ 16 - 5) % 2 ^ 16 < 2 ^ 15) := by
  decide +kernel


/-- Kernel 5, of that launch, in a state, with a room and its constant block read. -/
def kernel (st : KState) (r : List Word) : Kernel :=
  { Kernel.fresh with words := r, st := st, loaded := true, room := some 1 }
def launched (st : KState) (r : List Word) : State :=
  let s : State := rooted 0x1FF base
  { s with kernels := [(5, kernel st r)] }

theorem witness_kernels :
    (let s := queued .ready 1 1 launch
     s.memOk = true ∧ s.ctxRuns 0 = true ∧ s.dieServes 0 = true ∧
       ((s.lookHeads 0 0).map (fun y => decide (y.1 = s))) = some true ∧
       ((s.lookHeads 0 0).bind (fun y => (leastBy (y.1.rankCand 0) y.2).map (fun x =>
         (x.q, x.d, x.r, match x.v with | .take p => some p | _ => none)))) = some (0, desc 1 1, launch, some 1) ∧
       s.look 0 ((desc 1 1).statVa 0) true false = .hit 0x100060000 0x1000001FF 0x210040 0 ∧ 0x100060000 % 16 = 0 ∧
       (desc 1 1).pa % 64 = 0 ∧ 0x100060000 / 128 ≠ 0x100040000 / 128 ∧ (desc 1 1).held = 1 ∧ s.descOk 0 (desc 1 1) = true ∧
       recWord launch 3 = 0 ∧ recWord launch 11 = 0 ∧ s.anyOpen 0 = false ∧ (s.qs 0 0).skipped = [] ∧
       (s.markDesc 0 0).look 0 ((desc 1 1).statVa 0) true false = .hit 0x100060000 0x1000001FF 0x210040 0) ∧
    (let s := queued .ready 1 1 (launch.set 0 2)
     ((s.lookHeads 0 0).bind (fun y => (leastBy (y.1.rankCand 0) y.2).map (fun x =>
       match x.v with | .skip c => some c | _ => none))) = some (some 3)) := by
  decide +kernel

theorem witness_kernelEvents :
    (let s := launched .admitted launch
     (s.ker 5).st = .admitted ∧ s.ctxRuns (s.ker 5).ctx = true ∧ (s.ker 5).wait = none ∧ (s.ker 5).loaded = true ∧
       (s.ker 5).placed < recGroups (s.ker 5).words ∧ s.kernels = [(5, kernel .admitted launch)] ∧ s.nextPlace 5 = some 1) ∧
    (let s := launched .draining launch
     (s.ker 5).st = .draining ∧ s.galleysOpen 5 = false ∧ s.sweepsOpen 5 = false ∧ s.writesOpen 5 = false ∧
       recCsem (s.ker 5).words = 0 ∧ s.kernelPressBusy 5 = false) ∧
    (∀ st ∈ [KState.admitted, .placing, .running], ((launched st launch).ker 5).st = st ∧
      (launched st launch).kernelPressBusy 5 = false) ∧
    (∀ ar ∈ [0, 65534], (let s := launched .draining (launch.set 7 0x100070000)
       let w := 65535 * 2 ^ 48 + 65535 * 2 ^ 32 + ar * 2 ^ 16 + 3
       let s : State := { s with mem := mstore s.mem 0x100070000 w 8 }
       recCsem (s.ker 5).words ≠ 0 ∧ s.look 0 0x100070000 true false = .hit 0x100070000 0x1000001FF 0x210040 0 ∧
         s.peek 0x100070000 8 = w ∧ semMalformed w = false ∧ semExpected w ≠ 0 ∧ s.binding 0x100070000 w = .none)) := by
  decide +kernel

/-- Group 1 of a state, with the thread saved or not. -/
def grouped (st : GState) (saved : Bool) : State :=
  (me (fun t => { t with saved := saved }) (rooted 0x1FF base)).modGrp 1 (fun g => { g with st := st })

theorem witness_groups :
    (∀ st ∈ [GState.running, .ending], ((grouped st false).grp 1).st = st ∧ (grouped st false).canSave 1 = true ∧
      (grouped st false).queuesOver ((grouped st false).grp 1) = true) ∧
    (let s := grouped .saved true
     (s.grp 1).st = .saved ∧ s.ctxRuns (s.grp 1).ctx = true ∧ s.placeFree (s.grp 1).ctx (s.grp 1).die (s.grp 1).ask none 255 = true ∧
       (s.grp 1).forme = false ∧ s.roomFor 1 [255] = true ∧ s.noneEnding ∧ (s.core 255).side = [] ∧ (s.grp 1).save = [] ∧
       (s.grp 1).cores = [(s.thr 1).core]) ∧
    (let s : State := { base with
       ctxs := [(0, { Ctx.fresh with st := .running }), (1, { Ctx.fresh with st := .runnable, tenant := 1 })],
       parts := [(0, { Partition.fresh with units := 1, tenants := 2, slices := [5, 5] })], gtick := 5 }
     (s.ctxs.map (·.1)).Nodup ∧ ((List.range (max 1 (s.part 0).tenants - 1)).map (fun i =>
       ((s.part 0).current + 1 + i) % max 1 (s.part 0).tenants)).find? (fun t => s.tenantRuns 0 t) = some 1 ∧
       (s.part 0).unbegun = false ∧ ((s.part 0).slices[(s.part 0).current]?).getD 0 ≤ s.gtick - (s.part 0).sliceFrom) := by
  unfold State.noneEnding
  decide +kernel

/-- Contexts 0 and 1 in states. -/
def contexts (a b : CtxSt) : State := { base with ctxs := [(0, { Ctx.fresh with st := a }), (1, { Ctx.fresh with st := b })] }

theorem witness_contexts :
    (∀ st ∈ [CtxSt.runnable, .saved, .running, .preempting, .building, .faulted, .migrating], ((contexts st .free).ctx 0).st = st ∧
      (contexts st .free).memOk = true) ∧
    (let s := contexts .building .free
     let t : State := { s with mem := mstore s.mem 88 0x1100 8 }
     0 % 128 = 0 ∧ t.quietAll 0 128 = true ∧ (t.entry 0).st = .i ∧ mload t.mem 8 8 / 2 ^ 52 = 0 ∧ (t.ctx 0).st = .building ∧
       ctxRecordOk (fun i => mload t.mem (8 * i) 8) = true ∧ ctxRecordOk (fun i => mload s.mem (8 * i) 8) = false ∧
       s.quietAll 0 128 = true) ∧
    (∀ st ∈ [CtxSt.free, .building, .running], (let s := contexts .migrating st
      let t : State := { s with mem := mstore (mstore s.mem 8 (2 ^ 52) 8) 88 0x1100 8 }
      (t.ctx 0).st = .migrating ∧ (t.ctx 1).st = st ∧ t.mixedQuoin 0 = false ∧ t.quietAll 0 128 = true ∧
      t.recordFor 0 1 = true ∧ t.memOk = true ∧ s.recordFor 0 1 = false ∧ s.quietAll 0 128 = true)) ∧ (0 : Nat) ≠ 1 ∧ 0 % 128 = 0 ∧
    (∀ st ∈ [CtxSt.building, .runnable, .saved, .faulted], (let s : State := { contexts st .free with
        ctxs := [(0, { Ctx.fresh with st := st, root := 0x200000 }), (1, Ctx.fresh)] }
      (s.ctx 0).st = st ∧ ∀ y ∈ s.ctxs, y.1 ≠ 0 → y.2.root ≠ (s.ctx 0).root)) ∧
    (let s : State := { base with buckets := [(1, { Bucket.fresh with rate := 2, depth := 5, tokens := 4 })] }
     ∃ y ∈ s.buckets, y.1 = 17 * 0 + 1) ∧
    (let s := quoined [placeOf .granted (some 1), { placeOf .waiting (some 2) with ctx := 1 }]
     let s := s.setCtx 0 { s.ctx 0 with st := .migrating }
     (s.ctx 0).st = .migrating ∧ s.mixedQuoin 0 = true ∧ s.memOk = true) ∧
    (({ base with cyc := [(0, 1024)] } : State).core 0).refills = 0 ∧ (0 + 1) * 1024 ≤ ({ base with cyc := [(0, 1024)] } : State).now 0 := by
  decide +kernel

/-! ### Links, ports, observation, power -/

/-- Direction 0 in a state, with a flit on the way, one on the way back, and one of sequence number 7 in its window that has
been resent `n` times. -/
def linked (st : LinkSt) (f b : Flit) (n : Nat) : State :=
  let k : Link := { Link.fresh with
    st := st, wire := [f], back := [b], window := [{ flit := dataFlit 1 7 none, again := n }], spares := 1,
    lanes := dataLanes 0, waiting := some (4096, 7) }
  { base with links := [(0, k)], gtick := 4096 }

/-- Direction 0 changed. -/
def onLink (f : Link → Link) (s : State) : State := { s with links := tset s.links 0 (f (s.link 0)) }

/-- Direction 0 up, with flits of kinds 0 and 1. -/
def plainLink : State := linked .up (dataFlit 1 0 none) (controlFlit 1 6) 0

theorem witness_links :
    (∀ st ∈ [LinkSt.down, .training, .up, .degraded, .draining, .retraining, .sparing],
      ((linked st (dataFlit 1 0 none) (controlFlit 1 6) 0).link 0).st = st) ∧
    (plainLink.link 0).expect = 0 ∧ (dataFlit 1 0 none).kind = 0 ∧ (dataFlit 1 0 none).seq = 0 ∧
    (dataFlit 1 0 none).received 0 = some (dataFlit 1 0 none) ∧ (dataFlit 1 0 none).received 1 = none ∧
    (dataFlit 1 0 none).next = none ∧ (dataFlit 1 5 none).received 0 = some (dataFlit 1 5 none) ∧ (dataFlit 1 5 none).seq = 5 ∧
    (controlFlit 4 0).received 0 = some (controlFlit 4 0) ∧ (controlFlit 4 0).kind = 4 ∧
    (controlFlit 3 0).received 0 = some (controlFlit 3 0) ∧ (controlFlit 3 0).kind = 3 ∧
    (plainLink.link 0).nackSent = false ∧ ((onLink (fun k => { k with nackSent := true }) plainLink).link 0).nackSent = true ∧
    (plainLink.link 0).back = [controlFlit 1 6] ∧ (controlFlit 1 6).received 0 = some (controlFlit 1 6) ∧
    (controlFlit 1 6).kind = 1 ∧ (controlFlit 1 6).ref + 1 = 7 ∧ (controlFlit 1 6).received 1 = none ∧
    (controlFlit 2 7).received 0 = some (controlFlit 2 7) ∧ (controlFlit 2 7).kind = 2 ∧ (controlFlit 2 7).ref = 7 ∧
    (plainLink.link 0).source = [] ∧ (plainLink.link 0).window = [{ flit := dataFlit 1 7 none, again := 0 }] ∧
    (dataFlit 1 7 none).seq = 7 ∧
    (let k := (onLink (fun k => { k with nextSeq := 7, window := [{ flit := dataFlit 1 5 none, again := 0 }] }) plainLink).link 0
     k.nextSeq = 7 ∧ ∀ z ∈ k.window, z.flit.seq ≠ 7) ∧
    (plainLink.link 0).waiting = some (plainLink.gtick, 7) ∧ (0 : Nat) < 32 ∧ (32 : Nat) ≤ 32 ∧
    ((onLink (fun k => { k with waiting := none }) plainLink).link 0).waiting = none ∧
    (plainLink.link 0).lastAck + 4096 ≤ plainLink.gtick ∧ (plainLink.link 12).st.carries = false ∧
    (linkEnds 0).1 = 0 ∧ (∀ j ∈ [0, 1], (plainLink.link j).drainAfter = false) ∧
    dataLanes 0 - 1 < dataLanes 0 ∧ dataLanes 0 ≤ 2 * (dataLanes 0 - 1) ∧ 2 * 0 < dataLanes 0 ∧ (plainLink.link 0).tries < 2 ∧
    2 ≤ ((onLink (fun k => { k with tries := 2 }) plainLink).link 0).tries ∧
    (plainLink.link 0).spares ≠ 0 ∧ ((base.link 0).spares = 0) ∧ dataLanes 0 ≤ dataLanes 0 + 1 ∧
    dataLanes 0 + 1 ≤ dataLanes 0 + spareLanes 0 ∧ dataLanes 0 + 1 - dataLanes 0 = 1 ∧
    (∀ b ∈ [false, true], (let k := (onLink (fun k => { k with laneErrs := [(3, 1)], swapping := b }) plainLink).link 0
      k.threshold < tget 0 k.laneErrs 3 ∧ k.swapping = b)) ∧
    (∀ j ∈ [0, 1], ((onLink (fun k => { k with window := [] }) plainLink).link j).window = []) := by
  decide +kernel

/-- Port ring 0 of a kind, of version 1, with two record places and one record, its descriptor at 0x100040000 and its
records from 0x100050000 on; window 3 of this package is the page at 0x100060000. -/
def ported (kind : Nat) (w : List Nat) (fl : Option Nat) : State :=
  let s : State := rooted 0x1FF base
  let put (m : Memory) (a v : Nat) : Memory := mstore m a v 8
  let m := put (put (put s.mem 0x100040000 0x100050000) 0x100040008 1) 0x100040018 (1 + 16 * kind + 256)
  let m := w.zipIdx.foldl (fun m x => put m (0x100050000 + 8 * x.2) x.1) m
  let r : PortRing := { desc := 0x100040000, ctx := 0, stopped := false, seen := 1, ridx := 0, inFlight := fl }
  { s with
    mem := m, rings := [(0, r)], windows := [(3, (0, 0x100060000, 65536))], peers := [(20, 9)],
    blocks := [(0, 8)], links := [(12, { Link.fresh with st := .up }), (13, { Link.fresh with st := .up }), (20, { Link.fresh with st := .up })] }

/-- The descriptor that this ring reads. -/
def ringDesc (kind : Nat) : QDesc := { pa := 0x100040000, words := [0x100050000, 1, 0, 1 + 16 * kind + 256, 0, 0, 0, 0] }

/-- The words of the record at a ring's read index. -/
def recWords (s : State) (kind : Nat) : Option (QDesc × List Nat) :=
  match s.portRec 0 kind with
  | .words d w => some (d, w)
  | _ => none

theorem witness_ports :
    (∀ kind ∈ [1, 2], (ported kind [] none).memOk = true ∧ (ringDesc kind).pa % 64 = 0 ∧ (ringDesc kind).word 4 = 0 ∧
      (ported kind [] none).ringDesc 0 = some (ringDesc kind) ∧ ringDescOk (ringDesc kind) = true ∧
      (ringDesc kind).held ≤ 2 ^ ((ringDesc kind).word 3 / 256 % 16) ∧ 0x100050038 / 128 ≠ (ringDesc kind).pa / 128 ∧
      (ported kind [] none).reach 0 ((ringDesc kind).portVa + 56) true = some (ported kind [] none, 0x100050038) ∧
      (ported kind [] none).markRing 0 = ported kind [] none) ∧
    (ringDesc 1).word 3 % 16 = 1 ∧ (ported 1 [] none).windows.length = 1 ∧
    (let w := [0x100070000, 8, 3, 65528, 255, 0, 0, 0]
     recWords (ported 1 w none) 1 = some (ringDesc 1, w) ∧ (ported 1 w none).power.package * 2 ^ 32 + 8 = 8 ∧
       (ported 1 w none).power.package < 64 ∧ 3 < 2 ^ 16 ∧ 65528 + 8 ≤ 65536 ∧
       (ported 1 w none).portLook 0 0x100070000 false = .hit 0x100070000 0x1000001FF 0x210040 0 ∧
       (ported 1 w none).markMask 0 0x1000001FF = ported 1 w none ∧ 0x100070000 % 8 = 0 ∧
       ((ported 1 w none).entry (0x100070000 / 128)).st = .i ∧
       (ported 1 w none).portLook 0 0x10006FFF8 true = .hit 0x10006FFF8 0x1000001FF 0x210040 0 ∧
       ((ported 1 w none).entry (0x10006FFF8 / 128)).st = .i ∧ 0x10006FFF8 % 8 = 0 ∧
       0x10006FFF8 / 128 ≠ 0x100050038 / 128 ∧ 0x10006FFF8 / 128 ≠ 0x100040000 / 128 ∧
       (let h := (ported 1 w none).homeWrite 0x10006FFF8 8 (mload (ported 1 w none).mem 0x100070000 8)
        h.reach 0 0x100050038 true = some (h, 0x100050038) ∧ h.markRing 0 = h)) ∧
    (recWords (ported 1 [0x100070000, 9, 3, 0, 255, 0, 0, 0] none) 1).map (fun x => x.2.getD 1 0 % 8) = some 1 ∧
    (let w := [0x100070000, 9 * 2 ^ 32 + 8, 3, 0, 255, 0, 0, 0]
     recWords (ported 1 w none) 1 = some (ringDesc 1, w) ∧ (9 : Nat) < 64 ∧ 9 ≠ (ported 1 w none).power.package ∧
       (ported 1 w none).podOpen 9 = true ∧ (ported 1 w none).reaches 10 = false) ∧
    (∀ op ∈ [1, 2, 3], recWords (ported 2 [op, 0, 1, 0, 0, 0, 0, 0] none) 2 = some (ringDesc 2, [op, 0, 1, 0, 0, 0, 0, 0]) ∧
      op < 512 ∧ op % 256 = op ∧ ((ported 2 [op, 0, 1, 0, 0, 0, 0, 0] none).ringOf 0).inFlight = none) ∧
    ((ported 2 [2, 0, 1, 0, 0, 0, 0, 0] (some 0)).ringOf 0).inFlight = some (ringDesc 2).ridx ∧
    recWords (ported 2 [2, 0, 1, 0, 0, 0, 0, 0] (some 0)) 2 = some (ringDesc 2, [2, 0, 1, 0, 0, 0, 0, 0]) ∧
    0x100050038 % 8 = 0 := by
  decide +kernel


theorem witness_ports_bytes : (ported 2 [2, 0, 0, 0, 0, 0, 0, 0] (some 0)).nvmeBytes [2, 0, 0, 0, 0, 0, 0, 0] = 0 ∧
    recWords (ported 2 [2, 0, 0, 0, 0, 0, 0, 0] (some 0)) 2 = some (ringDesc 2, [2, 0, 0, 0, 0, 0, 0, 0]) ∧
    (ported 2 [] none).nvmeBytes [2, 0, 1, 0x100070000, 0, 0, 0, 0] = 8 ∧ ((ported 1 [] none).ringOf 0).inFlight = none := by
  decide +kernel

theorem witness_ports_tokens (kind : Nat) (w : List Nat) (fl : Option Nat) : ∀ h, ((ported kind w fl).core h).port = [] :=
  noPort rfl

theorem witness_ports_other :
    (let s := ported 1 [0x100070000, 9 * 2 ^ 32 + 8, 3, 0, 255, 0, 0, 0] none
     s.reach 0 0x100050038 true = some (s, 0x100050038) ∧ s.markRing 0 = s ∧
       s.portLook 0 0x100070000 false = .hit 0x100070000 0x1000001FF 0x210040 0 ∧ s.markMask 0 0x1000001FF = s ∧
       (s.entry (0x100070000 / 128)).st = .i) ∧
    (let s := ported 1 [0x100070000, 9, 3, 0, 255, 0, 0, 0] none
     s.reach 0 0x100050038 true = some (s, 0x100050038) ∧ s.markRing 0 = s) ∧
    (∀ op ∈ [1, 2, 3],
     let s := ported 2 [op, 0, 1, 0, 0, 0, 0, 0] none
     s.markVa 0 (ringDesc 2).portVa false = s) ∧
    (let s := ported 2 [2, 0, 0, 0, 0, 0, 0, 0] (some 0)
     s.reach 0 0x100050038 true = some (s, 0x100050038) ∧ s.markRing 0 = s) ∧
    (let s := ported 2 [2, 0, 1, 0x100070000, 0, 0, 0, 0] (some 0)
     let t : State := { s with answers := s.answers ++ [{ what := 5, addr := 0, data := [BitVec.ofNat 64 (mload s.mem 0x100070000 8)] }] }
     (s.ringOf 0).inFlight = some (ringDesc 2).ridx ∧
       recWords s 2 = some (ringDesc 2, [2, 0, 1, 0x100070000, 0, 0, 0, 0]) ∧
       s.portLook 0 0x100070000 false = .hit 0x100070000 0x1000001FF 0x210040 0 ∧ s.markMask 0 0x1000001FF = s ∧
       (s.entry (0x100070000 / 128)).st = .i ∧ t.reach 0 0x100050038 true = some (t, 0x100050038) ∧ t.markRing 0 = t) := by
  decide +kernel

/-- Tracing is on for every context of die 0, into a ring of two records at 0x100000; snapshots are due, into a ring of
two at 0x200000. -/
def observed (trace : List TraceRec) (lost : Nat) : State :=
  let o : Observe := { Observe.reset with snapEn := true, trSel := [(0, 0xC000000000000000)], trRing := [(0, (0x100000, 1, 0))], snapRing := [(0, (0x200000, 1, 0))] }
  State.modCore { base with observe := o } 0 (fun k => { k with trace := trace, lost := lost })

/-- A trace record. -/
def traceRec : TraceRec := { tick := 5, kind := 1, ctx := 0, core := 0, slot := 0, index := 0, pc := 0x100000000, value := 7 }

theorem witness_observation : base.traced base.myCtx 0 = false ∧ (observed [] 0).traced 0 0 = true ∧
    ((observed (List.replicate 31 traceRec) 0).core 0).trace.length < 32 ∧
    32 ≤ ((observed (List.replicate 32 traceRec) 0).core 0).trace.length ∧
    (∀ n ∈ [0, 3], (let s := observed [traceRec] n
       s.memOk = true ∧ (s.core 0).trace = traceRec :: [] ∧ (s.core 0).lost = n ∧
       ringFull (tget (0, 0, 0) s.observe.trRing 0) (s.die 0).traceTail = false ∧ s.quietAll 0x100000 32 = true)) ∧
    (∀ n ∈ [1, 2], (let s := (observed [] 0).modDie 0 (fun d => { d with snapTail := n })
       s.snapDue = true ∧ s.startedDies = [0] ∧ (tget (0, 0, 0) s.observe.snapRing 4).2.1 = 0 ∧
       (tget (0, 0, 0) s.observe.snapRing 0).2.1 ≠ 0 ∧
       ringFull (tget (0, 0, 0) s.observe.snapRing 0) n = decide (n = 2))) ∧
    (∀ n ∈ [1, 2], (let s := (observed [] 0).modDie 0 (fun d => { d with snapTail := n })
       s.memOk = true ∧ s.observe.ioSnap = none ∧ (s.die 0).snap = none ∧
       s.quietAll (0x200000 + 8192 * (n % 2)) 8192 = true)) ∧
    (let s : State := { observed [] 0 with net := [{ src := 1, dst := 0, line := 0x202000 / 128, kind := .aliased }] }
     s.quietAll 0x202000 8192 = false) ∧
    (∀ n ∈ [0, 1], (let s : State := { base with observe := { base.observe with arm := true, snapEn := decide (n = 1) } }
      s.observe.arm = true ∧ s.observe.stopTk ≤ s.gtick ∧ s.power.stopped = false ∧ s.snapDue = decide (n = 1) ∧
        s.startedDies = [0] ∧ ∀ g ∈ s.groups, s.watchdogDue g.1 = false)) ∧
    base.gtick < ({ base with observe := { base.observe with stopTk := 1 } } : State).observe.stopTk ∧
    (1 : Word).getLsbD 0 = true ∧ (0 : Word).getLsbD 0 = false ∧ 10 ≤ (10 : Word).toNat % 32 ∧ (24 : Word).toNat % 32 ≤ 24 ∧
    base.observe.corrected = none ∧ 0 + 1000 ≤ ({ base with gtick := 1000 } : State).gtick := by
  decide +kernel

/-- A package in a start stage, with die 0 not started. -/
def starting (st : Stage) : State := { State.reset with power := { State.reset.power with stage := st } }

theorem witness_powerStart : (starting .off).power.stage = .off ∧ (starting .full).power.stage ≠ .off ∧
    (State.reset.power.stage = .safe ∧ State.reset.power.tripped = false) ∧
    ({ base with power := { base.power with stopped := true } } : State).power.stopped = true ∧
    (∀ st ∈ [Stage.lantern, .dies], ((starting st).die 3).started = false ∧ (starting st).power.stage = st ∧
      ((starting st).dpow 3).park ≠ .out) ∧
    (∀ part ∈ [31, 0xFF], part < 32 ∨ part = 0xFF) ∧
    63 ∈ (({ base with parts := [(31, { Partition.fresh with vfs := [63] })] } : State).part 31).vfs ∧ base.power.stage = .full ∧
    (base.setDpow 2 { base.dpow 2 with park := .drained }).dpow 2 = { base.dpow 2 with park := .drained } := by
  decide +kernel

/-- An image of format 1 with a security version and no body. -/
def image (version : Nat) : Nat := 1 + 2 ^ 64 * version

/-- Headers that hold and that do not, and the versions at which an image is accepted at reset and refused. -/
theorem witness_powerStart_image : image 7 ≠ 0 ∧ headerHolds (image 7) = true ∧ imageVersion (image 7) = 7 ∧
    headerHolds (1 + image 7) = false ∧ headerHolds (image 7 + 2 ^ 192 * 3969) = false ∧
    headerHolds (image 7 + 2 ^ 192 * 3968 + 2 ^ 32767) = true ∧ headerHolds (image 7 + 2 ^ 192 * 3967 + 2 ^ 32767) = false ∧
    State.reset.power.fusedMin ≤ imageVersion (image 7) ∧ base.power.version ≤ imageVersion (image 7) ∧
    (let s : State := { base with power := { base.power with fusedMin := 8, version := 8 } }
     imageVersion (image 7) < s.power.fusedMin ∧ imageVersion (image 7) < s.power.version) := by
  decide +kernel

/-- Whatever the signature checks hold of this image, it meets the premises of one clause on FIRMWARE_VERIFY. -/
theorem witness_powerStart_signed :
    let a := Config.ecdsaHolds (image 7) 32 0 0
    let b := Config.lmsHolds (image 7) 32 0 0
    (a = true ∧ b = true) ∨ a = false ∨ (a = true ∧ b = false) := by
  cases Config.ecdsaHolds (image 7) 32 0 0 <;> cases Config.lmsHolds (image 7) 32 0 0 <;> simp

theorem witness_powerCeiling : (3 : Nat) < 4 ∧ (250 : Word).toNat % 2048 = 250 ∧ (1400 : Word).toNat % 2048 ≤ 1400 ∧
    (249 : Word).toNat % 2048 < 250 ∧ 1400 < (1401 : Word).toNat % 2048 ∧
    (base.setDpow 0 { base.dpow 0 with moving := true }).dpow 0 = { base.dpow 0 with moving := true } ∧
    base.power.stage ≠ .off ∧ base.gtick % 1000 = 0 ∧ base.power.boundary ≠ some base.gtick ∧
    250 + base.power.history.foldl (· + ·) 0 ≤ 100 * base.power.enforced ∧ base.power.tripped = false ∧
    (let s := base.setDpow 0 { base.dpow 0 with throttle := 8, hotRun := 19 }
     8 ≤ (s.dpow 0).throttle ∧ (s.dpow 0).hotRun = 19) ∧
    (let s := base.setDpow 0 { base.dpow 0 with throttle := 0, coolRun := 999 }
     (s.dpow 0).throttle = 0 ∧ (s.dpow 0).coolRun = 999) ∧
    (base.die 0).started = true ∧ (base.dpow 0).park = .inService ∧
    (∀ b ∈ [false, true], (let s := base.setDpow 3 { base.dpow 3 with park := .parking, parkBit := b, drainBit := !b }
      ((s.dpow 3).parkBit = true ∨ (s.dpow 3).drainBit = true) ∧ s.dieHolds 3 = false ∧ s.canEmpty 3 = true)) ∧
    (∀ st ∈ [ParkSt.parking, .parked, .drained, .unparking], ((base.setDpow 3 { base.dpow 3 with park := st }).dpow 3).park = st ∧
      (base.setDpow 3 { base.dpow 3 with park := st }).dieHolds 3 = false ∧
      (base.setDpow 3 { base.dpow 3 with park := st }).canEmpty 3 = true) := by
  decide +kernel

theorem witness_memoryCare : base.memOk = true ∧ (3, 63, 5) ∉ base.sparedRows ∧ base.hold = [] ∧
    (∀ x ∈ ({ base with hold := [(0, 0)], gtick := 100000000 } : State).hold, x.2 + 100000000 ≤ 100000000) ∧
    (base.sparedVault.find? (fun x => decide (x.1 = 3))) = none ∧
    (∀ b ∈ [false, true], (let s : State := { base with sparedVault := [(3, (63, b))] }
       s.sparedVault.find? (fun x => decide (x.1 = 3)) = some (3, 63, b) ∧ s.memOk = true)) ∧
    (base.core 1023).retired = false ∧ (∀ p, p < 8 → base.groupOn (8 * 127 + p) = none) ∧
    ((base.modCore 1023 (fun k => { k with retired := true })).core 1023).retired = true ∧
    lanternReach 0x1000 8 = true ∧ inRegister 0x1000 8 = false ∧ base.quietAll 0x1000 8 = true ∧ (joined base).ioReaches 0x1000 = true ∧
    (joined base).quietAll 0x1000 8 = true ∧ ((joined base).entry (0x1000 / 128)).holders = [] ∧ (joined base).memOk = true ∧ 0x1000 / 128 = (0x1000 + 8 - 1) / 128 ∧
    paClass 0x1000 = .dram 0 ∧ (base.entry (0x1000 / 128)).st = .i ∧ (base.entry (0x1000 / 128)).holders = [] ∧
    0x1000 % 8 = 0 ∧ 0x1000 % 4 = 0 := by
  decide +kernel

/-! ### Words and the step -/

theorem witness_encodeDecode : (Instr.ksub 15 15 15 1).isWord = true ∧ (Instr.ksub 15 15 15 1).wf = true ∧
    2 ^ 32 - 0x80000000 < 2 ^ 32 ∧ decode 0x00300AAB = some (.bo 3 10) := by
  decide +kernel

/-- The state after reset with a thread and a word placed where the step fetches. -/
def placed (w : Nat) : State := State.reset.withFetchWord 32 w

theorem witness_stepKeeps : (placed 0x00150513).memOk = true ∧
    (match step (placed 0x00150513) with | .next t => t.memOk | _ => false) = true := by
  decide +kernel

theorem witness_stepRunsDecoded :
    (let s := placed 0x00150513
     let r := s.prepare s.turn
     (∀ y ∈ s.readySlots s.turn, s.eligible y.2 = true) ∧ s.stopDue = false ∧ s.snapDue = false ∧ s.boundaryDue = false ∧ s.dueNow.isNone = true ∧ s.power.stage ≠ .off ∧
       s.power.stopped = false ∧ s.agenda = [] ∧
       r.pick s.turn (r.issueCycle s.turn) = some 1 ∧ (r.thr 1).late = [] ∧
       (match r.fetch 1 with | .word w => decide (w = 0x00150513) | _ => false) = true ∧
       decode 0x00150513 = some (.addi 10 10 1) ∧ (r.thr 1).pc.toNat % 4 = 0 ∧ inPaged (r.thr 1).pc.toNat = true ∧
       ((r.tlbHit (r.thr 1).core (r.ctxOf 1) (r.thr 1).pc.toNat).map (fun e =>
         (pteX e.pte.toNat, decide (paClass (leafPa e.level e.pte.toNat (r.thr 1).pc.toNat) ≠ .device),
           ((r.core (r.thr 1).core).code (leafPa e.level e.pte.toNat (r.thr 1).pc.toNat / 128)).isSome))) = some (true, true, true)) ∧
    (let r := (placed 0).prepare (placed 0).turn
     (match r.fetch 1 with | .word w => decide (decode w = none) | _ => false) = true) ∧
    ({ base with agenda := [.event .snapshot] } : State).agenda = .event .snapshot :: [] ∧ Instr.snapshot.isWord = false := by
  refine ⟨by decide +kernel, by decide +kernel, by decide +kernel, by decide +kernel⟩

/-! ## The manual's own words -/

/-- The words that 03, 05 and 06 give as examples. -/
theorem test_manual_words : ∀ x ∈ ([
    (0x2100A8DB, .qacq 8 10 1), (0x30A6A55B, .amoAdd 5 10 6 1 2 0), (0x8A5BAB5B, .pstr 11 10 3 3 0),
    (0xFF82BB8B, .pst 11 2 0xFF8 3 1), (0x00600EAB, .bo 6 14), (0xFFE00FAB, .bo 0xFFE 15),
    (0x40CA017B, .vld 2 10 2 0 1), (0x8104605B, .barWait 6 0 4 0), (0x00600CAB, .bo 6 12), (0x2200005B, .qwait 0 0),
    (0x000000DB, .yield), (0x010050DB, .yieldN 5), (0x0200A0DB, .sleep 10), (0x030CBADB, .thrSpawn 10 11 12 1),
    (0x0400005B, .thrExit), (0x0500A0DB, .go 10), (0x100BA0DB, .msend 10 11 1), (0x11000ADB, .mrecv 10 1),
    (0x12000B5B, .mfrom 11 0), (0x6000A05B, .mark 10 0), (0x004A258B, .pld 5 10 4 2 1), (0x003B3A2B, .pldBr 10 11 3 3),
    (0xFFEDBC2B, .pstBr 12 13 0xFFE 3), (0x891ABA5B, .plda 10 11 3 2 0), (0x891ABADB, .plda 10 11 3 2 1),
    (0x8843005B, .fnc 1 3 0), (0x8882005B, .fnc 2 2 0), (0x8803005B, .fnc 0 3 0), (0x3806A55B, .amoSwap 5 10 6 0 0 0),
    (0x395CBA5B, .amoCas 10 11 12 0 5 0), (0x3AB6A05B, .red 10 6 11 0), (0x9007AB5B, .pshD 11 10 7 0),
    (0x9107A05B, .pshLine 10 7 0), (0x4000A05B, .lineWb 10 0), (0x4100A05B, .lineInv 10 0), (0x4200A05B, .lineWbinv 10 0),
    (0xB0E0055B, .lc 5 224 0)] : List (Nat × Instr)), decode x.1 = some x.2 := by
  decide +kernel

/-- The words that 07, 09, 12, 13 and 16 give as examples. -/
theorem test_manual_words_units : ∀ x ∈ ([
    (0x8043075B, .barArrive 7 1 3 0), (0x8185A0DB, .barWait 10 2 5 1), (0x829105DB, .barAw 5 2 17 1),
    (0x8343B05B, .barCfg 11 1 3 0), (0x80C9005B, .barArrive 0 3 9 0), (0x00C0217B, .vadd 2 0 1 6 0),
    (0x03C00CFB, .vfma 1 3 0 6 0), (0x0620447B, .vmax 0 1 2 1 0), (0x0BC000FB, .vrcpe 1 0 6 0), (0x09E0217B, .vdiv 2 0 1 7 0),
    (0x132044FB, .vshl 1 1 2 1 0), (0x1AC0A87B, .vcmpLt 2 5 6 0), (0x1CC0217B, .vsel 2 0 1 6), (0x20CD01FB, .vbc 3 13 6 0),
    (0x216180FB, .vbcC 1 12 3), (0x2260157B, .vmv 2 5 3 0), (0x23CA087B, .vext 2 10 6), (0x28C0467B, .vcvt 4 1 2 6 0),
    (0x29A0437B, .vcvt8 6 0 2 5 0), (0x30C000FB, .vredAdd 1 0 6 0), (0x3400227B, .vdot 4 0 1 0 0), (0x38008D7B, .vperm 2 3 4 0 0),
    (0x39C500FB, .vslide 1 0 5 6 0), (0x416B00FB, .vst 1 11 3 0 0), (0x424C05FB, .vldx 3 1 12 2 0 0),
    (0x0150CDFB, .vsub 3 3 6 2 1), (0x406A007B, .vld 0 10 3 0 0), (0x5000A0DB, .pqPush 10 1), (0x510000DB, .pqDone 0 1),
    (0x5200005B, .pqResume 0), (0xB804A05B, .tiLoad 10 4 0), (0xB904005B, .tiInv 4 0), (0xA009A05B, .gxKick 10 9 0),
    (0x530BA5DB, .cbitTest 5 10 11 1), (0x9842AB5B, .rngWb 10 11 1 2 0), (0x9987AB5B, .rngInv 10 11 2 7 0),
    (0x9A87AB5B, .rngWbinv 10 11 2 7 0), (0x2000A05B, .qinit 10 0), (0x220080DB, .qwait 8 1), (0x230B80DB, .qgive 8 11 1),
    (0x240980DB, .qswap 8 9 1), (0x250090DB, .qdrop 9 1), (0x2600805B, .qrel 8 0), (0x2700855B, .qstat 5 8 0)] :
    List (Nat × Instr)), decode x.1 = some x.2 := by
  decide +kernel

/-- The words that 03 lists as ILLEGAL. -/
theorem test_manual_words_illegal :
    ([0x00000000, 0x0000100F, 0x000008B3, 0x00007A8B, 0x2101A8DB, 0x8400005B, 0x814307DB].all
      (fun w => (decode w).isNone)) = true := by
  decide +kernel

/-! ## Numbers: the manual's worked values (08) -/

/-- R170: FP32 300.5 to INT8 saturates with NV alone; 2.5 rounds to 2 with NX; 300.5 and 1,000.0 to E4M3. -/
theorem test_convert : convert (.flt fp32) (.int true 8) rne 0x43964000 = (127, flNV) ∧
    convert (.flt fp32) (.int true 8) rne 0x40200000 = (2, flNX) ∧ (convert (.flt fp32) (.flt e4m3) rne 0x43964000).1 = 0x79 ∧
    (convert (.flt fp32) (.flt e4m3) rne 0x447A0000).1 = 0x7E ∧
    (convert (.flt fp32) (.flt e4m3) { rne with ovf8 := true } 0x447A0000).1 = 0x7F := by
  decide +kernel

/-- R171: the corner of the pattern, one threshold under a phase, and the table of FP32 1.0 + 2^−8 to BF16. -/
theorem test_dither : ditherThr 0 0 0 = 0 ∧ ditherThr 0 1 0 = 64 ∧ ditherThr 1 0 0 = 192 ∧ ditherThr 1 1 0 = 128 ∧
    ditherThr 0 0 0x35 = 180 ∧
    ([(0, 0, 0, 0x3F80), (0, 1, 0, 0x3F80), (1, 0, 0, 0x3F81), (1, 1, 0, 0x3F81), (0, 0, 0x35, 0x3F81)] :
      List (Nat × Nat × Nat × Nat)).all (fun x => (convert (.flt fp32) (.flt bf16)
        { mode := 4, ovf8 := false, thr := ditherThr x.1 x.2.1 x.2.2.1 } 0x3F808000).1 == x.2.2.2) = true := by
  decide +kernel

/-- 08: the FP8 pass that ends at 2.125. -/
theorem test_pass_fp8 : passFp8 [exactMul (fdecode e4m3 0x40) (fdecode e4m3 0x3C) |>.v, exactMul (fdecode e4m3 0x30) (fdecode e4m3 0xC4) |>.v]
    (round32 (exactMul (fdecode fp32 0x3E800000) (fdecode fp32 0x40400000))) (fdecode fp32 0x3F800000) = 0x40080000 := by
  decide +kernel

/-- 08: the BF16 cancellation, in which the third product loses its last bit; 0x33C0 is 1.5 × 2^−24 and 0x3400 is
2^−23. -/
theorem test_pass_bf16 : passWide fp32 47 [.fin false 1 0, .fin true 1 0,
    (exactMul (fdecode bf16 0x33C0) (fdecode bf16 0x3400)).v] (.fin false 0 0) = 0x28000000 := by
  decide +kernel

/-- R181: the two worked estimates. -/
theorem test_estimates : frcpe fp32 0x40400000 = (0x3EAA8000, 0) ∧ frsqe fp32 0x40000000 = (0x3F34E000, 0) := by
  decide +kernel

/-- R205: the two lanes of the `vdot.i8` example. -/
theorem test_vdot_i8 : dotInt 8 32 0x7FFF63C0 [(127, 127), (127, 127), (127, 127), (127, 127)] = 0x7FFFFFFF ∧
    dotInt 8 32 10 [(0x80, 1), (0x80, 2), (0, 0), (0, 0)] = 0xFFFFFE8A := by
  decide +kernel

/-! ## Single steps: vectors -/

/-- The thread with values in vector registers and a rounding mode. -/
def lanes (a b c : BitVec 512) (s : State) : State := me (fun t => { t with vregs := [(0, a), (1, b), (2, c)] }) s

/-- Lane 0 of vd, of 32 bits, and the flags. -/
def lane0 (i : Instr) (s : State) : Option (Nat × Nat) := after i s (fun t => (laneGet (t.me.vreg 2) 32 0, t.me.vrm.toNat % 32))

/-- 09: `vadd.i8` of 0x7F and 1; `vadd.f32` of 1.0 and 2^−24 gives 1.0 and NX; 2.0 × 1.5 + 0.25 is 3.25, exact. -/
theorem test_vadd_vfma : lane0 (.vadd 2 0 1 0 0) (lanes 0x7F 0x01 0 base) = some (0x80, 0) ∧
    lane0 (.vadd 2 0 1 6 0) (lanes 0x3F800000 0x33800000 0 base) = some (0x3F800000, 1) ∧
    lane0 (.vfma 2 0 1 6 0) (lanes 0x40000000 0x3FC00000 0x3E800000 base) = some (0x40500000, 0) := by
  decide +kernel

/-- R192: 1.0 / 0 is infinity with DZ; 0 / 0 is the canonical NaN with NV; both in lane 0, the one active lane. -/
theorem test_vdiv :
    lane0 (.vdiv 2 0 1 6 1) (me (fun t => { t with vmask := 1 }) (lanes 0x3F800000 0 0 base)) = some (0x7F800000, 8) ∧
    lane0 (.vdiv 2 0 1 6 1) (me (fun t => { t with vmask := 1 }) (lanes 0 0 0 base)) = some (0x7FC00000, 16) := by
  decide +kernel

/-- R203: 300.5 to the byte 0x79 of E4M3, inexact; 09: 16,777,217 becomes 16,777,216 in FP32, inexact. -/
theorem test_vcvt : lane0 (.vcvt8 2 0 2 6 0) (lanes 0x43964000 0 0 base) = some (0x79, 1) ∧
    lane0 (.vcvt 2 0 2 6 0) (lanes 0x01000001 0 0 base) = some (0x4B800000, 1) := by
  decide +kernel

/-- R204: four lanes of 1 and twelve of 0 add up to 4 in lane 0; a compare writes the mask; R207: a slide by one lane. -/
theorem test_vector_moves : lane0 (.vredAdd 2 0 2 0) (lanes 0x00000001000000010000000100000001 0 0 base) = some (4, 0) ∧
    after (.vcmpLt 0 1 2 0) (lanes 1 (2 + 2 ^ 32) 0 base) (fun t => t.me.vmask.toNat % 65536) = some 3 ∧
    after (.vslide 2 0 11 2 0) (set 11 1 (lanes 7 0 0 base)) (fun t => t.me.vreg 2) = some (7 <<< 32) ∧
    after (.vext 0 11 0) (set 11 0 (lanes 0x80 0 0 base)) (fun t => (t.me.reg 11).toNat) = some 0xFFFFFFFFFFFFFF80 := by
  decide +kernel

/-! ## Single steps: the standard core, CSRs, probes, barriers -/

/-- A register after one instruction, as a number. -/
def regAfter (i : Instr) (r : Nat) (s : State) : Option Nat := after i s (fun t => (t.me.reg (BitVec.ofNat 4 r)).toNat)

/-- R53, R54: the numbers of `numbers` are -1 in x11, 1 in x12, the most negative in x13. The corners of division, the
unsigned view, the W forms and the high products. -/
theorem test_divide : regAfter (.div 10 12 0) 10 numbers = some 0xFFFFFFFFFFFFFFFF ∧ regAfter (.rem 10 12 0) 10 numbers = some 1 ∧
    regAfter (.div 10 13 11) 10 numbers = some 0x8000000000000000 ∧ regAfter (.rem 10 13 11) 10 numbers = some 0 ∧
    regAfter (.divu 10 11 12) 10 numbers = some 0xFFFFFFFFFFFFFFFF ∧ regAfter (.remuw 10 11 0) 10 numbers = some 0xFFFFFFFFFFFFFFFF ∧
    regAfter (.divuw 10 12 0) 10 numbers = some 0xFFFFFFFFFFFFFFFF := by
  decide +kernel

theorem test_multiply : regAfter (.mulhsu 10 11 12) 10 numbers = some 0xFFFFFFFFFFFFFFFF ∧
    regAfter (.mulhu 10 11 11) 10 numbers = some 0xFFFFFFFFFFFFFFFE ∧ regAfter (.mulh 10 11 11) 10 numbers = some 0 ∧
    regAfter (.mulw 10 11 11) 10 numbers = some 1 := by
  decide +kernel

/-- The W forms sign-extend from bit 31; a shift by an immediate is arithmetic for `srai`; `sltu` compares unsigned. -/
theorem test_words : regAfter (.addiw 10 11 0) 10 (set 11 0x80000000 base) = some 0xFFFFFFFF80000000 ∧
    regAfter (.sraiw 10 11 4) 10 (set 11 0x80000000 base) = some 0xFFFFFFFFF8000000 ∧
    regAfter (.srliw 10 11 4) 10 (set 11 0x80000000 base) = some 0x08000000 ∧
    regAfter (.sltu 10 12 11) 10 numbers = some 1 ∧ regAfter (.slt 10 12 11) 10 numbers = some 0 ∧
    regAfter (.czeroEqz 10 11 12) 10 numbers = some 0xFFFFFFFFFFFFFFFF ∧ regAfter (.czeroNez 10 11 12) 10 numbers = some 0 := by
  decide +kernel

/-- R53: `lui` and `auipc` sign-extend their 32 bits; x0 takes no value. -/
theorem test_upper : regAfter (.lui 10 0x80000) 10 base = some 0xFFFFFFFF80000000 ∧
    regAfter (.auipc 10 0x00001) 10 base = some (base.me.pc.toNat + 0x1000) ∧ regAfter (.addi 0 0 5) 0 base = some 0 := by
  decide +kernel

/-- R35: `bo` takes the branch when `oc` holds the code, or holds non-zero under the code 0xE; -2 units are 8 bytes back. -/
theorem test_bo : after (.bo 3 0) base (fun t => t.me.pc - base.me.pc) = some 12 ∧
    after (.bo 0xFFE 0) (me (fun t => { t with oc := 1 }) base) (fun t => t.me.pc - base.me.pc) = some 4 ∧
    after (.bo 0xFFE 0xF) (me (fun t => { t with oc := 1 }) base) (fun t => base.me.pc - t.me.pc) = some 8 := by
  decide +kernel

/-- R60: an unaligned load of the local memory reads its bytes in their order; `lb` sign-extends; a store of a half
writes two bytes. -/
theorem test_loads : (let s : State := set 12 0x101 (set 11 0x100 { base with lm := mstore base.lm 0x100 0x8877665544332211 8 });
      after (.lh 10 12 0) s (fun t => (t.me.bytes.isSome, t.me.pc, regAfter (.lh 10 12 0) 10 t)) = some (true, s.me.pc, some 0x3322) ∧
      regAfter (.lb 10 11 7) 10 s = some 0xFFFFFFFFFFFFFF88 ∧
      regAfter (.lbu 10 11 7) 10 s = some 0x88 ∧
      after (.sh 11 12 2) s (fun t => mload t.lm 0x100 8) = some 0x8877665501012211) := by
  decide +kernel

/-- R66: `ecall` traps as class ECALL with the pc of the instruction and goes no further. -/
theorem test_ecall : after .ecall base (fun t => (t.me.st, t.me.pc, t.me.trap.map (fun x => x.cls))) =
    some (.trapped, base.me.pc, some .ecall) := by
  decide +kernel

/-- R70, R71, R73: reserved bits read 0; a mode of 5 to 7 is not taken; a push limit above 512 is taken as 512. -/
theorem test_csrs : after (.csrrw 0 11 0x802) (set 11 0x1E0 (me (fun t => { t with vrm := 0x20 }) base)) (fun t => t.me.vrm) =
      some 0x120 ∧
    after (.csrrwi 10 0x802 0x1F) base (fun t => t.me.vrm) = some 0x1F ∧
    after (.csrrw 10 11 0x800) (set 11 0x3A base) (fun t => t.me.oc) = some 0xA := by
  decide +kernel

/-- R97: a yield with no wake armed ends RDY at once; with its move pending it answers MOVED. -/
theorem test_yield : after .yield (me (fun t => { t with oc := 5 }) base) (fun t => (t.me.oc, t.me.st)) =
      some (0, base.me.st) ∧
    after .yield (me (fun t => { t with movedPending := true }) base) (fun t => (t.me.oc, t.me.movedPending)) =
      some (9, false) := by
  decide +kernel

/-- R158: an arrival answers the phase in which it counts, and a fourth arrival of four advances the phase. -/
theorem test_bar_arrive : after (.barArrive 10 0 7 0) (barred (counting 0) 0) (fun t =>
      ((t.me.reg 10).toNat % 65536, (t.bar 0 0 7).arrived)) = some (65535, 1) ∧
    after (.barArrive 10 0 7 0) (barred (counting 3) 0) (fun t =>
      ((t.bar 0 0 7).phase % 65536, (t.bar 0 0 7).arrived)) = some (0, 0) := by
  decide +kernel

/-- R140: an amo on the local memory returns the old value and stores the sum; a compare and swap that fails stores
nothing. -/
theorem test_amo : (let s : State := set 11 0x100 (set 12 1 (set 13 7 { base with lm := mstore base.lm 0x100 41 8 }));
      after (.amoAdd 10 11 12 0 0 0) s (fun t => ((t.me.reg 10).toNat, mload t.lm 0x100 8)) = some (41, 42) ∧
      after (.amoCas 10 11 12 0 0 0) s (fun t => ((t.me.reg 10).toNat, mload t.lm 0x100 8)) = some (41, 41)) := by
  decide +kernel

/-- R141: `red` kinds on patterns: a wrapping add of 4 bytes, a signed minimum, an unsigned maximum, an FP32 sum. -/
theorem test_red : redOp 0 0xFFFFFFFF 2 = 1 ∧ redOp 6 (2 ^ 64 - 1) 1 = 2 ^ 64 - 1 ∧ redOp 10 (2 ^ 64 - 1) 1 = 2 ^ 64 - 1 ∧
    redOp 11 0x3F800000 0x3F800000 = 0x40000000 := by
  decide +kernel

/-- R105, R106: a message of kind 1 from index 1 is taken over the peer's; an empty mailbox answers EMPTY and arms a wake. -/
theorem test_mrecv : after (.mrecv 10 1) mailed (fun t => ((t.me.reg 10).toNat, t.me.oc.toNat, t.me.last)) =
      some (9, 0, some (1, 1)) ∧
    after (.mrecv 10 1) base (fun t => (t.me.oc.toNat, t.me.wake.isSome)) = some (3, true) ∧
    regAfter (.mfrom 10 0) 10 (me (fun t => { t with last := some (1, 1) }) base) = some 0x101 := by
  decide +kernel

/-- R73: a push quota above 512 is stored as 512. -/
theorem test_pushq : after (.csrrw 10 11 0x804) (set 11 600 base) (fun t => (t.core 0).pushq) = some 512 ∧
    after (.csrrw 10 11 0x804) (set 11 (2 ^ 10 + 3) base) (fun t => ((t.me.reg 10).toNat, (t.core 0).pushq)) = some (64, 3) := by
  decide +kernel

/-- R368: a header with version 1, its total bytes and two sections, of 5 and of no bytes. -/
theorem test_image_header : imageHeader [5, 0] = [1, 61, 2, 1, 5, 2, 0] := by decide

end Sys2Proof.Tests
end

namespace Sys2Proof.Machine

open Sys2Proof

/-! # Canonical memories (log 3)

`State.Canon` is `State.memOk` as a proposition with one field per memory. Each operation of the model has one lemma,
`State.Canon.<operation>` (`<function>_canon` where the function is not one of `State`): from canonical memories it
answers canonical memories. The proof of a composite operation chains those of its parts, in the order in which the
operation runs them; only the operations that store, cut, paste or filter bytes use a fact about memories. The sections
follow the files of the model. -/

/-- The byte memories of the state are in canonical form. -/
structure State.Canon (s : State) : Prop where
  mem : Memory.wf s.mem = true
  lm : Memory.wf s.lm = true
  planes : Memory.wf s.planes = true

theorem State.canon_iff {s : State} : s.Canon ↔ s.memOk = true := by
  simp only [State.memOk, Bool.and_eq_true]
  exact ⟨fun h => ⟨⟨h.mem, h.lm⟩, h.planes⟩, fun ⟨⟨hm, hl⟩, hp⟩ => ⟨hm, hl, hp⟩⟩

/-! ## What an answer says of the state it holds -/

/-- A property holds of an answer. (As a structure, so that a goal about an operation is not unfolded into its code.) -/
structure Holds {ρ : Type} (P : ρ → Prop) (r : ρ) : Prop where
  holds : P r

/-- The next state of an outcome, where it has one. -/
def NextCanon : Host.Outcome State Fault Refusal → Prop
  | .next s => s.Canon
  | _ => True

/-- A property of what an option holds. -/
def OptOf {α : Type} (P : α → Prop) : Option α → Prop
  | some x => P x
  | none => True

abbrev OptCanon : Option State → Prop := OptOf State.Canon
abbrev OptFstCanon {α : Type} : Option (State × α) → Prop := OptOf fun x => x.1.Canon

def Res.Canon : Res → Prop
  | .ok s _ | .stop s _ _ | .denied s | .trap s _ _ _ => s.Canon

def Tr.Canon : Tr → Prop
  | .held s _ | .absent s => s.Canon
  | .wait r => Holds Res.Canon r

def RaceRes.Canon : RaceRes → Prop
  | .ok s | .conflict s | .absent s _ => s.Canon

def Acc.Canon : Acc → Prop
  | .ok s | .absent s _ | .denied s | .poison s _ => s.Canon
  | .busy => True

def Arrival.Canon : Arrival → Prop
  | .counted s _ | .denied s | .wait s _ _ | .trap s _ _ _ => s.Canon

def Entry.Canon : Entry → Prop
  | .words s _ | .poison s _ => s.Canon
  | _ => True

def EndWrite.Canon : EndWrite → Prop
  | .write s | .leave s => s.Canon
  | _ => True

def Started.Canon : Started → Prop
  | .ok s _ _ _ | .status s _ | .absent s _ => s.Canon
  | .busy => True

def UnitRes.Canon : UnitRes → Prop
  | .done s | .fault s _ | .error s | .poison s _ => s.Canon
  | .busy => True

def Passed.Canon : Passed → Prop
  | .ok s | .wait s | .stop s => s.Canon
  | .busy => True

def HeadLook.Canon : HeadLook → Prop
  | .record s _ | .wait s | .stop s => s.Canon
  | .busy => True

def Examined.Canon : Examined → Prop
  | .skip s _ | .over s | .later s => s.Canon

def Act.Canon : Act → Prop
  | .run _ s | .quiet s => s.Canon
  | .stop _ => True

section
variable {s t : State} {α : Type}

/-- An answer seen to be a certain one: what holds of the answer holds of the state in it. -/
theorem State.Canon.of {p : State × α} {a : α} (h : p.1.Canon) (e : p = (t, a)) : t.Canon := by
  rw [e] at h
  exact h

theorem Holds.of {ρ : Type} {P : ρ → Prop} {r q : ρ} (h : Holds P r) (e : r = q) : P q := e ▸ h.holds

/-! ## Updates and control -/

/-- An update that leaves the three memories as they are. -/
theorem State.Canon.same (h : s.Canon) (hm : t.mem = s.mem := by rfl) (hl : t.lm = s.lm := by rfl)
    (hp : t.planes = s.planes := by rfl) : t.Canon :=
  ⟨hm ▸ h.mem, hl ▸ h.lm, hp ▸ h.planes⟩

theorem State.Canon.of_frame {T : List Field} (h : s.Canon) (f : Frame T s t) (hm : Field.fMem ∉ T := by decide)
    (hl : Field.fLm ∉ T := by decide) (hp : Field.fPlanes ∉ T := by decide) : t.Canon :=
  h.same (f.mem hm) (f.lm hl) (f.planes hp)

theorem State.Canon.of_memIn {T : List Field} {P : Nat → Prop} (h : s.Canon) (f : Frame T s t) (m : MemIn P s t)
    (hl : Field.fLm ∉ T := by decide) (hp : Field.fPlanes ∉ T := by decide) : t.Canon :=
  ⟨(m.keeps h.mem).1, f.lm hl ▸ h.lm, f.planes hp ▸ h.planes⟩

theorem State.Canon.withMem (h : s.Canon) {m : Memory} (w : Memory.wf m = true) : State.Canon { s with mem := m } :=
  ⟨w, h.lm, h.planes⟩

theorem State.Canon.withLm (h : s.Canon) {m : Memory} (w : Memory.wf m = true) : State.Canon { s with lm := m } :=
  ⟨h.mem, w, h.planes⟩

theorem State.Canon.withPlanes (h : s.Canon) {m : Memory} (w : Memory.wf m = true) :
    State.Canon { s with planes := m } :=
  ⟨h.mem, h.lm, w⟩

theorem State.Canon.storeMem (h : s.Canon) {a v n : Nat} : State.Canon { s with mem := mstore s.mem a v n } :=
  h.withMem (Memory.wf_mstore _ _ _ h.mem)

theorem State.Canon.storeMaskMem (h : s.Canon) {a v mask n : Nat} :
    State.Canon { s with mem := mstoreMask s.mem a v mask n } :=
  h.withMem (Memory.wf_mstoreMask _ _ _ _ h.mem)

theorem State.Canon.storeLm (h : s.Canon) {a v n : Nat} : State.Canon { s with lm := mstore s.lm a v n } :=
  h.withLm (Memory.wf_mstore _ _ _ h.lm)

theorem State.Canon.storeMaskLm (h : s.Canon) {a v mask n : Nat} :
    State.Canon { s with lm := mstoreMask s.lm a v mask n } :=
  h.withLm (Memory.wf_mstoreMask _ _ _ _ h.lm)

/-- The canonical form is kept by a list of updates that each keep it. -/
theorem Memory.wf_foldl {f : Memory → α → Memory} {l : List α} {m : Memory} (w : Memory.wf m = true)
    (k : ∀ m x, Memory.wf m = true → Memory.wf (f m x) = true) : Memory.wf (l.foldl f m) = true := by
  induction l generalizing m with
  | nil => exact w
  | cons x l ih => exact ih (k m x w)

theorem State.Canon.ite {c : Prop} [Decidable c] (h : s.Canon) (k : t.Canon) : State.Canon (if c then s else t) := by
  split
  · exact h
  · exact k

/-- A step that is taken or not. -/
theorem State.Canon.iteThen {c : Prop} [Decidable c] (h : s.Canon) (k : s.Canon → t.Canon) :
    (if c then t else s).Canon :=
  (k h).ite h

theorem State.Canon.iteElse {c : Prop} [Decidable c] (h : s.Canon) (k : s.Canon → t.Canon) :
    (if c then s else t).Canon :=
  h.ite (k h)

theorem State.Canon.foldl {f : State → α → State} {l : List α} (h : s.Canon) (k : ∀ s x, s.Canon → (f s x).Canon) :
    (l.foldl f s).Canon := by
  induction l generalizing s with
  | nil => exact h
  | cons x l ih => exact ih (k s x h)

theorem State.Canon.foldlFst {β : Type} {f : State × β → α → State × β} {l : List α} {r : State × β} (h : r.1.Canon)
    (k : ∀ r x, r.1.Canon → (f r x).1.Canon) : (l.foldl f r).1.Canon := by
  induction l generalizing r with
  | nil => exact h
  | cons x l ih => exact ih (k r x h)

theorem State.Canon.iteFst {c : Prop} [Decidable c] {p q : State × α} (h : p.1.Canon) (k : q.1.Canon) :
    (if c then p else q).1.Canon := by
  split
  · exact h
  · exact k

theorem State.Canon.fst (h : s.Canon) {a : α} : (s, a).1.Canon := h

theorem State.Canon.someFst (h : s.Canon) {a : α} : Holds OptFstCanon (some (s, a)) := ⟨h⟩

section
variable {β ρ : Type} {P : α → Prop} {Q : β → Prop}

theorem Holds.foldl {R : ρ → Prop} {f : ρ → α → ρ} {r : ρ} {l : List α} (h : Holds R r)
    (k : ∀ r x, Holds R r → Holds R (f r x)) : Holds R (l.foldl f r) := by
  induction l generalizing r with
  | nil => exact h
  | cons x l ih => exact ih (k r x h)

theorem Holds.map {o : Option α} {g : α → β} (h : Holds (OptOf P) o) (k : ∀ x, P x → Q (g x)) :
    Holds (OptOf Q) (o.map g) := by
  cases o with
  | none => exact ⟨trivial⟩
  | some x => exact ⟨k x h.holds⟩

theorem Holds.getD {o : Option α} {a : α} (k : Holds (OptOf P) o) (h : P a) : P (o.getD a) := by
  cases o with
  | none => exact h
  | some x => exact k.holds

theorem Holds.holds_getD {o : Option α} {a : α} (k : Holds (OptOf P) o) (h : Holds P a) : Holds P (o.getD a) :=
  ⟨k.getD h.holds⟩

theorem Holds.bind {o : Option α} {g : α → Option β} (h : Holds (OptOf P) o) (k : ∀ x, P x → Holds (OptOf Q) (g x)) :
    Holds (OptOf Q) (o.bind g) := by
  cases o with
  | none => exact ⟨trivial⟩
  | some x => exact k x h.holds

/-- Nothing need be known of what the option holds. -/
theorem Holds.any {o : Option α} : Holds (OptOf fun _ => True) o := by
  cases o <;> exact ⟨trivial⟩

end

end

section

set_option Elab.async false

variable {s : State}

/-! ## Machine/Ops -/

theorem State.Canon.setThr (h : s.Canon) {u t} : (s.setThr u t).Canon := h.same

theorem State.Canon.setCore (h : s.Canon) {c k} : (s.setCore c k).Canon := h.same

theorem State.Canon.setForme (h : s.Canon) {f k} : (s.setForme f k).Canon := h.same

theorem State.Canon.setDie (h : s.Canon) {d k} : (s.setDie d k).Canon := h.same

theorem State.Canon.setCtx (h : s.Canon) {x k} : (s.setCtx x k).Canon := h.same

theorem State.Canon.setGrp (h : s.Canon) {g k} : (s.setGrp g k).Canon := h.same

theorem State.Canon.setKer (h : s.Canon) {k v} : (s.setKer k v).Canon := h.same

theorem State.Canon.setDpow (h : s.Canon) {d k} : (s.setDpow d k).Canon := h.same

theorem State.Canon.modThr (h : s.Canon) {u f} : (s.modThr u f).Canon := h.setThr

theorem State.Canon.modCore (h : s.Canon) {c f} : (s.modCore c f).Canon := h.setCore

theorem State.Canon.modForme (h : s.Canon) {c f} : (s.modForme c f).Canon := h.setForme

theorem State.Canon.modDie (h : s.Canon) {c f} : (s.modDie c f).Canon := h.setDie

theorem State.Canon.modCtx (h : s.Canon) {c f} : (s.modCtx c f).Canon := h.setCtx

theorem State.Canon.modGrp (h : s.Canon) {c f} : (s.modGrp c f).Canon := h.setGrp

theorem State.Canon.modKer (h : s.Canon) {c f} : (s.modKer c f).Canon := h.setKer

theorem State.Canon.modDpow (h : s.Canon) {c f} : (s.modDpow c f).Canon := h.setDpow

theorem State.Canon.modMe (h : s.Canon) {f} : (s.modMe f).Canon := h.modThr

theorem State.Canon.setEntry (h : s.Canon) {line e} : (s.setEntry line e).Canon :=
  h.of_frame (s.setEntry_frame _ _)

theorem State.Canon.count (h : s.Canon) {c ctx code n} : (s.count c ctx code n).Canon :=
  h.of_frame (s.count_frame _ _ _ _)

theorem State.Canon.countDie (h : s.Canon) {d code unit n} : (s.countDie d code unit n).Canon :=
  h.of_frame (s.countDie_frame _ _ _ _)

theorem State.Canon.countMe (h : s.Canon) {code} : (s.countMe code).Canon := h.count

theorem State.Canon.send (h : s.Canon) {m} : (s.send m).Canon := h.same

theorem State.Canon.fireIf (h : s.Canon) {p} : (s.fireIf p).Canon := h.same

theorem State.Canon.wakeFetches (h : s.Canon) {ctx page} : (s.wakeFetches ctx page).Canon := h.same

theorem State.Canon.fire (h : s.Canon) {p} : (s.fire p).Canon := h.fireIf

theorem State.Canon.fireOf (h : s.Canon) {u c} : (s.fireOf u c).Canon := h.fireIf

theorem State.Canon.setHomeLine (h : s.Canon) {line d} : (s.setHomeLine line d).Canon := h.storeMem

theorem State.Canon.takeCopy (h : s.Canon) {line c keep} : (s.takeCopy line c keep).Canon :=
  h.of_memIn (s.takeCopy_frame _ _ _) (s.takeCopy_mem (P := fun _ => True) _ _ _ fun _ _ => trivial)

theorem State.Canon.recallShare (h : s.Canon) {line} : (s.recallShare line).Canon := by
  unfold State.recallShare
  dsimp only
  split
  · exact (h.foldl fun _ _ h => h.takeCopy).setEntry
  · exact (h.foldl fun _ _ h => h.takeCopy).setEntry
  · exact h

theorem State.Canon.recallAll (h : s.Canon) {line} : (s.recallAll line).Canon :=
  (h.foldl fun _ _ h => h.takeCopy).setEntry

theorem State.Canon.homeRead (h : s.Canon) {pa n} : (s.homeRead pa n).1.Canon := h.foldl fun _ _ h => h.recallShare

theorem State.Canon.wrote (h : s.Canon) {line} : (s.wrote line).Canon :=
  h.of_frame (s.wrote_frame _)

theorem State.Canon.homeWrite (h : s.Canon) {pa n v} : (s.homeWrite pa n v).Canon :=
  (h.foldl fun _ _ h => h.recallAll).storeMem.foldl fun _ _ h => h.wrote

theorem State.Canon.plantWord (h : s.Canon) {pa n v} : (s.plantWord pa n v).Canon := h.homeWrite.ite h.storeMem

theorem State.Canon.markEntry (h : s.Canon) {entry p dirty} : (s.markEntry entry p dirty).Canon := h.ite h.storeMem

theorem State.Canon.markMask (h : s.Canon) {ctx p} : (s.markMask ctx p).Canon := by
  unfold State.markMask
  split
  · split
    · exact h.markEntry
    · exact h
  · exact h

theorem State.Canon.reach (h : s.Canon) {ctx va write} : Holds OptFstCanon (s.reach ctx va write) := by
  unfold State.reach
  split
  · exact h.markMask.markEntry.someFst
  · exact ⟨trivial⟩

theorem State.Canon.markVa (h : s.Canon) {ctx va write} : (s.markVa ctx va write).Canon := by
  unfold State.markVa
  split
  · next e => exact h.reach.of e
  · exact h

theorem State.Canon.hotMiss (h : s.Canon) {home line die quad} : (s.hotMiss home line die quad).Canon :=
  h.of_frame (s.hotMiss_frame _ _ _ _)

theorem State.Canon.spend (h : s.Canon) {home ctx} : (s.spend home ctx).Canon := h.ite h.same

theorem State.Canon.homeRequest (h : s.Canon) {home line ctx unit} : (s.homeRequest home line ctx unit).Canon := by
  unfold State.homeRequest
  dsimp only
  split
  · exact h.spend.hotMiss
  · exact h.spend

theorem State.Canon.serveBudgetOnce (h : s.Canon) {c} : (s.serveBudgetOnce c).Canon :=
  h.of_frame (s.serveBudgetOnce_frame _)

theorem State.Canon.serveBudget (h : s.Canon) {c} : (s.serveBudget c).Canon :=
  h.of_frame (s.serveBudget_frame _)

theorem State.Canon.refetch (h : s.Canon) {c p} : (s.refetch c p).Canon :=
  h.of_frame (s.refetch_frame _ _)

theorem State.Canon.giveUpLine (h : s.Canon) {c x} : (s.giveUpLine c x).Canon :=
  h.of_frame (s.giveUpLine_frame _ _)

theorem State.Canon.install (h : s.Canon) {c x} : (s.install c x).Canon :=
  h.of_frame (s.install_frame _ _)

theorem State.Canon.claimReady (h : s.Canon) {c uid pc ea} : (s.claimReady c uid pc ea).Canon :=
  h.of_frame (s.claimReady_frame _ _ _ _)

theorem State.Canon.wakeClaims (h : s.Canon) {c line} : (s.wakeClaims c line).Canon := h.foldl fun _ _ h => h.claimReady

theorem State.Canon.dropAlias (h : s.Canon) {c line raw} : (s.dropAlias c line raw).Canon :=
  h.of_frame (s.dropAlias_frame _ _ _)

theorem State.Canon.cleanLine (h : s.Canon) {c line} : (s.cleanLine c line).Canon := by
  unfold State.cleanLine
  split
  · exact h.modCore.giveUpLine.ite h
  · exact h

theorem State.Canon.putGrant (h : s.Canon) {c line home st d} : (s.putGrant c line home st d).Canon := by
  unfold State.putGrant
  dsimp only
  split
  · split
    · exact h.ite h.modCore.giveUpLine.install
    · exact h.install.ite h.install
    · exact (h.dropAlias.ite h).install
    · exact (h.dropAlias.ite h).install
  · exact h.install

theorem State.Canon.takeGrant (h : s.Canon) {c line home st d} : (s.takeGrant c line home st d).Canon :=
  h.of_frame (s.takeGrant_frame _ _ _ _ _)

theorem State.Canon.performRecall (h : s.Canon) {c m} : (s.performRecall c m).Canon :=
  h.of_frame (s.performRecall_frame _ _)

theorem State.Canon.undefer (h : s.Canon) {c} : (s.undefer c).Canon :=
  h.of_frame (s.undefer_frame _)

theorem State.Canon.serveEntry (h : s.Canon) {c need} : (s.serveEntry c need).Canon :=
  h.of_frame (s.serveEntry_frame _ _)

theorem State.Canon.lookAgain (h : s.Canon) {c p} : (s.lookAgain c p).Canon :=
  h.of_frame (s.lookAgain_frame _ _)

theorem State.Canon.unblock (h : s.Canon) {c set} : (s.unblock c set).Canon :=
  h.of_frame (s.unblock_frame _ _)

theorem State.Canon.afterClaim (h : s.Canon) {c x} : (s.afterClaim c x).Canon :=
  h.of_frame (s.afterClaim_frame _ _)

theorem State.Canon.endClaims (h : s.Canon) {c p} : (s.endClaims c p).Canon :=
  h.of_frame (s.endClaims_frame _ _)

theorem State.Canon.endAllClaims (h : s.Canon) {u} : (s.endAllClaims u).Canon :=
  h.of_frame (s.endAllClaims_frame _)

theorem State.Canon.writeBackRaw (h : s.Canon) {c} : (s.writeBackRaw c).Canon :=
  h.of_frame (s.writeBackRaw_frame _)

theorem State.Canon.trapRelease (h : s.Canon) {ctx u} : (s.trapRelease ctx u).Canon :=
  h.of_frame (s.trapRelease_frame _ _)

theorem State.Canon.putTrap (h : s.Canon) {ctx pa r rest} : (s.putTrap ctx pa r rest).Canon := by
  unfold State.putTrap
  dsimp only
  exact h.homeWrite.homeWrite.same.modCtx

theorem State.Canon.writeTrap (h : s.Canon) {ctx} : Holds OptCanon (s.writeTrap ctx) := by
  unfold State.writeTrap
  dsimp only
  split
  · exact ⟨trivial⟩
  split
  · exact ⟨trivial⟩
  split
  · exact ⟨trivial⟩
  split
  · exact ⟨trivial⟩
  · next e =>
      split
      · exact ⟨trivial⟩
      · exact ⟨(h.reach.of e).putTrap.modThr⟩

theorem State.Canon.traceHw (h : s.Canon) {c r} : (s.traceHw c r).Canon :=
  h.of_frame (s.traceHw_frame _ _)

theorem State.Canon.holdTrap (h : s.Canon) {ctx r} : (s.holdTrap ctx r).Canon :=
  h.of_frame (s.holdTrap_frame _ _)

theorem State.Canon.trap (h : s.Canon) {u cls pc va extra insn} : (s.trap u cls pc va extra insn).Canon := by
  unfold State.trap
  extract_lets t ctx r s1 s2
  have h1 : s1.Canon := h.endAllClaims.modThr.trapRelease.holdTrap
  have h2 : s2.Canon := h1.traceHw
  exact h2.iteThen fun h => h.writeTrap.getD h

theorem State.Canon.trapMe (h : s.Canon) {cls va extra} : (s.trapMe cls va extra).Canon := h.trap.modMe

theorem State.Canon.resume (h : s.Canon) {u pc} : (s.resume u pc).Canon := by
  unfold State.resume
  dsimp only
  exact h.same.modThr

theorem State.Canon.progress (h : s.Canon) {g} : (s.progress g).Canon := h.modGrp

theorem State.Canon.complete (h : s.Canon) {nb c} : (s.complete nb c).Canon :=
  h.of_frame (s.complete_frame _ _)

theorem State.Canon.completeP (h : s.Canon) {nb c} : (s.completeP nb c).Canon :=
  h.of_frame (s.completeP_frame _ _)

theorem State.Canon.notReady (h : s.Canon) {nb c w} : (s.notReady nb c w).Canon :=
  h.of_frame (s.notReady_frame _ _ _)

theorem State.Canon.plain (h : s.Canon) {f} : (s.plain f).Canon := h.modMe

/-! ## Machine/Operands -/

theorem State.Canon.clampCount (h : s.Canon) {scope} : (s.clampCount scope).Canon := h.countMe.ite h

theorem State.Canon.clampedWait (h : s.Canon) {scope nb c w} : (s.clampedWait scope nb c w).Canon :=
  (h.clampCount.ite h).notReady

/-! ## Machine/Places -/

theorem State.Canon.setPlace (h : s.Canon) {d e p} : (s.setPlace d e p).Canon := h.modDie

theorem State.Canon.setQuoin (h : s.Canon) {key q} : (s.setQuoin key q).Canon := h.same

theorem State.Canon.rewriteQuoin (h : s.Canon) {key} : (s.rewriteQuoin key).Canon := by
  unfold State.rewriteQuoin
  dsimp only
  split
  · exact h.setQuoin
  split
  · exact h.setQuoin
  · exact h.setQuoin.ite ((h.countDie.ite h).setQuoin.iteElse fun h => h.homeWrite)

theorem State.Canon.rewriteOwed (h : s.Canon) : (s.rewriteOwed).Canon :=
  (h.foldl fun _ _ h => h.rewriteQuoin).iteThen fun h => h.fire

theorem State.Canon.noteStore (h : s.Canon) {pa n} : (s.noteStore pa n).Canon := h.same

theorem State.Canon.forgetFrames (h : s.Canon) {pa len} : (s.forgetFrames pa len).Canon := h.same

theorem State.Canon.meetQuoin (h : s.Canon) {key ctx pa va} : (s.meetQuoin key ctx pa va).Canon :=
  h.setQuoin.ite h.setQuoin

theorem State.Canon.serveTableOnce (h : s.Canon) {d} : (s.serveTableOnce d).Canon := by
  unfold State.serveTableOnce
  dsimp only
  split
  · exact h
  · exact h.setDie.fireOf.ite h

theorem State.Canon.serveTable (h : s.Canon) {d} : (s.serveTable d).Canon := h.foldl fun _ _ h => h.serveTableOnce

theorem State.Canon.leaveTables (h : s.Canon) {u} : (s.leaveTables u).Canon :=
  h.foldl fun _ _ h => h.setDie.iteThen fun h => h.serveTable

theorem State.Canon.freePlace (h : s.Canon) {d e} : (s.freePlace d e).Canon := h.setPlace.serveTable

theorem State.Canon.skipDropped (h : s.Canon) {d l n} : (s.skipDropped d l n).1.Canon := by
  induction l generalizing s n with
  | nil => exact h
  | cons e l ih =>
    unfold State.skipDropped
    split
    · exact ih h.freePlace
    · exact h

theorem State.Canon.grantNext (h : s.Canon) {key} : (s.grantNext key).Canon := by
  unfold State.grantNext
  dsimp only
  split
  · exact h.skipDropped.setQuoin
  split
  · exact h.skipDropped.setQuoin.setPlace.fireOf
  · exact h.skipDropped.setQuoin.setPlace

theorem State.Canon.releasePlace (h : s.Canon) {d e} : (s.releasePlace d e).Canon :=
  h.setQuoin.freePlace.grantNext.rewriteQuoin

theorem State.Canon.dropPlace (h : s.Canon) {d e} : (s.dropPlace d e).Canon := h.setPlace.rewriteQuoin

theorem State.Canon.disownPlaces (h : s.Canon) {u} : (s.disownPlaces u).Canon := by
  unfold State.disownPlaces
  refine h.foldl fun s x h => ?_
  split
  · exact h.dropPlace
  · exact h.count
  · exact h

/-! ## Machine/Access -/

theorem State.Canon.openFault (h : s.Canon) {ctx va kind core} : (s.openFault ctx va kind core).Canon := by
  unfold State.openFault
  dsimp only
  exact h.ite h.same.modCtx

theorem State.Canon.claim (h : s.Canon) {ea need write line stage remote home} :
    (s.claim ea need write line stage remote home).1.Canon := by
  unfold State.claim
  dsimp only
  split
  · exact h.setCore
  split
  · exact h.setCore
  split
  · exact h.setCore
  split
  · exact h
  · exact h.setCore

theorem State.Canon.stopOn {r : State × Bool} (h : r.1.Canon) {ea w} {f : State → State}
    (hf : ∀ s, s.Canon → (f s).Canon) : Holds Res.Canon (State.stopOn r ea w f) := by
  unfold State.stopOn
  split
  · exact ⟨hf _ h⟩
  · exact ⟨h⟩

theorem State.Canon.stopClaim {r : State × Bool} (h : r.1.Canon) {ea} {f : State → State}
    (hf : ∀ s, s.Canon → (f s).Canon) : Holds Res.Canon (State.stopClaim r ea f) := h.stopOn hf

theorem State.Canon.dropU (h : s.Canon) {c line need} : (s.dropU c line need).Canon := by
  unfold State.dropU
  split
  · exact h.modCore.giveUpLine
  · exact h

theorem State.Canon.request (h : s.Canon) {c uid line need remote home} :
    (s.request c uid line need remote home).Canon :=
  h.send.ite (h.refetch.ite h.dropU.send)

theorem State.Canon.missQueue (h : s.Canon) {c uid asid va write kind} : (s.missQueue c uid asid va write kind).Canon :=
  h.modForme

theorem State.Canon.endOp (h : s.Canon) {ea} : (s.endOp ea).Canon := h.endClaims

theorem State.Canon.translate (h : s.Canon) {ea need write} : Holds Tr.Canon (s.translate ea need write) := by
  unfold State.translate
  dsimp only
  split
  · exact ⟨h.claim.stopOn fun _ h => h⟩
  split
  · exact ⟨h⟩
  split
  · split
    · exact ⟨⟨h⟩⟩
    split
    · exact ⟨h.endOp⟩
    · exact ⟨h.claim.stopClaim fun _ h => h.missQueue⟩
  split
  · exact ⟨h.countMe⟩
  · exact ⟨h.countMe.claim.stopClaim fun _ h => h.missQueue⟩

theorem State.Canon.raceLog (h : s.Canon) {ctx a at' w write} : (s.raceLog ctx a at' w write).Canon := by
  unfold State.raceLog
  dsimp only
  split
  · next e => exact (h.reach.of e).plantWord.modCtx
  · exact h.countDie

theorem State.Canon.shadowWords (h : s.Canon) {ctx write vas t ws} (e : s.shadowWords ctx write vas = .inl (t, ws)) :
    t.Canon := by
  induction vas generalizing s ws with
  | nil =>
    cases e
    exact h
  | cons va l ih =>
    unfold State.shadowWords at e
    split at e
    · cases e
    · next e1 =>
      split at e
      · next e2 =>
        cases e
        exact ih (h.reach.of e1) e2
      · cases e

theorem State.Canon.raceSectors (h : s.Canon) {ctx a at' write tracked vas} :
    Holds RaceRes.Canon (s.raceSectors ctx a at' write tracked vas) := by
  unfold State.raceSectors
  dsimp only
  split
  · exact ⟨h.openFault⟩
  · next e =>
      split
      · exact ⟨(h.shadowWords e).foldl fun _ _ h => h.raceLog⟩
      split
      · exact ⟨((h.shadowWords e).foldl fun _ _ h => h.raceLog).foldl fun _ _ h => h.plantWord⟩
      split
      · exact ⟨((h.shadowWords e).foldl fun _ _ h => h.raceLog).modThr⟩
      · exact ⟨(h.shadowWords e).foldl fun _ _ h => h.raceLog⟩

theorem State.Canon.raceCheck (h : s.Canon) {ctx a at' vas write tracked} :
    Holds RaceRes.Canon (s.raceCheck ctx a at' vas write tracked) := by
  unfold State.raceCheck
  split
  · exact ⟨h⟩
  · exact h.raceSectors

theorem State.Canon.fenceRelease (h : s.Canon) : (s.fenceRelease).Canon := h.modMe

theorem State.Canon.shadowRelease (h : s.Canon) {ea} : (s.shadowRelease ea).Canon := by
  unfold State.shadowRelease
  dsimp only
  split
  · exact h
  split
  · next e => exact (h.reach.of e).plantWord
  · exact h

theorem State.Canon.shadowTake (h : s.Canon) {w scope} : (s.shadowTake w scope).Canon :=
  (h.setThr.iteThen fun h => h.countMe).ite h

theorem State.Canon.fenceTake (h : s.Canon) {scope} : (s.fenceTake scope).Canon := by
  unfold State.fenceTake
  split
  · exact h.ite h.shadowTake
  · exact h

theorem State.Canon.shootFence (h : s.Canon) {u} : (s.shootFence u).Canon :=
  (h.same (t := { s with cur := u })).fenceTake.fenceRelease.same

theorem State.Canon.shadowAcquire (h : s.Canon) {ea scope} : (s.shadowAcquire ea scope).Canon := by
  unfold State.shadowAcquire
  dsimp only
  split
  · exact h
  split
  · next e => exact (h.reach.of e).shadowTake
  · exact h

theorem State.Canon.shadowAcquireWork (h : s.Canon) {ea scope} : (s.shadowAcquireWork ea scope).Canon := by
  unfold State.shadowAcquireWork
  dsimp only
  split
  · exact h
  split
  · next e => exact (h.reach.of e).shadowTake
  · exact h

theorem State.Canon.takeOracle (h : s.Canon) : (s.takeOracle).1.Canon := by
  unfold State.takeOracle
  split
  · exact h
  · exact h.same

theorem State.Canon.racePass (h : s.Canon) {k ea mask tracked p} :
    Holds Res.Canon (s.racePass k ea mask tracked p) := by
  unfold State.racePass
  split
  · split
    · next e => exact ⟨(h.raceCheck.of e :)⟩
    · next e => exact ⟨(h.raceCheck.of e :)⟩
    · next e => exact ⟨(h.raceCheck.of e :)⟩
  · exact ⟨h⟩

theorem State.Canon.ready (h : s.Canon) {k ea mask e pa p} : Holds Res.Canon (s.ready k ea mask e pa p) := by
  unfold State.ready
  dsimp only
  split
  case' isFalse => have h := h.takeOracle
  all_goals
    split
    · exact h.claim.stopClaim fun _ h => h.send
    split
    · exact ⟨h⟩
    · exact h.racePass

theorem State.Canon.onAbsent (h : s.Canon) {k ea} : Holds Res.Canon (s.onAbsent k ea) := by
  unfold State.onAbsent
  dsimp only
  split
  · exact iteInduction (fun _ => ⟨h.openFault⟩) fun _ => ⟨h.openFault⟩
  · exact ⟨h.openFault⟩

theorem State.Canon.onLeaf (h : s.Canon) {k ea mask e} : Holds Res.Canon (s.onLeaf k ea mask e) := by
  unfold State.onLeaf
  extract_lets t c p pa line off home claim at' held askOn ask full later got brought
  have hheld : Holds Res.Canon (held s) := ⟨h⟩
  have haskOn {need remote w} : Holds Res.Canon (askOn s need remote w) :=
    h.countMe.claim.stopOn fun _ h => h.ite h.request
  have hask {need remote} : Holds Res.Canon (ask s need remote) := haskOn
  have hfull {need} : Holds Res.Canon (full s need) := iteInduction (fun _ => haskOn) fun _ => hask
  have hlater {need w} : Holds Res.Canon (later s need w) := h.claim.stopOn fun _ h => h
  clear_value held askOn ask full later got brought at' claim
  refine iteInduction (fun _ => ⟨h⟩) fun _ => ?_
  refine iteInduction (fun _ => ⟨h.endOp⟩) fun _ => ?_
  refine iteInduction (fun _ => ⟨h⟩) fun _ => ?_
  refine iteInduction (fun _ => hlater) fun _ => ?_
  refine iteInduction (fun _ => ?_) fun _ => ?_
  · exact iteInduction (fun _ => hheld) fun _ => h.claim.stopClaim fun _ h => h.missQueue
  refine iteInduction (fun _ => hlater) fun _ => ?_
  refine iteInduction (fun _ => ?_) fun _ => ?_
  · refine iteInduction (fun _ => ?_) fun _ => ?_
    · split
      · exact iteInduction (fun _ => h.ready) fun _ => iteInduction (fun _ => hheld) fun _ => hfull
      · exact iteInduction (fun _ => hheld) fun _ => hfull
    · split
      · exact iteInduction (fun _ => h.ready) fun _ => iteInduction (fun _ => hheld) fun _ => hask
      · exact hask
  refine iteInduction (fun _ => ?_) fun _ => ?_
  · exact iteInduction (fun _ => h.ready) fun _ => iteInduction (fun _ => hheld) fun _ => hlater
  · exact iteInduction (fun _ => h.ready) fun _ => iteInduction (fun _ => hheld) fun _ => hfull

theorem State.Canon.attempt (h : s.Canon) {k ea n align all bytes} :
    Holds Res.Canon (s.attempt k ea n align all bytes) := by
  unfold State.attempt
  dsimp only
  split
  · exact ⟨h⟩
  split
  · exact ⟨h⟩
  · exact ⟨h⟩
  · exact ⟨h⟩
  split
  · exact ⟨h⟩
  split
  · exact h.onAbsent
  refine iteInduction (fun _ => h.racePass) fun _ => ?_
  split
  · next e => exact (h.translate.of e).onAbsent
  · next e => exact h.translate.of e
  · next e => exact (h.translate.of e).onLeaf

theorem State.Canon.touch (h : s.Canon) {p} : (s.touch p).Canon := by
  unfold State.touch
  split
  · split
    · exact h.modCore
    · exact h
  · split
    · exact h.modCore
    · exact h
  · exact h

theorem State.Canon.patchCopies (h : s.Canon) {c line f} : (s.patchCopies c line f).Canon := h.modCore

theorem State.Canon.putAt (h : s.Canon) {p ea n v mask home} : (s.putAt p ea n v mask home).Canon := by
  unfold State.putAt
  dsimp only
  split
  · exact h.storeMaskLm
  · split
    · exact h.modCore.wrote
    · exact h
  · exact (h.foldl fun _ _ h => h.cleanLine).dropAlias.install.patchCopies.wrote
  · split
    · exact h.modCore.send
    · exact h
  · exact h.same.modCore.countMe
  · exact h

theorem State.Canon.storeAt (h : s.Canon) {p ea n v mask home} : (s.storeAt p ea n v mask home).Canon := by
  unfold State.storeAt
  dsimp only
  split
  · exact h.putAt.noteStore
  · exact h.putAt.noteStore
  · exact h.putAt.noteStore
  · exact h.putAt

theorem State.Canon.endReleasing (h : s.Canon) : (s.endReleasing).Canon := h.modMe

theorem State.Canon.writeAt (h : s.Canon) {p ea n v mask home} : (s.writeAt p ea n v mask home).Canon := by
  unfold State.writeAt
  dsimp only
  split
  · exact h.storeAt
  · exact h.storeAt.endReleasing
  · exact h.storeAt.endReleasing
  · exact (h.storeAt.foldl fun _ _ h => h.shadowRelease).endReleasing.ite h.storeAt

theorem State.Canon.byteMade (h : s.Canon) {i v} : (s.byteMade i v).Canon := h.modMe

theorem State.Canon.releaseStep (h : s.Canon) {scope} : (s.releaseStep scope).1.Canon := by
  unfold State.releaseStep
  dsimp only
  refine iteInduction (fun _ => ?_) fun _ => ?_
  · exact (h.ite (h.foldl fun _ _ h => h.writeBackRaw)).modMe
  · exact h.ite (h.foldl fun _ _ h => h.writeBackRaw)

theorem State.Canon.leaveSlot (h : s.Canon) {u} : (s.leaveSlot u).Canon := h.modThr

theorem State.Canon.parkFreed (h : s.Canon) {ctx} : (s.parkFreed ctx).Canon := h.fire

theorem State.Canon.dropMail (h : s.Canon) {u} : (s.dropMail u).Canon := h.modCore.iteElse fun h => h.count

theorem State.Canon.finishEnd (h : s.Canon) {u} : (s.finishEnd u).Canon := by
  unfold State.finishEnd
  dsimp only
  split
  · exact h
  split
  · exact (h.foldl fun _ _ h => h.releasePlace).dropMail.leaveSlot.modThr.modKer.parkFreed.progress
  · exact (h.foldl fun _ _ h => h.releasePlace).dropMail.leaveSlot.modThr.modKer.parkFreed.progress.modGrp

theorem State.Canon.endThread (h : s.Canon) {u} : (s.endThread u).Canon := by
  unfold State.endThread
  dsimp only
  exact h.endAllClaims.leaveTables.modThr.disownPlaces.finishEnd

theorem State.Canon.finishEnds (h : s.Canon) : (s.finishEnds).Canon := h.foldl fun _ _ h => h.finishEnd

theorem State.Canon.fireReleases (h : s.Canon) : (s.fireReleases).Canon := h.finishEnds.fireIf

theorem State.Canon.refetchFor (h : s.Canon) {c mine p} : (s.refetchFor c mine p).Canon := by
  unfold State.refetchFor
  dsimp only
  exact h.refetch.modCore

theorem State.Canon.acquireStep (h : s.Canon) {c scope} : (s.acquireStep c scope).Canon := h.ite h.refetchFor.modCore

theorem State.Canon.rewalk (h : s.Canon) {c x ctx} : (s.rewalk c x ctx).Canon := h.modCore.missQueue

theorem State.Canon.advance (h : s.Canon) {c x ctx} : (s.advance c x ctx).Canon := by
  unfold State.advance
  extract_lets put
  have hput : ∀ {t : State} {y}, t.Canon → (put t y).Canon := fun h => h.modCore
  clear_value put
  split
  · exact hput h
  split
  · exact h.rewalk
  extract_lets p pa line home block
  have hblock : ∀ {t : State} {y}, t.Canon → (block t y).Canon := fun h => hput h
  clear_value block
  split
  · exact (hput h).claimReady
  split
  · exact hblock h
  split
  · exact h.claimReady
  split
  · exact (hput h).missQueue
  split
  · exact hblock h
  split
  · exact (hblock h).ite (hput h).serveEntry
  exact (hblock h).ite ((hput h).claimReady.ite (hput h).count.request)

/-! ## Machine/Flit -/

theorem State.Canon.setLink (h : s.Canon) {l k} : (s.setLink l k).Canon := h.same

theorem State.Canon.sendAcks (h : s.Canon) : (s.sendAcks).Canon := h.same

/-! ## Machine/Coherence -/

theorem notEnabled_canon {name : String} : Holds NextCanon (notEnabled name) := ⟨trivial⟩

theorem State.Canon.take (h : s.Canon) {n ok m t} (e : s.take n ok = some (m, t)) : t.Canon := by
  unfold State.take at e
  split at e
  · cases e
  · split at e
    · cases e
      exact h.same
    · cases e

theorem State.Canon.sendAll (h : s.Canon) {m cs k} : (s.sendAll m cs k).Canon := h.foldl fun _ _ h => h.send

theorem State.Canon.await (h : s.Canon) {m e n} : (s.await m e n).Canon := h.setEntry

theorem State.Canon.settlePush (h : s.Canon) {m uid} : (s.settlePush m uid).Canon := h.setEntry.send

theorem State.Canon.startCopies (h : s.Canon) {m uid off val targets} :
    (s.startCopies m uid off val targets).Canon := by
  unfold State.startCopies
  extract_lets t ts e
  have ht : t.Canon := by
    unfold t
    split
    · exact h.storeMem.wrote
    · exact h
  exact ht.setEntry.settlePush.ite ht.await.sendAll

theorem State.Canon.pinRemote (h : s.Canon) {m uid excl e} : (s.pinRemote m uid excl e).Canon := h.setEntry.send

theorem State.Canon.serve (h : s.Canon) {m} : (s.serve m).Canon := by
  unfold State.serve
  dsimp only
  split
  · split
    · exact h.setEntry.send
    · exact h.await.sendAll
    · exact h.setEntry.send.ite h.await.sendAll
    · exact h.setEntry.send
  · split
    · exact h.setEntry.send
    · exact h.setEntry.send.ite h.await.sendAll
    · exact h.setEntry.send.ite h.await.sendAll
  · split
    · exact h.setEntry.send
    · exact h.setEntry.send.ite (h.setEntry.send.ite h.await.sendAll)
    · exact h.setEntry.send.ite h.await.sendAll
  · split
    · exact h.await.sendAll.ite h.pinRemote
    · exact h.await.sendAll
    · exact h.await.sendAll
    · exact h.pinRemote
  · exact h.send
  · split
    · exact h.await.sendAll.ite h.startCopies
    · exact h.await.sendAll.ite h.await.sendAll
    · exact h.await.sendAll
    · exact h.startCopies
  · split
    · exact h.await.sendAll
    · exact h
    · exact h
    · exact h.await.sendAll
  · exact h

theorem State.Canon.settle (h : s.Canon) {line} : (s.settle line).Canon := by
  unfold State.settle
  dsimp only
  split
  · exact h
  split
  · exact h.setEntry.send.ite h.setEntry.send
  · exact h.setEntry.send
  · exact h.setEntry.send
  · exact h.pinRemote.ite h.pinRemote
  · exact h.settlePush.ite h.startCopies
  · exact h.setEntry

theorem State.Canon.serveWaiting (h : s.Canon) {line n} : (s.serveWaiting line n).Canon := by
  induction n generalizing s with
  | zero => exact h
  | succ n ih =>
    unfold State.serveWaiting
    dsimp only
    split
    · exact h
    split
    · exact h
    split
    · exact h
    · exact ih h.setEntry.serve

theorem State.Canon.goOn (h : s.Canon) {line} : (s.goOn line).Canon := h.serveWaiting

theorem State.Canon.arrive (h : s.Canon) {m} : (s.arrive m).Canon := by
  unfold State.arrive
  dsimp only
  split
  · exact h.homeRequest.serve
  · exact h.homeRequest.setEntry.setEntry.ite h.homeRequest.setEntry.serve

theorem requestEvent_canon (h : s.Canon) {n ok name} : Holds NextCanon (requestEvent s n ok name) := by
  unfold requestEvent
  dsimp only
  split
  · next e =>
      split
      · exact ⟨(h.take e).arrive⟩
      · exact ⟨(h.take e).modCore⟩
  · exact notEnabled_canon

theorem State.Canon.portServe (h : s.Canon) {home} : (s.portServe home).Canon := by
  unfold State.portServe
  split
  · exact h
  · exact h.modCore.arrive

theorem State.Canon.evictHome (h : s.Canon) {line} : (s.evictHome line).Canon := h.recallAll.ite h

theorem State.Canon.logEvent (h : s.Canon) {d code pa} : (s.logEvent d code pa).Canon := h.countDie.modDie

theorem State.Canon.mergeHome (h : s.Canon) {home line data mask} : (s.mergeHome home line data mask).Canon :=
  (h.storeMaskMem.ite (h.storeMaskMem.logEvent.setEntry.ite h.storeMaskMem.logEvent.serve)).wrote

theorem execEvictionNotice_canon (h : s.Canon) {n} : Holds NextCanon (execEvictionNotice n s) := by
  unfold execEvictionNotice
  dsimp only
  split
  · exact notEnabled_canon
  · next e =>
      split
      · split
        · exact ⟨h.take e⟩
        · exact ⟨(h.take e).setEntry⟩
      · split
        · exact ⟨(h.take e).setEntry⟩
        · exact ⟨h.take e⟩
      · exact ⟨h.take e⟩

theorem execWriteBack_canon (h : s.Canon) {n} : Holds NextCanon (execWriteBack n s) := by
  unfold execWriteBack
  dsimp only
  split
  · exact notEnabled_canon
  · next e =>
      split
      · exact ⟨((h.take e).setHomeLine.iteThen fun h => h.setEntry).wrote.fireReleases⟩
      · exact ⟨(h.take e).setHomeLine.wrote.fireReleases⟩
      · exact ⟨h.take e⟩

theorem execAcknowledgement_canon (h : s.Canon) {n} : Holds NextCanon (execAcknowledgement n s) := by
  unfold execAcknowledgement
  split
  · exact notEnabled_canon
  · next e =>
      have ht := h.take e
      extract_lets k t k' t'
      have h1 : t.Canon := by
        unfold t
        split
        · exact ht.setHomeLine.ite ht.setHomeLine
        · exact ht
      have h2 : t'.Canon := h1.setEntry
      clear_value t'
      split
      · exact notEnabled_canon
      · exact iteInduction (fun _ => ⟨h2.settle.goOn⟩) fun _ => ⟨h2⟩

theorem recallEvent_canon (h : s.Canon) {n k name} : Holds NextCanon (recallEvent s n k name) := by
  unfold recallEvent
  split
  · exact notEnabled_canon
  · next e =>
      split
      · exact ⟨(h.take e).modCore⟩
      · exact ⟨(h.take e).performRecall⟩

theorem execPushFill_canon (h : s.Canon) {n} : Holds NextCanon (execPushFill n s) := by
  unfold execPushFill
  dsimp only
  split
  · exact notEnabled_canon
  · next e =>
      split
      · split
        · exact ⟨(h.take e).send⟩
        split
        · exact ⟨(h.take e).count.send⟩
        · exact ⟨(h.take e).install.send⟩
      · exact ⟨h.take e⟩

theorem State.Canon.linePerformed (h : s.Canon) {c line} : (s.linePerformed c line).Canon := h.ite h.fireIf.lookAgain

theorem execPushCompletion_canon (h : s.Canon) {n} : Holds NextCanon (execPushCompletion n s) := by
  unfold execPushCompletion
  dsimp only
  split
  · exact notEnabled_canon
  · next e =>
      split
      · exact ⟨(h.take e).modCore.modThr.linePerformed.serveEntry.fireReleases⟩
      · exact ⟨h.take e⟩

theorem execClaimCopyReturn_canon (h : s.Canon) {n} : Holds NextCanon (execClaimCopyReturn n s) := by
  unfold execClaimCopyReturn
  dsimp only
  split
  · exact notEnabled_canon
  · next e =>
      split
      · refine ⟨?_⟩
        refine State.Canon.fireReleases ?_
        refine State.Canon.goOn ?_
        refine State.Canon.linePerformed ?_
        refine State.Canon.setEntry ?_
        split
        · exact (h.take e).setHomeLine.wrote
        · exact h.take e
      · exact ⟨h.take e⟩

theorem execUntrackedWriteBack_canon (h : s.Canon) {n} : Holds NextCanon (execUntrackedWriteBack n s) := by
  unfold execUntrackedWriteBack
  split
  · exact notEnabled_canon
  split
  · exact notEnabled_canon
  · next e =>
      split
      · exact ⟨(h.take e).mergeHome.fireReleases⟩
      · exact ⟨h.take e⟩

theorem execClaimDataArrival_canon (h : s.Canon) {n} : Holds NextCanon (execClaimDataArrival n s) := by
  unfold execClaimDataArrival
  dsimp only
  split
  · exact notEnabled_canon
  · next e =>
      split
      · split
        · exact ⟨(h.take e).modCore⟩
        · exact ⟨(h.take e).takeGrant⟩
      · split
        · exact ⟨(h.take e).dropAlias.install.modCore.wakeClaims⟩
        · exact ⟨h.take e⟩
      · split
        · exact ⟨(h.take e).modCore.claimReady⟩
        · exact ⟨(h.take e).send⟩
      · exact ⟨(h.take e).foldl fun _ _ h => h.advance⟩
      · exact ⟨h.take e⟩

theorem execHostWrite_canon (h : s.Canon) {loc size val} : Holds NextCanon (execHostWrite loc size val s) := by
  unfold execHostWrite
  split
  · exact ⟨h.homeWrite⟩
  · exact notEnabled_canon

/-! ## Machine/Slots -/

theorem State.Canon.takeSlot (h : s.Canon) {u k} : (s.takeSlot u k).Canon := h.modThr

theorem State.Canon.swapIn (h : s.Canon) {c} : Holds OptCanon (s.swapIn c) := by
  unfold State.swapIn
  split
  · exact ⟨h.takeSlot.modThr.parkFreed⟩
  · exact ⟨trivial⟩

theorem State.Canon.outbound (h : s.Canon) {ea dest} : Holds Res.Canon (s.outbound ea dest) := by
  unfold State.outbound
  dsimp only
  refine iteInduction (fun _ => ⟨h⟩) fun _ => ?_
  split
  · split <;> exact ⟨h⟩
  split
  · exact ⟨h⟩
  · exact h.claim.stopClaim fun _ h => h

theorem State.Canon.queueMail (h : s.Canon) {dest payload kind} : (s.queueMail dest payload kind).Canon := by
  unfold State.queueMail
  dsimp only
  exact h.same.modCore

theorem State.Canon.expire (h : s.Canon) {gid} : (s.expire gid).Canon := h.modGrp.foldl fun _ _ h => h.trap

theorem State.Canon.passTicks (h : s.Canon) {n} : (s.passTicks n).Canon := h.same

theorem State.Canon.endTicks (h : s.Canon) {n} : (s.endTicks n).1.Canon := by
  unfold State.endTicks
  dsimp only
  split
  · exact h
  · exact (h.foldl fun _ _ h => h.expire).sendAcks.passTicks

/-! ## Machine/Barrier -/

theorem State.Canon.setBar (h : s.Canon) {kind unit idx b} : (s.setBar kind unit idx b).Canon := by
  unfold State.setBar
  split
  · exact h.modCore
  · exact h.modForme
  · exact h.modDie

theorem State.Canon.wakeCore (h : s.Canon) {kind unit idx cores} : (s.wakeCore kind unit idx cores).Canon := h.fireIf

theorem State.Canon.advanceBar (h : s.Canon) {kind unit idx} : (s.advanceBar kind unit idx).Canon := by
  unfold State.advanceBar
  extract_lets b d now ctx epoch rel s1 s2 s3
  clear_value ctx
  have h1 : s1.Canon := by
    unfold s1
    split
    · exact h.modCtx
    · exact h
  have h3 : s3.Canon := h1.setBar.wakeCore
  split
  · exact h3.progress
  · exact h3

theorem State.Canon.countArrival (h : s.Canon) {kind unit idx} : (s.countArrival kind unit idx).Canon :=
  h.setBar.iteThen fun h => h.advanceBar

theorem State.Canon.engineArrive (h : s.Canon) {kind unit idx} : (s.engineArrive kind unit idx).Canon :=
  h.ite h.countArrival

theorem State.Canon.tellProxies (h : s.Canon) {pa w} : (s.tellProxies pa w).Canon := by
  unfold State.tellProxies
  dsimp only
  split
  · exact h.same
  · exact h

theorem State.Canon.arriveHw (h : s.Canon) {kind idx} : Holds Arrival.Canon (s.arriveHw kind idx) := by
  unfold State.arriveHw
  dsimp only
  split
  · exact ⟨h⟩
  split
  · exact ⟨h.releaseStep⟩
  split
  · exact ⟨h.releaseStep⟩
  · exact ⟨h.releaseStep.modMe.countArrival⟩

theorem State.Canon.arriveProxy (h : s.Canon) {ea pa pkg entry} :
    Holds Arrival.Canon (s.arriveProxy ea pa pkg entry) := by
  unfold State.arriveProxy
  dsimp only
  split
  · split
    · split
      · exact ⟨h.endOp.modMe.clampCount⟩
      · exact ⟨h.endOp⟩
    split
    · exact ⟨h.endOp⟩
    · exact ⟨h.endOp.same.modMe⟩
  · exact ⟨h.endOp.same.modMe⟩

theorem State.Canon.arriveSem (h : s.Canon) {idx} : Holds Arrival.Canon (s.arriveSem idx) := by
  unfold State.arriveSem
  extract_lets ea
  split
  · exact ⟨h⟩
  split
  · exact ⟨h⟩
  split
  · next e => exact ⟨h.attempt.of e⟩
  · next e => exact ⟨h.attempt.of e⟩
  · next e => exact ⟨h.attempt.of e⟩
  next t p e =>
  have ht : t.Canon := h.attempt.of e
  extract_lets w sc answered
  split
  · exact ⟨ht.endOp⟩
  have hq : (if answered then (t, true) else t.releaseStep sc).1.Canon := State.Canon.iteFst ht ht.releaseStep
  generalize (if answered = true then (t, true) else t.releaseStep sc) = q at hq ⊢
  obtain ⟨t, ok⟩ := q
  dsimp only
  split
  · exact ⟨hq.endOp⟩
  split
  · exact hq.arriveProxy
  · exact ⟨hq.writeAt.endOp.modMe.shadowRelease.clampCount.iteThen fun h => h.tellProxies⟩

theorem State.Canon.arriveAt (h : s.Canon) {kind idx} : Holds Arrival.Canon (s.arriveAt kind idx) := by
  unfold State.arriveAt
  split
  · exact h.arriveSem
  · exact h.arriveHw

theorem State.Canon.clampWait (h : s.Canon) {kind nb w} : (s.clampWait kind nb w).Canon := by
  unfold State.clampWait
  split
  · exact h.clampCount.ite h
  · exact h.clampCount.ite h
  · exact h

theorem execBarArrive_canon (h : s.Canon) {rd kind idx nb} : Holds NextCanon (execBarArrive rd kind idx nb s) := by
  unfold execBarArrive
  split
  · next e => exact ⟨(h.arriveAt.of e).complete⟩
  · next e => exact ⟨(h.arriveAt.of e).clampWait.notReady⟩
  · next e => exact ⟨(h.arriveAt.of e).trapMe⟩
  · next e => exact ⟨(h.arriveAt.of e).modMe.completeP⟩

theorem State.Canon.barAcquire (h : s.Canon) {scope epoch} : (s.barAcquire scope epoch).Canon := h.acquireStep.modMe

theorem State.Canon.waitAt (h : s.Canon) {kind idx token nb clamp} : (s.waitAt kind idx token nb clamp).Canon := by
  unfold State.waitAt
  dsimp only
  split
  · split
    · exact h.trapMe
    split
    · exact h.complete
    split
    · next e => exact (h.attempt.of e).trapMe
    · next e => exact (h.attempt.of e).complete
    · next e => exact (h.attempt.of e).notReady
    · next e =>
        split
        · exact (h.attempt.of e).touch.endOp.complete
        split
        · exact (h.attempt.of e).touch.endOp.notReady
        · exact ((h.attempt.of e).touch.endOp.iteThen fun h => h.clampCount).shadowAcquire.barAcquire.completeP
  · exact h.complete.ite (h.notReady.ite h.barAcquire.completeP)

theorem execBarAw_canon (h : s.Canon) {rd kind idx nb} : Holds NextCanon (execBarAw rd kind idx nb s) := by
  unfold execBarAw
  dsimp only
  split
  · exact ⟨h.waitAt.iteElse fun h => h.modMe⟩
  split
  · next e => exact ⟨(h.arriveAt.of e).complete⟩
  · next e => exact ⟨(h.arriveAt.of e).notReady⟩
  · next e => exact ⟨(h.arriveAt.of e).trapMe⟩
  · next e => exact ⟨(h.arriveAt.of e).modMe.waitAt.iteElse fun h => h.modMe⟩

theorem State.Canon.configureSem (h : s.Canon) {idx v nb} : (s.configureSem idx v nb).Canon := by
  unfold State.configureSem
  dsimp only
  split
  · exact h.trapMe
  split
  · exact h.complete
  split
  · next e => exact (h.attempt.of e).trapMe
  · next e => exact (h.attempt.of e).complete
  · next e => exact (h.attempt.of e).notReady
  · next e =>
      refine iteInduction (fun _ => ?_) fun _ => ?_
      · exact (h.attempt.of e).endOp.complete
      · exact ((h.attempt.of e).writeAt.endOp.iteThen fun h => h.tellProxies).clampCount.completeP

theorem execBarCfg_canon (h : s.Canon) {rs1 kind idx nb} : Holds NextCanon (execBarCfg rs1 kind idx nb s) := by
  unfold execBarCfg
  dsimp only
  split
  · exact ⟨h.configureSem⟩
  split
  · exact ⟨h.complete⟩
  · exact ⟨(h.setBar.iteThen fun h => h.advanceBar).completeP⟩

theorem execBarrierRelease_canon (h : s.Canon) {kind unit idx core} :
    Holds NextCanon (execBarrierRelease kind unit idx core s) := by
  unfold execBarrierRelease
  dsimp only
  split
  · split
    · exact ⟨h.setBar.wakeCore⟩
    · exact notEnabled_canon
  · exact notEnabled_canon

theorem execSemRemoteArrival_canon (h : s.Canon) {entry pkg uid} :
    Holds NextCanon (execSemRemoteArrival entry pkg uid s) := by
  unfold execSemRemoteArrival
  dsimp only
  split
  · split
    · exact ⟨h.homeWrite.same.iteThen fun h => h.tellProxies⟩
    · exact notEnabled_canon
  · exact notEnabled_canon

theorem State.Canon.writeProxy (h : s.Canon) {pa phase} : (s.writeProxy pa phase).Canon := h.homeWrite.ite h

theorem execSemArrivalReply_canon (h : s.Canon) {uid phase} : Holds NextCanon (execSemArrivalReply uid phase s) := by
  unfold execSemArrivalReply
  dsimp only
  split
  · split
    · split
      · exact ⟨h.writeProxy⟩
      · exact notEnabled_canon
    · exact notEnabled_canon
  split
  · split
    · exact ⟨h.writeProxy.modThr.fireOf⟩
    · exact notEnabled_canon
  · exact notEnabled_canon

theorem execSemPhaseUpdate_canon (h : s.Canon) {entry phase} : Holds NextCanon (execSemPhaseUpdate entry phase s) := by
  unfold execSemPhaseUpdate
  split
  · split
    · exact ⟨h.writeProxy⟩
    · exact notEnabled_canon
  · exact notEnabled_canon

/-! ## Machine/Home -/

theorem State.Canon.markWalk (h : s.Canon) {ctx va} : (s.markWalk ctx va).Canon := h.markVa.ite h

theorem State.Canon.lookAll (h : s.Canon) {ctx write press quad l} :
    Holds Acc.Canon (s.lookAll ctx write press quad l) := by
  induction l generalizing s with
  | nil => exact ⟨h⟩
  | cons x l ih =>
    unfold State.lookAll
    split
    · extract_lets way t
      split
      · exact ⟨trivial⟩
      · exact ih h.markMask.markEntry.homeRequest
    · exact ⟨h⟩
    · exact ⟨h.markWalk⟩
    · exact ⟨h.markVa⟩
    · exact ⟨trivial⟩

theorem State.Canon.raceAll (h : s.Canon) {ctx a write l} : Holds Acc.Canon (s.raceAll ctx a write l) := by
  induction l generalizing s with
  | nil => exact ⟨h⟩
  | cons x l ih =>
    unfold State.raceAll
    extract_lets tracked
    split
    · next e => exact ih (h.raceCheck.of e)
    · next e => exact ih (h.raceCheck.of e)
    · next e => exact ⟨h.raceCheck.of e⟩

theorem State.Canon.agentAccess (h : s.Canon) {ctx a write l} : Holds Acc.Canon (s.agentAccess ctx a write l) := by
  unfold State.agentAccess
  split
  · next e =>
      split
      · exact ⟨(h.lookAll.of e :)⟩
      · exact (h.lookAll.of e).raceAll
  · exact h.lookAll

theorem State.Canon.readVa (h : s.Canon) {ctx va n} : (s.readVa ctx va n).1.Canon := by
  unfold State.readVa
  split
  · next e => exact (h.reach.of e).homeRead
  · exact h

theorem State.Canon.writeVa (h : s.Canon) {ctx va n v} : (s.writeVa ctx va n v).Canon := by
  unfold State.writeVa
  split
  · next e => exact (h.reach.of e).homeWrite
  · exact h

theorem State.Canon.readEntry (h : s.Canon) {ctx tids n press quad} :
    Holds Entry.Canon (s.readEntry ctx tids n press quad) := by
  unfold State.readEntry
  dsimp only
  split
  · exact ⟨h⟩
  split
  · exact ⟨h.markMask.markEntry.homeRequest.homeRead⟩
  · exact ⟨trivial⟩
  · exact ⟨h.markWalk⟩
  · exact ⟨h.markVa⟩
  · exact ⟨trivial⟩

/-! ## Machine/Galley -/

theorem State.Canon.modChan (h : s.Canon) {d ch f} : (s.modChan d ch f).Canon := h.modDie

theorem State.Canon.modRec (h : s.Canon) {d ch n f} : (s.modRec d ch n f).Canon := h.modChan

theorem State.Canon.shadowEngine (h : s.Canon) {k va} : (s.shadowEngine k va).Canon := by
  unfold State.shadowEngine
  dsimp only
  split
  · exact h
  split
  · next e => exact (h.reach.of e).plantWord
  · exact h

theorem State.Canon.kickTaken (h : s.Canon) {d ch} : (s.kickTaken d ch).Canon := h.fire

theorem State.Canon.endPage (h : s.Canon) {quad r va} : Holds EndWrite.Canon (s.endPage quad r va) := by
  unfold State.endPage
  split
  · exact ⟨h⟩
  split
  · next e => exact ⟨(h.lookAll.of e :)⟩
  · exact ⟨trivial⟩
  · next e => exact ⟨(h.lookAll.of e :)⟩
  · exact ⟨trivial⟩
  · exact ⟨trivial⟩

theorem State.Canon.writeRecord (h : s.Canon) {r st} : (s.writeRecord r st).Canon := by
  unfold State.writeRecord
  dsimp only
  exact h.writeVa.writeVa.shadowEngine

theorem State.Canon.writeEnd (h : s.Canon) {r st} : (s.writeEnd r st).Canon := h.writeVa.shadowEngine

theorem State.Canon.rewriteWord (h : s.Canon) {r va} : (s.rewriteWord r va).Canon := h.writeVa

theorem State.Canon.endChain (h : s.Canon) {d ch ctx serial} : (s.endChain d ch ctx serial).Canon := h.modChan.modCtx

theorem State.Canon.abandon (h : s.Canon) {d ch n va} : (s.abandon d ch n va).Canon := by
  unfold State.abandon
  split
  · exact h
  · exact h.ite h.countDie.modRec

theorem State.Canon.endWrite (h : s.Canon) {d ch n va r} {f : State → State} (hf : ∀ s, s.Canon → (f s).Canon) :
    (s.endWrite d ch n va r f).Canon := by
  unfold State.endWrite
  split
  · next e => exact hf _ (h.endPage.of e)
  · exact h.abandon

theorem State.Canon.finishRec (h : s.Canon) {d ch n r st} : Holds OptCanon (s.finishRec d ch n r st) := by
  unfold State.finishRec
  extract_lets q vas absent t1 t2 t3 r' after t4
  clear_value absent
  split
  · exact ⟨trivial⟩
  split
  · exact ⟨h.openFault.modRec⟩
  have h1 : t1.Canon := h.endWrite fun _ h => h.writeRecord
  have h2 : t2.Canon := h1.ite (h1.endWrite fun _ h => h.writeEnd)
  have h3 : t3.Canon := h2.foldl fun _ _ h => h.endWrite fun _ h => h.rewriteWord
  have h4 : t4.Canon := h3.modRec
  exact ⟨h4.endChain.ite h4⟩

theorem State.Canon.recEntries (h : s.Canon) {quad r} : Holds Started.Canon (s.recEntries quad r) := by
  unfold State.recEntries
  extract_lets k withDst
  have hdst : ∀ {t : State} {src tgt}, t.Canon → Holds Started.Canon (withDst t src tgt) := by
    intro t src tgt h
    unfold withDst
    split
    · exact ⟨h⟩
    · exact ⟨trivial⟩
    · exact ⟨trivial⟩
    next e =>
    have h := h.readEntry.of e
    split
    · exact ⟨h⟩
    split
    · split
      · exact ⟨h⟩
      · exact ⟨trivial⟩
      · exact ⟨trivial⟩
      next e =>
      have h := h.readEntry.of e
      split <;> exact ⟨h⟩
    · exact ⟨h⟩
  clear_value withDst
  split
  · exact hdst h
  split
  · exact ⟨h⟩
  · exact ⟨trivial⟩
  · exact ⟨trivial⟩
  next e =>
  have h := h.readEntry.of e
  split
  · exact ⟨h⟩
  split
  · split
    · exact ⟨h⟩
    · exact ⟨trivial⟩
    · exact ⟨trivial⟩
    next e =>
    have h := h.readEntry.of e
    split
    · exact hdst h
    · exact ⟨h⟩
  · exact hdst h

theorem State.Canon.mayUse (h : s.Canon) {quad ctx l} : Holds Acc.Canon (s.mayUse quad ctx l) := by
  unfold State.mayUse
  split
  · next e => exact (h.lookAll.of e).lookAll
  · exact h.lookAll

theorem State.Canon.checkObject (h : s.Canon) {d ch r src dst tgt} :
    Holds Started.Canon (s.checkObject d ch r src dst tgt) := by
  unfold State.checkObject
  dsimp only
  split
  · exact ⟨h⟩
  split
  · next e => exact ⟨(h.mayUse.of e :)⟩
  · next e => exact ⟨(h.mayUse.of e :)⟩
  · exact ⟨trivial⟩
  · exact ⟨trivial⟩
  · next e =>
      split
      · next e1 => exact ⟨((h.mayUse.of e).readVa.mayUse.of e1 :)⟩
      · next e1 => exact ⟨((h.mayUse.of e).readVa.mayUse.of e1 :)⟩
      · exact ⟨trivial⟩
      · exact ⟨trivial⟩
      · next e1 =>
          split
          · exact ⟨((h.mayUse.of e).readVa.mayUse.of e1 :)⟩
          · split <;> exact ⟨((h.mayUse.of e).readVa.mayUse.of e1 :)⟩

theorem State.Canon.checkRec (h : s.Canon) {d ch r} : Holds Started.Canon (s.checkRec d ch r) := by
  unfold State.checkRec
  split
  · exact ⟨h⟩
  split
  · next e =>
      split
      · exact ⟨(h.recEntries.of e :)⟩
      split
      · exact ⟨(h.recEntries.of e :)⟩
      · exact (h.recEntries.of e).checkObject
  · exact h.recEntries

theorem State.Canon.startRec (h : s.Canon) {d ch n r} : Holds OptCanon (s.startRec d ch n r) := by
  unfold State.startRec
  dsimp only
  split
  · exact ⟨trivial⟩
  · next e => exact ⟨(h.checkRec.of e).modRec⟩
  · next e => exact ⟨(h.checkRec.of e).openFault.modRec⟩
  · next e => exact ⟨((h.checkRec.of e).iteThen fun h => h.writeVa.shadowEngine).modRec⟩

theorem State.Canon.readChain (h : s.Canon) {d ch} : Holds OptCanon (s.readChain d ch) := by
  unfold State.readChain
  dsimp only
  split
  · exact ⟨trivial⟩
  split
  · exact ⟨trivial⟩
  split
  · next e => exact ⟨(h.lookAll.of e).openFault.modChan⟩
  · next e => exact ⟨(h.lookAll.of e).countDie.modChan⟩
  · exact ⟨trivial⟩
  · exact ⟨trivial⟩
  · next e =>
      split
      · exact ⟨(h.lookAll.of e).readVa.modChan⟩
      split
      · exact ⟨trivial⟩
      · exact ((h.lookAll.of e).readVa.modChan.iteThen fun h => h.modChan).startRec

theorem State.Canon.takeKick (h : s.Canon) {d ch} : Holds OptCanon (s.takeKick d ch) := by
  unfold State.takeKick
  dsimp only
  split
  · split
    · exact ⟨trivial⟩
    · exact ⟨h.same.modChan.kickTaken⟩
  · exact ⟨trivial⟩

theorem State.Canon.visitRec (h : s.Canon) {d ch} : Holds OptCanon (s.visitRec d ch) := by
  unfold State.visitRec
  dsimp only
  split
  · exact ⟨trivial⟩
  split
  · exact ⟨trivial⟩
  split
  · exact h.finishRec
  · exact h.startRec

theorem State.Canon.visit (h : s.Canon) {d ch} : Holds OptCanon (s.visit d ch) := by
  unfold State.visit
  split
  · next e => exact ⟨(h.visitRec.of e :)⟩
  split
  · next e1 => exact ⟨(h.readChain.of e1 :)⟩
  split
  · next e2 => exact ⟨(h.takeKick.of e2).readChain.getD (h.takeKick.of e2)⟩
  · exact ⟨trivial⟩

theorem execGalleyChain_canon (h : s.Canon) {die ch} : Holds NextCanon (execGalleyChain die ch s) := by
  unfold execGalleyChain
  split
  · exact notEnabled_canon
  split
  · next e => exact ⟨(h.visit.of e).modDie⟩
  · exact notEnabled_canon

/-- What the read of an index that names the points of a chunk meets. -/
theorem State.Canon.chunkPoints (h : s.Canon) {ctx a r j x} (e : s.chunkPoints ctx a r j = .inr x) :
    Holds Acc.Canon x := by
  unfold State.chunkPoints at e
  extract_lets own others coord at e
  split at e
  · cases e
  split at e
  · cases e
  · cases e
    exact ⟨h⟩
  · cases e
    exact h.agentAccess

theorem State.Canon.runChunk (h : s.Canon) {d ch n j op name} : Holds NextCanon (s.runChunk d ch n j op name) := by
  unfold State.runChunk
  split
  · exact notEnabled_canon
  split
  · exact notEnabled_canon
  extract_lets ctx a stop meet
  have hmeet : ∀ {t : State} {x k}, Holds Acc.Canon x → (∀ s, s.Canon → Holds NextCanon (k s)) →
      Holds NextCanon (meet t x k) := by
    intro t x k hx hk
    unfold meet
    split
    · exact hk _ hx.holds
    · exact ⟨State.Canon.modRec (State.Canon.openFault hx.holds)⟩
    · exact ⟨State.Canon.modRec hx.holds⟩
    · exact notEnabled_canon
    · exact notEnabled_canon
  clear_value meet
  split
  · next e => exact hmeet (h.chunkPoints e) fun _ h => ⟨h⟩
  extract_lets srcs dsts idx
  refine hmeet h.agentAccess fun _ h => ?_
  extract_lets s1 wsrc froms tos reads
  have h1 : s1.Canon := h.foldl fun _ _ h => h.readVa
  refine hmeet h1.agentAccess fun _ h => hmeet h.agentAccess fun _ h => ?_
  extract_lets s2 vals s3
  have h2 : s2.Canon := h.foldl fun _ _ h => h.readVa
  have h3 : s3.Canon := h2.foldl fun _ _ h => by
    split
    · exact h.writeVa
    · exact h
  exact ⟨h3.modRec.countDie⟩

theorem execGalleyChunkDone_canon (h : s.Canon) {die ch rec chunk} :
    Holds NextCanon (execGalleyChunkDone die ch rec chunk s) := by
  unfold execGalleyChunkDone
  dsimp only
  split
  · exact notEnabled_canon
  split
  · exact notEnabled_canon
  split
  · exact ⟨h.modRec⟩
  split
  · next e => exact ⟨(h.endPage.of e).writeVa.shadowEngine.modRec⟩
  · next e => exact ⟨(h.endPage.of e).abandon.modRec⟩
  · split
    · exact notEnabled_canon
    · exact ⟨h.openFault.modRec⟩
  · exact notEnabled_canon

theorem State.Canon.answerGalleys (h : s.Canon) {ctx page resolve} : (s.answerGalleys ctx page resolve).Canon := by
  unfold State.answerGalleys
  dsimp only
  exact (h.foldl fun _ _ h => h.modDie.iteElse fun h => h.countDie).modCtx

theorem State.Canon.saveChans (h : s.Canon) {c} : (s.saveChans c).Canon := by
  unfold State.saveChans
  dsimp only
  exact h.same.modCtx

theorem State.Canon.restoreChans (h : s.Canon) {c} : (s.restoreChans c).Canon :=
  h.ite (h.foldl fun _ _ h => h.modChan).modCtx

theorem State.Canon.sweepWalks (h : s.Canon) {r} : (s.sweepWalks r).Canon := by
  unfold State.sweepWalks
  dsimp only
  split
  · exact h
  refine h.foldl fun s x h => ?_
  split
  · next e => exact h.reach.of e
  · exact h

theorem State.Canon.sweepLine (h : s.Canon) {r fid c x} : (s.sweepLine r fid c x).Canon := by
  unfold State.sweepLine
  dsimp only
  split
  · exact (h.homeRequest.mergeHome.ite h).modCore
  · exact (h.homeRequest.mergeHome.ite h).iteThen fun h => h.modCore

theorem execSweep_canon (h : s.Canon) {fid} : Holds NextCanon (execSweep fid s) := by
  unfold execSweep
  extract_lets f taken
  have htaken : Holds OptFstCanon taken := by
    unfold taken
    split
    · exact ⟨h⟩
    · exact ⟨h.setForme.fire⟩
    · exact ⟨trivial⟩
  clear_value taken
  split
  · exact notEnabled_canon
  have h := htaken.holds
  split
  · extract_lets s1 lines s2
    have h2 : s2.Canon := (State.Canon.foldl (State.Canon.sweepWalks h) fun _ _ h => h.sweepLine).refetchFor
    split
    · exact notEnabled_canon
    split
    · exact ⟨h2.modForme.engineArrive⟩
    · exact ⟨h2.modForme⟩
  · exact ⟨State.Canon.engineArrive (State.Canon.modForme h)⟩

theorem State.Canon.rangeOp (h : s.Canon) {rs1 rlen kind idx nb wb inv} :
    (s.rangeOp rs1 rlen kind idx nb wb inv).Canon := by
  unfold State.rangeOp
  dsimp only
  split
  · exact h.trapMe
  split
  · exact h.complete
  split
  · exact h.complete
  · exact h.releaseStep.notReady.ite (h.releaseStep.notReady.ite h.releaseStep.modForme.modMe.completeP)

theorem execGxKick_canon (h : s.Canon) {rs1 c8 nb} : Holds NextCanon (execGxKick rs1 c8 nb s) := by
  unfold execGxKick
  dsimp only
  split
  · exact ⟨h.trapMe⟩
  split
  · exact ⟨h.complete⟩
  split
  · exact ⟨h.releaseStep.notReady⟩
  split
  · exact ⟨h.releaseStep.notReady⟩
  · exact ⟨h.releaseStep.modMe.modChan.completeP⟩

theorem execCbitTest_canon (h : s.Canon) {rd rs1 rs2 nb} : Holds NextCanon (execCbitTest rd rs1 rs2 nb s) := by
  unfold execCbitTest
  dsimp only
  split
  · exact ⟨h.trapMe⟩
  split
  · next e => exact ⟨(h.attempt.of e).trapMe⟩
  · next e => exact ⟨(h.attempt.of e).complete⟩
  · next e => exact ⟨(h.attempt.of e).notReady⟩
  · next e =>
      split
      · exact ⟨(h.attempt.of e).touch.endOp.modMe.notReady⟩
      · exact ⟨(h.attempt.of e).touch.endOp.modMe.acquireStep.shadowAcquireWork.completeP⟩

theorem State.Canon.storeEntry (h : s.Canon) {va n v nb} {after : State → State}
    (hf : ∀ s, s.Canon → (after s).Canon) : (s.storeEntry va n v nb after).Canon := by
  unfold State.storeEntry
  split
  · next e => exact (h.attempt.of e).trapMe
  · next e => exact (h.attempt.of e).complete
  · next e => exact (h.attempt.of e).notReady
  · next e => exact (hf _ (h.attempt.of e).writeAt.endOp).completeP

theorem execTiLoad_canon (h : s.Canon) {rs1 c8 nb} : Holds NextCanon (execTiLoad rs1 c8 nb s) := by
  unfold execTiLoad
  dsimp only
  split
  · exact ⟨h.trapMe⟩
  split
  · exact ⟨h.complete⟩
  split
  · next e => exact ⟨(h.attempt.of e).trapMe⟩
  · next e => exact ⟨(h.attempt.of e).complete⟩
  · next e => exact ⟨(h.attempt.of e).notReady⟩
  · next e =>
      split
      · exact ⟨(h.attempt.of e).touch.endOp.complete⟩
      · exact ⟨(h.attempt.of e).touch.storeEntry fun _ h => h.endOp⟩

theorem execTiInv_canon (h : s.Canon) {c8 nb} : Holds NextCanon (execTiInv c8 nb s) := by
  unfold execTiInv
  split
  · exact ⟨h.complete⟩
  · exact ⟨h.storeEntry fun _ h => h⟩

/-! ## Machine/Press -/

theorem State.Canon.modPress (h : s.Canon) {f g} : (s.modPress f g).Canon := h.modForme

theorem State.Canon.setPq (h : s.Canon) {c q} : (s.setPq c q).Canon := h.modPress

theorem State.Canon.accSet (h : s.Canon) {c row col v} : (s.accSet c row col v).Canon := h.same

theorem State.Canon.accClear (h : s.Canon) {c row n} : (s.accClear c row n).Canon := h.same

theorem State.Canon.accPut (h : s.Canon) {c row col v pair} : (s.accPut c row col v pair).Canon :=
  h.accSet.accSet.ite h.accSet

theorem State.Canon.reinstallOn (h : s.Canon) {f gid} : (s.reinstallOn f gid).Canon :=
  h.foldl fun _ _ h => (h.withPlanes (Memory.wf_mpaste _ _ (Memory.wf_mcut _ _ h.planes))).modPress.modGrp.ite h

theorem State.Canon.planesFreed (h : s.Canon) {f} : (s.planesFreed f).Canon := h.foldl fun _ _ h => h.reinstallOn

theorem State.Canon.modHead (h : s.Canon) {c f} : (s.modHead c f).Canon := by
  unfold State.modHead
  dsimp only
  split
  · exact h.setPq
  · exact h

theorem State.Canon.dropHead (h : s.Canon) {c} : (s.dropHead c).Canon := by
  unfold State.dropHead
  dsimp only
  split
  · refine State.Canon.fire ?_
    split
    · split
      · exact (h.setPq.modPress.planesFreed.ite h.setPq).modGrp
      · exact h.setPq.modPress.planesFreed.ite h.setPq
    · exact h.setPq.modPress.planesFreed.ite h.setPq
  · exact h

theorem execPqPush_canon (h : s.Canon) {rs1 nb} : Holds NextCanon (execPqPush rs1 nb s) := by
  unfold execPqPush
  dsimp only
  split
  · exact ⟨h.trapMe⟩
  split
  · exact ⟨h.trapMe⟩
  split
  · exact ⟨h.trapMe⟩
  split
  · exact ⟨h.releaseStep.notReady⟩
  split
  · exact ⟨h.releaseStep.notReady⟩
  · exact ⟨h.releaseStep.modMe.setPq.completeP⟩

theorem State.Canon.pressAcquire (h : s.Canon) {q rdy} : (s.pressAcquire q rdy).Canon :=
  h.acquireStep.iteThen fun h => h.setThr.iteThen fun h => h.countMe

theorem execPqDone_canon (h : s.Canon) {rs1 nb} : Holds NextCanon (execPqDone rs1 nb s) := by
  unfold execPqDone
  dsimp only
  split
  · exact ⟨h.pressAcquire.completeP.ite h.pressAcquire.completeP⟩
  split
  · exact ⟨h.trapMe⟩
  · exact ⟨h.trapMe⟩
  · exact ⟨h.notReady.ite (h.pressAcquire.completeP.ite h.pressAcquire.completeP)⟩
  · exact ⟨h.complete.ite (h.pressAcquire.completeP.ite h.pressAcquire.completeP)⟩
  · exact ⟨h.complete.ite (h.pressAcquire.completeP.ite h.pressAcquire.completeP)⟩
  · exact ⟨h.notReady.ite (h.pressAcquire.completeP.ite h.pressAcquire.completeP)⟩
  · exact ⟨h.notReady.ite (h.pressAcquire.completeP.ite h.pressAcquire.completeP)⟩

theorem execPqResume_canon (h : s.Canon) {nb} : Holds NextCanon (execPqResume nb s) := by
  unfold execPqResume
  dsimp only
  split
  · exact ⟨h.completeP⟩
  split
  · exact ⟨h.completeP⟩
  · exact ⟨h.completeP⟩
  · exact ⟨h.notReady⟩
  · exact ⟨h.modHead.completeP⟩
  · exact ⟨h.dropHead.completeP⟩
  · exact ⟨h.trapMe⟩
  · exact ⟨h.trapMe⟩

theorem State.Canon.pressIdle (h : s.Canon) {f} : (s.pressIdle f).Canon := h.ite h.modPress

theorem State.Canon.stopHead (h : s.Canon) {c st va} : (s.stopHead c st va).Canon := h.modHead.modPress.pressIdle.fire

theorem State.Canon.faultHead (h : s.Canon) {c ctx va} : (s.faultHead c ctx va).Canon := by
  unfold State.faultHead
  dsimp only
  refine State.Canon.stopHead ?_
  split
  · exact h.openFault.same
  · exact h.openFault

theorem execPressArbitration_canon (h : s.Canon) {fid} : Holds NextCanon (execPressArbitration fid s) := by
  unfold execPressArbitration
  dsimp only
  split
  · split
    · exact notEnabled_canon
    split
    · split
      · next e => exact ⟨(h.readEntry.of e).modPress.modHead.count.modHead⟩
      · exact ⟨h.modPress.modHead.count.faultHead⟩
      · next e => exact ⟨(h.readEntry.of e).modPress.modHead.count.stopHead⟩
      · exact notEnabled_canon
    · exact ⟨h.modPress.modHead.count⟩
  · exact notEnabled_canon

theorem State.Canon.lastUnit (h : s.Canon) {c x} : (s.lastUnit c x).Canon := by
  unfold State.lastUnit
  dsimp only
  split
  · exact (h.withPlanes (Memory.wf_mpaste _ _ (Memory.wf_mcut _ _ h.planes))).modPress.planesFreed
  · exact h.modPress.planesFreed.ite h
  · exact h.setPq.ite h
  · split
    · exact h.setPq.fire.progress
    · exact h.setPq.fire
  · exact h

theorem State.Canon.runUnit (h : s.Canon) {f op name} {act : State → Nat → Cmd → UnitRes}
    (hf : ∀ s c x, s.Canon → Holds UnitRes.Canon (act s c x)) : Holds NextCanon (s.runUnit f op name act) := by
  unfold State.runUnit
  split
  · exact notEnabled_canon
  extract_lets c
  split
  · exact notEnabled_canon
  split
  · exact notEnabled_canon
  have hact (x : Cmd) : Holds UnitRes.Canon (act s c x) := hf _ _ _ h
  split
  · next e =>
    have h : State.Canon _ := (hact _).of e
    split
    · exact ⟨h.modHead⟩
    · exact ⟨h.modPress.lastUnit.dropHead.pressIdle⟩
  · next e => exact ⟨State.Canon.faultHead ((hact _).of e)⟩
  · next e => exact ⟨State.Canon.stopHead ((hact _).of e)⟩
  · next e => exact ⟨State.Canon.stopHead ((hact _).of e)⟩
  · exact notEnabled_canon

theorem State.Canon.shareElems (h : s.Canon) {ctx l} : (s.shareElems ctx l).Canon := h.foldl fun _ _ h => h.readVa

theorem State.Canon.writeElem (h : s.Canon) {ctx n p v} : (s.writeElem ctx n p v).Canon := by
  unfold State.writeElem
  split
  · exact h.storeLm
  · exact h.writeVa
  · exact h

theorem State.Canon.readUnit (h : s.Canon) {c x n l scale} {k : State → List Nat → Nat → UnitRes}
    (hf : ∀ s l v, s.Canon → Holds UnitRes.Canon (k s l v)) : Holds UnitRes.Canon (s.readUnit c x n l scale k) := by
  unfold State.readUnit
  extract_lets ctx vas
  split
  · next e => exact hf _ _ _ (h.agentAccess.of e).shareElems
  · next e => exact ⟨(h.agentAccess.of e :)⟩
  · next e => exact ⟨(h.agentAccess.of e :)⟩
  · next e => exact ⟨(h.agentAccess.of e :)⟩
  · exact ⟨trivial⟩

theorem lstatUnit_canon (h : s.Canon) {c x} : Holds UnitRes.Canon (lstatUnit s c x) := by
  unfold lstatUnit
  extract_lets w0 t n depth f table
  split
  · exact ⟨h⟩
  split
  · exact ⟨h⟩
  refine h.readUnit fun s vals sc h => ?_
  extract_lets m ws
  have hm : Memory.wf m = true := Memory.wf_foldl (Memory.wf_mcut _ _ h.planes) fun _ _ w => Memory.wf_mstore _ _ _ w
  exact ⟨(h.withPlanes hm).modPress⟩

theorem streamUnit_canon (h : s.Canon) {c x} : Holds UnitRes.Canon (streamUnit s c x) := by
  unfold streamUnit
  dsimp only
  split
  · exact ⟨h⟩
  split
  · exact ⟨h⟩
  split
  · exact ⟨h⟩
  refine h.readUnit fun _ _ _ h => ?_
  exact ⟨h.foldl fun _ _ h => h.accPut⟩

theorem drainUnit_canon (h : s.Canon) {c x} : Holds UnitRes.Canon (drainUnit s c x) := by
  unfold drainUnit
  dsimp only
  split
  · exact ⟨h⟩
  split
  · next e => exact ⟨(h.agentAccess.of e :)⟩
  · next e => exact ⟨(h.agentAccess.of e :)⟩
  · next e => exact ⟨(h.agentAccess.of e :)⟩
  · exact ⟨trivial⟩
  · next e =>
      refine ⟨?_⟩
      split
      · exact (((h.agentAccess.of e).foldl fun _ _ h => h.writeElem).iteElse fun h => h.modHead).accClear
      split
      · exact (h.agentAccess.of e).foldl fun _ _ h => h.writeElem
      · exact ((h.agentAccess.of e).foldl fun _ _ h => h.writeElem).modHead

theorem aclrUnit_canon (h : s.Canon) {c x} : Holds UnitRes.Canon (aclrUnit s c x) := ⟨h.accClear⟩

theorem acopyUnit_canon (h : s.Canon) {c x} : Holds UnitRes.Canon (acopyUnit s c x) :=
  ⟨h.foldl fun _ _ h => h.accSet⟩

theorem aloadUnit_canon (h : s.Canon) {c x} : Holds UnitRes.Canon (aloadUnit s c x) := by
  unfold aloadUnit
  dsimp only
  split
  · exact ⟨h⟩
  refine h.readUnit fun _ _ _ h => ?_
  exact ⟨h.foldl fun _ _ h => h.accPut⟩

theorem shareUnit_canon (h : s.Canon) {c x} : Holds UnitRes.Canon (shareUnit s c x) := by
  unfold shareUnit
  dsimp only
  split
  · exact ⟨h.modPress⟩
  · exact ⟨h⟩

theorem execLstat_canon (h : s.Canon) {fid} : Holds NextCanon (execLstat fid s) :=
  h.runUnit fun _ _ _ h => lstatUnit_canon h

theorem execFlip_canon (h : s.Canon) {fid} : Holds NextCanon (execFlip fid s) := h.runUnit fun _ _ _ h => ⟨h⟩

theorem execStream_canon (h : s.Canon) {fid} : Holds NextCanon (execStream fid s) :=
  h.runUnit fun _ _ _ h => streamUnit_canon h

theorem execAclr_canon (h : s.Canon) {fid} : Holds NextCanon (execAclr fid s) :=
  h.runUnit fun _ _ _ h => aclrUnit_canon h

theorem execDrain_canon (h : s.Canon) {fid} : Holds NextCanon (execDrain fid s) :=
  h.runUnit fun _ _ _ h => drainUnit_canon h

theorem execAcopy_canon (h : s.Canon) {fid} : Holds NextCanon (execAcopy fid s) :=
  h.runUnit fun _ _ _ h => acopyUnit_canon h

theorem execAload_canon (h : s.Canon) {fid} : Holds NextCanon (execAload fid s) :=
  h.runUnit fun _ _ _ h => aloadUnit_canon h

theorem execPressMark_canon (h : s.Canon) {fid} : Holds NextCanon (execPressMark fid s) :=
  h.runUnit fun _ _ _ h => ⟨h⟩

theorem execShare_canon (h : s.Canon) {fid} : Holds NextCanon (execShare fid s) :=
  h.runUnit fun _ _ _ h => shareUnit_canon h

theorem State.Canon.pressLeave (h : s.Canon) {c} : (s.pressLeave c).Canon :=
  h.modPress.planesFreed.iteThen fun h => h.pressIdle

/-! ## Machine/Page -/

theorem State.Canon.fillCore (h : s.Canon) {c e} : (s.fillCore c e).Canon := h.modCore

theorem State.Canon.fillForme (h : s.Canon) {f e} : (s.fillForme f e).Canon := h.modForme

theorem State.Canon.answerMiss (h : s.Canon) {m} : (s.answerMiss m).Canon := h.foldl fun _ _ h => h.advance

theorem State.Canon.waitFetch (h : s.Canon) {u} : (s.waitFetch u).Canon := by
  unfold State.waitFetch
  exact h.same.modThr

theorem State.Canon.answerAbsent (h : s.Canon) {m} : (s.answerAbsent m).Canon :=
  (h.openFault.iteThen fun h => h.waitFetch).ite (h.foldl fun _ _ h => h.modCore.claimReady)

theorem execTableWalk_canon (h : s.Canon) {fid} : Holds NextCanon (execTableWalk fid s) := by
  unfold execTableWalk
  dsimp only
  split
  · exact notEnabled_canon
  split
  · exact ⟨(h.setForme.foldl fun _ _ h => h.fillCore).foldl fun _ _ h => h.answerMiss⟩
  split
  · exact notEnabled_canon
  split
  · exact ⟨h.setForme.foldl fun _ _ h => h.answerAbsent⟩
  · exact ⟨(h.setForme.markMask.markEntry.fillForme.foldl fun _ _ h => h.fillCore).foldl fun _ _ h => h.answerMiss⟩

theorem execFaultRingWrite_canon (h : s.Canon) {ctx} : Holds NextCanon (execFaultRingWrite ctx s) := by
  unfold execFaultRingWrite
  dsimp only
  split
  · exact notEnabled_canon
  split
  · exact notEnabled_canon
  split
  · exact notEnabled_canon
  · next e =>
      split
      · exact notEnabled_canon
      · exact ⟨(h.reach.of e).homeWrite.homeWrite.same.modCtx⟩

theorem State.Canon.lateTrapNow (h : s.Canon) {u} : (s.lateTrapNow u).Canon := by
  unfold State.lateTrapNow
  dsimp only
  split
  · exact h.modThr.trap.ite h
  · exact h

theorem State.Canon.discardTrap (h : s.Canon) {e cls} : (s.discardTrap e cls).Canon := h.ite h.modThr.lateTrapNow

theorem State.Canon.replayCheck (h : s.Canon) {c e tracked} : Holds RaceRes.Canon (s.replayCheck c e tracked) := by
  unfold State.replayCheck
  dsimp only
  split
  · exact h.raceCheck
  split
  · exact ⟨h⟩
  split
  · next e => exact ⟨(h.reach.of e).plantWord⟩
  · exact ⟨h.openFault⟩

theorem State.Canon.replayStore (h : s.Canon) {c e pte pa home} : (s.replayStore c e pte pa home).Canon := by
  unfold State.replayStore
  dsimp only
  split
  · exact h.noteStore.dropAlias.install.patchCopies.wrote
  split
  · exact h.noteStore.homeRequest.homeWrite
  split
  · exact (h.noteStore.iteElse fun h => h.homeRequest.recallAll.install.setEntry).modCore.wrote
  · exact h.noteStore.iteElse fun h => h.homeRequest.recallAll.install.setEntry

theorem State.Canon.dropEntries (h : s.Canon) {c p} : (s.dropEntries c p).Canon := h.modCore

theorem State.Canon.discardFrom (h : s.Canon) {c e cls} : (s.discardFrom c e cls).Canon := h.dropEntries.discardTrap

theorem State.Canon.replayEntry (h : s.Canon) {c e} : Holds OptCanon (s.replayEntry c e) := by
  unfold State.replayEntry
  dsimp only
  split
  · exact ⟨h⟩
  split
  · exact ⟨h.markVa.discardFrom⟩
  split
  · exact ⟨trivial⟩
  split
  · next e => exact ⟨(h.replayCheck.of e :)⟩
  · next e => exact ⟨(h.replayCheck.of e).discardFrom⟩
  · next e => exact ⟨(h.replayCheck.of e).markMask.markEntry.replayStore.dropEntries⟩

theorem State.Canon.replayLog (h : s.Canon) {c l} : Holds OptCanon (s.replayLog c l) := by
  induction l generalizing s with
  | nil => exact ⟨h⟩
  | cons e l ih =>
    unfold State.replayLog
    extract_lets k
    split
    · exact ih h
    split
    · exact ih h
    split
    · next e => exact ih (h.replayEntry.of e)
    · exact ⟨trivial⟩

theorem State.Canon.replayAll (h : s.Canon) {ctx l} : Holds OptCanon (s.replayAll ctx l) := by
  induction l generalizing s with
  | nil => exact ⟨h⟩
  | cons c l ih =>
    unfold State.replayAll
    split
    · next e => exact ih (h.replayLog.of e)
    · exact ⟨trivial⟩

theorem State.Canon.reopen (h : s.Canon) {ctx page} : (s.reopen ctx page).Canon := by
  unfold State.reopen
  dsimp only
  split
  · split
    · exact h.openFault
    · exact h
  · exact h

theorem State.Canon.drained (h : s.Canon) : (s.drained).Canon := h.foldl fun _ _ h => h.lookAgain

theorem State.Canon.heldReleases (h : s.Canon) : (s.heldReleases).Canon :=
  h.foldl fun _ _ h => h.foldl fun _ _ h => h.ite h.trapRelease

theorem State.Canon.logsFreed (h : s.Canon) {cores} : (s.logsFreed cores).Canon :=
  h.fireIf.drained.heldReleases.fireReleases

theorem State.Canon.answerPresses (h : s.Canon) {ctx page resolve} : (s.answerPresses ctx page resolve).Canon := by
  unfold State.answerPresses
  dsimp only
  exact (h.foldl fun _ _ h => h.setPq).same.fireIf

theorem State.Canon.shootPoint (h : s.Canon) {die c} : Holds OptCanon (s.shootPoint die c) := by
  unfold State.shootPoint
  dsimp only
  split
  · exact ⟨trivial⟩
  split
  · exact ⟨trivial⟩
  · exact ⟨(h.foldl fun _ _ h => h.shootFence).endClaims.modCore.modForme.modDie⟩

theorem execShoot_canon (h : s.Canon) {die ctx va len icache} :
    Holds NextCanon (execShoot die ctx va len icache s) := by
  unfold execShoot
  dsimp only
  split
  · exact notEnabled_canon
  · exact ⟨h.modDie⟩

theorem execPageThaw_canon (h : s.Canon) {ctx va} : Holds NextCanon (execPageThaw ctx va s) := by
  unfold execPageThaw
  dsimp only
  split
  · split
    · exact notEnabled_canon
    · exact ⟨h.storeMem.same.fire.foldl fun _ _ h => h.lookAgain⟩
  · exact notEnabled_canon

theorem State.Canon.recallLine (h : s.Canon) {line} : (s.recallLine line).Canon := by
  unfold State.recallLine
  extract_lets raws r s1 s2 s3
  have h2 : s2.Canon := h.recallAll.foldl fun _ _ h => (h.ite h.storeMaskMem).modCore
  have h3 : s3.Canon := h2.iteElse fun h => h.wrote
  exact h3.iteThen fun h => h.logEvent

theorem execHomePageRecall_canon (h : s.Canon) {pa len} : Holds NextCanon (execHomePageRecall pa len s) := by
  unfold execHomePageRecall
  split
  · exact notEnabled_canon
  · exact ⟨(h.foldl fun _ _ h => h.recallLine).forgetFrames⟩

theorem execAssnDieBarrier_canon (h : s.Canon) {die ctx idx} : Holds NextCanon (execAssnDieBarrier die ctx idx s) := by
  unfold execAssnDieBarrier
  dsimp only
  split
  · exact ⟨h.setBar⟩
  · exact notEnabled_canon

theorem execAssnGalleyChannel_canon (h : s.Canon) {die ctx ch} :
    Holds NextCanon (execAssnGalleyChannel die ctx ch s) := by
  unfold execAssnGalleyChannel
  split
  · exact ⟨h.modChan.restoreChans⟩
  · exact notEnabled_canon

theorem State.Canon.discardQueue (h : s.Canon) {c} : (s.discardQueue c).Canon := h.dropHead.setPq

theorem State.Canon.discardStopped (h : s.Canon) {u r} : (s.discardStopped u r).Canon :=
  h.modGrp.ite (h.discardQueue.ite h)

theorem execTresResume_canon (h : s.Canon) {die ctx seq pc a0 a1} :
    Holds NextCanon (execTresResume die ctx seq pc a0 a1 s) := by
  unfold execTresResume
  dsimp only
  split
  · exact notEnabled_canon
  · exact ⟨((h.discardStopped.ite h).iteThen fun h => h.modThr).resume.modDie⟩

theorem execTresEnd_canon (h : s.Canon) {_die ctx seq} : Holds NextCanon (execTresEnd _die ctx seq s) := by
  unfold execTresEnd
  split
  · exact notEnabled_canon
  · exact ⟨h.endThread⟩

/-! ## Machine/Queue -/

theorem State.Canon.markDesc (h : s.Canon) {ctx q} : (s.markDesc ctx q).Canon := h.markVa

theorem State.Canon.modQs (h : s.Canon) {ctx q f} : (s.modQs ctx q f).Canon := h.modCtx

theorem State.Canon.setQ (h : s.Canon) {ctx q d st} : (s.setQ ctx q d st).Canon := h.homeWrite.modQs

theorem State.Canon.stopQ (h : s.Canon) {ctx q d} : (s.stopQ ctx q d).Canon := h.setQ.countDie

theorem State.Canon.setKState (h : s.Canon) {kid st} : (s.setKState kid st).Canon := h.modKer.traceHw

theorem State.Canon.noteKernel (h : s.Canon) {ctx q die i st} : (s.noteKernel ctx q die i st).Canon :=
  h.ite h.setKer.setKState

theorem State.Canon.markSem (h : s.Canon) {ctx va} : (s.markSem ctx va).Canon := h.ite h.markWalk

theorem State.Canon.depMet (h : s.Canon) {ctx die r} : Holds OptFstCanon (s.depMet ctx die r) := by
  unfold State.depMet
  dsimp only
  split
  · exact h.someFst
  · split
    · exact h.someFst
    split
    · exact h.markSem.someFst
    · exact h.openFault.someFst
    · exact ⟨trivial⟩
    · exact h.markSem.someFst
  · exact h.someFst
  · exact h.someFst

theorem State.Canon.passIndex (h : s.Canon) {ctx q d kid code} : Holds Passed.Canon (s.passIndex ctx q d kid code) := by
  unfold State.passIndex
  dsimp only
  split
  · exact ⟨h.markEntry.homeWrite.homeWrite.modQs.fire⟩
  · exact ⟨h.openFault.modQs⟩
  · exact ⟨h.stopQ⟩
  · exact ⟨trivial⟩
  · exact ⟨trivial⟩

theorem State.Canon.readHead (h : s.Canon) {ctx q d} : Holds HeadLook.Canon (s.readHead ctx q d) := by
  unfold State.readHead
  dsimp only
  split
  · exact ⟨h.markEntry.homeRead⟩
  · exact ⟨h.openFault.modQs⟩
  · exact ⟨h.stopQ⟩
  · exact ⟨trivial⟩
  · exact ⟨trivial⟩

theorem State.Canon.setHead (h : s.Canon) {ctx q d met} : (s.setHead ctx q d met).Canon :=
  h.setQ.modQs.modQs.noteKernel.ite h.setQ.modQs.noteKernel

theorem State.Canon.descStops (h : s.Canon) {ctx q d} : Holds OptCanon (s.descStops ctx q d) := by
  unfold State.descStops
  split
  · exact ⟨h.stopQ.ite h⟩
  split
  · exact ⟨h.setQ⟩
  · exact ⟨trivial⟩

theorem State.Canon.judge (h : s.Canon) {ctx q d n} : Holds OptCanon (s.judge ctx q d n) := by
  induction n generalizing s d with
  | zero => exact ⟨h⟩
  | succ n ih =>
    unfold State.judge
    extract_lets x pass
    have hpass : ∀ {t : State} {code}, t.Canon → Holds OptCanon (pass t code) := by
      intro t code h
      unfold pass
      split
      · next e => exact ih (h.passIndex.of e)
      · next e => exact ⟨(h.passIndex.of e :)⟩
      · next e => exact ⟨(h.passIndex.of e :)⟩
      · exact ⟨trivial⟩
    clear_value pass
    split
    · next e => exact ⟨(h.descStops.of e :)⟩
    split
    · exact ⟨h.setQ.modQs⟩
    split
    · exact hpass h
    split
    · exact ⟨h⟩
    split
    · exact ⟨trivial⟩
    · next e => exact ⟨(h.readHead.of e :)⟩
    · next e => exact ⟨(h.readHead.of e :)⟩
    next e =>
    have h : State.Canon _ := h.readHead.of e
    split
    · exact ⟨h.setHead⟩
    split
    · exact ⟨trivial⟩
    · next e => exact hpass (h.depMet.of e)
    · next e => exact ⟨State.Canon.setHead (h.depMet.of e)⟩
    · next e => exact ⟨State.Canon.setHead (h.depMet.of e)⟩

theorem State.Canon.settleQueue (h : s.Canon) {ctx q d moved} : Holds OptCanon (s.settleQueue ctx q d moved) :=
  h.modQs.judge

theorem State.Canon.skipRecords (h : s.Canon) {ctx q d l code} : (s.skipRecords ctx q d l code).Canon :=
  h.modQs.foldl fun _ _ h => h.noteKernel

theorem State.Canon.cutQueue (h : s.Canon) {ctx q d c} : (s.cutQueue ctx q d c).Canon := h.modQs.skipRecords

theorem State.Canon.enableQueue (h : s.Canon) {ctx q d} : Holds OptCanon (s.enableQueue ctx q d) := by
  unfold State.enableQueue
  dsimp only
  refine State.Canon.settleQueue ?_
  split
  · exact h.modQs.cutQueue
  · exact h.modQs

theorem State.Canon.owe (h : s.Canon) {ctx csem qs} : (s.owe ctx csem qs).Canon :=
  h.ite (h.markSem.foldl fun _ _ h => h.ite h.modQs)

theorem State.Canon.examine (h : s.Canon) {ctx q d y} : Holds Examined.Canon (s.examine ctx q d y) := by
  unfold State.examine
  dsimp only
  split
  · exact ⟨h⟩
  split
  · refine iteInduction (fun _ => ?_) fun _ => ?_
    · split <;> exact ⟨h.markEntry.homeRead⟩
    · exact ⟨h.markEntry.homeRead⟩
  · exact ⟨h.openFault⟩
  · exact ⟨h⟩
  · exact ⟨h⟩
  · exact ⟨h⟩

theorem State.Canon.lookRound (h : s.Canon) {ctx qs} : (s.lookRound ctx qs).Canon := by
  unfold State.lookRound
  dsimp only
  refine h.foldl fun s x h => ?_
  refine h.modQs.foldl fun s x h => ?_
  split
  · next e => exact h.examine.of e
  · next e => exact (h.examine.of e).modQs
  · next e => exact (h.examine.of e).skipRecords.owe

theorem State.Canon.lookRounds (h : s.Canon) {ctx qs n} : (s.lookRounds ctx qs n).Canon := by
  induction n generalizing s with
  | zero => exact h
  | succ n ih => exact ih h.lookRound

theorem State.Canon.lookDue (h : s.Canon) {ctx qs} : (s.lookDue ctx qs).Canon := h.ite h.lookRounds

theorem State.Canon.settleOpen (h : s.Canon) {ctx} : (s.settleOpen ctx).Canon := by
  unfold State.settleOpen
  split
  · exact h
  · exact h.lookDue.foldl fun _ _ h => (h.markDesc.settleQueue.getD h).ite h

theorem State.Canon.cascade (h : s.Canon) {ctx csem} : Holds OptCanon (s.cascade ctx csem) := by
  unfold State.cascade
  split
  · exact ⟨h⟩
  split
  · exact ⟨trivial⟩
  · exact Holds.any.map fun _ _ => h.owe.settleOpen

theorem State.Canon.onQueue (h : s.Canon) {ctx q name} {f : State → QDesc → QSched → Option State}
    (hf : ∀ s d x, s.Canon → Holds OptCanon (f s d x)) : Holds NextCanon (s.onQueue ctx q name f) := by
  unfold State.onQueue
  split
  · exact notEnabled_canon
  split
  · exact notEnabled_canon
  split
  · next e => exact ⟨((hf _ _ _ h.markDesc).of e :)⟩
  · exact notEnabled_canon

theorem execQueueDoorbell_canon (h : s.Canon) {ctx q} : Holds NextCanon (execQueueDoorbell ctx q s) := by
  unfold execQueueDoorbell
  refine h.onQueue fun _ _ _ h => ?_
  split
  · exact ⟨h⟩
  · exact ⟨h⟩
  · exact h.settleQueue
  split
  · next e => exact ⟨(h.descStops.of e :)⟩
  split
  · exact h.settleQueue
  · exact ⟨h⟩

theorem execQueueEnable_canon (h : s.Canon) {ctx q} : Holds NextCanon (execQueueEnable ctx q s) := by
  unfold execQueueEnable
  refine h.onQueue fun _ _ _ h => ?_
  split
  · exact ⟨trivial⟩
  split
  · exact ⟨h⟩
  · exact h.enableQueue

theorem execQueueDisable_canon (h : s.Canon) {ctx q} : Holds NextCanon (execQueueDisable ctx q s) := by
  unfold execQueueDisable
  refine h.onQueue fun _ _ _ h => ?_
  split
  · exact ⟨trivial⟩
  · exact ⟨h.setQ⟩

theorem execQueueCancel_canon (h : s.Canon) {ctx q c} : Holds NextCanon (execQueueCancel ctx q c s) := by
  unfold execQueueCancel
  refine h.onQueue fun _ _ _ h => ?_
  split
  · exact ⟨trivial⟩
  split
  · exact ⟨h.modQs⟩
  · exact ⟨h⟩
  · exact ⟨h⟩
  split
  · exact h.cutQueue.settleQueue
  · exact ⟨h.cutQueue⟩

theorem execDependenceMet_canon (h : s.Canon) {ctx q} : Holds NextCanon (execDependenceMet ctx q s) := by
  unfold execDependenceMet
  refine h.onQueue fun _ _ _ h => ?_
  split
  · exact ⟨trivial⟩
  split
  · next e =>
      split
      · exact ⟨trivial⟩
      · exact ⟨(h.settleQueue.of e :)⟩
  · exact ⟨trivial⟩

theorem State.Canon.submit (h : s.Canon) {rd r q v p nb} : (s.submit rd r q v p nb).Canon := by
  unfold State.submit
  extract_lets ctx dva ends again
  have hends {t : State} {x} (ht : t.Canon) (hx : Holds Res.Canon x) : (ends t x).Canon := by
    cases x with
    | stop s c w => exact State.Canon.notReady hx.holds
    | ok s p => exact ht
    | denied s => exact ht
    | trap s c va x => exact ht
  have hagain {t : State} {va} (ht : t.Canon) : (again t va).Canon :=
    (hends ht (ht.claim.stopOn fun _ h => h)).ite (hends ht (ht.claim.stopClaim fun _ h => h.send))
  clear_value ends again
  split
  · exact hagain h
  split
  · exact h.notReady
  dsimp only
  split
  · exact h.openFault.notReady
  · exact h.markWalk.trapMe
  · exact hagain h.markWalk
  · exact hagain h.markWalk
  · exact h.markDesc.markEntry.homeWrite.homeWrite.endOp.endOp.modMe.completeP

theorem execKsub_canon (h : s.Canon) {rd rs1 rs2 nb} : Holds NextCanon (execKsub rd rs1 rs2 nb s) := by
  unfold execKsub
  dsimp only
  split
  · exact ⟨h.trapMe⟩
  split
  · exact ⟨h.complete⟩
  split
  · exact ⟨h.markWalk.openFault.notReady⟩
  · exact ⟨h.markWalk.trapMe⟩
  · exact ⟨h.markWalk.trapMe⟩
  refine iteInduction (fun _ => ⟨h.markWalk.complete⟩) fun _ => ?_
  split
  · exact ⟨h.markWalk.releaseStep.notReady⟩
  split
  · next e => exact ⟨(h.markWalk.releaseStep.attempt.of e).trapMe⟩
  · next e => exact ⟨(h.markWalk.releaseStep.attempt.of e).complete⟩
  · next e => exact ⟨(h.markWalk.releaseStep.attempt.of e).notReady⟩
  · next e => exact ⟨(h.markWalk.releaseStep.attempt.of e).touch.endOp.submit⟩

/-! ## Machine/Group -/

theorem State.Canon.markHints (h : s.Canon) {ctx r} : (s.markHints ctx r).Canon := by
  unfold State.markHints
  split
  · exact h
  refine h.foldl fun s x h => ?_
  split
  · next e =>
      split
      · next e1 => exact (h.reach.of e).reach.of e1
      · exact h.reach.of e
  · exact h

theorem State.Canon.putConst (h : s.Canon) {c n v} : (s.putConst c n v).Canon := h.storeLm

theorem State.Canon.putPlaceWords (h : s.Canon) {c} : (s.putPlaceWords c).Canon := h.putConst.putConst.putConst

theorem State.Canon.putWindow (h : s.Canon) {c rank gid kid} : (s.putWindow c rank gid kid).Canon :=
  ((h.withLm (Memory.wf_mcut _ _ h.lm)).foldl fun _ _ h => h.putConst).putPlaceWords.foldl fun _ _ h => h.putConst

theorem State.Canon.startThread (h : s.Canon) {gid kid t} : (s.startThread gid kid t).Canon := by
  unfold State.startThread
  dsimp only
  exact h.same.setThr

theorem State.Canon.traceGroup (h : s.Canon) {gid kind} : (s.traceGroup gid kind).Canon := h.traceHw

theorem State.Canon.placeGroup (h : s.Canon) {kid place} : (s.placeGroup kid place).Canon := by
  unfold State.placeGroup
  extract_lets k a gid cores tpg fresh g s1 s2 idle bars s3 s4 s5
  have h3 : s3.Canon := h.same.setGrp.modKer.iteThen fun h => h.modForme
  have h4 : s4.Canon := h3.foldl fun _ _ h => h.modCore.setPq.accClear.putWindow.acquireStep
  have h5 : s5.Canon := h4.foldl fun _ _ h => h.startThread
  exact h5.traceGroup

theorem State.Canon.clearCore (h : s.Canon) {c ctx} : (s.clearCore c ctx).Canon :=
  ((h.ite h.count).iteElse fun h => h.discardQueue).setPq.accClear.modCore.writeBackRaw

theorem State.Canon.endGroup (h : s.Canon) {gid} : (s.endGroup gid).Canon := by
  unfold State.endGroup
  extract_lets g placed s1 formes s2 s3 s4 s5 s6 k
  have h1 : s1.Canon := h.iteThen fun h => h.foldl fun _ _ h => h.clearCore
  have h2 : s2.Canon := h1.iteThen fun h => h.foldl fun _ _ h => h.modForme
  have h3 : s3.Canon := h2.iteElse fun h => h.foldl fun _ _ h => h.ite h.count
  have h5 : s5.Canon := h3.modGrp.iteThen fun h => h.foldl fun _ _ h => h.pressLeave
  exact h5.modKer.iteThen fun h => h.setKState

theorem execGroupQueueDiscard_canon (h : s.Canon) {gid} : Holds NextCanon (execGroupQueueDiscard gid s) := by
  unfold execGroupQueueDiscard
  dsimp only
  split
  · exact ⟨h.endGroup⟩
  · exact notEnabled_canon

theorem State.Canon.killGroup (h : s.Canon) {gid} : (s.killGroup gid).Canon :=
  (h.foldl fun _ _ h => h.endThread.leaveSlot).endGroup

theorem State.Canon.mergeRaw (h : s.Canon) {c} : (s.mergeRaw c).Canon := by
  unfold State.mergeRaw
  dsimp only
  exact (h.foldl fun _ _ h => h.ite h.mergeHome).modCore

theorem State.Canon.takeCounts (h : s.Canon) {c ctx} : (s.takeCounts c ctx).Canon :=
  h.foldl fun _ _ h => h.modCtx.modCore.ite h

theorem State.Canon.leaveCore (h : s.Canon) {gid ctx c} : (s.leaveCore gid ctx c).Canon := by
  unfold State.leaveCore
  dsimp only
  exact h.mergeRaw.takeCounts.setPq.accClear.modCore

theorem State.Canon.saveThread (h : s.Canon) {u} : (s.saveThread u).Canon := by
  unfold State.saveThread
  dsimp only
  exact h.endAllClaims.leaveTables.modThr

theorem State.Canon.saveGroup (h : s.Canon) {gid} : (s.saveGroup gid).Canon := by
  unfold State.saveGroup
  extract_lets g us s1 saves fb s2 formes s3 s4 s5 s6
  have h1 : s1.Canon := h.foldl fun _ _ h => h.saveThread
  have h2 : s2.Canon := h1.foldl fun _ _ h => h.leaveCore
  have h3 : s3.Canon := h2.iteThen fun h => h.foldl fun _ _ h => h.modForme
  have h6 : s6.Canon := h3.traceGroup.modGrp.foldl fun _ _ h => h.pressLeave
  exact h6.parkFreed

theorem execGroupSave_canon (h : s.Canon) {gid} : Holds NextCanon (execGroupSave gid s) := by
  unfold execGroupSave
  dsimp only
  split
  · exact ⟨h.saveGroup⟩
  · exact notEnabled_canon

theorem State.Canon.resumeThread (h : s.Canon) {l u} : (s.resumeThread l u).Canon := by
  unfold State.resumeThread
  dsimp only
  split
  · exact h.same.setThr
  · exact h.same.setThr
  · exact h.same.setThr.count.ite h.same.setThr
  · exact h.same.setThr
  · exact h.same.setThr

theorem State.Canon.restoreRank (h : s.Canon) {l r c} : (s.restoreRank l r c).Canon := by
  unfold State.restoreRank
  dsimp only
  exact (h.withLm (Memory.wf_mpaste _ _ (Memory.wf_mcut _ _ h.lm))).same.modCore.setPq.putPlaceWords.acquireStep

theorem State.Canon.replayRestored (h : s.Canon) {ctx cores} : Holds OptCanon (s.replayRestored ctx cores) := by
  unfold State.replayRestored
  have hlogs : Holds OptCanon (cores.foldl (fun (r : Option State) c =>
      r.bind (fun s => s.replayLog c (s.dueEntries c ctx))) (some s)) :=
    Holds.foldl ⟨h⟩ fun _ _ h => h.bind fun _ h => h.replayLog
  exact hlogs.map fun _ h => h.logsFreed.foldl fun _ _ h => h.reopen

theorem State.Canon.restoreGroup (h : s.Canon) {gid place} : Holds OptCanon (s.restoreGroup gid place) := by
  unfold State.restoreGroup
  extract_lets g cores l s1 s2 s3 s4 s5 s6 p src s7
  have h1 : s1.Canon := h.modGrp
  have h2 : s2.Canon := h1.modForme.ite h1
  have h3 : s3.Canon := h2.foldl fun _ _ h => h.restoreRank
  have h4 : s4.Canon := h3.foldl fun _ _ h => h.resumeThread
  have h5 : s5.Canon := h4.ite h4.modGrp
  have h6 : s6.Canon := h5.planesFreed.traceGroup
  have h7 : s7.Canon := h6.same.ite h6
  exact h7.replayRestored.map fun _ h => h.foldl fun _ _ h => h.lateTrapNow

theorem execGroupRestore_canon (h : s.Canon) {gid place} : Holds NextCanon (execGroupRestore gid place s) := by
  unfold execGroupRestore
  dsimp only
  refine iteInduction (fun _ => ?_) fun _ => ?_
  · split
    · next e => exact ⟨(h.restoreGroup.of e :)⟩
    · exact notEnabled_canon
  · exact notEnabled_canon

/-! ## Machine/Kernel -/

theorem State.Canon.loadConsts (h : s.Canon) {kid} : Holds OptFstCanon (s.loadConsts kid) := by
  unfold State.loadConsts
  extract_lets k va vas
  split
  · exact h.someFst
  split
  · exact h.modKer.someFst
  split
  · next e => exact (State.Canon.foldl (h.lookAll.of e) fun _ _ h => h.readVa).modKer.someFst
  · next e => exact (State.Canon.openFault (h.lookAll.of e)).modKer.someFst
  · next e => exact ⟨(h.lookAll.of e :)⟩
  · exact ⟨trivial⟩
  · exact ⟨trivial⟩

theorem State.Canon.killKernel (h : s.Canon) {kid st} : (s.killKernel kid st).Canon :=
  h.setKState.modKer.foldl fun _ _ h => h.killGroup

theorem State.Canon.faultKernel (h : s.Canon) {kid} : Holds OptCanon (s.faultKernel kid) := h.killKernel.cascade

theorem State.Canon.faulted (h : s.Canon) {kid name} : Holds NextCanon (s.faulted kid name) := by
  unfold State.faulted
  split
  · next e => exact ⟨(h.faultKernel.of e :)⟩
  · exact notEnabled_canon

theorem State.Canon.judgeHead (h : s.Canon) {ctx d r} : Holds OptFstCanon (s.judgeHead ctx d r) := by
  unfold State.judgeHead
  dsimp only
  split
  · exact h.someFst
  refine iteInduction (fun _ => ⟨trivial⟩) fun _ => ?_
  refine iteInduction (fun _ => (h.foldl fun _ _ h => h.markSem).someFst) fun _ => ?_
  split
  · exact (h.foldl fun _ _ h => h.markSem).someFst
  · split <;> exact (h.foldl fun _ _ h => h.markSem).someFst

theorem State.Canon.lookHead (h : s.Canon) {die ctx q} : Holds OptFstCanon (s.lookHead die ctx q) := by
  unfold State.lookHead
  extract_lets x t
  have ht : t.Canon := h.markDesc
  clear_value t
  split
  · exact ⟨h⟩
  split
  · exact ⟨trivial⟩
  · exact ⟨trivial⟩
  · exact ⟨h⟩
  extract_lets blocked
  clear_value blocked
  split
  · next e => exact ⟨(ht.descStops.of e :)⟩
  split
  · exact ⟨ht⟩
  split
  · exact ⟨trivial⟩
  · next e => exact ⟨(ht.readHead.of e :)⟩
  · next e => exact ⟨(ht.readHead.of e :)⟩
  · next e => exact (State.Canon.judgeHead (ht.readHead.of e)).map fun _ h => h

theorem State.Canon.lookHeads (h : s.Canon) {die ctx} : Holds OptFstCanon (s.lookHeads die ctx) :=
  Holds.foldl ⟨h⟩ fun _ _ h => h.bind fun _ h => h.lookHead.map fun _ h => h

theorem State.Canon.admitHead (h : s.Canon) {ctx x place} : Holds OptFstCanon (s.admitHead ctx x place) := by
  unfold State.admitHead
  extract_lets kid key src k s1 s2
  have h1 : s1.Canon := h.same.setKState
  have h2 : s2.Canon := h1.modQs.markHints
  split
  · next e => exact ⟨(h2.loadConsts.of e :)⟩
  · next e => exact (State.Canon.faultKernel (h2.loadConsts.of e)).map fun _ h => h
  · exact ⟨trivial⟩

theorem State.Canon.takeHead (h : s.Canon) {ctx x} : Holds OptCanon (s.takeHead ctx x) := by
  unfold State.takeHead
  extract_lets pass
  have hpass : ∀ {kid code after}, (∀ s, s.Canon → Holds OptFstCanon (after s)) →
      Holds OptCanon (pass kid code after) := by
    intro kid code after k
    unfold pass
    split
    · next e =>
      refine (k _ (h.markDesc.passIndex.of e)).map fun y hy => ?_
      split
      · exact hy.settleQueue.getD hy
      · exact hy
    · next e => exact ⟨(h.markDesc.passIndex.of e :)⟩
    · next e => exact ⟨(h.markDesc.passIndex.of e :)⟩
    · exact ⟨trivial⟩
  clear_value pass
  split
  · exact hpass fun _ h => ⟨h⟩
  · exact hpass fun _ h => h.admitHead.map fun _ h => h
  · exact ⟨trivial⟩

theorem execKernelAdmit_canon (h : s.Canon) {die ctx} : Holds NextCanon (execKernelAdmit die ctx s) := by
  unfold execKernelAdmit
  split
  · exact notEnabled_canon
  extract_lets news t
  have h : t.Canon := h.settleOpen.ite h
  clear_value t
  split
  · split
    · exact ⟨h⟩
    · exact notEnabled_canon
  next e =>
  have h : State.Canon _ := h.lookHeads.of e
  split
  · split
    · exact ⟨h⟩
    · exact notEnabled_canon
  split
  · next e => exact ⟨(h.takeHead.of e :)⟩
  · exact notEnabled_canon

theorem execGroupPlace_canon (h : s.Canon) {kid} : Holds NextCanon (execGroupPlace kid s) := by
  unfold execGroupPlace
  dsimp only
  split
  · exact notEnabled_canon
  split
  · exact notEnabled_canon
  · next e => exact (h.loadConsts.of e).faulted
  · next e =>
      split
      · split
        · exact ⟨(h.loadConsts.of e :)⟩
        · exact notEnabled_canon
      split
      · exact notEnabled_canon
      split
      · exact notEnabled_canon
      refine ⟨?_⟩
      refine iteInduction (fun _ => ?_) fun _ => ?_
      · exact (h.loadConsts.of e).markHints.placeGroup
      · exact (h.loadConsts.of e).markHints.placeGroup.setKState

theorem execKernelDrainComplete_canon (h : s.Canon) {kid} : Holds NextCanon (execKernelDrainComplete kid s) := by
  unfold execKernelDrainComplete
  extract_lets k va t
  have ht : t.Canon := h.markVa
  clear_value t
  split
  · exact notEnabled_canon
  split
  · exact ⟨h.setKState⟩
  split
  · exact notEnabled_canon
  · exact ⟨h.openFault.modKer⟩
  · exact h.markSem.faulted
  split
  · exact ht.faulted
  split
  · refine ⟨State.Canon.setKState ?_⟩
    exact ht.same
  · exact ⟨(ht.homeWrite.iteThen fun h => h.tellProxies).setKState⟩

theorem execKernelCancel_canon (h : s.Canon) {kid} : Holds NextCanon (execKernelCancel kid s) := by
  unfold execKernelCancel
  split
  · split
    · exact notEnabled_canon
    · exact ⟨h.killKernel⟩
  · split
    · exact notEnabled_canon
    · exact ⟨h.killKernel⟩
  · split
    · exact notEnabled_canon
    · exact ⟨h.killKernel⟩
  · exact ⟨h⟩
  · exact notEnabled_canon

theorem execKernelFaultMark_canon (h : s.Canon) {kid} : Holds NextCanon (execKernelFaultMark kid s) := by
  unfold execKernelFaultMark
  split
  · split
    · exact notEnabled_canon
    · exact h.faulted
  · split
    · exact notEnabled_canon
    · exact h.faulted
  · split
    · exact notEnabled_canon
    · exact h.faulted
  · exact notEnabled_canon

/-! ## Machine/Context -/

theorem execContextPublish_canon (h : s.Canon) {pa} : Holds NextCanon (execContextPublish pa s) := by
  unfold execContextPublish
  dsimp only
  split
  · exact notEnabled_canon
  split
  · exact ⟨h⟩
  · exact ⟨h.setCtx⟩

theorem State.Canon.runCtx (h : s.Canon) {c} : (s.runCtx c).Canon := by
  unfold State.runCtx
  extract_lets x y t again
  have ht : t.Canon := h.setCtx
  exact ht.same.restoreChans

theorem State.Canon.preempt (h : s.Canon) {c after} : (s.preempt c after).Canon := by
  unfold State.preempt
  extract_lets t stop
  have ht : t.Canon := h.modCtx
  exact ht.same

theorem execTenantSliceEnd_canon (h : s.Canon) {part} : Holds NextCanon (execTenantSliceEnd part s) := by
  unfold execTenantSliceEnd
  dsimp only
  split
  · exact notEnabled_canon
  split
  · exact notEnabled_canon
  · exact ⟨((h.foldl fun _ _ h => h.preempt).foldl fun _ _ h => h.runCtx).same⟩

theorem State.Canon.sliceBegin (h : s.Canon) {c} : Holds OptCanon (s.sliceBegin c) := by
  unfold State.sliceBegin
  dsimp only
  split
  · exact ⟨h.runCtx.iteThen fun h => h.same⟩
  · exact ⟨trivial⟩

theorem State.Canon.preemptRequest (h : s.Canon) {c} : Holds OptCanon (s.preemptRequest c) := by
  unfold State.preemptRequest
  split
  · exact ⟨h.preempt⟩
  · exact ⟨trivial⟩

theorem State.Canon.unmapAll (h : s.Canon) {c} : (s.unmapAll c).Canon := by
  unfold State.unmapAll
  refine ⟨?_, h.lm, h.planes⟩
  dsimp only
  split
  · exact h.mem
  · exact Memory.wf_mcut _ _ h.mem

theorem State.Canon.tearDown (h : s.Canon) {c} : (s.tearDown c).Canon := by
  unfold State.tearDown
  extract_lets s1 kids s2 bar chan s3
  have h1 : s1.Canon := h.foldl fun _ _ h => by
    refine h.ite ?_
    split
    · exact h.setQ
    · exact h.modQs
  have h2 : s2.Canon := h1.foldl fun _ _ h => h.killKernel
  clear_value s1 s2
  have h3 : s3.Canon := h2.same
  exact h3.unmapAll.modCtx

theorem State.Canon.afterSave (h : s.Canon) {c st} : (s.afterSave c st).Canon :=
  h.saveChans.modCtx.tearDown.ite h.saveChans.modCtx.modCtx

theorem State.Canon.saveComplete (h : s.Canon) {c} : Holds OptCanon (s.saveComplete c) := by
  unfold State.saveComplete
  dsimp only
  exact iteInduction (fun _ => ⟨h.afterSave⟩) fun _ => ⟨trivial⟩

theorem State.Canon.freed (h : s.Canon) {c} : Holds OptCanon (s.freed c) := by
  unfold State.freed
  dsimp only
  split
  · exact ⟨h.same⟩
  · exact ⟨trivial⟩

theorem execContextFaultMark_canon (h : s.Canon) {ctx} : Holds NextCanon (execContextFaultMark ctx s) := by
  unfold execContextFaultMark
  split
  · exact ⟨h.modCtx⟩
  · exact ⟨h.modCtx⟩
  · exact ⟨h.preempt⟩
  · exact ⟨h.modCtx⟩
  · exact notEnabled_canon

theorem execContextTeardown_canon (h : s.Canon) {ctx} : Holds NextCanon (execContextTeardown ctx s) := by
  unfold execContextTeardown
  split
  · exact ⟨h.tearDown⟩
  · exact ⟨h.tearDown⟩
  · exact ⟨h.tearDown⟩
  · exact ⟨h.tearDown⟩
  · exact ⟨h.preempt⟩
  · exact ⟨h.modCtx⟩
  · exact notEnabled_canon

theorem execContextMigrate_canon (h : s.Canon) {ctx} : Holds NextCanon (execContextMigrate ctx s) := by
  unfold execContextMigrate
  split
  · exact ⟨h.modCtx⟩
  · exact ⟨h.modCtx⟩
  · exact notEnabled_canon

theorem State.Canon.renumber (h : s.Canon) {a b} : (s.renumber a b).Canon := h.same

theorem execImageRestore_canon (h : s.Canon) {src dst version} :
    Holds NextCanon (execImageRestore src dst version s) := by
  unfold execImageRestore
  dsimp only
  split
  · exact notEnabled_canon
  split
  · exact ⟨h.modCtx⟩
  · exact ⟨h.renumber.setCtx.tearDown⟩

theorem State.Canon.imageOut (h : s.Canon) {c pkg} : Holds OptCanon (s.imageOut c pkg) := by
  unfold State.imageOut
  split
  · exact ⟨trivial⟩
  split
  · exact ⟨h.modCtx⟩
  · exact ⟨h.same⟩

theorem State.Canon.forget (h : s.Canon) {c} : (s.forget c).Canon := by
  unfold State.forget
  dsimp only
  exact h.same.foldl fun _ _ h => h.freePlace

theorem State.Canon.imageAway (h : s.Canon) {c done} : Holds OptCanon (s.imageAway c done) := by
  unfold State.imageAway
  split
  · exact ⟨trivial⟩
  split
  · exact ⟨h.forget.tearDown⟩
  · exact ⟨h.modCtx⟩

theorem State.Canon.unpack (h : s.Canon) {src dst m} : (s.unpack src dst m).Canon := by
  unfold State.unpack
  dsimp only
  exact h.same.renumber

theorem State.Canon.rebuild (h : s.Canon) {src dst m} : (s.rebuild src dst m).Canon := by
  unfold State.rebuild
  dsimp only
  exact (h.same.foldl fun _ _ h => h.setPlace).foldl fun _ _ h => h.setQuoin

theorem State.Canon.imageIn (h : s.Canon) {pkg src dst pa m} : Holds OptCanon (s.imageIn pkg src dst pa m) := by
  unfold State.imageIn
  extract_lets y free taken answer new z
  have hanswer : ∀ {t done}, t.Canon → (answer t done).Canon := fun h => h.same
  split
  · exact ⟨trivial⟩
  split
  · exact ⟨hanswer h⟩
  · exact ⟨hanswer h.rebuild.setCtx⟩

theorem State.Canon.refillSlice (h : s.Canon) {core} : (s.refillSlice core).Canon := by
  unfold State.refillSlice
  extract_lets t
  have ht : t.Canon := h.foldl fun _ _ h => h.same
  exact ht.modCore

theorem execBucketRefill_canon (h : s.Canon) {core} : Holds NextCanon (execBucketRefill core s) := by
  unfold execBucketRefill
  split
  · exact notEnabled_canon
  · exact ⟨h.refillSlice⟩

theorem State.Canon.clearHot (h : s.Canon) {core granule} : (s.clearHot core granule).Canon := by
  unfold State.clearHot
  extract_lets l t
  have ht : t.Canon := h.modCore
  exact ht.same

/-! ## Machine/Link -/

theorem State.Canon.pumpLink (h : s.Canon) {l} : (s.pumpLink l).Canon := h.setLink

theorem State.Canon.handLink (h : s.Canon) {l x} : (s.handLink l x).Canon := h.setLink.pumpLink

theorem State.Canon.restage (h : s.Canon) : (s.restage).Canon := by
  unfold State.restage
  dsimp only
  exact h.same.ite h

theorem State.Canon.dieOut (h : s.Canon) {d} : (s.dieOut d).Canon := by
  unfold State.dieOut
  extract_lets keep t
  have ht : t.Canon := h.modDpow
  exact State.Canon.restage ht.same

theorem State.Canon.linkDown (h : s.Canon) {l} : (s.linkDown l).Canon := by
  refine h.foldl fun s i h => ?_
  extract_lets k left down s1 via s2 s3
  have h3 : s3.Canon := by
    unfold s3
    split
    · exact h.setLink.setLink.setLink.pumpLink
    · exact h.setLink
  exact h3.iteThen fun h => h.dieOut

theorem State.Canon.linkGoes (h : s.Canon) {l f} : (s.linkGoes l f).Canon := h.foldl fun _ _ h => h.setLink

theorem State.Canon.linkFails (h : s.Canon) {l} : (s.linkFails l).Canon := h.linkDown.ite h.linkGoes

theorem State.Canon.resend (h : s.Canon) {l fs} : (s.resend l fs).Canon := h.linkFails.ite h.setLink.pumpLink

theorem State.Canon.takeAck (h : s.Canon) {l f} : (s.takeAck l f).Canon := h.setLink.pumpLink

theorem State.Canon.takeNack (h : s.Canon) {l f} : (s.takeNack l f).Canon := h.setLink

theorem State.Canon.takeData (h : s.Canon) {l f room} : (s.takeData l f room).Canon := by
  unfold State.takeData
  dsimp only
  split
  · split
    · exact h.setLink.handLink
    · exact h.setLink
  · exact h.setLink

theorem State.Canon.takeFlit (h : s.Canon) {l f room} : (s.takeFlit l f room).Canon := by
  unfold State.takeFlit
  split
  · exact h.takeData
  · exact h.takeAck
  · exact h.takeNack
  · exact h
  · exact h.setLink

theorem execLinkDataFlit_canon (h : s.Canon) {link flip room} :
    Holds NextCanon (execLinkDataFlit link flip room s) := by
  unfold execLinkDataFlit
  dsimp only
  split
  · exact notEnabled_canon
  split
  · exact notEnabled_canon
  split
  · exact ⟨h.setLink⟩
  · exact ⟨h.setLink.takeFlit⟩

theorem State.Canon.flitBack (h : s.Canon) {link kind flip name} :
    Holds NextCanon (s.flitBack link kind flip name) := by
  unfold State.flitBack
  dsimp only
  split
  · split
    · exact notEnabled_canon
    split
    · exact ⟨h.setLink.setLink⟩
    · exact ⟨h.setLink.takeFlit⟩
  · exact notEnabled_canon

theorem execLinkBackoffExpiry_canon (h : s.Canon) {link} : Holds NextCanon (execLinkBackoffExpiry link s) := by
  unfold execLinkBackoffExpiry
  dsimp only
  split
  · split
    · exact ⟨h.resend⟩
    · exact notEnabled_canon
  · exact notEnabled_canon

theorem execLinkReplayTimeout_canon (h : s.Canon) {link} : Holds NextCanon (execLinkReplayTimeout link s) := by
  unfold execLinkReplayTimeout
  dsimp only
  split
  · exact ⟨h.resend⟩
  · exact notEnabled_canon

theorem execLinkEnable_canon (h : s.Canon) {link} : Holds NextCanon (execLinkEnable link s) := by
  unfold execLinkEnable
  split
  · exact notEnabled_canon
  split
  · exact ⟨h.linkGoes⟩
  · exact ⟨h⟩

theorem execLinkTrainingDone_canon (h : s.Canon) {link lanes} :
    Holds NextCanon (execLinkTrainingDone link lanes s) := by
  unfold execLinkTrainingDone
  dsimp only
  split
  · exact notEnabled_canon
  split
  · exact ⟨h⟩
  split
  · exact ⟨h.foldl fun _ _ h => h.setLink.pumpLink⟩
  split
  · exact ⟨h.linkDown⟩
  · exact ⟨h.linkGoes⟩

theorem execLaneMarginal_canon (h : s.Canon) {link lane} : Holds NextCanon (execLaneMarginal link lane s) := by
  unfold execLaneMarginal
  dsimp only
  split
  · exact notEnabled_canon
  split
  · exact ⟨h.linkGoes.setLink⟩
  · exact ⟨h⟩

theorem execLaneLost_canon (h : s.Canon) {link} : Holds NextCanon (execLaneLost link s) := by
  unfold execLaneLost
  split
  · exact ⟨h.linkFails⟩
  · exact ⟨h.linkFails⟩
  · exact ⟨h.linkFails⟩
  · exact ⟨h.linkFails⟩
  · exact ⟨h⟩

theorem execLinkDrainRequest_canon (h : s.Canon) {link} : Holds NextCanon (execLinkDrainRequest link s) := by
  unfold execLinkDrainRequest
  split
  · exact ⟨h.linkGoes⟩
  · exact ⟨h.linkGoes⟩
  · exact ⟨h.linkGoes⟩
  · exact ⟨h.linkDown⟩
  · exact ⟨h.linkDown⟩
  · exact ⟨h⟩

theorem execLinkWindowDrained_canon (h : s.Canon) {link} : Holds NextCanon (execLinkWindowDrained link s) := by
  unfold execLinkWindowDrained
  split
  · exact ⟨h⟩
  split
  · exact ⟨h.linkDown⟩
  · exact notEnabled_canon

theorem execSpareSwapComplete_canon (h : s.Canon) {link} : Holds NextCanon (execSpareSwapComplete link s) := by
  unfold execSpareSwapComplete
  split
  · exact ⟨h⟩
  · exact ⟨h.linkGoes⟩

theorem State.Canon.modRing (h : s.Canon) {r f} : (s.modRing r f).Canon := h.same

theorem State.Canon.portAll (h : s.Canon) {ctx write l} : Holds Acc.Canon (s.portAll ctx write l) := by
  unfold State.portAll
  dsimp only
  exact iteInduction (fun _ => ⟨trivial⟩) fun _ => h.lookAll

theorem State.Canon.markRing (h : s.Canon) {r} : (s.markRing r).Canon := h.markVa

theorem execPortRingDoorbell_canon (h : s.Canon) {ring} : Holds NextCanon (execPortRingDoorbell ring s) := by
  unfold execPortRingDoorbell
  dsimp only
  split
  · exact notEnabled_canon
  · split <;> exact ⟨h.markRing.modRing⟩

theorem State.Canon.portFault (h : s.Canon) {ctx va kind} : Holds OptCanon (s.portFault ctx va kind) := by
  unfold State.portFault
  split
  · exact ⟨trivial⟩
  · exact ⟨h.openFault⟩

theorem State.Canon.arriveFor (h : s.Canon) {ctx va} : (s.arriveFor ctx va).Canon := by
  unfold State.arriveFor
  extract_lets t
  have ht : t.Canon := h.markVa
  clear_value t
  split
  · exact h
  split
  · split
    · exact ht
    split
    · exact ht.same
    · exact ht.homeWrite.iteThen fun h => h.tellProxies
  · exact h.markSem
  · exact h
  · exact h

theorem State.Canon.endRecord (h : s.Canon) {ring d word n} : (s.endRecord ring d word n).Canon :=
  h.markRing.writeVa.homeWrite.modRing.arriveFor

theorem State.Canon.closeRecord (h : s.Canon) {ring d word n} : Holds OptCanon (s.closeRecord ring d word n) := by
  unfold State.closeRecord
  dsimp only
  split
  · exact ⟨h.endRecord⟩
  split
  · exact h.portFault
  · exact ⟨trivial⟩
  · exact ⟨trivial⟩
  · exact ⟨h.endRecord⟩
  · exact ⟨h.endRecord⟩

theorem portEvent_canon {name a} (ha : Holds OptCanon a) : Holds NextCanon (portEvent name a) := by
  unfold portEvent
  split
  · exact ⟨ha.holds⟩
  · exact notEnabled_canon

theorem State.Canon.readSpan (h : s.Canon) {ctx va n} : (s.readSpan ctx va n).1.Canon := by
  unfold State.readSpan
  refine State.Canon.foldlFst h fun _ _ h => ?_
  dsimp only
  exact h.readVa

theorem State.Canon.writeSpan (h : s.Canon) {ctx va l} : (s.writeSpan ctx va l).Canon := by
  unfold State.writeSpan
  refine State.Canon.foldlFst h fun _ _ h => ?_
  dsimp only
  exact h.writeVa

theorem State.Canon.windowWrite (h : s.Canon) {w off l} : Holds Acc.Canon (s.windowWrite w off l) := by
  unfold State.windowWrite
  dsimp only
  split
  · exact ⟨h⟩
  split
  · exact ⟨h⟩
  split
  · next e => exact ⟨(h.portAll.of e).writeSpan⟩
  · exact h.portAll

theorem State.Canon.windowSend (h : s.Canon) {w off entry l} : Holds Acc.Canon (s.windowSend w off entry l) := by
  unfold State.windowSend
  split
  · next e =>
      refine ⟨?_⟩
      split
      · exact (h.windowWrite.of e).iteElse fun h => h.same
      · exact h.windowWrite.of e
  · exact h.windowWrite

theorem State.Canon.podWrite (h : s.Canon) {w off entry l} : Holds OptCanon (s.podWrite w off entry l) := by
  unfold State.podWrite
  dsimp only
  split
  · next e => exact ⟨(h.windowSend.of e).same⟩
  · next e => exact ⟨(h.windowSend.of e).same⟩
  · next e => exact Holds.any.bind fun _ _ => (h.windowSend.of e).portFault
  · exact ⟨trivial⟩
  · exact ⟨trivial⟩

theorem State.Canon.sendCopy (h : s.Canon) {ring d pkg w off entry l} :
    Holds OptCanon (s.sendCopy ring d pkg w off entry l) := by
  unfold State.sendCopy
  split
  · split
    · next e => exact (h.windowSend.of e).closeRecord
    · next e => exact (h.windowSend.of e).closeRecord
    · next e => exact Holds.any.bind fun _ _ => (h.windowSend.of e).portFault
    · exact ⟨trivial⟩
    · exact ⟨trivial⟩
  split
  · exact ⟨trivial⟩
  · exact ⟨h.same.modRing⟩

theorem execNetworkSend_canon (h : s.Canon) {ring} : Holds NextCanon (execNetworkSend ring s) := by
  refine portEvent_canon ?_
  split
  · exact ⟨trivial⟩
  · exact h.portFault
  dsimp only
  split
  · exact h.closeRecord
  split
  · exact h.closeRecord
  split
  · exact ⟨trivial⟩
  split
  · next e => exact (h.portAll.of e :).portFault
  · next e => exact (h.portAll.of e :).closeRecord
  · exact ⟨trivial⟩
  · exact ⟨trivial⟩
  · next e => exact (State.Canon.readSpan (h.portAll.of e)).sendCopy

theorem State.Canon.podWritten (h : s.Canon) {ring done} : Holds OptCanon (s.podWritten ring done) := by
  unfold State.podWritten
  split
  · split
    · exact h.closeRecord
    · exact ⟨trivial⟩
  · exact ⟨trivial⟩

theorem State.Canon.issueNvme (h : s.Canon) {ring op name} : Holds NextCanon (s.issueNvme ring op name) := by
  refine portEvent_canon ?_
  split
  · exact ⟨trivial⟩
  · exact h.portFault
  extract_lets g t
  have ht : t.Canon := h.markVa.modRing
  clear_value t
  split
  · exact ⟨trivial⟩
  split
  · exact h.closeRecord
  split
  · exact ⟨trivial⟩
  · exact ⟨ht.same⟩

theorem execNvmeCompletion_canon (h : s.Canon) {ring status data} :
    Holds NextCanon (execNvmeCompletion ring status data s) := by
  refine portEvent_canon ?_
  split
  · extract_lets op buf n word
    split
    · exact ⟨trivial⟩
    split
    · next e =>
      have ht := h.portAll.of e
      split
      · exact ht.writeSpan.closeRecord
      split
      · exact State.Canon.closeRecord ht
      · extract_lets r sent
        have hr : r.1.Canon := ht.readSpan
        exact hr.same.closeRecord
    · next e => exact (h.portAll.of e :).closeRecord
    · next e => exact (h.portAll.of e :).portFault
    · exact ⟨trivial⟩
    · exact ⟨trivial⟩
  · exact ⟨trivial⟩

/-! ## Machine/Observe -/

theorem execTraceDrain_canon (h : s.Canon) {core} : Holds NextCanon (execTraceDrain core s) := by
  unfold execTraceDrain
  dsimp only
  split
  · exact notEnabled_canon
  split
  · exact notEnabled_canon
  · exact ⟨h.homeWrite.modDie.modCore.iteThen fun h => h.fire⟩

theorem State.Canon.latchDie (h : s.Canon) {d} : (s.latchDie d).Canon := by
  unfold State.latchDie
  extract_lets ring x t
  have ht : t.Canon := h.modDie
  exact ht.ite (ht.modDie.ite ht.same.modDie)

theorem State.Canon.latchIo (h : s.Canon) : (s.latchIo).Canon := h.same

theorem State.Canon.latchAll (h : s.Canon) : (s.latchAll).Canon := (h.foldl fun _ _ h => h.latchDie).latchIo

theorem State.Canon.snapDie (h : s.Canon) {d} : (s.snapDie d).Canon := by
  unfold State.snapDie
  dsimp only
  split
  · exact h
  · exact h.homeWrite.modDie.ite h

theorem State.Canon.snapIo (h : s.Canon) : (s.snapIo).Canon := by
  unfold State.snapIo
  dsimp only
  split
  · exact h
  · exact h.homeWrite.same.ite h

theorem State.Canon.snapAll (h : s.Canon) : (s.snapAll).Canon := (h.foldl fun _ _ h => h.snapDie).snapIo

theorem execSnapshot_canon (h : s.Canon) : Holds NextCanon (execSnapshot s) := by
  unfold execSnapshot
  split
  · exact ⟨h.latchAll.snapAll⟩
  split
  · exact ⟨h.snapAll⟩
  · exact notEnabled_canon

theorem State.Canon.stopNow (h : s.Canon) : (s.stopNow).Canon := (h.latchAll.ite h).same

theorem execStopOnTick_canon (h : s.Canon) : Holds NextCanon (execStopOnTick s) := by
  unfold execStopOnTick
  split
  · exact ⟨h.stopNow⟩
  · exact notEnabled_canon

theorem State.Canon.armStop (h : s.Canon) {v} : (s.armStop v).Canon := by
  unfold State.armStop
  dsimp only
  exact h.same.stopNow.ite h.same

theorem State.Canon.observeWrite (h : s.Canon) {off v} : (s.observeWrite off v).Canon := by
  unfold State.observeWrite
  dsimp only
  split
  · exact h.same
  split
  · exact h.same
  split
  · exact h.armStop
  split
  · exact h
  split
  · exact h.ite h.same
  split
  · split
    · exact h.same
    · exact h.same
    · exact h.same
    · exact h
  · exact h

theorem execRegisterWrite_canon (h : s.Canon) {pa val} : Holds NextCanon (execRegisterWrite pa val s) := by
  unfold execRegisterWrite
  split
  · exact notEnabled_canon
  · exact ⟨h.observeWrite⟩

theorem execGtickDiscipline_canon (h : s.Canon) {double} : Holds NextCanon (execGtickDiscipline double s) := by
  unfold execGtickDiscipline
  dsimp only
  exact iteInduction (fun _ => notEnabled_canon) fun _ => ⟨h.same.endTicks.ite h.same⟩

/-! ## Machine/Power -/

/-- Of the memory only the host's cells are kept, and a part of a canonical list is canonical. -/
theorem State.Canon.startAgain (h : s.Canon) : (s.startAgain).Canon :=
  ⟨Memory.above_filter _ h.mem, rfl, rfl⟩

theorem execPowerGood_canon (h : s.Canon) : Holds NextCanon (execPowerGood s) := by
  unfold execPowerGood
  split
  · exact ⟨h.startAgain⟩
  · exact notEnabled_canon

theorem execPowerGoodFall_canon (h : s.Canon) : Holds NextCanon (execPowerGoodFall s) := by
  unfold execPowerGoodFall
  dsimp only
  split
  · exact notEnabled_canon
  · exact ⟨h.startAgain.same⟩

theorem execFirmwareVerify_canon (h : s.Canon) {image} : Holds NextCanon (execFirmwareVerify image s) := by
  unfold execFirmwareVerify
  dsimp only
  split
  · exact notEnabled_canon
  · split <;> exact ⟨h.same⟩

theorem State.Canon.gather (h : s.Canon) {line} : (s.gather line).Canon := h.ite h.recallAll.setEntry

theorem State.Canon.startDie (h : s.Canon) {d whole} : (s.startDie d whole).Canon := by
  unfold State.startDie
  extract_lets s1 s2 s3 s4
  have h1 : s1.Canon := h.foldl fun _ _ h => h.gather
  have h2 : s2.Canon := h1.foldl fun _ _ h => h.modCore.ite h
  clear_value s1 s2
  have h3 : s3.Canon := h2.same
  have h4 : s4.Canon := h3.foldl fun _ _ h => h.pumpLink
  exact h4.modDie

theorem execDieStart_canon (h : s.Canon) {die pass} : Holds NextCanon (execDieStart die pass s) := by
  unfold execDieStart
  split
  · exact notEnabled_canon
  split
  · exact ⟨h.startDie.modDpow.restage⟩
  · exact ⟨h.dieOut⟩

theorem execAttestationReport_canon (h : s.Canon) {nonce ask} :
    Holds NextCanon (execAttestationReport nonce ask s) := by
  unfold execAttestationReport
  dsimp only
  split
  · exact notEnabled_canon
  · exact ⟨h.same⟩

theorem execManagementReset_canon (h : s.Canon) : Holds NextCanon (execManagementReset s) := by
  unfold execManagementReset
  split
  · exact ⟨h.startAgain⟩
  · exact notEnabled_canon

theorem execScanOut_canon (h : s.Canon) : Holds NextCanon (execScanOut s) := by
  unfold execScanOut
  dsimp only
  split
  · exact ⟨h.same⟩
  · exact notEnabled_canon

theorem execPwrcapWrite_canon (h : s.Canon) {val} : Holds NextCanon (execPwrcapWrite val s) := by
  unfold execPwrcapWrite
  dsimp only
  exact ⟨h.same.ite h⟩

theorem execPreqWrite_canon (h : s.Canon) {die val} : Holds NextCanon (execPreqWrite die val s) := by
  unfold execPreqWrite
  split
  · exact notEnabled_canon
  · exact ⟨h.modDpow⟩

theorem execPstateTransitionDone_canon (h : s.Canon) {die} : Holds NextCanon (execPstateTransitionDone die s) := by
  unfold execPstateTransitionDone
  dsimp only
  split
  · exact ⟨h.setDpow⟩
  · exact notEnabled_canon

theorem State.Canon.pstateStep (h : s.Canon) {die} : Holds OptCanon (s.pstateStep die) := by
  unfold State.pstateStep
  split
  · exact ⟨h.modDpow⟩
  · exact ⟨trivial⟩

theorem execCeilingBoundary_canon (h : s.Canon) {energy l0 l1 l2 l3} :
    Holds NextCanon (execCeilingBoundary energy l0 l1 l2 l3 s) := by
  unfold execCeilingBoundary
  dsimp only
  split
  · exact notEnabled_canon
  · exact ⟨h.same.foldl fun _ _ h => h.modDpow⟩

theorem State.Canon.freeBoundary (h : s.Canon) : (s.freeBoundary).Canon := by
  unfold State.freeBoundary
  dsimp only
  split
  · next e => exact (execCeilingBoundary_canon h.same).of e
  · exact h.same

theorem State.Canon.trip (h : s.Canon) : (s.trip).Canon :=
  ⟨Memory.above_filter _ h.mem, h.startAgain.lm, h.startAgain.planes⟩

theorem execThermalSample_canon (h : s.Canon) {die celsius} : Holds NextCanon (execThermalSample die celsius s) := by
  unfold execThermalSample
  split
  · exact notEnabled_canon
  split
  · exact ⟨h.trip⟩
  · exact ⟨h.modDpow⟩

theorem execPark_canon (h : s.Canon) {die} : Holds NextCanon (execPark die s) := by
  unfold execPark
  split
  · exact ⟨h.modDpow⟩
  · exact notEnabled_canon

theorem execDieDrain_canon (h : s.Canon) {die} : Holds NextCanon (execDieDrain die s) := by
  unfold execDieDrain
  split
  · exact ⟨h.modDpow⟩
  · exact notEnabled_canon

theorem State.Canon.emptyCore (h : s.Canon) {c} : (s.emptyCore c).Canon := by
  unfold State.emptyCore
  extract_lets lines t
  have ht : t.Canon := h.foldl fun _ _ h => h.gather
  exact ht.mergeRaw.modCore

theorem execParkShutdownDone_canon (h : s.Canon) {die} : Holds NextCanon (execParkShutdownDone die s) := by
  unfold execParkShutdownDone
  dsimp only
  split
  · exact notEnabled_canon
  · exact ⟨(h.foldl fun _ _ h => h.emptyCore).same.modDpow⟩

theorem execUnpark_canon (h : s.Canon) {die} : Holds NextCanon (execUnpark die s) := by
  unfold execUnpark
  split
  · exact ⟨h.modDpow⟩
  · split
    · exact notEnabled_canon
    · exact ⟨h.modDpow⟩
  · exact ⟨h.modDpow⟩
  · exact notEnabled_canon

theorem execUnparkStartDone_canon (h : s.Canon) {die} : Holds NextCanon (execUnparkStartDone die s) := by
  unfold execUnparkStartDone
  split
  · exact ⟨h.startDie.modDpow⟩
  · exact notEnabled_canon

theorem execFirmwareHandover_canon (h : s.Canon) {image} : Holds NextCanon (execFirmwareHandover image s) := by
  unfold execFirmwareHandover
  dsimp only
  split
  · exact notEnabled_canon
  split
  · exact ⟨h.same⟩
  · exact ⟨h⟩

theorem execExpansionTableUpdate_canon (h : s.Canon) {die table} :
    Holds NextCanon (execExpansionTableUpdate die table s) := by
  unfold execExpansionTableUpdate
  split
  · exact ⟨h.modDie.modDpow⟩
  · exact notEnabled_canon

theorem State.Canon.spoilLine (h : s.Canon) {line} : (s.spoilLine line).Canon := h.foldl fun _ _ h => h.storeMem.same

theorem execSoftError_canon (h : s.Canon) {pa correctable} : Holds NextCanon (execSoftError pa correctable s) := by
  unfold execSoftError
  extract_lets line t
  have ht : t.Canon := h.spoilLine
  clear_value t
  split
  · exact ⟨h.same⟩
  · exact ⟨ht.same⟩

theorem State.Canon.holdVault (h : s.Canon) {key limit} : (s.holdVault key limit).Canon := h.same

theorem execRowSparing_canon (h : s.Canon) {die vault row} : Holds NextCanon (execRowSparing die vault row s) := by
  unfold execRowSparing
  split
  · exact ⟨h.same.holdVault⟩
  · exact notEnabled_canon

theorem execVaultRecalibration_canon (h : s.Canon) {die vault} :
    Holds NextCanon (execVaultRecalibration die vault s) := by
  unfold execVaultRecalibration
  dsimp only
  split
  · exact ⟨h.same.holdVault⟩
  · exact notEnabled_canon

theorem execVaultSparing_canon (h : s.Canon) {die vault switch} :
    Holds NextCanon (execVaultSparing die vault switch s) := by
  unfold execVaultSparing
  dsimp only
  split
  · exact notEnabled_canon
  split
  · exact ⟨h.same⟩
  · split
    · exact ⟨h.same⟩
    · exact notEnabled_canon
  · split
    · exact notEnabled_canon
    · exact ⟨h.same⟩
  · exact notEnabled_canon

theorem execCoreRetire_canon (h : s.Canon) {core} : Holds NextCanon (execCoreRetire core s) := by
  unfold execCoreRetire
  dsimp only
  split
  · exact notEnabled_canon
  · exact ⟨h.modCore⟩

theorem execCoreReturnToService_canon (h : s.Canon) {core} : Holds NextCanon (execCoreReturnToService core s) := by
  unfold execCoreReturnToService
  split
  · exact ⟨h.modCore⟩
  · exact notEnabled_canon

/-! ## Machine/Verdict -/

theorem State.Canon.answerQueues (h : s.Canon) {ctx page die resolve} :
    Holds OptCanon (s.answerQueues ctx page die resolve) := by
  refine Holds.foldl ⟨h⟩ fun _ q h => h.bind fun s h => ?_
  extract_lets t
  have ht : t.Canon := State.Canon.modQs h
  clear_value t
  split
  · exact ⟨trivial⟩
  · refine iteInduction (fun _ => ⟨ht.stopQ⟩) fun _ => iteInduction (fun _ => ?_) fun _ => ?_
    · exact ht.markDesc.enableQueue
    · exact ht.markDesc.settleQueue
  · exact ⟨ht.ite ht.modQs.countDie⟩

theorem State.Canon.answerKernels (h : s.Canon) {ctx page resolve} :
    Holds OptCanon (s.answerKernels ctx page resolve) := by
  refine Holds.foldl ⟨h⟩ fun _ k h => h.bind fun s h => ?_
  split
  · exact ⟨State.Canon.modKer h⟩
  · exact State.Canon.faultKernel h

theorem State.Canon.answerScheduler (h : s.Canon) {ctx page die resolve} :
    Holds OptCanon (s.answerScheduler ctx page die resolve) :=
  (h.answerQueues.bind fun _ h => State.Canon.answerKernels h).map fun _ h => h.ite (State.Canon.settleOpen h)

theorem State.Canon.wakeAnswered (h : s.Canon) {ctx} : (s.wakeAnswered ctx).Canon := h.fire

theorem execFansResolve_canon (h : s.Canon) {die ctx seq} : Holds NextCanon (execFansResolve die ctx seq s) := by
  unfold execFansResolve
  dsimp only
  split
  · exact ⟨h.countDie⟩
  split
  · exact notEnabled_canon
  · next e =>
      have ht := h.same.replayAll.of e
      split
      · next e1 =>
          refine ⟨(State.Canon.answerScheduler ?_).of e1⟩
          exact (ht.logsFreed.wakeAnswered.wakeFetches.iteElse fun h => h.reopen).answerPresses.answerGalleys
      · exact notEnabled_canon

theorem State.Canon.trapDeclined (h : s.Canon) {x} : (s.trapDeclined x).Canon := h.trap.modThr.ite h.trap

theorem State.Canon.dropSaved (h : s.Canon) {p} : (s.dropSaved p).Canon := h.same

theorem execFansDecline_canon (h : s.Canon) {die ctx seq} : Holds NextCanon (execFansDecline die ctx seq s) := by
  unfold execFansDecline
  split
  · exact ⟨h.countDie⟩
  extract_lets s1 cores s2 out gone s3 firsts s4 s5 s6
  have h2 : s2.Canon := h.same.foldl fun _ _ h => h.trapDeclined
  have h3 : s3.Canon := State.Canon.dropSaved (h2.foldl fun _ _ h => h.dropEntries)
  have h4 : s4.Canon := h3.foldl fun _ _ h => h.discardTrap
  have h6 : s6.Canon := h4.logsFreed.wakeAnswered.answerPresses.answerGalleys
  clear_value s6
  split
  · next e => exact ⟨(h6.answerScheduler.of e :)⟩
  · exact notEnabled_canon

/-! ## Machine/Lantern -/

theorem State.Canon.after (h : s.Canon) {o} (ho : Holds NextCanon o) : (s.after o).Canon := by
  unfold State.after
  split
  · exact ho.holds
  · exact h

theorem State.Canon.parkWrite (h : s.Canon) {die v} : (s.parkWrite die v).Canon := by
  unfold State.parkWrite
  extract_lets park drain bits begins
  have hbits {t : State} (ht : t.Canon) : (bits t).Canon := ht.modDpow
  have hbegins {t : State} (ht : t.Canon) : (begins t).Canon :=
    (ht.after (execPark_canon ht)).ite ((ht.after (execDieDrain_canon ht)).ite ht)
  have hback {t : State} (ht : t.Canon) : (t.after (execUnpark die t)).Canon := ht.after (execUnpark_canon ht)
  clear_value bits begins
  split
  · exact hbits (hbegins h)
  · exact (hbits h).ite (hback (hbits h))
  · exact (hbits h).ite (hbits (hback h))
  · exact (hbits h).ite (hbits (hbegins (hback h)))
  · exact hbits h
  · exact hbits h

theorem State.Canon.powerWrite (h : s.Canon) {off v} : (s.powerWrite off v).Canon :=
  (h.after (execPwrcapWrite_canon h)).ite ((h.after (execPreqWrite_canon h)).ite (h.parkWrite.ite h))

theorem State.Canon.serviceWrite (h : s.Canon) {die off v} : Holds OptCanon (s.serviceWrite die off v) := by
  unfold State.serviceWrite
  extract_lets ctx seq sel now t
  have hnow {o : Host.Outcome State Fault Refusal} (ho : Holds NextCanon o) : Holds OptCanon (now o) := by
    cases o with
    | next t => exact ⟨ho.holds⟩
    | fault f => exact ⟨trivial⟩
    | refused r => exact ⟨trivial⟩
  clear_value now
  split
  · split
    · exact hnow (execFansResolve_canon h)
    split
    · exact hnow (execFansDecline_canon h)
    · exact ⟨h⟩
  · exact hnow (execShoot_canon h)
  · exact ⟨h.modDie⟩
  · exact ⟨h.modDie⟩
  · exact ⟨(h.after (execAssnDieBarrier_canon h)).ite ((h.after (execAssnGalleyChannel_canon h)).ite h)⟩
  · exact ⟨(h.after (execTresResume_canon h)).ite ((h.after (execTresEnd_canon h)).ite h)⟩
  · exact ⟨h.modDie⟩
  · exact ⟨h⟩

theorem State.Canon.deviceWrite (h : s.Canon) {pa v} : Holds OptCanon (s.deviceWrite pa v) := by
  unfold State.deviceWrite
  split
  · exact h.serviceWrite
  · exact ⟨h.observeWrite⟩
  · exact ⟨h.powerWrite⟩
  · exact ⟨h⟩

theorem execHostRead_canon (h : s.Canon) {loc size} : Holds NextCanon (execHostRead loc size s) := by
  unfold execHostRead
  dsimp only
  split
  · exact ⟨h.same⟩
  split
  · exact ⟨h.homeRead.same⟩
  · exact notEnabled_canon

theorem execLanternCoreAccess_canon (h : s.Canon) {op pa size val} :
    Holds NextCanon (execLanternCoreAccess op pa size val s) := by
  unfold execLanternCoreAccess
  dsimp only
  split
  · exact ⟨h⟩
  · split
    · exact ⟨h.same⟩
    split
    · exact ⟨h.homeRead.same⟩
    · exact notEnabled_canon
  · split
    · split
      · next e => exact ⟨(h.deviceWrite.of e :)⟩
      · exact notEnabled_canon
    split
    · exact ⟨h.homeWrite⟩
    · exact notEnabled_canon
  split
  · exact ⟨h.homeRead.homeWrite.same⟩
  · exact notEnabled_canon

/-! ## Machine/Scalar -/

theorem State.Canon.write (h : s.Canon) {rd f} : (s.write rd f).Canon := h.plain

theorem State.Canon.jump (h : s.Canon) {target f} : (s.jump target f).Canon := h.trapMe.ite h.modMe

theorem State.Canon.branch (h : s.Canon) {taken imm} : (s.branch taken imm).Canon := h.jump.ite h.plain

theorem State.Canon.loaded (h : s.Canon) {rd ea p width v nb} : (s.loaded rd ea p width v nb).Canon :=
  h.touch.endOp.modMe.completeP

theorem State.Canon.loadRes (h : s.Canon) {rd ea width nb} : (s.loadRes rd ea width nb).1.Canon := by
  unfold State.loadRes
  dsimp only
  split
  · next e => exact (h.attempt.of e).trapMe
  · next e => exact (h.attempt.of e).complete
  · next e => exact (h.attempt.of e).notReady
  · next e =>
      split
      · exact (h.attempt.of e).loaded
      split
      · exact (h.attempt.of e).byteMade
      · exact (h.attempt.of e).loaded

theorem State.Canon.storeRes (h : s.Canon) {rs ea width nb} : (s.storeRes rs ea width nb).1.Canon := by
  unfold State.storeRes
  dsimp only
  split
  · next e => exact (h.attempt.of e).trapMe
  · next e => exact (h.attempt.of e).complete
  · next e => exact (h.attempt.of e).notReady
  · next e =>
      have ht := h.attempt.of e
      split
      · exact ht.writeAt.endOp.completeP.fst
      · exact ht.storeLm.byteMade.fst.iteFst ht.storeLm.modMe.completeP.fst

theorem State.Canon.loadOp (h : s.Canon) {rd ea width nb} : (s.loadOp rd ea width nb).Canon := h.loadRes

theorem State.Canon.storeOp (h : s.Canon) {rs ea width nb} : (s.storeOp rs ea width nb).Canon := h.storeRes

theorem State.Canon.fenceStep (h : s.Canon) {predW succR} : (s.fenceStep predW succR).1.Canon := by
  unfold State.fenceStep
  extract_lets scope r q
  have hr : r.1.Canon := State.Canon.iteFst h.releaseStep h
  exact State.Canon.iteFst (State.Canon.ite (State.Canon.acquireStep hr) hr) hr

theorem State.Canon.fence (h : s.Canon) {pred succ} : (s.fence pred succ).Canon :=
  h.plain.ite (h.fenceStep.clampCount.plain.ite h.fenceStep.notReady)

theorem execEcall_canon (h : s.Canon) : Holds NextCanon (execEcall s) := by
  unfold execEcall
  dsimp only
  split
  · exact ⟨h.fenceStep.clampCount.modMe.trapMe⟩
  · exact ⟨h.fenceStep.notReady⟩

theorem execEbreak_canon (h : s.Canon) : Holds NextCanon (execEbreak s) := by
  unfold execEbreak
  dsimp only
  split
  · exact ⟨h.fenceStep.clampCount.modMe.trapMe⟩
  · exact ⟨h.fenceStep.notReady⟩

theorem State.Canon.writeCsr (h : s.Canon) {x v} : (s.writeCsr x v).Canon := by
  unfold State.writeCsr
  dsimp only
  split
  · exact h.modMe
  · exact h.modMe
  · exact h.modMe
  · exact h.modMe
  · exact h.modCore
  · exact h.modMe
  · exact h.modCore
  · exact h.modMe
  · exact h.modCore
  · exact h

theorem State.Canon.csrOp (h : s.Canon) {rd csr writes f} : (s.csrOp rd csr writes f).Canon := by
  unfold State.csrOp
  dsimp only
  split
  · exact h.trapMe
  · exact h.trapMe.ite (h.writeCsr.ite h).plain

/-! ## Machine/Line -/

theorem fuse_canon {pc off r} (h : r.1.Canon) : (fuse pc off r).Canon := by
  unfold fuse
  split
  · exact h
  · exact h
  · exact h.modMe

theorem execPlda_canon (h : s.Canon) {rd rs1 width scope nb} : Holds NextCanon (execPlda rd rs1 width scope nb s) := by
  unfold execPlda
  dsimp only
  split
  · next e => exact ⟨(h.attempt.of e).clampCount.trapMe⟩
  · next e => exact ⟨(h.attempt.of e).clampCount.complete⟩
  · next e => exact ⟨(h.attempt.of e).clampedWait⟩
  · next e => exact ⟨(h.attempt.of e).touch.endOp.modMe.shadowAcquire.acquireStep.clampCount.completeP⟩

theorem State.Canon.reportRefusal (h : s.Canon) : (s.reportRefusal).1.Canon :=
  h.modMe.fst.iteFst h.fst

theorem execPstr_canon (h : s.Canon) {rs rs1 width scope nb} : Holds NextCanon (execPstr rs rs1 width scope nb s) := by
  unfold execPstr
  dsimp only
  split
  · exact ⟨h.trapMe⟩
  split
  · exact ⟨h.releaseStep.clampedWait⟩
  split
  · next e => exact ⟨(h.releaseStep.attempt.of e).clampCount.trapMe⟩
  · next e => exact ⟨(h.releaseStep.attempt.of e).clampCount.complete⟩
  · next e => exact ⟨(h.releaseStep.attempt.of e).clampedWait⟩
  · next e =>
      have ht := h.releaseStep.attempt.of e
      exact ⟨ht.writeAt.endOp.modMe.shadowRelease.clampCount.reportRefusal.completeP⟩

theorem execFnc_canon (h : s.Canon) {kind scope nb} : Holds NextCanon (execFnc kind scope nb s) := by
  unfold execFnc
  dsimp only
  split
  · exact ⟨h.fenceTake.acquireStep.clampCount.complete⟩
  split
  · exact ⟨h.releaseStep.clampedWait⟩
  · exact ⟨(h.releaseStep.iteThen fun h => h.fenceTake.acquireStep).fenceRelease.clampCount.reportRefusal.complete⟩

theorem State.Canon.amo (h : s.Canon) {rd rs1 rs2 width scope nb f always} :
    (s.amo rd rs1 rs2 width scope nb f always).Canon := by
  unfold State.amo
  dsimp only
  refine iteInduction (fun _ => h.trapMe) fun _ => ?_
  split
  · exact h.releaseStep.clampedWait
  split
  · next e => exact (h.releaseStep.attempt.of e).clampCount.trapMe
  · next e => exact (h.releaseStep.attempt.of e).clampCount.complete
  · next e => exact (h.releaseStep.attempt.of e).clampedWait
  · next e =>
      have ht := h.releaseStep.attempt.of e
      refine State.Canon.completeP (State.Canon.clampCount (State.Canon.acquireStep ?_))
      exact (ht.shadowAcquire.iteThen fun h => h.writeAt).endOp.modMe.iteThen fun h => h.shadowRelease

theorem State.Canon.redCopy (h : s.Canon) {line off k v} : (s.redCopy line off k v).Canon := by
  unfold State.redCopy
  dsimp only
  split
  · exact h
  · exact h.modCore

theorem execRed_canon (h : s.Canon) {rs1 rs2 kind nb} : Holds NextCanon (execRed rs1 rs2 kind nb s) := by
  unfold execRed
  dsimp only
  split
  · next e => exact ⟨(h.attempt.of e).trapMe⟩
  · next e => exact ⟨(h.attempt.of e).complete⟩
  · next e => exact ⟨(h.attempt.of e).notReady⟩
  · next e =>
      refine ⟨?_⟩
      refine State.Canon.completeP ?_
      refine State.Canon.endOp ?_
      refine State.Canon.endReleasing ?_
      split
      · exact (h.attempt.of e).redCopy.ite (h.attempt.of e).storeAt
      · exact (h.attempt.of e).storeAt

theorem State.Canon.sendPush (h : s.Canon) {ea line off home targets data nb} :
    (s.sendPush ea line off home targets data nb).Canon := by
  unfold State.sendPush
  extract_lets c s1 m s2 s3 s4
  have h1 : s1.Canon := by
    unfold s1
    split
    · exact h.modCore.send.ite h
    · exact h
  have h4 : s4.Canon := h1.send.modCore.modMe.iteThen fun h => h.shadowRelease.endReleasing
  exact h4.endOp.completeP

theorem State.Canon.push (h : s.Canon) {ea c8 data nb} : (s.push ea c8 data nb).Canon := by
  unfold State.push
  refine iteInduction (fun _ => h.trapMe) fun _ => iteInduction (fun _ => h.complete) fun _ => ?_
  refine iteInduction (fun _ => h.trapMe) fun _ => iteInduction (fun _ => h.complete) fun _ => ?_
  split
  · next e => exact (h.translate.of e).openFault.notReady
  · next e => exact (h.translate.of e).holds.notReady
  · exact h
  next t _ e =>
  have ht : t.Canon := h.translate.of e
  clear e
  extract_lets p pa line home stop again later checked
  have hstop {r : Res} (hr : Holds Res.Canon r) : (stop r).Canon := by
    cases r with
    | stop s c w => exact State.Canon.notReady hr.holds
    | ok s r => exact ht
    | denied s => exact ht
    | trap s c va x => exact ht
  have hagain {stage} {f : State → State} (hf : ∀ s, s.Canon → (f s).Canon) : (again t stage f).Canon :=
    hstop (ht.claim.stopClaim hf)
  have hlater {w} : (later t w).Canon := hstop (ht.claim.stopOn fun _ h => h)
  have hchecked : Holds RaceRes.Canon checked := iteInduction (fun _ => ht.raceCheck) fun _ => ⟨ht⟩
  clear_value stop again later checked
  refine iteInduction (fun _ => ht.trapMe) fun _ => iteInduction (fun _ => ht.endOp.complete) fun _ => ?_
  refine iteInduction (fun _ => ht.trapMe) fun _ => iteInduction (fun _ => hlater) fun _ => ?_
  refine iteInduction (fun _ => hagain fun _ h => h.missQueue) fun _ => iteInduction (fun _ => hlater) fun _ => ?_
  refine iteInduction (fun _ => hagain fun _ h => h) fun _ => iteInduction (fun _ => hagain fun _ h => h) fun _ => ?_
  split
  · exact State.Canon.trapMe hchecked.holds
  · exact State.Canon.notReady hchecked.holds
  · exact State.Canon.sendPush hchecked.holds

theorem State.Canon.lineAct (h : s.Canon) {c line wb inv} : (s.lineAct c line wb inv).Canon := by
  unfold State.lineAct
  dsimp only
  split
  · exact h
  split
  · exact h.modCore.send.ite h
  · exact h.modCore.send.ite h
  · exact h.modCore.send.ite h
  · exact h.modCore.send.ite h.modCore.send
  · exact (h.modCore.ite h.modCore).send
  · exact (h.giveUpLine.ite h).modCore.refetchFor.ite (h.giveUpLine.ite h).modCore

theorem State.Canon.lineOp (h : s.Canon) {ea wb inv nb} : (s.lineOp ea wb inv nb).Canon := by
  unfold State.lineOp
  dsimp only
  split
  · exact h.complete
  split
  · exact h.trapMe
  split
  · next e => exact (h.translate.of e).complete
  · next e => exact (h.translate.of e).holds.notReady
  · exact h
  · next e => exact (h.translate.of e).endOp.notReady.ite (h.translate.of e).endOp.lineAct.complete

/-! ## Machine/Quoin -/

/-- The state in what a quoin instruction meets. -/
def EitherCanon {α : Type} : State ⊕ (State × α) → Prop
  | .inl s => s.Canon
  | .inr x => x.1.Canon

theorem State.Canon.reachQuoin (h : s.Canon) {ea write nb} : Holds EitherCanon (s.reachQuoin ea write nb) := by
  unfold State.reachQuoin
  dsimp only
  split
  · exact ⟨h.trapMe⟩
  split
  · exact ⟨h.complete⟩
  split
  · exact ⟨h.trapMe⟩
  split
  · next e => exact ⟨(h.translate.of e).openFault.notReady⟩
  · next e => exact ⟨(h.translate.of e).holds.notReady⟩
  · exact ⟨h⟩
  · next e =>
      have ht := h.translate.of e
      split
      · exact ⟨ht.trapMe⟩
      split
      · exact ⟨ht.endOp.complete⟩
      split
      · exact ⟨ht.notReady⟩
      split
      · split
        · next e1 => exact ⟨((ht.claim.stopClaim fun _ h => h.missQueue).of e1).notReady⟩
        · exact ⟨ht⟩
      split
      · exact ⟨ht.endOp.notReady⟩
      · exact ⟨ht.endOp.meetQuoin⟩

theorem execQinit_canon (h : s.Canon) {rs1 nb} : Holds NextCanon (execQinit rs1 nb s) := by
  unfold execQinit
  dsimp only
  split
  · next e => exact ⟨(h.reachQuoin.of e :)⟩
  · next e =>
      have ht := h.reachQuoin.of e
      split
      · exact ⟨ht.rewriteQuoin.complete⟩
      · exact ⟨ht.setQuoin.rewriteQuoin.completeP⟩

theorem State.Canon.testPlace (h : s.Canon) {w nb} : (s.testPlace w nb).Canon := by
  unfold State.testPlace
  dsimp only
  split
  · exact h.completeP
  · exact h.rewriteQuoin.acquireStep.completeP.ite h.rewriteQuoin.notReady

theorem State.Canon.tableFull (h : s.Canon) {d quoin nb} : (s.tableFull d quoin nb).Canon := by
  unfold State.tableFull
  dsimp only
  refine iteInduction (fun _ => ?_) fun _ => ?_
  · refine iteInduction (fun _ => ?_) fun _ => ?_
    · exact h.modDie.notReady.leaveSlot.modThr
    · exact h.modDie.notReady.leaveSlot.modThr.swapIn.getD h.modDie.notReady.leaveSlot.modThr
  · exact h.modDie.notReady

theorem State.Canon.linkPlace (h : s.Canon) {rd ea key d e nb} : (s.linkPlace rd ea key d e nb).Canon := by
  unfold State.linkPlace
  dsimp only
  split
  · exact h.setPlace.setQuoin.rewriteQuoin.modMe.acquireStep.completeP
  · exact (h.setPlace.setQuoin.rewriteQuoin.modMe.iteThen fun h => h.modMe).notReady

theorem execQacq_canon (h : s.Canon) {rd rs1 nb} : Holds NextCanon (execQacq rd rs1 nb s) := by
  unfold execQacq
  extract_lets ea
  split
  · exact ⟨h.testPlace.iteElse fun h => h.modMe⟩
  split
  · next e => exact ⟨(h.reachQuoin.of e :)⟩
  · next e =>
      have ht := h.reachQuoin.of e
      refine iteInduction (fun _ => ⟨ht.rewriteQuoin.tableFull⟩) fun _ => ?_
      split
      · exact ⟨ht.rewriteQuoin.tableFull⟩
      · exact ⟨ht.setDie.linkPlace⟩

theorem execQgive_canon (h : s.Canon) {rs1 rs2 nb} : Holds NextCanon (execQgive rs1 rs2 nb s) := by
  unfold execQgive
  dsimp only
  split
  · exact ⟨h.completeP⟩
  split
  · exact ⟨h.rewriteQuoin.complete⟩
  split
  · exact ⟨h.releaseStep.notReady⟩
  split
  · next e => exact ⟨(h.releaseStep.outbound.of e).notReady⟩
  · next e => exact ⟨(h.releaseStep.outbound.of e).setPlace.queueMail.endOp.rewriteQuoin.modMe.completeP⟩
  · exact ⟨h.releaseStep⟩

theorem State.Canon.withWords (h : s.Canon) {key f} (hf : ∀ s, s.Canon → (f s).Canon) :
    (s.withWords key f).Canon := by
  unfold State.withWords
  split
  · exact h.notReady
  · exact hf _ h

theorem execQswap_canon (h : s.Canon) {rs1 rs2 nb} : Holds NextCanon (execQswap rs1 rs2 nb s) := by
  unfold execQswap
  dsimp only
  split
  · exact ⟨h.completeP⟩
  split
  · exact ⟨h.completeP⟩
  split
  · exact ⟨h.rewriteQuoin.completeP⟩
  split
  · exact ⟨h.rewriteQuoin.rewriteQuoin.complete⟩
  · exact ⟨h.withWords fun _ h => h.setQuoin.rewriteQuoin.completeP⟩

theorem execQdrop_canon (h : s.Canon) {rs1 nb} : Holds NextCanon (execQdrop rs1 nb s) := by
  unfold execQdrop
  split
  · exact ⟨h.completeP⟩
  split
  · exact ⟨h.rewriteQuoin.complete⟩
  · exact ⟨h.dropPlace.completeP⟩

theorem execQrel_canon (h : s.Canon) {rs1 nb} : Holds NextCanon (execQrel rs1 nb s) := by
  unfold execQrel
  dsimp only
  split
  · exact ⟨h.completeP⟩
  split
  · exact ⟨h.rewriteQuoin.complete⟩
  split
  · exact ⟨h.releaseStep.notReady⟩
  · exact ⟨h.releaseStep.withWords fun _ h => h.releasePlace.modMe.completeP⟩

theorem execQstat_canon (h : s.Canon) {rd rs1 nb} : Holds NextCanon (execQstat rd rs1 nb s) := by
  unfold execQstat
  dsimp only
  split
  · split
    · exact ⟨h.completeP⟩
    · exact ⟨h.rewriteQuoin.modMe.completeP⟩
  split
  · next e => exact ⟨(h.reachQuoin.of e :)⟩
  · next e => exact ⟨(h.reachQuoin.of e).rewriteQuoin.modMe.completeP⟩

/-! ## Machine/Thread -/

theorem State.Canon.endYield (h : s.Canon) {c} : (s.endYield c).Canon := h.modMe.ite h.modMe.countMe

theorem State.Canon.yieldOp (h : s.Canon) {n} : (s.yieldOp n).Canon := by
  unfold State.yieldOp
  dsimp only
  split
  · exact h.modMe.endYield
  split
  · exact h.endYield
  · exact h.modMe.endYield.ite h.same.modMe

theorem execSleep_canon (h : s.Canon) {rs1} : Holds NextCanon (execSleep rs1 s) := by
  unfold execSleep
  dsimp only
  split
  · split
    · exact ⟨h.modMe.endYield⟩
    · exact ⟨h.endYield⟩
  · exact ⟨h.same.modMe⟩

theorem State.Canon.spawn (h : s.Canon) {pc arg idx slot} : (s.spawn pc arg idx slot).Canon := by
  unfold State.spawn
  dsimp only
  exact h.same.setThr

theorem execThrSpawn_canon (h : s.Canon) {rd rs1 rs2 nb} : Holds NextCanon (execThrSpawn rd rs1 rs2 nb s) := by
  unfold execThrSpawn
  dsimp only
  split
  · exact ⟨h.complete⟩
  split
  · exact ⟨h.complete⟩
  split
  · exact ⟨h.notReady⟩
  split
  · exact ⟨h.releaseStep.notReady⟩
  · exact ⟨h.releaseStep.spawn.modMe.completeP⟩

theorem execThrExit_canon (h : s.Canon) : Holds NextCanon (execThrExit s) := by
  unfold execThrExit
  dsimp only
  split
  · exact ⟨h.releaseStep.notReady⟩
  · exact ⟨h.releaseStep.modMe.endThread⟩

theorem State.Canon.goTo (h : s.Canon) {ea target} : (s.goTo ea target).Canon :=
  h.endOp.completeP.ite (h.endOp.complete.ite h.endAllClaims.leaveSlot.modMe.countMe)

theorem execGo_canon (h : s.Canon) {rs1} : Holds NextCanon (execGo rs1 s) := by
  unfold execGo
  dsimp only
  split
  · exact ⟨h.trapMe⟩
  · exact ⟨h.trapMe⟩
  · exact ⟨h.goTo⟩
  split
  · next e => exact ⟨(h.translate.of e).openFault.notReady⟩
  · next e => exact ⟨(h.translate.of e).holds.notReady⟩
  · exact ⟨h⟩
  · next e =>
      split
      · exact ⟨(h.translate.of e).trapMe⟩
      split
      · exact ⟨(h.translate.of e).endOp.complete⟩
      · exact ⟨(h.translate.of e).goTo⟩

theorem execMsend_canon (h : s.Canon) {rs1 rs2 nb} : Holds NextCanon (execMsend rs1 rs2 nb s) := by
  unfold execMsend
  dsimp only
  split
  · exact ⟨h.complete⟩
  split
  · exact ⟨h.releaseStep.notReady⟩
  split
  · next e => exact ⟨(h.releaseStep.outbound.of e).notReady⟩
  · next e => exact ⟨(h.releaseStep.outbound.of e).queueMail.endOp.modMe.completeP⟩
  · exact ⟨h.releaseStep⟩

theorem execMrecv_canon (h : s.Canon) {rd nb} : Holds NextCanon (execMrecv rd nb s) := by
  unfold execMrecv
  dsimp only
  split
  · exact ⟨h.notReady⟩
  · exact ⟨h.modCore.modMe.acquireStep.completeP⟩

theorem execMark_canon (h : s.Canon) {rs1 nb} : Holds NextCanon (execMark rs1 nb s) := by
  unfold execMark
  dsimp only
  split
  · exact ⟨h.completeP⟩
  split
  · exact ⟨h.modCore.completeP⟩
  · exact ⟨(h.countMe.ite h).notReady⟩

theorem execHoldWindowClose_canon (h : s.Canon) {kind core uid} :
    Holds NextCanon (execHoldWindowClose kind core uid s) := by
  unfold execHoldWindowClose
  dsimp only
  split
  · exact ⟨h.endClaims⟩
  split
  · exact ⟨h.setCore.serveBudget⟩
  split
  · split
    · exact ⟨h.modDie.serveTable⟩
    · exact notEnabled_canon
  · exact notEnabled_canon

theorem State.Canon.endWaitOf (h : s.Canon) {u c} : (s.endWaitOf u c).Canon := by
  unfold State.endWaitOf
  dsimp only
  exact h.same.modThr.iteElse fun h => h.count

theorem execYieldTimeout_canon (h : s.Canon) {uid} : Holds NextCanon (execYieldTimeout uid s) := by
  unfold execYieldTimeout
  dsimp only
  split
  · split
    · exact ⟨h.endWaitOf⟩
    · exact notEnabled_canon
  · exact notEnabled_canon

theorem execSleepEnd_canon (h : s.Canon) {uid} : Holds NextCanon (execSleepEnd uid s) := by
  unfold execSleepEnd
  dsimp only
  split
  · split
    · split
      · exact ⟨h.modThr.endWaitOf⟩
      · exact ⟨h.endWaitOf⟩
    · exact notEnabled_canon
  · exact notEnabled_canon

theorem execSwapIn_canon (h : s.Canon) {core} : Holds NextCanon (execSwapIn core s) := by
  unfold execSwapIn
  split
  · next e => exact ⟨(h.swapIn.of e :)⟩
  · exact notEnabled_canon

theorem execSwapOut_canon (h : s.Canon) {core} : Holds NextCanon (execSwapOut core s) := by
  unfold execSwapOut
  dsimp only
  split
  · split
    · split
      · exact ⟨h.leaveSlot.modThr.count.swapIn.getD h.leaveSlot.modThr.count⟩
      · exact ⟨h.leaveSlot.modThr.count⟩
    · exact notEnabled_canon
  · exact notEnabled_canon

theorem State.Canon.parkTrap (h : s.Canon) {u} : (s.parkTrap u).Canon := by
  unfold State.parkTrap
  split
  · exact h.modThr.trap
  · exact h

theorem execMigrationArrival_canon (h : s.Canon) {uid} : Holds NextCanon (execMigrationArrival uid s) := by
  unfold execMigrationArrival
  extract_lets t c mine slot s1 s2 rank s3
  have h2 : s2.Canon := h.modCore.modCore
  clear_value s2
  have h3 : s3.Canon := h2.same.modThr
  clear_value slot
  split
  · split
    · exact ⟨h3.takeSlot.modThr⟩
    · exact ⟨h3.modThr.parkTrap⟩
  · exact notEnabled_canon

theorem execMailboxFlit_canon (h : s.Canon) {core k} : Holds NextCanon (execMailboxFlit core k s) := by
  unfold execMailboxFlit
  dsimp only
  split
  · exact notEnabled_canon
  split
  · exact notEnabled_canon
  split
  · exact ⟨h.modCore.fireIf.count⟩
  split
  · exact ⟨h.modCore⟩
  · exact ⟨h.modCore.modCore.fireIf.fireOf⟩

theorem execMessageAck_canon (h : s.Canon) {core k} : Holds NextCanon (execMessageAck core k s) := by
  unfold execMessageAck
  split
  · split
    · exact ⟨h.modCore.serveEntry⟩
    · exact notEnabled_canon
  · exact notEnabled_canon

theorem execMessageNack_canon (h : s.Canon) {core k} : Holds NextCanon (execMessageNack core k s) := by
  unfold execMessageNack
  dsimp only
  split
  · split
    · exact ⟨h.modCore⟩
    · exact notEnabled_canon
  · exact notEnabled_canon

theorem execMessageReplay_canon (h : s.Canon) {core k} : Holds NextCanon (execMessageReplay core k s) := by
  unfold execMessageReplay
  dsimp only
  split
  · exact iteInduction (fun _ => ⟨h.modCore⟩) fun _ => notEnabled_canon
  · exact notEnabled_canon

theorem execTrapRecordWrite_canon (h : s.Canon) {ctx} : Holds NextCanon (execTrapRecordWrite ctx s) := by
  unfold execTrapRecordWrite
  split
  · next e => exact ⟨(h.writeTrap.of e :)⟩
  · exact notEnabled_canon

theorem execWatchdogExpiry_canon (h : s.Canon) {gid} : Holds NextCanon (execWatchdogExpiry gid s) := by
  unfold execWatchdogExpiry
  split
  · exact ⟨h.endTicks⟩
  · exact notEnabled_canon

/-! ## Machine/Vector -/

theorem State.Canon.soil (h : s.Canon) : (s.soil).Canon := h.modMe

theorem State.Canon.lanesLm (h : s.Canon) {vd b write nb l} : (s.lanesLm vd b write nb l).Canon := by
  unfold State.lanesLm
  extract_lets t one bytes i s1
  have hone {n x} {t : State} (ht : t.Canon) : (one n t x).Canon := ht.storeLm.ite ht.modMe
  have h1 : s1.Canon := by
    unfold s1
    split
    · exact hone h
    · exact h
  clear_value one s1
  split
  · exact (h.foldl fun _ _ h => hone h).soil.completeP
  · exact h1.soil.byteMade.ite h1.modMe.soil.completeP

theorem State.Canon.vectorMem (h : s.Canon) {vd ea b m nb write} : (s.vectorMem vd ea b m nb write).Canon := by
  unfold State.vectorMem
  dsimp only
  split
  · split
    · exact h.trapMe
    · exact h.lanesLm
  split
  · next e => exact (h.attempt.of e).trapMe
  · next e => exact (h.attempt.of e).complete
  · next e => exact (h.attempt.of e).soil.notReady.ite (h.attempt.of e).notReady
  · next e =>
      split
      · exact (h.attempt.of e).writeAt.endOp.soil.completeP
      · exact (h.attempt.of e).touch.endOp.modMe.completeP

theorem State.Canon.laneStep (h : s.Canon) {vd ea b k write p} : (s.laneStep vd ea b k write p).Canon :=
  h.writeAt.endOp.ite h.touch.endOp.modMe

theorem State.Canon.laneWalk (h : s.Canon) {vd vs1 base b write nb l done} :
    (s.laneWalk vd vs1 base b write nb l done).Canon := by
  induction l generalizing s done with
  | nil => exact h.modMe.completeP
  | cons k l ih =>
    unfold State.laneWalk
    dsimp only
    split
    · next e => exact ih (State.Canon.laneStep (h.attempt.of e))
    · next e => exact (h.attempt.of e).modMe.notReady
    · next e => exact (h.attempt.of e).complete
    · next e => exact (h.attempt.of e).modMe.trapMe

theorem State.Canon.vectorIndexed (h : s.Canon) {vd vs1 base b m nb write} :
    (s.vectorIndexed vd vs1 base b m nb write).Canon := by
  unfold State.vectorIndexed
  dsimp only
  split
  · exact h.trapMe
  · exact h.laneWalk

/-! ## Machine/Dispatch -/

theorem exec_canon (h : s.Canon) {i} : Holds NextCanon (exec i s) := by
  unfold exec
  cases i with
  | lui => exact ⟨h.write⟩
  | auipc => exact ⟨h.write⟩
  | jal => exact ⟨h.jump⟩
  | jalr => exact ⟨h.jump⟩
  | beq => exact ⟨h.branch⟩
  | bne => exact ⟨h.branch⟩
  | blt => exact ⟨h.branch⟩
  | bge => exact ⟨h.branch⟩
  | bltu => exact ⟨h.branch⟩
  | bgeu => exact ⟨h.branch⟩
  | lb => exact ⟨h.loadOp⟩
  | lh => exact ⟨h.loadOp⟩
  | lw => exact ⟨h.loadOp⟩
  | ld => exact ⟨h.loadOp⟩
  | lbu => exact ⟨h.loadOp⟩
  | lhu => exact ⟨h.loadOp⟩
  | lwu => exact ⟨h.loadOp⟩
  | sb => exact ⟨h.storeOp⟩
  | sh => exact ⟨h.storeOp⟩
  | sw => exact ⟨h.storeOp⟩
  | sd => exact ⟨h.storeOp⟩
  | addi => exact ⟨h.write⟩
  | slti => exact ⟨h.write⟩
  | sltiu => exact ⟨h.write⟩
  | xori => exact ⟨h.write⟩
  | ori => exact ⟨h.write⟩
  | andi => exact ⟨h.write⟩
  | slli => exact ⟨h.write⟩
  | srli => exact ⟨h.write⟩
  | srai => exact ⟨h.write⟩
  | addiw => exact ⟨h.write⟩
  | slliw => exact ⟨h.write⟩
  | srliw => exact ⟨h.write⟩
  | sraiw => exact ⟨h.write⟩
  | add => exact ⟨h.write⟩
  | sub => exact ⟨h.write⟩
  | sll => exact ⟨h.write⟩
  | slt => exact ⟨h.write⟩
  | sltu => exact ⟨h.write⟩
  | xorr => exact ⟨h.write⟩
  | srl => exact ⟨h.write⟩
  | sra => exact ⟨h.write⟩
  | orr => exact ⟨h.write⟩
  | andr => exact ⟨h.write⟩
  | addw => exact ⟨h.write⟩
  | subw => exact ⟨h.write⟩
  | sllw => exact ⟨h.write⟩
  | srlw => exact ⟨h.write⟩
  | sraw => exact ⟨h.write⟩
  | mul => exact ⟨h.write⟩
  | mulh => exact ⟨h.write⟩
  | mulhsu => exact ⟨h.write⟩
  | mulhu => exact ⟨h.write⟩
  | div => exact ⟨h.write⟩
  | divu => exact ⟨h.write⟩
  | rem => exact ⟨h.write⟩
  | remu => exact ⟨h.write⟩
  | mulw => exact ⟨h.write⟩
  | divw => exact ⟨h.write⟩
  | divuw => exact ⟨h.write⟩
  | remw => exact ⟨h.write⟩
  | remuw => exact ⟨h.write⟩
  | czeroEqz => exact ⟨h.write⟩
  | czeroNez => exact ⟨h.write⟩
  | fence => exact ⟨h.fence⟩
  | fenceTso => exact ⟨h.fence⟩
  | ecall => exact execEcall_canon h
  | ebreak => exact execEbreak_canon h
  | csrrw => exact ⟨h.csrOp⟩
  | csrrs => exact ⟨h.csrOp⟩
  | csrrc => exact ⟨h.csrOp⟩
  | csrrwi => exact ⟨h.csrOp⟩
  | csrrsi => exact ⟨h.csrOp⟩
  | csrrci => exact ⟨h.csrOp⟩
  | pld => exact ⟨h.loadOp⟩
  | pst => exact ⟨h.storeOp⟩
  | pldBr => exact ⟨fuse_canon h.loadRes⟩
  | pstBr => exact ⟨fuse_canon h.storeRes⟩
  | bo => exact ⟨h.modMe⟩
  | yield => exact ⟨h.yieldOp⟩
  | yieldN => exact ⟨h.yieldOp⟩
  | sleep => exact execSleep_canon h
  | thrSpawn => exact execThrSpawn_canon h
  | thrExit => exact execThrExit_canon h
  | go => exact execGo_canon h
  | msend => exact execMsend_canon h
  | mrecv => exact execMrecv_canon h
  | mfrom => exact ⟨h.modMe.completeP⟩
  | mark => exact execMark_canon h
  | qinit => exact execQinit_canon h
  | qacq => exact execQacq_canon h
  | qwait => exact ⟨h.testPlace⟩
  | qgive => exact execQgive_canon h
  | qswap => exact execQswap_canon h
  | qdrop => exact execQdrop_canon h
  | qrel => exact execQrel_canon h
  | qstat => exact execQstat_canon h
  | amoAdd => exact ⟨h.amo⟩
  | amoAnd => exact ⟨h.amo⟩
  | amoOr => exact ⟨h.amo⟩
  | amoXor => exact ⟨h.amo⟩
  | amoMin => exact ⟨h.amo⟩
  | amoMax => exact ⟨h.amo⟩
  | amoMinu => exact ⟨h.amo⟩
  | amoMaxu => exact ⟨h.amo⟩
  | amoSwap => exact ⟨h.amo⟩
  | amoCas => exact ⟨h.amo⟩
  | red => exact execRed_canon h
  | lineWb => exact ⟨h.lineOp⟩
  | lineInv => exact ⟨h.lineOp⟩
  | lineWbinv => exact ⟨h.lineOp⟩
  | pqPush => exact execPqPush_canon h
  | pqDone => exact execPqDone_canon h
  | pqResume => exact execPqResume_canon h
  | cbitTest => exact execCbitTest_canon h
  | ksub => exact execKsub_canon h
  | barArrive => exact execBarArrive_canon h
  | barWait => exact ⟨h.waitAt⟩
  | barAw => exact execBarAw_canon h
  | barCfg => exact execBarCfg_canon h
  | fnc => exact execFnc_canon h
  | plda => exact execPlda_canon h
  | pstr => exact execPstr_canon h
  | pshD => exact ⟨h.push⟩
  | pshLine => exact ⟨h.push⟩
  | rngWb => exact ⟨h.rangeOp⟩
  | rngInv => exact ⟨h.rangeOp⟩
  | rngWbinv => exact ⟨h.rangeOp⟩
  | gxKick => exact execGxKick_canon h
  | lc => exact ⟨h.modMe.complete⟩
  | tiLoad => exact execTiLoad_canon h
  | tiInv => exact execTiInv_canon h
  | vadd => exact ⟨h.plain⟩
  | vsub => exact ⟨h.plain⟩
  | vmul => exact ⟨h.plain⟩
  | vfma => exact ⟨h.plain⟩
  | vminu => exact ⟨h.plain⟩
  | vmin => exact ⟨h.plain⟩
  | vmax => exact ⟨h.plain⟩
  | vabs => exact ⟨h.plain⟩
  | vneg => exact ⟨h.plain⟩
  | vdiv => exact ⟨h.plain⟩
  | vsqrt => exact ⟨h.plain⟩
  | vrcpe => exact ⟨h.plain⟩
  | vrsqe => exact ⟨h.plain⟩
  | vmaxu => exact ⟨h.plain⟩
  | vand => exact ⟨h.plain⟩
  | vor => exact ⟨h.plain⟩
  | vxor => exact ⟨h.plain⟩
  | vshl => exact ⟨h.plain⟩
  | vshr => exact ⟨h.plain⟩
  | vsra => exact ⟨h.plain⟩
  | vcmpEq => exact ⟨h.plain⟩
  | vcmpNe => exact ⟨h.plain⟩
  | vcmpLt => exact ⟨h.plain⟩
  | vcmpLe => exact ⟨h.plain⟩
  | vsel => exact ⟨h.plain⟩
  | vcmpLtu => exact ⟨h.plain⟩
  | vbc => exact ⟨h.plain⟩
  | vbcC => exact ⟨h.plain⟩
  | vmv => exact ⟨h.plain⟩
  | vmvClean => exact ⟨h.plain⟩
  | vext => exact ⟨h.plain⟩
  | vcvt => exact ⟨h.plain⟩
  | vcvt8 => exact ⟨h.plain⟩
  | vredAdd => exact ⟨h.plain⟩
  | vredMax => exact ⟨h.plain⟩
  | vredMin => exact ⟨h.plain⟩
  | vdot => exact ⟨h.plain⟩
  | vperm => exact ⟨h.plain⟩
  | vslide => exact ⟨h.plain⟩
  | vld => exact ⟨h.vectorMem⟩
  | vst => exact ⟨h.vectorMem⟩
  | vldx => exact ⟨h.vectorIndexed⟩
  | vstx => exact ⟨h.vectorIndexed⟩
  | claimDataArrival => exact execClaimDataArrival_canon h
  | holdWindowClose => exact execHoldWindowClose_canon h
  | yieldTimeout => exact execYieldTimeout_canon h
  | sleepEnd => exact execSleepEnd_canon h
  | swapIn => exact execSwapIn_canon h
  | swapOut => exact execSwapOut_canon h
  | migrationArrival => exact execMigrationArrival_canon h
  | mailboxFlit => exact execMailboxFlit_canon h
  | messageAck => exact execMessageAck_canon h
  | messageNack => exact execMessageNack_canon h
  | messageReplay => exact execMessageReplay_canon h
  | trapRecordWrite => exact execTrapRecordWrite_canon h
  | watchdogExpiry => exact execWatchdogExpiry_canon h
  | readRequest => exact requestEvent_canon h
  | exclusiveRequest => exact requestEvent_canon h
  | uRequest => exact requestEvent_canon h
  | pushWrite => exact requestEvent_canon h
  | evictionNotice => exact execEvictionNotice_canon h
  | writeBack => exact execWriteBack_canon h
  | acknowledgement => exact execAcknowledgement_canon h
  | invalidation => exact recallEvent_canon h
  | shareRecall => exact recallEvent_canon h
  | updateRecall => exact recallEvent_canon h
  | pushFill => exact execPushFill_canon h
  | pushCompletion => exact execPushCompletion_canon h
  | claimCopyReturn => exact execClaimCopyReturn_canon h
  | untrackedWriteBack => exact execUntrackedWriteBack_canon h
  | hostWrite => exact execHostWrite_canon h
  | hostRead => exact execHostRead_canon h
  | barrierRelease => exact execBarrierRelease_canon h
  | semRemoteArrival => exact execSemRemoteArrival_canon h
  | semArrivalReply => exact execSemArrivalReply_canon h
  | semPhaseUpdate => exact execSemPhaseUpdate_canon h
  | pressArbitration => exact execPressArbitration_canon h
  | lstat => exact execLstat_canon h
  | flip => exact execFlip_canon h
  | stream => exact execStream_canon h
  | aclr => exact execAclr_canon h
  | drain => exact execDrain_canon h
  | acopy => exact execAcopy_canon h
  | aload => exact execAload_canon h
  | pressMark => exact execPressMark_canon h
  | share => exact execShare_canon h
  | groupQueueDiscard => exact execGroupQueueDiscard_canon h
  | galleyChain => exact execGalleyChain_canon h
  | copy => exact h.runChunk
  | compose => exact h.runChunk
  | scatter => exact h.runChunk
  | fill => exact h.runChunk
  | convert => exact h.runChunk
  | galleyChunkDone => exact execGalleyChunkDone_canon h
  | sweep => exact execSweep_canon h
  | tableWalk => exact execTableWalk_canon h
  | faultRingWrite => exact execFaultRingWrite_canon h
  | queueDoorbell => exact execQueueDoorbell_canon h
  | queueEnable => exact execQueueEnable_canon h
  | queueDisable => exact execQueueDisable_canon h
  | queueCancel => exact execQueueCancel_canon h
  | dependenceMet => exact execDependenceMet_canon h
  | kernelAdmit => exact execKernelAdmit_canon h
  | groupPlace => exact execGroupPlace_canon h
  | kernelDrainComplete => exact execKernelDrainComplete_canon h
  | kernelCancel => exact execKernelCancel_canon h
  | kernelFaultMark => exact execKernelFaultMark_canon h
  | groupSave => exact execGroupSave_canon h
  | groupRestore => exact execGroupRestore_canon h
  | tenantSliceEnd => exact execTenantSliceEnd_canon h
  | contextPublish => exact execContextPublish_canon h
  | contextFaultMark => exact execContextFaultMark_canon h
  | contextTeardown => exact execContextTeardown_canon h
  | imageRestore => exact execImageRestore_canon h
  | bucketRefill => exact execBucketRefill_canon h
  | fansResolve => exact execFansResolve_canon h
  | fansDecline => exact execFansDecline_canon h
  | shoot => exact execShoot_canon h
  | assnDieBarrier => exact execAssnDieBarrier_canon h
  | assnGalleyChannel => exact execAssnGalleyChannel_canon h
  | tresResume => exact execTresResume_canon h
  | tresEnd => exact execTresEnd_canon h
  | linkDataFlit => exact execLinkDataFlit_canon h
  | linkAck => exact h.flitBack
  | linkNack => exact h.flitBack
  | linkBackoffExpiry => exact execLinkBackoffExpiry_canon h
  | linkReplayTimeout => exact execLinkReplayTimeout_canon h
  | linkEnable => exact execLinkEnable_canon h
  | linkTrainingDone => exact execLinkTrainingDone_canon h
  | laneMarginal => exact execLaneMarginal_canon h
  | laneLost => exact execLaneLost_canon h
  | linkDrainRequest => exact execLinkDrainRequest_canon h
  | linkWindowDrained => exact execLinkWindowDrained_canon h
  | spareSwapComplete => exact execSpareSwapComplete_canon h
  | portRingDoorbell => exact execPortRingDoorbell_canon h
  | networkSend => exact execNetworkSend_canon h
  | storageRead => exact h.issueNvme
  | storageWrite => exact h.issueNvme
  | storageFlush => exact h.issueNvme
  | nvmeCompletion => exact execNvmeCompletion_canon h
  | traceDrain => exact execTraceDrain_canon h
  | snapshot => exact execSnapshot_canon h
  | stopOnTick => exact execStopOnTick_canon h
  | stopctlArm => exact ⟨h.armStop⟩
  | registerWrite => exact execRegisterWrite_canon h
  | gtickDiscipline => exact execGtickDiscipline_canon h
  | powerGood => exact execPowerGood_canon h
  | powerGoodFall => exact execPowerGoodFall_canon h
  | firmwareVerify => exact execFirmwareVerify_canon h
  | dieStart => exact execDieStart_canon h
  | attestationReport => exact execAttestationReport_canon h
  | managementReset => exact execManagementReset_canon h
  | scanOut => exact execScanOut_canon h
  | pwrcapWrite => exact execPwrcapWrite_canon h
  | preqWrite => exact execPreqWrite_canon h
  | pstateTransitionDone => exact execPstateTransitionDone_canon h
  | ceilingBoundary => exact execCeilingBoundary_canon h
  | thermalSample => exact execThermalSample_canon h
  | droopDetect => exact ⟨h.modForme⟩
  | park => exact execPark_canon h
  | parkShutdownDone => exact execParkShutdownDone_canon h
  | unpark => exact execUnpark_canon h
  | unparkStartDone => exact execUnparkStartDone_canon h
  | dieDrain => exact execDieDrain_canon h
  | firmwareHandover => exact execFirmwareHandover_canon h
  | expansionTableUpdate => exact execExpansionTableUpdate_canon h
  | softError => exact execSoftError_canon h
  | rowSparing => exact execRowSparing_canon h
  | vaultRecalibration => exact execVaultRecalibration_canon h
  | vaultSparing => exact execVaultSparing_canon h
  | coreRetire => exact execCoreRetire_canon h
  | illegalInstructionWord => exact ⟨h.trapMe⟩
  | lanternCoreAccess => exact execLanternCoreAccess_canon h
  | pageThaw => exact execPageThaw_canon h
  | homePageRecall => exact execHomePageRecall_canon h
  | contextMigrate => exact execContextMigrate_canon h
  | coreReturnToService => exact execCoreReturnToService_canon h
  | podJoin => exact ⟨h.same⟩
  | fusedMinimumRaise => exact ⟨h.same⟩

/-! ## Machine/Settings -/

theorem State.Canon.discardDie (h : s.Canon) {d} : (s.discardDie d).Canon := h.same

theorem State.Canon.countersFor (h : s.Canon) {core n ctx sel} : (s.countersFor core n ctx sel).Canon :=
  (h.modCtx.ite h).setCore

theorem State.Canon.applySetting (h : s.Canon) {x} : Holds OptCanon (s.applySetting x) := by
  unfold State.applySetting
  dsimp only
  split
  · split
    · exact ⟨h.modDie⟩
    · exact ⟨trivial⟩
  · split
    · exact ⟨trivial⟩
    · exact ⟨h.same⟩
  · split
    · exact ⟨h.handLink⟩
    · exact ⟨trivial⟩
  · split
    · exact ⟨h.setLink⟩
    · exact ⟨trivial⟩
  · split
    · exact ⟨h.same⟩
    · exact ⟨trivial⟩
  · split
    · exact ⟨h.setLink⟩
    · exact ⟨trivial⟩
  · split
    · exact ⟨trivial⟩
    · exact ⟨h.same⟩
  · split
    · exact ⟨h.same.ite h.same.same⟩
    · exact ⟨trivial⟩
  · split
    · exact ⟨h.same⟩
    · exact ⟨trivial⟩
  · exact ⟨h.same⟩
  · exact ⟨h.same⟩
  · exact h.podWrite
  · exact h.podWritten
  · split
    · exact ⟨h.same⟩
    · exact ⟨trivial⟩
  · exact h.pstateStep
  · split
    · exact ⟨h.same⟩
    · exact ⟨trivial⟩
  · split
    · exact ⟨h.setLink⟩
    · exact ⟨trivial⟩
  · split
    · exact ⟨h.setLink⟩
    · exact ⟨trivial⟩
  · split
    · exact ⟨trivial⟩
    · exact ⟨h.modThr⟩
  · split
    · exact ⟨h.modCtx⟩
    · exact ⟨trivial⟩
  · exact h.sliceBegin
  · exact h.preemptRequest
  · exact h.saveComplete
  · exact h.imageOut
  · exact h.imageAway
  · exact h.imageIn
  · exact h.freed
  · exact ⟨h.clearHot⟩
  · split
    · exact ⟨h.countersFor⟩
    · exact ⟨trivial⟩
  split
  · exact ⟨h.discardDie⟩
  · exact ⟨trivial⟩

/-! ## Machine/Issue -/

theorem State.Canon.codeLine (h : s.Canon) {c ctx line home} : (s.codeLine c ctx line home).Canon :=
  h.ite (h.homeRequest.iteThen fun h => h.recallShare).modCore

theorem State.Canon.fetchOn (h : s.Canon) {u} : (s.fetchOn u).Canon := by
  unfold State.fetchOn
  dsimp only
  split
  · exact h.waitFetch.ite (h.ite h.count.missQueue)
  · exact h.codeLine
  · exact h

theorem State.Canon.prefetch (h : s.Canon) {u ahead} : (s.prefetch u ahead).Canon := by
  unfold State.prefetch
  dsimp only
  split
  · exact h
  · exact h.codeLine.ite h

theorem State.Canon.openWindows (h : s.Canon) {c cycle} : (s.openWindows c cycle).Canon := by
  unfold State.openWindows
  extract_lets able close claim hold table t
  have ht : t.Canon := h.modCore
  exact ht.same

theorem State.Canon.closeWindows (h : s.Canon) {c cycle} : (s.closeWindows c cycle).Canon :=
  ((h.endClaims.ite h).iteThen fun h => h.modCore.serveBudget).foldl fun _ _ h => h.modDie.serveTable.ite h

theorem State.Canon.prepare (h : s.Canon) {c} : (s.prepare c).Canon := by
  unfold State.prepare
  extract_lets cycle t
  have ht : t.Canon := h.foldl fun _ _ h => h.fetchOn
  exact ht.openWindows.closeWindows

theorem State.Canon.begin (h : s.Canon) {u w cycle} : (s.begin u w cycle).Canon := by
  unfold State.begin
  dsimp only
  exact h.same.modThr.modCore.count

theorem State.Canon.lateTrap (h : s.Canon) {u l} : (s.lateTrap u l).Canon := h.modThr.trap

theorem State.Canon.turnOf (h : s.Canon) {c} : Holds (OptOf Act.Canon) (s.turnOf c) := by
  unfold State.turnOf
  dsimp only
  split
  · exact ⟨trivial⟩
  split
  · exact ⟨h.lateTrap⟩
  split
  · exact ⟨h.begin⟩
  · exact ⟨h.begin.trap⟩
  · exact ⟨trivial⟩

theorem State.Canon.idleCycle (h : s.Canon) {c} : (s.idleCycle c).Canon := by
  unfold State.idleCycle
  dsimp only
  exact h.same.modCore.count

theorem State.Canon.other (h : s.Canon) : Holds Act.Canon (s.other) := by
  unfold State.other
  dsimp only
  split
  · exact ⟨h⟩
  split
  · exact ⟨h⟩
  split
  · exact ⟨h.portServe⟩
  split
  · exact ⟨h⟩
  split
  · exact ⟨h⟩
  · exact ⟨h.idleCycle.endTicks.rewriteOwed.same⟩

theorem State.Canon.evict (h : s.Canon) {c line} : (s.evict c line).Canon := by
  unfold State.evict
  dsimp only
  split
  · exact h
  · exact h.ite h.modCore.giveUpLine

theorem State.Canon.evictTlb (h : s.Canon) {c n} : (s.evictTlb c n).Canon := by
  unfold State.evictTlb
  dsimp only
  split
  · exact h
  · exact h.ite h.setCore

theorem State.Canon.passSpan (h : s.Canon) {n} : (s.passSpan n).Canon := by
  unfold State.passSpan
  dsimp only
  exact h.endTicks.rewriteOwed.iteThen fun h => h.same

theorem State.Canon.passCycles (h : s.Canon) {d n} : (s.passCycles d n).Canon := by
  unfold State.passCycles
  dsimp only
  exact h.same.same.ite h.same

theorem State.Canon.itemAct (h : s.Canon) {x} : Holds Act.Canon (s.itemAct x) := by
  unfold State.itemAct
  split
  · exact h.prepare.turnOf.holds_getD ⟨h.prepare.idleCycle⟩
  · exact ⟨h.passSpan⟩
  · exact ⟨h.passCycles⟩
  · exact ⟨h.evict⟩
  · exact ⟨h.modCore⟩
  · exact ⟨h.evictTlb⟩
  · exact ⟨h.evictHome⟩
  · exact ⟨h.prefetch⟩
  · exact ⟨h.portServe⟩
  · exact ⟨h.shootPoint.getD h⟩
  · exact ⟨h.applySetting.getD h⟩
  · exact ⟨h⟩

theorem State.Canon.dueNow (h : s.Canon) : Holds (OptOf Act.Canon) (s.dueNow) := by
  unfold State.dueNow
  cases s.releaseDue with
  | some i => exact ⟨h⟩
  | none => exact Holds.any.map fun _ _ => h.refillSlice

theorem State.Canon.next (h : s.Canon) : Holds Act.Canon (s.next) := by
  unfold State.next
  refine iteInduction (fun _ => ⟨h⟩) fun _ => iteInduction (fun _ => ⟨h⟩) fun _ => ?_
  refine iteInduction (fun _ => ⟨h.freeBoundary⟩) fun _ => ?_
  have hdue {c : Prop} [Decidable c] : Holds (OptOf Act.Canon) (if c then s.dueNow else none) :=
    iteInduction (fun _ => h.dueNow) fun _ => ⟨trivial⟩
  split
  · next e => exact ⟨(hdue.of e :)⟩
  split
  · refine iteInduction (fun _ => ⟨trivial⟩) fun _ => iteInduction (fun _ => ⟨trivial⟩) fun _ => ?_
    exact iteInduction (fun _ => ⟨h.same⟩) fun _ => ⟨h.same⟩
  · refine iteInduction (fun _ => ⟨trivial⟩) fun _ => iteInduction (fun _ => ⟨trivial⟩) fun _ => ?_
    exact h.same.itemAct
  · refine iteInduction (fun _ => ⟨trivial⟩) fun _ => iteInduction (fun _ => ⟨trivial⟩) fun _ => ?_
    exact h.prepare.turnOf.holds_getD h.prepare.other

/-! ## Machine/Step -/

theorem step_canon (h : s.Canon) : Holds NextCanon (step s) := by
  unfold step
  split
  · next e => exact exec_canon (h.next.of e)
  · next e => exact ⟨(h.next.of e :)⟩
  · exact ⟨trivial⟩

end

/-! ## The statement -/

/-- Settles O59: every operation of the model keeps the memories canonical, so every step does. -/
theorem stepKeeps : Obligations.StepKeeps := by
  unfold Obligations.StepKeeps
  intro s t hs e
  exact State.canon_iff.mp ((step_canon (State.canon_iff.mpr hs)).of e)

end Sys2Proof.Machine

namespace Sys2Proof.Machine

open Sys2Proof

/-! # Accesses that trap (R19 to R23, R59, R325)

`AccessTrap` names the reasons for which a load or store of a thread traps on its address, each with its class. One lemma
says that the attempt of such an access traps there, in the state as it stood; the loads and the stores follow from it,
and each instruction is one of them. -/

/-- An access of `n` bytes at `a`, a store where `write`, traps with a class on its address alone: the reasons of R19 to
R23, R59 and R325, in the order of log 14. -/
inductive State.AccessTrap (s : State) (a : Word) (n : Nat) (write : Bool) : TrapClass → Prop where
  | misaligned : a.toNat % n ≠ 0 ∧ inPaged a.toNat = true → s.AccessTrap a n write .access
  | outside : ¬ (a.toNat % n ≠ 0 ∧ inPaged a.toNat = true) → s.span s.cur a n write = .window →
      s.AccessTrap a n write .window
  | noClass : s.span s.cur a n write = .access → s.AccessTrap a n write .access
  | shadow : ¬ (a.toNat % n ≠ 0 ∧ inPaged a.toNat = true) → write = true → s.span s.cur a n write = .paged →
      s.inShadow s.myCtx a.toNat = true → s.AccessTrap a n write .access

section
variable {s : State} {cls : TrapClass} {a : Word} {width : BitVec 3}

/-- The attempt of an access with a reason to trap does so, and changes nothing before it. A misaligned access to paged
memory does not come as far as its class; any other traps by the class of its address or, as a store, by the shadow. -/
theorem State.attempt_of_accessTrap {k : AKind} {n bytes : Nat} (h : s.AccessTrap a n k.writes cls) :
    s.attempt k a n n false bytes = .trap s cls a 0 := by
  by_cases skew : a.toNat % n ≠ 0 ∧ inPaged a.toNat = true
  · have stopped : s.attempt k a n n false bytes = .trap s .access a 0 := if_pos ⟨skew.1, .inr skew.2⟩
    cases h with
    | misaligned => exact stopped
    | outside even => exact absurd skew even
    | noClass => exact stopped
    | shadow even => exact absurd skew even
  · unfold State.attempt
    rw [if_neg (by simpa using skew)]
    cases h with
    | misaligned e => exact absurd e skew
    | outside _ window => rw [window]
    | noClass access => rw [access]
    | shadow _ write paged inside =>
      rw [paged]
      exact if_pos (by rw [write, inside]; rfl)

theorem State.loadRes_of_accessTrap (rd : BitVec 4) (nb : BitVec 1)
    (h : s.AccessTrap a (widthBytes width) false cls) : s.loadRes rd a width nb = (s.trapMe cls a 0, none) := by
  unfold State.loadRes
  dsimp only
  rw [State.attempt_of_accessTrap (k := .load) h]

theorem State.storeRes_of_accessTrap (rs : BitVec 4) (nb : BitVec 1)
    (h : s.AccessTrap a (widthBytes width) true cls) : s.storeRes rs a width nb = (s.trapMe cls a 0, none) := by
  unfold State.storeRes
  dsimp only
  rw [State.attempt_of_accessTrap (k := .store) h]

end

section
variable {s : State} {i : Instr} {a : Word} {width : BitVec 3}

/-- A load without a fused branch (R58, R134) traps for each of the reasons. -/
theorem State.traps_of_loadOp {rd : BitVec 4} {nb : BitVec 1} (k : s.me.issues)
    (e : exec i s = .next (s.loadOp rd a width nb)) (cls : TrapClass)
    (h : s.AccessTrap a (widthBytes width) false cls) : s.traps i cls a 0 :=
  State.traps_of (by rw [e, State.loadOp, State.loadRes_of_accessTrap rd nb h]) k

/-- A store without a fused branch (R58, R134) traps for each of the reasons. -/
theorem State.traps_of_storeOp {rs : BitVec 4} {nb : BitVec 1} (k : s.me.issues)
    (e : exec i s = .next (s.storeOp rs a width nb)) (cls : TrapClass)
    (h : s.AccessTrap a (widthBytes width) true cls) : s.traps i cls a 0 :=
  State.traps_of (by rw [e, State.storeOp, State.storeRes_of_accessTrap rs nb h]) k

/-- A fused probe does not branch after a trap (R136). -/
theorem State.traps_of_fused {pc : Word} {off : BitVec 12} {r : State × Option OCode} {cls : TrapClass} (k : s.me.issues)
    (e : exec i s = .next (fuse pc off r)) (h : r = (s.trapMe cls a 0, none)) : s.traps i cls a 0 :=
  State.traps_of (by rw [e, h]; rfl) k

end

/-- The clauses of the statement for one instruction, from its trap for every reason. -/
theorem State.accessTrap_clauses {s : State} {i : Instr} {a : Word} {n : Nat} {write : Bool}
    (h : ∀ cls, s.AccessTrap a n write cls → s.traps i cls a 0) :
    let skew : Prop := a.toNat % n ≠ 0 ∧ inPaged a.toNat = true
    (skew → s.traps i .access a 0) ∧
    (¬ skew → s.span s.cur a n write = .window → s.traps i .window a 0) ∧
    (s.span s.cur a n write = .access → s.traps i .access a 0) ∧
    (¬ skew → write = true → s.span s.cur a n write = .paged → s.inShadow s.myCtx a.toNat = true →
      s.traps i .access a 0) :=
  ⟨fun skew => h _ (.misaligned skew), fun even window => h _ (.outside even window), fun access => h _ (.noClass access),
    fun even write paged inside => h _ (.shadow even write paged inside)⟩

/-- Settles O13: every load and store attempts its access first, and the attempt traps for each of the reasons. -/
theorem accessTraps : Obligations.AccessTraps := by
  unfold Obligations.AccessTraps
  intro s r base imm off width nb k n ea bad
  have load {i : Instr} (w : BitVec 3) (z : BitVec 1) (e : exec i s = .next (s.loadOp r ea w z)) :
      bad ea (widthBytes w) false i := State.accessTrap_clauses (State.traps_of_loadOp k e)
  have store {i : Instr} (w : BitVec 3) (z : BitVec 1) (e : exec i s = .next (s.storeOp r ea w z)) :
      bad ea (widthBytes w) true i := State.accessTrap_clauses (State.traps_of_storeOp k e)
  refine ⟨load 0 0 rfl, load 1 0 rfl, load 2 0 rfl, load 3 0 rfl, load 4 0 rfl, load 5 0 rfl, load 6 0 rfl,
    store 0 0 rfl, store 1 0 rfl, store 2 0 rfl, store 3 0 rfl, load width nb rfl, store width nb rfl, ?_, ?_⟩
  · exact State.accessTrap_clauses fun _ h => State.traps_of_fused k rfl (State.loadRes_of_accessTrap r 1 h)
  · exact State.accessTrap_clauses fun _ h => State.traps_of_fused k rfl (State.storeRes_of_accessTrap r 1 h)

end Sys2Proof.Machine

namespace Sys2Proof

/-! # Decoding and encoding (R27 to R44)

From an instruction to its word and back: `encode` adds shifted operands to a constant, and four rules about a slice of
such a sum read any field of it (`slice_add_above`, `slice_add_self`, `slice_add_below`, `slice_ofNat`), so that the
decoder's matches stand on numerals. From a word to its instruction: each format says once how its fields make up the
word, and the decoder's guards fix every field that is no operand. -/

/-! ## Slices of a sum of fields -/

/-- The `n` bits of a word above the factor `m`, which is a power of two: `bits` with the factor for the position. -/
def slice (w m n : Nat) : Nat := w / m % 2 ^ n

theorem bits_eq_slice (w lo n : Nat) : bits w lo n = slice w (2 ^ lo) n := rfl

/-- A field added above a slice leaves the slice. -/
@[simp] theorem slice_add_above {m p n : Nat} (x v : Nat) (h : m % (p * 2 ^ n) = 0) :
    slice (x + v * m) p n = slice x p n := by
  obtain ⟨k, rfl⟩ := Nat.dvd_of_mod_eq_zero h
  rcases Nat.eq_zero_or_pos p with rfl | hp
  · simp [slice]
  · have e : x + v * (p * 2 ^ n * k) = x + p * (2 ^ n * (v * k)) := by ring
    rw [slice, slice, e, Nat.add_mul_div_left _ _ hp, Nat.add_mul_mod_self_left]

/-- A field added at a slice adds to it. -/
@[simp] theorem slice_add_self {m n : Nat} (x : Nat) (v : BitVec n) (hm : 0 < m) :
    slice (x + v.toNat * m) m n = (BitVec.ofNat n (slice x m n) + v).toNat := by
  simp [slice, Nat.add_mul_div_right _ _ hm]

/-- A field added below a slice leaves the slice, where the word has nothing in the field's own place. -/
@[simp] theorem slice_add_below {m p n c : Nat} (x : Nat) (v : BitVec c) (hm : 0 < m) (h : p % (m * 2 ^ c) = 0) :
    slice (x + v.toNat * m) p n = if slice x m c = 0 then slice x p n else (x + v.toNat * m) / p % 2 ^ n := by
  obtain ⟨k, rfl⟩ := Nat.dvd_of_mod_eq_zero h
  split
  case isFalse => rfl
  case isTrue hx =>
    have e : (x + v.toNat * m) / m / 2 ^ c = x / m / 2 ^ c := by
      rw [Nat.add_mul_div_right _ _ hm, ← Nat.div_add_mod (x / m) (2 ^ c), show x / m % 2 ^ c = 0 from hx, Nat.add_zero,
        Nat.mul_add_div (by positivity), Nat.mul_div_cancel_left _ (by positivity), Nat.div_eq_of_lt v.isLt]
      rfl
    simp only [slice, ← Nat.div_div_eq_div_mul, e]

@[simp] theorem slice_ofNat (x m n : Nat) : slice (no_index (OfNat.ofNat x)) m n = OfNat.ofNat x / m % 2 ^ n := rfl

/-- A piece of an operand is itself a field. -/
theorem bits_toNat {k : Nat} (v : BitVec k) (lo n : Nat) : bits v.toNat lo n = (fld n v.toNat lo).toNat := by
  simp [fld, bits]

theorem ofNat_storePieces (v : BitVec 12) :
    BitVec.ofNat 12 ((fld 5 v.toNat 0).toNat + (fld 7 v.toNat 5).toNat * 32) = v := by
  apply BitVec.eq_of_toNat_eq
  simp [fld, bits]
  omega

theorem ofNat_branchPieces (v : BitVec 12) :
    BitVec.ofNat 12 ((fld 4 v.toNat 0).toNat + (fld 6 v.toNat 4).toNat * 16 + (fld 1 v.toNat 10).toNat * 1024 +
      (fld 1 v.toNat 11).toNat * 2048) = v := by
  apply BitVec.eq_of_toNat_eq
  simp [fld, bits]
  omega

theorem ofNat_jumpPieces (v : BitVec 20) :
    BitVec.ofNat 20 ((fld 10 v.toNat 0).toNat + (fld 1 v.toNat 10).toNat * 1024 +
      (fld 8 v.toNat 11).toNat * 2048 + (fld 1 v.toNat 19).toNat * 524288) = v := by
  apply BitVec.eq_of_toNat_eq
  simp [fld, bits]
  omega

/-! ## Every instruction word reads back -/

/-- The fields of the instruction's word name the instruction (R28). -/
def ReadsBack (i : Instr) : Prop := decodeRaw (encode i) = some i

/-- Loads of the scalar stream (R53, R58). -/
theorem readsBack_load (rd rs1 : BitVec 4) (imm : BitVec 12) :
    ReadsBack (.lb rd rs1 imm) ∧ ReadsBack (.lh rd rs1 imm) ∧ ReadsBack (.lw rd rs1 imm) ∧
    ReadsBack (.ld rd rs1 imm) ∧ ReadsBack (.lbu rd rs1 imm) ∧ ReadsBack (.lhu rd rs1 imm) ∧
    ReadsBack (.lwu rd rs1 imm) := by
  simp [ReadsBack, encode, decodeRaw, decodeLoad, bits_eq_slice, fld, keep]

/-- Immediate forms, `jalr` among them (R53). -/
theorem readsBack_opImm :
    (∀ rd rs1 imm, ReadsBack (.jalr rd rs1 imm) ∧ ReadsBack (.addi rd rs1 imm) ∧ ReadsBack (.slti rd rs1 imm) ∧
      ReadsBack (.sltiu rd rs1 imm) ∧ ReadsBack (.xori rd rs1 imm) ∧ ReadsBack (.ori rd rs1 imm) ∧
      ReadsBack (.andi rd rs1 imm)) ∧
    (∀ rd rs1 sh, ReadsBack (.slli rd rs1 sh) ∧ ReadsBack (.srli rd rs1 sh) ∧ ReadsBack (.srai rd rs1 sh)) := by
  simp [ReadsBack, encode, decodeRaw, decodeOpImm, bits_eq_slice, fld, keep]

/-- Immediate W forms (R53). -/
theorem readsBack_opImm32 :
    (∀ rd rs1 imm, ReadsBack (.addiw rd rs1 imm)) ∧
    (∀ rd rs1 sh, ReadsBack (.slliw rd rs1 sh) ∧ ReadsBack (.srliw rd rs1 sh) ∧ ReadsBack (.sraiw rd rs1 sh)) := by
  simp [ReadsBack, encode, decodeRaw, decodeOpImm32, bits_eq_slice, fld, keep]

/-- Register forms, products and quotients (R53 to R55). -/
theorem readsBack_op (rd rs1 rs2 : BitVec 4) :
    ReadsBack (.add rd rs1 rs2) ∧ ReadsBack (.sub rd rs1 rs2) ∧ ReadsBack (.sll rd rs1 rs2) ∧
    ReadsBack (.slt rd rs1 rs2) ∧ ReadsBack (.sltu rd rs1 rs2) ∧ ReadsBack (.xorr rd rs1 rs2) ∧
    ReadsBack (.srl rd rs1 rs2) ∧ ReadsBack (.sra rd rs1 rs2) ∧ ReadsBack (.orr rd rs1 rs2) ∧
    ReadsBack (.andr rd rs1 rs2) ∧ ReadsBack (.mul rd rs1 rs2) ∧ ReadsBack (.mulh rd rs1 rs2) ∧
    ReadsBack (.mulhsu rd rs1 rs2) ∧ ReadsBack (.mulhu rd rs1 rs2) ∧ ReadsBack (.div rd rs1 rs2) ∧
    ReadsBack (.divu rd rs1 rs2) ∧ ReadsBack (.rem rd rs1 rs2) ∧ ReadsBack (.remu rd rs1 rs2) ∧
    ReadsBack (.czeroEqz rd rs1 rs2) ∧ ReadsBack (.czeroNez rd rs1 rs2) := by
  simp [ReadsBack, encode, decodeRaw, decodeOp, bits_eq_slice, fld, keep]

/-- Register W forms (R53, R54). -/
theorem readsBack_op32 (rd rs1 rs2 : BitVec 4) :
    ReadsBack (.addw rd rs1 rs2) ∧ ReadsBack (.subw rd rs1 rs2) ∧ ReadsBack (.sllw rd rs1 rs2) ∧
    ReadsBack (.srlw rd rs1 rs2) ∧ ReadsBack (.sraw rd rs1 rs2) ∧ ReadsBack (.mulw rd rs1 rs2) ∧
    ReadsBack (.divw rd rs1 rs2) ∧ ReadsBack (.divuw rd rs1 rs2) ∧ ReadsBack (.remw rd rs1 rs2) ∧
    ReadsBack (.remuw rd rs1 rs2) := by
  simp [ReadsBack, encode, decodeRaw, decodeOp32, bits_eq_slice, fld, keep]

/-- Stores of the scalar stream, whose immediate stands in two pieces (R53, R58). -/
theorem readsBack_store (rs1 rs2 : BitVec 4) (imm : BitVec 12) :
    ReadsBack (.sb rs1 rs2 imm) ∧ ReadsBack (.sh rs1 rs2 imm) ∧ ReadsBack (.sw rs1 rs2 imm) ∧
    ReadsBack (.sd rs1 rs2 imm) := by
  have whole := ofNat_storePieces imm
  simp only [ReadsBack, encode, bits_toNat]
  generalize fld 5 imm.toNat 0 = a, fld 7 imm.toNat 5 = b at *
  subst whole
  simp [decodeRaw, decodeStore, bits_eq_slice, fld, keep]

/-- Branches, whose offset stands in four pieces (R53). -/
theorem readsBack_branch (rs1 rs2 : BitVec 4) (imm : BitVec 12) :
    ReadsBack (.beq rs1 rs2 imm) ∧ ReadsBack (.bne rs1 rs2 imm) ∧ ReadsBack (.blt rs1 rs2 imm) ∧
    ReadsBack (.bge rs1 rs2 imm) ∧ ReadsBack (.bltu rs1 rs2 imm) ∧ ReadsBack (.bgeu rs1 rs2 imm) := by
  have whole := ofNat_branchPieces imm
  simp only [ReadsBack, encode, bits_toNat]
  generalize fld 4 imm.toNat 0 = a, fld 6 imm.toNat 4 = b, fld 1 imm.toNat 10 = c, fld 1 imm.toNat 11 = d at *
  subst whole
  simp [decodeRaw, decodeBranch, bits_eq_slice, fld, keep]

/-- Upper immediates (R53). -/
theorem readsBack_upper (rd : BitVec 4) (imm : BitVec 20) : ReadsBack (.lui rd imm) ∧ ReadsBack (.auipc rd imm) := by
  simp [ReadsBack, encode, decodeRaw, bits_eq_slice, fld, keep]

/-- `jal`, whose offset stands in four pieces (R53). -/
theorem readsBack_jal (rd : BitVec 4) (imm : BitVec 20) : ReadsBack (.jal rd imm) := by
  have whole := ofNat_jumpPieces imm
  simp only [ReadsBack, encode, bits_toNat]
  generalize fld 10 imm.toNat 0 = a, fld 1 imm.toNat 10 = b, fld 8 imm.toNat 11 = c, fld 1 imm.toNat 19 = d at *
  subst whole
  simp [decodeRaw, bits_eq_slice, fld, keep]

/-- FENCE (R29). -/
theorem readsBack_fence (rd rs1 : BitVec 5) (pred succ : BitVec 4) :
    ReadsBack (.fence rd rs1 pred succ) ∧ ReadsBack (.fenceTso rd rs1 pred succ) := by
  simp [ReadsBack, encode, decodeRaw, decodeFence, bits_eq_slice, fld, keep]

/-- ECALL, EBREAK and the CSR accesses (R29). -/
theorem readsBack_system :
    ReadsBack .ecall ∧ ReadsBack .ebreak ∧
    (∀ rd rs1 csr, ReadsBack (.csrrw rd rs1 csr) ∧ ReadsBack (.csrrs rd rs1 csr) ∧ ReadsBack (.csrrc rd rs1 csr)) ∧
    (∀ rd csr uimm, ReadsBack (.csrrwi rd csr uimm) ∧ ReadsBack (.csrrsi rd csr uimm) ∧
      ReadsBack (.csrrci rd csr uimm)) := by
  simp [ReadsBack, encode, decodeRaw, decodeSystem, bits_eq_slice, fld, keep]

/-- Probes, fused probes and `bo` (R33, R34). -/
theorem readsBack_probe :
    (∀ rd base imm width nb, ReadsBack (.pld rd base imm width nb)) ∧
    (∀ rs base imm width nb, ReadsBack (.pst rs base imm width nb)) ∧
    (∀ rd base off width, ReadsBack (.pldBr rd base off width)) ∧
    (∀ rs base off width, ReadsBack (.pstBr rs base off width)) ∧
    (∀ off cond, ReadsBack (.bo off cond)) := by
  simp [ReadsBack, encode, decodeRaw, decodeDM, decodeDB, bits_eq_slice, fld, keep]

/-- Instructions of the thread (R36, R38). -/
theorem readsBack_thread :
    ReadsBack .yield ∧ ReadsBack .thrExit ∧
    (∀ rs1, ReadsBack (.yieldN rs1) ∧ ReadsBack (.sleep rs1) ∧ ReadsBack (.go rs1)) ∧
    (∀ rd rs1 rs2 nb, ReadsBack (.thrSpawn rd rs1 rs2 nb)) ∧
    (∀ rs1 rs2 nb, ReadsBack (.msend rs1 rs2 nb)) ∧
    (∀ rd nb, ReadsBack (.mrecv rd nb) ∧ ReadsBack (.mfrom rd nb)) ∧
    (∀ rs1 nb, ReadsBack (.mark rs1 nb)) := by
  simp [ReadsBack, encode, decodeRaw, decodeDRDC, bits_eq_slice, fld, keep]

/-- Quoin instructions (R38). -/
theorem readsBack_quoin :
    (∀ rs1 nb, ReadsBack (.qinit rs1 nb) ∧ ReadsBack (.qwait rs1 nb) ∧ ReadsBack (.qdrop rs1 nb) ∧
      ReadsBack (.qrel rs1 nb)) ∧
    (∀ rd rs1 nb, ReadsBack (.qacq rd rs1 nb) ∧ ReadsBack (.qstat rd rs1 nb)) ∧
    (∀ rs1 rs2 nb, ReadsBack (.qgive rs1 rs2 nb) ∧ ReadsBack (.qswap rs1 rs2 nb)) := by
  simp [ReadsBack, encode, decodeRaw, decodeDRDC, bits_eq_slice, fld, keep]

/-- Atomics and updates (R38, R39). -/
theorem readsBack_atomic :
    (∀ rd rs1 rs2 width scope nb, ReadsBack (.amoAdd rd rs1 rs2 width scope nb) ∧
      ReadsBack (.amoAnd rd rs1 rs2 width scope nb) ∧ ReadsBack (.amoOr rd rs1 rs2 width scope nb) ∧
      ReadsBack (.amoXor rd rs1 rs2 width scope nb) ∧ ReadsBack (.amoMin rd rs1 rs2 width scope nb) ∧
      ReadsBack (.amoMax rd rs1 rs2 width scope nb) ∧ ReadsBack (.amoMinu rd rs1 rs2 width scope nb) ∧
      ReadsBack (.amoMaxu rd rs1 rs2 width scope nb) ∧ ReadsBack (.amoSwap rd rs1 rs2 width scope nb) ∧
      ReadsBack (.amoCas rd rs1 rs2 width scope nb)) ∧
    (∀ rs1 rs2 kind nb, ReadsBack (.red rs1 rs2 kind nb)) := by
  simp [ReadsBack, encode, decodeRaw, decodeDRDC, bits_eq_slice, fld, keep]

/-- Line operations, press queues, kernels and galleys (R38, R41). -/
theorem readsBack_unit :
    (∀ rs1 nb, ReadsBack (.lineWb rs1 nb) ∧ ReadsBack (.lineInv rs1 nb) ∧ ReadsBack (.lineWbinv rs1 nb) ∧
      ReadsBack (.pqPush rs1 nb) ∧ ReadsBack (.pqDone rs1 nb)) ∧
    (∀ nb, ReadsBack (.pqResume nb)) ∧
    (∀ rd rs1 rs2 nb, ReadsBack (.cbitTest rd rs1 rs2 nb) ∧ ReadsBack (.ksub rd rs1 rs2 nb)) ∧
    (∀ rs1 c8 nb, ReadsBack (.gxKick rs1 c8 nb)) := by
  simp [ReadsBack, encode, decodeRaw, decodeDRDC, bits_eq_slice, fld, keep]

/-- The DC forms: barriers, acquire and release, pushes, ranges, galleys, constants (R41, R42). -/
theorem readsBack_const :
    (∀ rd kind idx nb, ReadsBack (.barArrive rd kind idx nb) ∧ ReadsBack (.barAw rd kind idx nb)) ∧
    (∀ rs1 kind idx nb, ReadsBack (.barWait rs1 kind idx nb) ∧ ReadsBack (.barCfg rs1 kind idx nb)) ∧
    (∀ kind scope nb, ReadsBack (.fnc kind scope nb)) ∧
    (∀ rd rs1 width scope nb, ReadsBack (.plda rd rs1 width scope nb)) ∧
    (∀ rs rs1 width scope nb, ReadsBack (.pstr rs rs1 width scope nb)) ∧
    (∀ rs rs1 c8 nb, ReadsBack (.pshD rs rs1 c8 nb)) ∧
    (∀ rs1 c8 nb, ReadsBack (.pshLine rs1 c8 nb) ∧ ReadsBack (.tiLoad rs1 c8 nb)) ∧
    (∀ rs1 rlen kind idx nb, ReadsBack (.rngWb rs1 rlen kind idx nb) ∧ ReadsBack (.rngInv rs1 rlen kind idx nb) ∧
      ReadsBack (.rngWbinv rs1 rlen kind idx nb)) ∧
    (∀ rd c8 nb, ReadsBack (.lc rd c8 nb)) ∧
    (∀ c8 nb, ReadsBack (.tiInv c8 nb)) := by
  simp [ReadsBack, encode, decodeRaw, decodeDRDC, bits_eq_slice, fld, keep]

/-- Vector arithmetic (R37, R43). -/
theorem readsBack_vectorArith :
    (∀ vd vs1 vs2 et m, ReadsBack (.vadd vd vs1 vs2 et m) ∧ ReadsBack (.vsub vd vs1 vs2 et m) ∧
      ReadsBack (.vmul vd vs1 vs2 et m) ∧ ReadsBack (.vfma vd vs1 vs2 et m) ∧ ReadsBack (.vminu vd vs1 vs2 et m) ∧
      ReadsBack (.vmin vd vs1 vs2 et m) ∧ ReadsBack (.vmax vd vs1 vs2 et m) ∧ ReadsBack (.vdiv vd vs1 vs2 et m) ∧
      ReadsBack (.vmaxu vd vs1 vs2 et m)) ∧
    (∀ vd vs1 et m, ReadsBack (.vabs vd vs1 et m) ∧ ReadsBack (.vneg vd vs1 et m) ∧ ReadsBack (.vsqrt vd vs1 et m) ∧
      ReadsBack (.vrcpe vd vs1 et m) ∧ ReadsBack (.vrsqe vd vs1 et m)) := by
  simp [ReadsBack, encode, decodeRaw, decodeDV, bits_eq_slice, fld, keep]

/-- Vector bitwise instructions, shifts and compares (R37, R43). -/
theorem readsBack_vectorBits :
    (∀ vd vs1 vs2 et m, ReadsBack (.vand vd vs1 vs2 et m) ∧ ReadsBack (.vor vd vs1 vs2 et m) ∧
      ReadsBack (.vxor vd vs1 vs2 et m) ∧ ReadsBack (.vshl vd vs1 vs2 et m) ∧ ReadsBack (.vshr vd vs1 vs2 et m) ∧
      ReadsBack (.vsra vd vs1 vs2 et m)) ∧
    (∀ vs1 vs2 et m, ReadsBack (.vcmpEq vs1 vs2 et m) ∧ ReadsBack (.vcmpNe vs1 vs2 et m) ∧
      ReadsBack (.vcmpLt vs1 vs2 et m) ∧ ReadsBack (.vcmpLe vs1 vs2 et m) ∧ ReadsBack (.vcmpLtu vs1 vs2 et m)) ∧
    (∀ vd vs1 vs2 et, ReadsBack (.vsel vd vs1 vs2 et)) := by
  simp [ReadsBack, encode, decodeRaw, decodeDV, bits_eq_slice, fld, keep]

/-- Vector moves, conversions, reductions and memory forms (R37, R43). -/
theorem readsBack_vectorMove :
    (∀ vd xs et m, ReadsBack (.vbc vd xs et m)) ∧
    (∀ vd c8 et, ReadsBack (.vbcC vd c8 et)) ∧
    (∀ vd vs1 et m, ReadsBack (.vmv vd vs1 et m) ∧ ReadsBack (.vredAdd vd vs1 et m) ∧
      ReadsBack (.vredMax vd vs1 et m) ∧ ReadsBack (.vredMin vd vs1 et m)) ∧
    ReadsBack .vmvClean ∧
    (∀ vs1 xs et, ReadsBack (.vext vs1 xs et)) ∧
    (∀ vd vs1 src et m, ReadsBack (.vcvt vd vs1 src et m) ∧ ReadsBack (.vcvt8 vd vs1 src et m)) ∧
    (∀ vd vs1 vs2 et m, ReadsBack (.vdot vd vs1 vs2 et m) ∧ ReadsBack (.vperm vd vs1 vs2 et m)) ∧
    (∀ vd vs1 xs et m, ReadsBack (.vslide vd vs1 xs et m)) ∧
    (∀ vd xs lane m nb, ReadsBack (.vld vd xs lane m nb) ∧ ReadsBack (.vst vd xs lane m nb)) ∧
    (∀ vd vs1 xs lane m nb, ReadsBack (.vldx vd vs1 xs lane m nb) ∧ ReadsBack (.vstx vd vs1 xs lane m nb)) := by
  simp [ReadsBack, encode, decodeRaw, decodeDV, bits_eq_slice, fld, keep]

/-- Every instruction word reads back: each constructor stands in one of the groups above, or is an event. -/
theorem readsBack_of_isWord (i : Instr) (word : i.isWord = true) : ReadsBack i := by
  cases i <;> simp only [Instr.isWord, reduceCtorEq,
    readsBack_load, readsBack_opImm, readsBack_opImm32, readsBack_op, readsBack_op32, readsBack_store,
    readsBack_branch, readsBack_upper, readsBack_jal, readsBack_fence, readsBack_system, readsBack_probe,
    readsBack_thread, readsBack_quoin, readsBack_atomic, readsBack_unit, readsBack_const, readsBack_vectorArith,
    readsBack_vectorBits, readsBack_vectorMove] at word ⊢

/-! ## Every decoded word is its instruction's own -/

theorem fld_toNat (n w lo : Nat) : (fld n w lo).toNat = bits w lo n := by
  simp [fld, bits]

theorem bits_lt (w lo n : Nat) : bits w lo n < 2 ^ n := Nat.mod_lt _ (Nat.two_pow_pos n)

/-- A field is its low part and its high part. -/
theorem bits_append (w lo n m : Nat) : bits w lo (n + m) = bits w lo n + bits w (lo + n) m * 2 ^ n := by
  simp only [bits, pow_add, Nat.mod_mul, Nat.div_div_eq_div_mul, Nat.mul_comm]

theorem word_split {w : Nat} (hw : w < 2 ^ 32) : w = bits w 0 7 + bits w 7 25 * 128 := by
  simp only [bits]
  omega

/-- How the fields of the standard formats make up a word (R27, R53). -/
theorem bits_standard (w : Nat) :
    bits w 7 25 = bits w 7 5 + bits w 12 20 * 32 ∧ bits w 7 5 = bits w 7 4 + bits w 11 1 * 16 ∧
    bits w 7 5 = bits w 7 1 + bits w 8 4 * 2 ∧ bits w 12 20 = bits w 12 3 + bits w 15 17 * 8 ∧
    bits w 15 17 = bits w 15 5 + bits w 20 12 * 32 ∧ bits w 15 5 = bits w 15 4 + bits w 19 1 * 16 ∧
    bits w 20 12 = bits w 20 5 + bits w 25 7 * 32 ∧ bits w 20 5 = bits w 20 4 + bits w 24 1 * 16 ∧
    bits w 20 12 = bits w 20 6 + bits w 26 6 * 64 ∧ bits w 25 7 = bits w 25 6 + bits w 31 1 * 64 :=
  ⟨bits_append w 7 5 20, bits_append w 7 4 1, bits_append w 7 1 4, bits_append w 12 3 17, bits_append w 15 5 12,
    bits_append w 15 4 1, bits_append w 20 5 7, bits_append w 20 4 1, bits_append w 20 6 6, bits_append w 25 6 1⟩

/-- How the fields of `jal`, `lui` and `auipc`, and of FENCE, make up the bits above rd (R53). -/
theorem bits_upper (w : Nat) :
    bits w 12 20 = bits w 12 8 + bits w 20 12 * 256 ∧ bits w 20 12 = bits w 20 1 + bits w 21 11 * 2 ∧
    bits w 21 11 = bits w 21 10 + bits w 31 1 * 1024 ∧ bits w 20 12 = bits w 20 4 + bits w 24 8 * 16 ∧
    bits w 24 8 = bits w 24 4 + bits w 28 4 * 16 :=
  ⟨bits_append w 12 8 12, bits_append w 20 1 11, bits_append w 21 10 1, bits_append w 20 4 8, bits_append w 24 4 4⟩

/-- How the fields of the DM and DB formats make up a word (R33, R34). -/
theorem bits_probe (w : Nat) :
    bits w 7 25 = bits w 7 1 + bits w 8 24 * 2 ∧ bits w 8 24 = bits w 8 4 + bits w 12 20 * 16 ∧
    bits w 12 20 = bits w 12 3 + bits w 15 17 * 8 ∧ bits w 15 17 = bits w 15 1 + bits w 16 16 * 2 ∧
    bits w 16 16 = bits w 16 4 + bits w 20 12 * 16 :=
  ⟨bits_append w 7 1 24, bits_append w 8 4 20, bits_append w 12 3 17, bits_append w 15 1 16, bits_append w 16 4 12⟩

/-- How the fields of the DR and DC formats make up a word (R36, R41). -/
theorem bits_custom (w : Nat) :
    bits w 7 25 = bits w 7 17 + bits w 24 8 * 131072 ∧ bits w 7 17 = bits w 7 5 + bits w 12 12 * 32 ∧
    bits w 7 5 = bits w 7 1 + bits w 8 4 * 2 ∧ bits w 8 16 = bits w 8 4 + bits w 12 12 * 16 ∧
    bits w 8 8 = bits w 8 4 + bits w 12 4 * 16 ∧ bits w 12 12 = bits w 12 4 + bits w 16 8 * 16 ∧
    bits w 16 8 = bits w 16 4 + bits w 20 4 * 16 ∧ bits w 16 8 = bits w 16 6 + bits w 22 2 * 64 ∧
    bits w 16 6 = bits w 16 3 + bits w 19 3 * 8 ∧ bits w 20 4 = bits w 20 3 + bits w 23 1 * 8 :=
  ⟨bits_append w 7 17 8, bits_append w 7 5 12, bits_append w 7 1 4, bits_append w 8 4 12, bits_append w 8 4 4,
    bits_append w 12 4 8, bits_append w 16 4 4, bits_append w 16 6 2, bits_append w 16 3 3, bits_append w 20 3 1⟩

/-- How the fields of the DV format make up a word (R37). -/
theorem bits_vector (w : Nat) :
    bits w 7 25 = bits w 7 17 + bits w 24 8 * 131072 ∧ bits w 7 17 = bits w 7 3 + bits w 10 14 * 8 ∧
    bits w 10 14 = bits w 10 3 + bits w 13 11 * 8 ∧ bits w 13 11 = bits w 13 8 + bits w 21 3 * 256 ∧
    bits w 13 8 = bits w 13 7 + bits w 20 1 * 128 ∧ bits w 13 7 = bits w 13 3 + bits w 16 4 * 8 ∧
    bits w 10 6 = bits w 10 3 + bits w 13 3 * 8 ∧ bits w 16 5 = bits w 16 4 + bits w 20 1 * 16 ∧
    bits w 21 3 = bits w 21 2 + bits w 23 1 * 4 :=
  ⟨bits_append w 7 17 8, bits_append w 7 3 14, bits_append w 10 3 11, bits_append w 13 8 3, bits_append w 13 7 1,
    bits_append w 13 3 4, bits_append w 10 3 3, bits_append w 16 4 1, bits_append w 21 2 1⟩

/-- The immediate of a store, put together from its pieces, has them as its fields. -/
theorem bits_storeImm (w : Nat) : let v := (BitVec.ofNat 12 (bits w 7 5 + bits w 25 7 * 32)).toNat
    bits v 0 5 = bits w 7 5 ∧ bits v 5 7 = bits w 25 7 := by
  have := bits_lt w 7 5
  have := bits_lt w 25 7
  generalize bits w 7 5 = a, bits w 25 7 = b at *
  simp only [bits, BitVec.toNat_ofNat]
  omega

/-- The offset of a branch, put together from its pieces, has them as its fields. -/
theorem bits_branchImm (w : Nat) :
    let v := (BitVec.ofNat 12 (bits w 8 4 + bits w 25 6 * 16 + bits w 7 1 * 1024 + bits w 31 1 * 2048)).toNat
    bits v 0 4 = bits w 8 4 ∧ bits v 4 6 = bits w 25 6 ∧ bits v 10 1 = bits w 7 1 ∧ bits v 11 1 = bits w 31 1 := by
  have := bits_lt w 8 4
  have := bits_lt w 25 6
  have := bits_lt w 7 1
  have := bits_lt w 31 1
  generalize bits w 8 4 = a, bits w 25 6 = b, bits w 7 1 = c, bits w 31 1 = d at *
  simp only [bits, BitVec.toNat_ofNat]
  omega

/-- The offset of `jal`, put together from its pieces, has them as its fields. -/
theorem bits_jumpImm (w : Nat) :
    let v := (BitVec.ofNat 20 (bits w 21 10 + bits w 20 1 * 1024 + bits w 12 8 * 2048 + bits w 31 1 * 524288)).toNat
    bits v 0 10 = bits w 21 10 ∧ bits v 10 1 = bits w 20 1 ∧ bits v 11 8 = bits w 12 8 ∧
      bits v 19 1 = bits w 31 1 := by
  have := bits_lt w 21 10
  have := bits_lt w 20 1
  have := bits_lt w 12 8
  have := bits_lt w 31 1
  generalize bits w 21 10 = a, bits w 20 1 = b, bits w 12 8 = c, bits w 31 1 = d at *
  simp only [bits, BitVec.toNat_ofNat]
  omega

/-- What a decoder answers for a word is an instruction word, and its encoding is that word (R28). -/
def Owns (w : Nat) (o : Option Instr) : Prop := ∀ i, o = some i → encode i = w ∧ i.isWord = true

theorem keep_eq_some {b : Bool} {i j : Instr} : keep b j = some i ↔ b = true ∧ j = i := by
  cases b <;> simp [keep]

theorem owns_none (w : Nat) : Owns w none ↔ True := by simp [Owns]

theorem owns_some (w : Nat) (j : Instr) : Owns w (some j) ↔ encode j = w ∧ j.isWord = true := by simp [Owns]

theorem owns_keep (w : Nat) (b : Bool) (j : Instr) :
    Owns w (keep b j) ↔ (b = true → encode j = w ∧ j.isWord = true) := by
  cases b <;> simp [Owns, keep]

theorem owns_or_keep (w : Nat) (a b : Bool) (i j : Instr) :
    Owns w ((keep a i).or (keep b j)) ↔ Owns w (keep a i) ∧ (a = false → Owns w (keep b j)) := by
  cases a <;> simp [Owns, keep]

theorem owns_decodeLoad {w : Nat} (hw : w < 2 ^ 32) (ho : bits w 0 7 = 0x03) : Owns w (decodeLoad w) := by
  have whole := word_split hw
  have parts := bits_standard w
  unfold decodeLoad
  split <;>
    simp only [owns_none, owns_keep, encode, Instr.isWord, fld_toNat, Bool.and_eq_true, beq_iff_eq, and_true] <;>
    omega

theorem owns_decodeStore {w : Nat} (hw : w < 2 ^ 32) (ho : bits w 0 7 = 0x23) : Owns w (decodeStore w) := by
  have whole := word_split hw
  have parts := bits_standard w
  unfold decodeStore
  split <;>
    simp only [owns_none, owns_keep, encode, Instr.isWord, fld_toNat, bits_storeImm, Bool.and_eq_true, beq_iff_eq,
      and_true] <;>
    omega

theorem owns_decodeBranch {w : Nat} (hw : w < 2 ^ 32) (ho : bits w 0 7 = 0x63) : Owns w (decodeBranch w) := by
  have whole := word_split hw
  have parts := bits_standard w
  unfold decodeBranch
  split <;>
    simp only [owns_none, owns_keep, encode, Instr.isWord, fld_toNat, bits_branchImm, Bool.and_eq_true, beq_iff_eq,
      and_true] <;>
    omega

theorem owns_decodeOpImm {w : Nat} (hw : w < 2 ^ 32) (ho : bits w 0 7 = 0x13) : Owns w (decodeOpImm w) := by
  have whole := word_split hw
  have parts := bits_standard w
  unfold decodeOpImm
  split <;>
    simp only [owns_none, owns_keep, owns_or_keep, encode, Instr.isWord, fld_toNat, Bool.and_eq_true, beq_iff_eq,
      and_true] <;>
    omega

theorem owns_decodeOpImm32 {w : Nat} (hw : w < 2 ^ 32) (ho : bits w 0 7 = 0x1B) : Owns w (decodeOpImm32 w) := by
  have whole := word_split hw
  have parts := bits_standard w
  unfold decodeOpImm32
  split <;>
    simp only [owns_none, owns_keep, owns_or_keep, encode, Instr.isWord, fld_toNat, Bool.and_eq_true, beq_iff_eq,
      and_true] <;>
    omega

theorem owns_decodeOp {w : Nat} (hw : w < 2 ^ 32) (ho : bits w 0 7 = 0x33) : Owns w (decodeOp w) := by
  have whole := word_split hw
  have parts := bits_standard w
  have funct3 := bits_lt w 12 3
  unfold decodeOp
  split <;>
    simp only [owns_none, owns_keep, encode, Instr.isWord, fld_toNat, Bool.and_eq_true, beq_iff_eq, and_true] <;>
    omega

theorem owns_decodeOp32 {w : Nat} (hw : w < 2 ^ 32) (ho : bits w 0 7 = 0x3B) : Owns w (decodeOp32 w) := by
  have whole := word_split hw
  have parts := bits_standard w
  have funct3 := bits_lt w 12 3
  unfold decodeOp32
  split <;>
    simp only [owns_none, owns_keep, encode, Instr.isWord, fld_toNat, Bool.and_eq_true, beq_iff_eq, and_true] <;>
    omega

theorem owns_decodeFence {w : Nat} (hw : w < 2 ^ 32) (ho : bits w 0 7 = 0x0F) : Owns w (decodeFence w) := by
  have whole := word_split hw
  have parts := bits_standard w
  have upper := bits_upper w
  unfold decodeFence
  split <;>
    simp only [owns_none, owns_keep, encode, Instr.isWord, fld_toNat, beq_iff_eq, and_true] <;>
    omega

theorem owns_decodeSystem {w : Nat} (hw : w < 2 ^ 32) (ho : bits w 0 7 = 0x73) : Owns w (decodeSystem w) := by
  have whole := word_split hw
  have parts := bits_standard w
  unfold decodeSystem
  split <;>
    simp only [owns_none, owns_keep, owns_or_keep, encode, Instr.isWord, fld_toNat, Bool.and_eq_true, beq_iff_eq,
      and_true] <;>
    omega

theorem owns_decodeDM {w : Nat} (hw : w < 2 ^ 32) (ho : bits w 0 7 = 0x0B) : Owns w (decodeDM w) := by
  have whole := word_split hw
  have parts := bits_probe w
  unfold decodeDM
  split <;>
    simp only [owns_none, owns_some, encode, Instr.isWord, fld_toNat, and_true] <;>
    omega

theorem owns_decodeDB {w : Nat} (hw : w < 2 ^ 32) (ho : bits w 0 7 = 0x2B) : Owns w (decodeDB w) := by
  have whole := word_split hw
  have parts := bits_probe w
  have k := bits_lt w 7 1
  unfold decodeDB
  split <;>
    simp only [owns_none, owns_some, owns_keep, encode, Instr.isWord, fld_toNat, Bool.and_eq_true, beq_iff_eq,
      and_true] <;>
    omega

theorem owns_decodeDRDC {w : Nat} (hw : w < 2 ^ 32) (ho : bits w 0 7 = 0x5B) : Owns w (decodeDRDC w) := by
  have whole := word_split hw
  have parts := bits_custom w
  unfold decodeDRDC
  split <;>
    simp only [owns_none, owns_some, owns_keep, encode, Instr.isWord, fld_toNat, Bool.and_eq_true, beq_iff_eq,
      and_true] <;>
    omega

theorem owns_decodeDV {w : Nat} (hw : w < 2 ^ 32) (ho : bits w 0 7 = 0x7B) : Owns w (decodeDV w) := by
  have whole := word_split hw
  have parts := bits_vector w
  unfold decodeDV
  split <;>
    simp only [owns_none, owns_keep, owns_or_keep, encode, Instr.isWord, fld_toNat, Bool.and_eq_true, beq_iff_eq,
      and_true] <;>
    omega

/-- Before the operand limits, the decoder's answer is the word's own instruction, whatever its major opcode. -/
theorem owns_decodeRaw {w : Nat} (hw : w < 2 ^ 32) : Owns w (decodeRaw w) := by
  have whole := word_split hw
  have parts := bits_standard w
  have upper := bits_upper w
  unfold decodeRaw
  split
  next ho => exact owns_decodeLoad hw ho
  next ho => exact owns_decodeDM hw ho
  next ho => exact owns_decodeFence hw ho
  next ho => exact owns_decodeOpImm hw ho
  next ho =>
    simp only [owns_keep, encode, Instr.isWord, fld_toNat, beq_iff_eq, and_true]
    omega
  next ho => exact owns_decodeOpImm32 hw ho
  next ho => exact owns_decodeStore hw ho
  next ho => exact owns_decodeDB hw ho
  next ho => exact owns_decodeOp hw ho
  next ho =>
    simp only [owns_keep, encode, Instr.isWord, fld_toNat, beq_iff_eq, and_true]
    omega
  next ho => exact owns_decodeOp32 hw ho
  next ho => exact owns_decodeDRDC hw ho
  next ho => exact owns_decodeBranch hw ho
  next ho =>
    simp only [owns_keep, encode, Instr.isWord, fld_toNat, Bool.and_eq_true, beq_iff_eq, and_true]
    omega
  next ho =>
    simp only [owns_keep, encode, Instr.isWord, fld_toNat, bits_jumpImm, beq_iff_eq, and_true]
    omega
  next ho => exact owns_decodeSystem hw ho
  next ho => exact owns_decodeDV hw ho
  next => exact (owns_none w).2 trivial

theorem decode_eq_some {w : Nat} {i : Instr} : decode w = some i ↔ decodeRaw w = some i ∧ i.wf = true := by
  unfold decode
  cases decodeRaw w with
  | none => simp
  | some j =>
    simp only [keep_eq_some, Option.some.injEq]
    exact ⟨fun ⟨wf, e⟩ => ⟨e, e ▸ wf⟩, fun ⟨e, wf⟩ => ⟨e ▸ wf, e⟩⟩

/-- Settles O57: both directions, the operand limits of `Instr.wf` being the decoder's last test. -/
theorem encodeDecode : Obligations.EncodeDecode := by
  unfold Obligations.EncodeDecode
  refine ⟨fun i word wf => decode_eq_some.2 ⟨readsBack_of_isWord i word, wf⟩, fun w i hw h => ?_⟩
  obtain ⟨raw, wf⟩ := decode_eq_some.1 h
  obtain ⟨word, isWord⟩ := owns_decodeRaw hw i raw
  exact ⟨word, isWord, wf⟩

/-- Settles O56: each word is the encoding of its instruction, which reads back. -/
theorem decodeWords : Obligations.DecodeWords := by
  have own {i : Instr} (word : i.isWord = true) (wf : i.wf = true) : decode (encode i) = some i :=
    encodeDecode.1 i word wf
  exact ⟨own (i := .addi 10 11 0xFFF#12) rfl rfl, own (i := .sub 10 11 12) rfl rfl, own (i := .pld 10 11 8 3 1) rfl rfl,
    own (i := .bo 3 10) rfl rfl, own (i := .pqPush 10 1) rfl rfl, own (i := .ksub 10 11 12 1) rfl rfl,
    own (i := .vadd 1 2 3 6 0) rfl rfl, rfl, rfl⟩

end Sys2Proof

namespace Sys2Proof.Machine

open Sys2Proof

/-! # Jumps and branches (R27, R35, R53, R100) -/

/-- The instruction goes to a PC: nothing but the PC, `instret` and the path signature of its thread differs (R392). -/
def State.goesTo (s : State) (i : Instr) (pc : Word) : Prop := ∃ t, exec i s = .next t ∧ s.onlyMe t ∧
  t.me = { s.me with pc := pc, instret := s.me.instret + 1, sig := t.me.sig }

/-- The instruction goes to a PC and links: `rd` takes the address of the word after it (R53). -/
def State.linksTo (s : State) (i : Instr) (rd : BitVec 4) (pc : Word) : Prop := ∃ t, exec i s = .next t ∧ s.onlyMe t ∧
  t.me = { s.me with regs := t.me.regs, pc := pc, instret := s.me.instret + 1, sig := t.me.sig } ∧
  ∀ q, t.me.reg q = if q = rd ∧ q ≠ 0 then s.me.pc + 4 else s.me.reg q

theorem Thread.setReg_eq (t : Thread) (r : BitVec 4) (v : Word) :
    t.setReg r v = { t with regs := (t.setReg r v).regs } := by
  unfold Thread.setReg
  split <;> rfl

section
variable (t : Thread) (rd : BitVec 4) (v pc instret sig : Word)

theorem Thread.setReg_moved : { t.setReg rd v with pc := pc, instret := instret, sig := sig } =
    { t with regs := (t.setReg rd v).regs, pc := pc, instret := instret, sig := sig } := by
  rw [Thread.setReg_eq]

theorem Thread.reg_setReg_moved (q : BitVec 4) :
    Thread.reg { t.setReg rd v with pc := pc, instret := instret, sig := sig } q =
      if q = rd ∧ q ≠ 0 then v else t.reg q := by
  refine (Thread.reg_setReg t rd v q).trans (if_congr ?_ rfl rfl)
  exact and_congr_right fun h => by rw [h]

end

section
variable {s : State} {i : Instr} {rd : BitVec 4} {target : Word} {f : Thread → Thread}

/-- An aligned target is taken as it stands (R27). -/
theorem State.jump_aligned (aligned : target.toNat % 4 = 0) :
    s.jump target f = s.modMe (fun t => { f t with pc := target, instret := t.instret + 1 }) :=
  if_neg (not_not_intro aligned)

/-- Another target traps ILLEGAL with the target as VA (R27, R109). -/
theorem State.jump_misaligned (skew : target.toNat % 4 ≠ 0) : s.jump target f = s.trapMe .illegal target 0 :=
  if_pos skew

theorem State.goesTo_of_modMe {pc : Word} (e : exec i s = .next (s.modMe f))
    (h : f s.me = { s.me with pc := pc, instret := s.me.instret + 1, sig := (f s.me).sig }) : s.goesTo i pc :=
  ⟨_, e, s.onlyMe_setThr _, by rw [State.me_modMe]; exact h⟩

theorem State.linksTo_of_modMe {pc sig : Word} (e : exec i s = .next (s.modMe f))
    (h : f s.me = { s.me.setReg rd (s.me.pc + 4) with pc := pc, instret := s.me.instret + 1, sig := sig }) :
    s.linksTo i rd pc := by
  have me := (s.me_modMe f).trans h
  refine ⟨_, e, s.onlyMe_setThr _, ?_, fun q => ?_⟩
  · rw [me]
    exact Thread.setReg_moved _ _ _ _ _ _
  · rw [me]
    exact Thread.reg_setReg_moved _ _ _ _ _ _ q

/-- A jump that writes the link and at most signs the path goes to an aligned target. -/
theorem State.linksTo_of_jump {sig : Word} (links : f s.me = { s.me.setReg rd (s.me.pc + 4) with sig := sig })
    (e : exec i s = .next (s.jump target f)) (aligned : target.toNat % 4 = 0) : s.linksTo i rd target := by
  rw [State.jump_aligned aligned] at e
  exact State.linksTo_of_modMe e
    (congrArg (fun t : Thread => { t with pc := target, instret := s.me.instret + 1 }) links)

/-- A jump that only signs the path goes to an aligned target. -/
theorem State.goesTo_of_jump {v n : Nat} (e : exec i s = .next (s.jump target (fun t => t.sign v n)))
    (aligned : target.toNat % 4 = 0) : s.goesTo i target := by
  rw [State.jump_aligned aligned] at e
  exact State.goesTo_of_modMe e rfl

/-- An instruction that only signs the path moves on. -/
theorem State.goesTo_of_plain {v n : Nat} (e : exec i s = .next (s.plain (fun t => t.sign v n))) :
    s.goesTo i (s.me.pc + 4) :=
  State.goesTo_of_modMe e rfl

/-- A branch goes to its target where it is taken, and moves on where it is not (R53). -/
theorem State.goesTo_of_branch {taken : Bool} {p : Prop} {imm : BitVec 12} (h : taken = true ↔ p)
    (e : exec i s = .next (s.branch taken imm)) :
    (p → (s.me.pc + branchOff imm).toNat % 4 = 0 → s.goesTo i (s.me.pc + branchOff imm)) ∧
    (¬ p → s.goesTo i (s.me.pc + 4)) := by
  refine ⟨fun hp aligned => ?_, fun hp => ?_⟩
  · rw [h.2 hp, State.branch, if_pos rfl] at e
    exact State.goesTo_of_jump e aligned
  · rw [eq_false_of_ne_true (mt h.1 hp), State.branch, if_neg Bool.false_ne_true] at e
    exact State.goesTo_of_plain e

/-- A taken branch to another target traps (R27). -/
theorem State.traps_of_branch {taken : Bool} {p : Prop} {imm : BitVec 12} (k : s.me.issues) (h : taken = true ↔ p)
    (e : exec i s = .next (s.branch taken imm)) :
    p → (s.me.pc + branchOff imm).toNat % 4 ≠ 0 → s.traps i .illegal (s.me.pc + branchOff imm) 0 := by
  intro hp skew
  rw [h.2 hp, State.branch, if_pos rfl, State.jump_misaligned skew] at e
  exact State.traps_of e k

end

theorem not_slt_iff (a b : Word) : (!a.slt b) = true ↔ b.toInt ≤ a.toInt := by
  rw [Bool.not_eq_true', ← Bool.not_eq_true, BitVec.slt_iff_toInt_lt, Int.not_lt]

theorem not_ult_iff (a b : Word) : (!a.ult b) = true ↔ b.toNat ≤ a.toNat := by
  rw [Bool.not_eq_true', ← Bool.not_eq_true, BitVec.ult_iff_toNat_lt, Nat.not_lt]

/-- Settles O3: each branch is a test and `State.branch`, each jump `State.jump` of its target. -/
theorem jumpsAndBranches : Obligations.JumpsAndBranches := by
  unfold Obligations.JumpsAndBranches
  refine ⟨fun s rd rs1 rs2 imm up => ?_, fun s rd rs1 rs2 imm up k => ?_⟩
  · exact ⟨State.linksTo_of_jump (sig := s.me.sig) (by rw [Thread.setReg_eq]) rfl, State.linksTo_of_jump rfl rfl,
      State.goesTo_of_branch decide_eq_true_iff rfl, State.goesTo_of_branch decide_eq_true_iff rfl,
      State.goesTo_of_branch BitVec.slt_iff_toInt_lt rfl, State.goesTo_of_branch (not_slt_iff _ _) rfl,
      State.goesTo_of_branch BitVec.ult_iff_toNat_lt rfl, State.goesTo_of_branch (not_ult_iff _ _) rfl⟩
  · exact ⟨fun skew => State.traps_of (congrArg _ (State.jump_misaligned skew)) k,
      fun skew => State.traps_of (congrArg _ (State.jump_misaligned skew)) k,
      State.traps_of_branch k decide_eq_true_iff rfl, State.traps_of_branch k decide_eq_true_iff rfl,
      State.traps_of_branch k BitVec.slt_iff_toInt_lt rfl, State.traps_of_branch k (not_slt_iff _ _) rfl,
      State.traps_of_branch k BitVec.ult_iff_toNat_lt rfl, State.traps_of_branch k (not_ult_iff _ _) rfl⟩

/-- The word offset of `bo` is four times its field (R25, R35). -/
theorem fusedOff_eq (off : BitVec 12) : fusedOff off = 4 * off.signExtend 64 := by
  rw [fusedOff, BitVec.shiftLeft_eq_mul_twoPow, BitVec.mul_comm]
  rfl

/-- The test of `bo`: the code itself, a refusal, or anything but RDY (R35). -/
theorem condTest_eq_true (c oc : Nat) (h : c < 16) :
    condTest c oc = true ↔ (c < 14 ∧ oc = c) ∨ (c = 14 ∧ (oc = 1 ∨ oc = 2)) ∨ (c = 15 ∧ oc ≠ 0) := by
  unfold condTest
  repeat' split
  all_goals
    rw [decide_eq_true_iff]
    omega

/-- Settles O19: `bo` moves its thread's PC by the offset or by 4, as the test answers. -/
theorem branchOnOutcome : Obligations.BranchOnOutcome := by
  unfold Obligations.BranchOnOutcome
  intro s off cond oc c holds
  have test : condTest c oc = true ↔ holds := condTest_eq_true c oc cond.isLt
  refine ⟨_, rfl, s.onlyMe_setThr _, fun h => ?_, fun h => ?_⟩
  · rw [State.me_modMe, if_pos (test.2 h), fusedOff_eq]
  · rw [State.me_modMe, if_neg (mt test.1 h)]

/-! # Words and CSR accesses that trap ILLEGAL (R28, R29, R67) -/

section
variable {s : State} {i : Instr} {rd : BitVec 4} {csr : BitVec 12} {writes : Bool} {f : Word → Word}

/-- A CSR number absent from the map traps (R67). -/
theorem State.traps_of_csrOp_absent (k : s.me.issues) (absent : csrOf csr.toNat = none)
    (e : exec i s = .next (s.csrOp rd csr writes f)) : s.traps i .illegal 0 0 :=
  State.traps_of (by rw [e, State.csrOp, absent]) k

/-- A write of a read-only CSR traps (R67). -/
theorem State.traps_of_csrOp_readOnly {x : Csr} (k : s.me.issues) (here : csrOf csr.toNat = some x)
    (readOnly : x.writable = false) (write : writes = true) (e : exec i s = .next (s.csrOp rd csr writes f)) :
    s.traps i .illegal 0 0 :=
  State.traps_of (by rw [e, State.csrOp, here]; exact congrArg _ (if_pos (by rw [write, readOnly]; rfl))) k

end

/-- Settles O6: a Zicsr instruction makes both tests before it reads the CSR; the illegal word does nothing but trap. -/
theorem illegalTraps : Obligations.IllegalTraps := by
  unfold Obligations.IllegalTraps
  refine ⟨fun s rd rs1 csr uimm k => ⟨fun absent => ?_, fun x here readOnly => ?_⟩, fun s k => State.traps_of rfl k⟩
  · exact ⟨State.traps_of_csrOp_absent k absent rfl, State.traps_of_csrOp_absent k absent rfl,
      State.traps_of_csrOp_absent k absent rfl, State.traps_of_csrOp_absent k absent rfl,
      State.traps_of_csrOp_absent k absent rfl, State.traps_of_csrOp_absent k absent rfl⟩
  · have bad {i : Instr} {writes : Bool} {f : Word → Word} (write : writes = true)
        (e : exec i s = .next (s.csrOp rd csr writes f)) : s.traps i .illegal 0 0 :=
      State.traps_of_csrOp_readOnly k here readOnly write e
    exact ⟨bad rfl rfl, bad rfl rfl, fun write => ⟨bad (decide_eq_true write) rfl, bad (decide_eq_true write) rfl⟩,
      fun write => ⟨bad (decide_eq_true write) rfl, bad (decide_eq_true write) rfl⟩⟩

end Sys2Proof.Machine

namespace Sys2Proof.Machine

open Sys2Proof

/-! # A step runs the decoded instruction (R28, R56, R81, R82, log 2) -/

/-! ## What comes before the issue -/

/-- The fields that the work before a core's issue may change: none of them is the core in turn. -/
abbrev prepareFields : List Field :=
  [.fMem, .fCores, .fDir, .fThreads, .fWakeSeq, .fNet, .fDies, .fFormes, .fClockFree, .fBuckets]

section
variable (s : State)

theorem State.homeRequest_frame (home line ctx : Nat) (unit : Option (Nat × Nat)) :
    Frame prepareFields s (s.homeRequest home line ctx unit) := by
  have spend : Frame prepareFields s (s.spend home ctx) := Frame.ite (.refl _ s) ((Frame.refl _ s).withBuckets _)
  cases unit with
  | none => exact spend
  | some q => exact spend.trans ((State.hotMiss_frame _ home line q.1 q.2).mono (by decide))

theorem State.codeLine_frame (c ctx line home : Nat) : Frame prepareFields s (s.codeLine c ctx line home) := by
  have request := s.homeRequest_frame home line ctx (some (coreDie c, formeQuad (coreForme c)))
  have shared := request.trans ((State.recallShare_frame _ line).mono (by decide))
  exact Frame.ite (.refl _ s) ((Frame.ite shared request).modCore _ _)

theorem State.fetchOn_frame (u : Nat) : Frame prepareFields s (s.fetchOn u) := by
  unfold State.fetchOn
  dsimp only
  split
  · have wait : Frame prepareFields s (s.waitFetch u) := ((Frame.refl _ s).withWakeSeq _).modThr _ _
    exact Frame.ite wait (Frame.ite (.refl _ s) (((Frame.refl _ s).count _ _ _ _).modForme _ _))
  · exact s.codeLine_frame _ _ _ _
  · exact .refl _ s

theorem State.openWindows_frame (c cycle : Nat) : Frame prepareFields s (s.openWindows c cycle) :=
  ((Frame.refl _ s).modCore _ _).withDies _

theorem State.serveTable_frame (d : Nat) : Frame prepareFields s (s.serveTable d) := by
  refine Frame.foldl _ (fun s _ => ?_) _ _
  unfold State.serveTableOnce
  dsimp only
  split
  · exact .refl _ s
  · exact Frame.ite (((Frame.refl _ s).setDie _ _).fireIf _) (.refl _ s)

theorem State.closeWindows_frame (c cycle : Nat) : Frame prepareFields s (s.closeWindows c cycle) := by
  unfold State.closeWindows
  dsimp only
  refine Frame.trans ?_ (Frame.foldl _ (fun s d =>
    Frame.ite (((Frame.refl _ s).modDie _ _).trans (State.serveTable_frame _ d)) (.refl _ s)) _ _)
  have claims {t : State} (h : Frame prepareFields s t) (p : Claim → Bool) : Frame prepareFields s (t.endClaims c p) :=
    h.trans ((t.endClaims_frame c p).mono (by decide))
  have budget {t : State} (h : Frame prepareFields s t) : Frame prepareFields s (t.serveBudget c) :=
    h.trans ((t.serveBudget_frame c).mono (by decide))
  have ended (p : Prop) [Decidable p] (q : Claim → Bool) : Frame prepareFields s (if p then s.endClaims c q else s) :=
    Frame.ite (claims (.refl _ s) q) (.refl _ s)
  exact Frame.ite (budget ((ended _ _).modCore _ _)) (ended _ _)

theorem State.prepare_frame (c : Nat) : Frame prepareFields s (s.prepare c) := by
  unfold State.prepare
  have fetches := Frame.foldl (fun s x => s.fetchOn x.2) (fun s x => State.fetchOn_frame s x.2) (s.readySlots c) s
  exact (fetches.trans (State.openWindows_frame _ c _)).trans (State.closeWindows_frame _ c _)

/-- A fetch that is answered has nothing to go on with (R82). -/
theorem State.fetchOn_of_eligible {u : Nat} (h : s.eligible u = true) : s.fetchOn u = s := by
  unfold State.eligible at h
  unfold State.fetchOn
  cases e : s.fetch u with
  | word | trap => rfl
  | translation | code => rw [e] at h; cases h

/-- Where every READY slot is eligible, only the windows come before the issue (R82). -/
theorem State.prepare_of_eligible (c : Nat) (h : ∀ y ∈ s.readySlots c, s.eligible y.2 = true) :
    s.prepare c = (s.openWindows c (s.issueCycle c)).closeWindows c (s.issueCycle c) := by
  have fetches : ∀ l : List (Nat × Nat), (∀ y ∈ l, s.eligible y.2 = true) →
      l.foldl (fun s x => s.fetchOn x.2) s = s := by
    intro l
    induction l with
    | nil => exact fun _ => rfl
    | cons y l ih =>
      intro all
      rw [List.foldl_cons, s.fetchOn_of_eligible (all y (by simp))]
      exact ih fun z m => all z (by simp [m])
  unfold State.prepare
  rw [fetches _ h]

/-! ## The state in which an instruction executes -/

/-- The thread and the word execute; only the thread's priority and its core's cycle and event counts differ (R81). -/
theorem State.begin_facts (u w cycle : Nat) : let x := s.begin u w cycle
    x.cur = u ∧ x.ir = w ∧ x.mem = s.mem ∧ x.lm = s.lm ∧ x.thr u = { s.thr u with prio := false } ∧
      (∀ v, v ≠ u → x.thr v = s.thr v) ∧ (x.core (s.thr u).core).lastIssue = cycle + 1 := by
  refine ⟨rfl, rfl, rfl, rfl, ?_, fun v other => ?_, ?_⟩
  · exact (State.thr_setThr _ u u _).trans (if_pos rfl)
  · exact (State.thr_setThr _ u v _).trans (if_neg other)
  · unfold State.begin
    rw [State.core_count]
    simp

/-- A fetch from a line of the core, through an executable entry that maps memory (R56). -/
theorem State.fetch_word {u : Nat} {e : TlbEntry} {d : BitVec 1024} (even : (s.thr u).pc.toNat % 4 = 0)
    (paged : inPaged (s.thr u).pc.toNat = true)
    (hit : s.tlbHit (s.thr u).core (s.ctxOf u) (s.thr u).pc.toNat = some e) (x : pteX e.pte.toNat = true)
    (memory : paClass (leafPa e.level e.pte.toNat (s.thr u).pc.toNat) ≠ .device)
    (line : (s.core (s.thr u).core).code (leafPa e.level e.pte.toNat (s.thr u).pc.toNat / 128) = some d) :
    s.fetch u = .word (lineGet d (leafPa e.level e.pte.toNat (s.thr u).pc.toNat % 128) 4) := by
  unfold State.fetch
  simp [even, paged, hit, x, memory, line]

end

/-! ## The next act -/

/-- Nothing but the agenda and the core in turn moves next: no stop, snapshot, boundary or release is due that the
agenda does not name, and the package runs (log 2). -/
structure State.Undisturbed (s : State) : Prop where
  stop : s.stopDue = false
  snap : s.snapDue = false
  boundary : s.boundaryDue = false ∨ s.namesBoundary = true
  due : s.dueNow.isNone = true ∨ s.namesDue = true
  on : s.power.stage ≠ .off
  runs : s.power.stopped = false

section
variable {s : State} (h : s.Undisturbed)
include h

theorem State.Undisturbed.nothingDue :
    (if s.power.stage ≠ .off ∧ !s.power.stopped ∧ !s.namesDue then s.dueNow else none) = none := by
  rcases h.due with due | named
  · rw [Option.isNone_iff_eq_none.1 due, ite_self]
  · simp [named]

theorem State.Undisturbed.noBoundary :
    ¬ (s.boundaryDue ∧ s.power.stage ≠ .off ∧ !s.power.stopped ∧ !s.namesBoundary) := by
  rcases h.boundary with due | named
  · simp [due]
  · simp [named]

/-- An event that the agenda names is the step. -/
theorem State.Undisturbed.step_event {i : Instr} {rest : List Item} (named : s.agenda = .event i :: rest)
    (event : i.isWord = false) : step s = exec i { s with agenda := rest } := by
  have next : s.next = .run i { s with agenda := rest } := by
    unfold State.next
    rw [if_neg (by simp [h.stop]), if_neg (by simp [h.snap]), if_neg h.noBoundary, h.nothingDue, named]
    simp [h.on, h.runs, event]
  unfold step
  rw [next]

/-- With an empty agenda the core in turn issues the word that its thread fetches (R81). -/
theorem State.Undisturbed.step_word {u w : Nat} (empty : s.agenda = [])
    (pick : (s.prepare s.turn).pick s.turn ((s.prepare s.turn).issueCycle s.turn) = some u)
    (late : ((s.prepare s.turn).thr u).late = []) (fetch : (s.prepare s.turn).fetch u = .word w) :
    step s = exec (instrOf w) ((s.prepare s.turn).begin u w ((s.prepare s.turn).issueCycle s.turn)) := by
  have turn : (s.prepare s.turn).turnOf s.turn =
      some (.run (instrOf w) ((s.prepare s.turn).begin u w ((s.prepare s.turn).issueCycle s.turn))) := by
    unfold State.turnOf
    dsimp only
    rw [pick]
    dsimp only
    rw [late]
    dsimp only
    rw [fetch]
  have next : s.next = .run (instrOf w) ((s.prepare s.turn).begin u w ((s.prepare s.turn).issueCycle s.turn)) := by
    unfold State.next
    rw [if_neg (by simp [h.stop]), if_neg (by simp [h.snap]), if_neg h.noBoundary, h.nothingDue, empty]
    dsimp only
    rw [if_neg h.on, if_neg (by simp [h.runs]), (s.prepare_frame s.turn).turn, turn]
    rfl
  unfold step
  rw [next]

end

/-- Settles O60: the act of an undisturbed state, and the state that its instruction executes in. -/
theorem stepRunsDecoded : Obligations.StepRunsDecoded := by
  unfold Obligations.StepRunsDecoded
  intro s u w i rest stop snap boundary due on runs c r cycle x
  have h : s.Undisturbed := ⟨stop, snap, boundary, due, on, runs⟩
  refine ⟨fun empty pick late fetch => ?_, s.prepare_of_eligible c, r.begin_facts u w cycle,
    fun e d even paged hit exec => r.fetch_word even paged hit exec, h.step_event⟩
  have run := h.step_word empty pick late fetch
  exact ⟨fun word => by rw [run, instrOf, word]; rfl, fun none => by rw [run, instrOf, none]; rfl⟩

end Sys2Proof.Machine

namespace Sys2Proof.Machine

open Sys2Proof

/-! # Lanewise vector instructions (R183 to R186, R190)

A register is its lanes: a lane written reads back, and every other lane stays. `State.lanes_of_plain` says of a
lanewise instruction what `State.lanes` states, whatever its lane function; the instructions on integers differ in that
function alone. -/

/-! ## Lanes of a register -/

section
variable {w k : Nat} (r : BitVec 512) (v : Nat)

theorem lane_end {n : Nat} (h : k < n / w) : w * (k + 1) ≤ n := by
  have := (Nat.le_div_iff_mul_le (Nat.pos_of_ne_zero fun e => by subst e; simp at h)).1 h
  rwa [Nat.mul_comm]

theorem testBit_laneGet (i : Nat) : (laneGet r w k).testBit i = (decide (i < w) && r.getLsbD (w * k + i)) := by
  rw [laneGet, Nat.testBit_mod_two_pow, Nat.testBit_div_two_pow, BitVec.getLsbD, Nat.add_comm]

/-- The bits of a register after a lane is written: those of the lane are the value's. -/
theorem getLsbD_laneSet {i : Nat} (hi : i < 512) : (laneSet r w k v).getLsbD i =
    if i < w * k then r.getLsbD i else if i < w * k + w then v.testBit (i - w * k) else r.getLsbD i := by
  have sum : r.toNat % 2 ^ (w * k) + 2 ^ (w * k) * (v % 2 ^ w) + 2 ^ (w * (k + 1)) * (r.toNat / 2 ^ (w * (k + 1))) =
      2 ^ (w * k) * (2 ^ w * (r.toNat / 2 ^ (w * (k + 1))) + v % 2 ^ w) + r.toNat % 2 ^ (w * k) := by
    rw [Nat.mul_succ, Nat.pow_add]
    ring
  rw [laneSet, sum, BitVec.getLsbD_ofNat, decide_eq_true hi, Bool.true_and,
    Nat.testBit_two_pow_mul_add _ (Nat.mod_lt _ (Nat.two_pow_pos _)),
    Nat.testBit_two_pow_mul_add _ (Nat.mod_lt _ (Nat.two_pow_pos _))]
  by_cases low : i < w * k
  · simp [low, BitVec.getLsbD]
  · by_cases mid : i < w * k + w
    · have : i - w * k < w := by omega
      simp [low, mid, this]
    · have : ¬ i - w * k < w := by omega
      simp only [low, mid, this, if_false, Nat.testBit_div_two_pow, BitVec.getLsbD]
      congr 1
      rw [Nat.mul_succ]
      omega

/-- A lane reads what was written to it; another lane stays. -/
theorem laneGet_laneSet {j : Nat} (hj : j < 512 / w) :
    laneGet (laneSet r w k v) w j = if j = k then v % 2 ^ w else laneGet r w j := by
  have inside := lane_end hj
  rw [Nat.mul_succ] at inside
  apply Nat.eq_of_testBit_eq
  intro i
  rw [testBit_laneGet]
  by_cases hi : i < w
  · rw [decide_eq_true hi, Bool.true_and, getLsbD_laneSet r v (by omega)]
    rcases Nat.lt_trichotomy j k with h | rfl | h
    · have : w * (j + 1) ≤ w * k := Nat.mul_le_mul_left w h
      rw [Nat.mul_succ] at this
      rw [if_pos (by omega), if_neg (by omega), testBit_laneGet, decide_eq_true hi, Bool.true_and]
    · rw [if_neg (by omega), if_pos (by omega), if_pos rfl, Nat.add_sub_cancel_left, Nat.testBit_mod_two_pow,
        decide_eq_true hi, Bool.true_and]
    · have : w * (k + 1) ≤ w * j := Nat.mul_le_mul_left w h
      rw [Nat.mul_succ] at this
      rw [if_neg (by omega), if_neg (by omega), if_neg (by omega), testBit_laneGet, decide_eq_true hi, Bool.true_and]
  · split <;> simp [hi, testBit_laneGet, Nat.testBit_mod_two_pow]

end

/-! ## A lanewise result -/

section
variable {w : Nat} (act : Nat → Bool) (f : Nat → Nat × BitVec 5) (old : BitVec 512)

/-- The active ones of the first `n` lanes take their results, and every other lane stays (R185). -/
theorem laneGet_mapLanes {j : Nat} (hj : j < 512 / w) (n : Nat) : laneGet (mapLanes w act f old n).1 w j =
    if j < n ∧ act j = true then (f j).1 % 2 ^ w else laneGet old w j := by
  induction n with
  | zero => simp [mapLanes]
  | succ n ih =>
    unfold mapLanes
    dsimp only
    by_cases a : act n = true
    · rw [if_pos a, laneGet_laneSet _ _ hj, ih]
      by_cases e : j = n
      · subst e; simp [a]
      · have : j < n + 1 ↔ j < n := by omega
        simp [e, this]
    · rw [if_neg a, ih]
      by_cases e : j = n
      · subst e; simp [a]
      · have : j < n + 1 ↔ j < n := by omega
        simp [this]

/-- The flags are those of the active lanes (R190). -/
theorem getLsbD_mapLanes (b n : Nat) : (mapLanes w act f old n).2.getLsbD b = true ↔
    ∃ k, k < n ∧ act k = true ∧ (f k).2.getLsbD b = true := by
  induction n with
  | zero => simp [mapLanes]
  | succ n ih =>
    unfold mapLanes
    dsimp only
    by_cases a : act n = true
    · simp only [if_pos a, BitVec.getLsbD_or, Bool.or_eq_true, ih, Nat.lt_succ_iff_lt_or_eq]
      constructor
      · rintro (⟨k, lt, hk⟩ | here)
        · exact ⟨k, .inl lt, hk⟩
        · exact ⟨n, .inr rfl, a, here⟩
      · rintro ⟨k, lt | rfl, hk, flag⟩
        · exact .inl ⟨k, lt, hk, flag⟩
        · exact .inr flag
    · simp only [if_neg a, ih, Nat.lt_succ_iff_lt_or_eq]
      constructor
      · rintro ⟨k, lt, hk⟩
        exact ⟨k, .inl lt, hk⟩
      · rintro ⟨k, lt | rfl, hk, flag⟩
        · exact ⟨k, lt, hk, flag⟩
        · exact absurd hk a

end

section
variable (t : Thread)

theorem Thread.vreg_setVreg (q r : BitVec 3) (v : BitVec 512) :
    (t.setVreg r v).vreg q = if q = r then v else t.vreg q := by
  unfold Thread.vreg Thread.setVreg
  rw [tget_tset]
  exact if_congr BitVec.toNat_inj rfl rfl

/-- The sticky flags lie below the mode (R71). -/
theorem Thread.mode_raiseFlags (fl : BitVec 5) : (t.raiseFlags fl).mode = t.mode := by
  have low : fl.toNat / 2 ^ 5 = 0 := Nat.div_eq_of_lt fl.isLt
  have wide : (fl.zeroExtend 9).toNat = fl.toNat := by
    rw [BitVec.toNat_setWidth]
    exact Nat.mod_eq_of_lt (by have := fl.isLt; omega)
  show (t.vrm ||| fl.zeroExtend 9).toNat / 2 ^ 5 % 8 = t.vrm.toNat / 2 ^ 5 % 8
  rw [BitVec.toNat_or, wide, ← Nat.shiftRight_eq_div_pow, Nat.shiftRight_or_distrib, Nat.shiftRight_eq_div_pow,
    Nat.shiftRight_eq_div_pow, low, Nat.or_zero]

theorem Thread.stepPhase_eq (any : Bool) : t.stepPhase any = { t with dphase := (t.stepPhase any).dphase } := by
  unfold Thread.stepPhase
  split <;> rfl

theorem Thread.dphase_stepPhase (any : Bool) : (t.stepPhase any).dphase =
    if any = true ∧ t.mode = 4 ∧ t.dphase.getLsbD 8 = true then
      BitVec.ofNat 9 (256 + (t.dphase.toNat % 256 + 0x35) % 256) else t.dphase := by
  unfold Thread.stepPhase
  split <;> rfl

theorem Thread.active_iff (m : BitVec 1) (k : Nat) : t.active m k = true ↔ m = 0 ∨ t.vmask.getLsbD k = true := by
  simp [Thread.active]

end

section
variable (t : Thread) (vd : BitVec 3) (w n : Nat) (m : BitVec 1) (rounds : Bool) (f : Nat → Nat × BitVec 5)

/-- A lanewise result writes one register, and flags and phase at most; the thread is vector-dirty. -/
theorem Thread.lanes_eq : t.lanes vd w n m rounds f = { t with
    vregs := (t.lanes vd w n m rounds f).vregs, vrm := (t.lanes vd w n m rounds f).vrm,
    dphase := (t.lanes vd w n m rounds f).dphase, dirty := true } := by
  unfold Thread.lanes
  dsimp only
  rw [Thread.stepPhase_eq]
  rfl

theorem Thread.vreg_lanes (q : BitVec 3) : (t.lanes vd w n m rounds f).vreg q =
    if q = vd then (mapLanes w (t.active m) f (t.vreg vd) n).1 else t.vreg q := by
  unfold Thread.lanes
  dsimp only
  rw [Thread.stepPhase_eq]
  exact t.vreg_setVreg q vd _

theorem Thread.vrm_lanes : (t.lanes vd w n m rounds f).vrm =
    t.vrm ||| (mapLanes w (t.active m) f (t.vreg vd) n).2.zeroExtend 9 := by
  unfold Thread.lanes
  dsimp only
  rw [Thread.stepPhase_eq]
  rfl

/-- The phase steps once where the instruction rounds in dither mode with an active lane (R72, R190). -/
theorem Thread.dphase_lanes : (t.lanes vd w n m rounds f).dphase =
    if rounds = true ∧ t.mode = 4 ∧ t.dphase.getLsbD 8 = true ∧ ∃ k, k < n ∧ (m = 0 ∨ t.vmask.getLsbD k = true) then
      BitVec.ofNat 9 (256 + (t.dphase.toNat % 256 + 0x35) % 256) else t.dphase := by
  unfold Thread.lanes
  dsimp only
  rw [Thread.dphase_stepPhase, Thread.mode_raiseFlags]
  refine if_congr ?_ rfl rfl
  simp only [Bool.and_eq_true, List.any_eq_true, List.mem_range, Thread.active_iff]
  constructor
  · rintro ⟨⟨r, any⟩, mode, dither⟩
    exact ⟨r, mode, dither, any⟩
  · rintro ⟨r, mode, dither, any⟩
    exact ⟨⟨r, any⟩, mode, dither⟩

end

/-- A lanewise result is one (R184 to R186, R190). -/
theorem State.lanes_of_plain {s : State} {i : Instr} {vd : BitVec 3} {w n : Nat} {m : BitVec 1} {rounds : Bool}
    {f : Nat → Nat × BitVec 5} {g : Thread → Thread} (e : exec i s = .next (s.plain g))
    (h : g s.me = s.me.lanes vd w n m rounds f) (fits : n ≤ 512 / w) : s.lanes i vd w n m rounds f := by
  have me : (s.plain g).me = (s.me.lanes vd w n m rounds f).retire := (s.me_plain g).trans (congrArg Thread.retire h)
  have vreg (q : BitVec 3) : (s.plain g).me.vreg q = (s.me.lanes vd w n m rounds f).vreg q := by rw [me]; rfl
  have lane {k : Nat} (hk : k < 512 / w) : laneGet ((s.plain g).me.vreg vd) w k =
      if k < n ∧ s.me.active m k = true then (f k).1 % 2 ^ w else laneGet (s.me.vreg vd) w k := by
    rw [vreg, Thread.vreg_lanes, if_pos rfl, laneGet_mapLanes _ _ _ hk]
  refine ⟨_, e, s.onlyMe_setThr _, fun r other => ?_, fun k hk act => ?_, fun k hk stays => ?_, fun j => ?_,
    fun steps => ?_, fun still => ?_, ?_⟩
  · rw [vreg, Thread.vreg_lanes, if_neg other]
  · rw [lane (Nat.lt_of_lt_of_le hk fits), if_pos ⟨hk, (s.me.active_iff m k).2 act⟩]
  · rw [lane hk, if_neg]
    rintro ⟨lt, act⟩
    rcases stays with ge | idle
    · omega
    · exact idle ((s.me.active_iff m k).1 act)
  · have vrm : (s.plain g).me.vrm = (s.me.lanes vd w n m rounds f).vrm := by rw [me]; rfl
    rw [vrm, Thread.vrm_lanes, BitVec.getLsbD_or, Bool.or_eq_true, BitVec.getLsbD_setWidth, Bool.and_eq_true,
      decide_eq_true_iff]
    simp only [getLsbD_mapLanes, Thread.active_iff]
    refine or_congr_right ⟨fun ⟨_, flag⟩ => flag, fun ⟨k, hk, act, flag⟩ => ⟨?_, k, hk, act, flag⟩⟩
    have := BitVec.lt_of_getLsbD flag
    omega
  · have dphase : (s.plain g).me.dphase = (s.me.lanes vd w n m rounds f).dphase := by rw [me]; rfl
    rw [dphase, Thread.dphase_lanes, if_pos steps]
  · have dphase : (s.plain g).me.dphase = (s.me.lanes vd w n m rounds f).dphase := by rw [me]; rfl
    rw [dphase, Thread.dphase_lanes, if_neg still]
  · rw [me, Thread.lanes_eq]
    rfl

/-! ## Integer types (R43, R184, R193, R194, R196) -/

theorem etType_of_lt {et : BitVec 3} (h : et.toNat < 4) : etType et.toNat = .int true (8 * 2 ^ et.toNat) := by
  generalize et.toNat = n at h
  interval_cases n <;> rfl

/-- Only a lane's value modulo its width counts. -/
theorem State.lanes_congr {s : State} {i : Instr} {vd : BitVec 3} {w n : Nat} {m : BitVec 1} {rounds : Bool}
    {f g : Nat → Nat × BitVec 5} (h : s.lanes i vd w n m rounds f)
    (values : ∀ k, (f k).1 % 2 ^ w = (g k).1 % 2 ^ w) (flags : ∀ k, (f k).2 = (g k).2) :
    s.lanes i vd w n m rounds g := by
  simpa only [State.lanes, values, flags] using h

/-- The lane function of an integer instruction computes one of bit vectors, modulo the width. -/
def Computes (w : Nat) (fi : Nat → Nat → Nat → Nat → Nat) (g : BitVec w → BitVec w → BitVec w → BitVec w) : Prop :=
  ∀ a b c : BitVec w, fi w a.toNat b.toNat c.toNat % 2 ^ w = (g a b c).toNat

/-- An instruction of the integer types gives the lanes that its lane function computes. -/
theorem State.lanes_of_arith {s : State} {i : Instr} {vd vs1 vs2 et : BitVec 3} {m : BitVec 1}
    {fi : Nat → Nat → Nat → Nat → Nat} {ff : Fmt → Rnd → Nat → Nat → Nat → Nat × BitVec 5} {rounds : Bool}
    {g : BitVec (8 * 2 ^ et.toNat) → BitVec (8 * 2 ^ et.toNat) → BitVec (8 * 2 ^ et.toNat) → BitVec (8 * 2 ^ et.toNat)}
    (int : et.toNat < 4) (computes : Computes (8 * 2 ^ et.toNat) fi g)
    (e : exec i s = .next (s.plain (fun t => t.arith vd vs1 vs2 et m fi ff rounds))) :
    let w := 8 * 2 ^ et.toNat
    let lane (r : BitVec 3) (k : Nat) : BitVec w := BitVec.ofNat w (laneGet (s.me.vreg r) w k)
    s.lanes i vd w (512 / w) m false (fun k => ((g (lane vs1 k) (lane vs2 k) (lane vd k)).toNat, 0)) := by
  intro w lane
  have toNat (r : BitVec 3) (k : Nat) : (lane r k).toNat = laneGet (s.me.vreg r) w k := by
    rw [BitVec.toNat_ofNat]
    exact Nat.mod_mod _ _
  have arith : s.me.arith vd vs1 vs2 et m fi ff rounds = s.me.lanes vd w (512 / w) m false (fun k =>
      (fi w (lane vs1 k).toNat (lane vs2 k).toNat (lane vd k).toNat, 0)) := by
    have notFloat : isFloat et.toNat = false := decide_eq_false (by omega)
    simp only [Thread.arith, etType_of_lt int, NumT.width, notFloat, Bool.and_false, toNat]
    rfl
  refine State.lanes_congr (State.lanes_of_plain e arith (Nat.le_refl _)) (fun k => ?_) (fun _ => rfl)
  exact (computes _ _ _).trans (Nat.mod_eq_of_lt (g _ _ _).isLt).symm

section
variable {w : Nat}

theorem toInt_toNat (hw : 0 < w) (a : BitVec w) : toInt true w a.toNat = a.toInt := by
  have half : 2 * 2 ^ (w - 1) = 2 ^ w := mul_pow_sub_one hw.ne' 2
  simp only [toInt, BitVec.toInt_eq_toNat_cond, Nat.mod_eq_of_lt a.isLt, true_and]
  split <;> split <;> omega

theorem computes_add : Computes w (fun _ a b _ => a + b) (fun a b _ => a + b) :=
  fun a b _ => (BitVec.toNat_add a b).symm

theorem computes_sub : Computes w (fun w a b _ => a + (2 ^ w - b)) (fun a b _ => a - b) :=
  fun a b _ => by rw [BitVec.toNat_sub, Nat.add_comm]

theorem computes_mul : Computes w (fun _ a b _ => a * b) (fun a b _ => a * b) :=
  fun a b _ => (BitVec.toNat_mul a b).symm

theorem computes_fma : Computes w (fun _ a b c => a * b + c) (fun a b c => a * b + c) :=
  fun a b c => by rw [BitVec.toNat_add, BitVec.toNat_mul, Nat.mod_add_mod]

theorem computes_minu : Computes w (fun _ a b _ => min a b) (fun a b _ => if b.toNat < a.toNat then b else a) := by
  intro a b _
  dsimp only
  split
  · rw [Nat.min_eq_right (by omega), Nat.mod_eq_of_lt b.isLt]
  · rw [Nat.min_eq_left (by omega), Nat.mod_eq_of_lt a.isLt]

theorem computes_maxu : Computes w (fun _ a b _ => max a b) (fun a b _ => if a.toNat < b.toNat then b else a) := by
  intro a b _
  dsimp only
  split
  · rw [Nat.max_eq_right (by omega), Nat.mod_eq_of_lt b.isLt]
  · rw [Nat.max_eq_left (by omega), Nat.mod_eq_of_lt a.isLt]

/-- A choice between two lanes is one of their values. -/
theorem choice_mod (p : Prop) [Decidable p] (a b : BitVec w) :
    (if p then b.toNat else a.toNat) % 2 ^ w = (if p then b else a).toNat := by
  split
  · exact Nat.mod_eq_of_lt b.isLt
  · exact Nat.mod_eq_of_lt a.isLt

theorem computes_min (hw : 0 < w) : Computes w (fun w a b _ => if toInt true w b < toInt true w a then b else a)
    (fun a b _ => if b.toInt < a.toInt then b else a) := by
  intro a b _
  simp only [toInt_toNat hw]
  exact choice_mod _ a b

theorem computes_max (hw : 0 < w) : Computes w (fun w a b _ => if toInt true w a < toInt true w b then b else a)
    (fun a b _ => if a.toInt < b.toInt then b else a) := by
  intro a b _
  simp only [toInt_toNat hw]
  exact choice_mod _ a b

theorem computes_neg : Computes w (fun w a _ _ => 2 ^ w - a) (fun a _ _ => -a) :=
  fun a _ _ => (BitVec.toNat_neg a).symm

theorem computes_abs (hw : 0 < w) : Computes w (fun w a _ _ => if toInt true w a < 0 then 2 ^ w - a else a)
    (fun a _ _ => if a.toInt < 0 then -a else a) := by
  intro a _ _
  simp only [toInt_toNat hw]
  split
  · exact (BitVec.toNat_neg a).symm
  · exact Nat.mod_eq_of_lt a.isLt

theorem computes_and : Computes w (fun _ a b _ => a &&& b) (fun a b _ => a &&& b) :=
  fun a b _ => Nat.mod_eq_of_lt (a &&& b).isLt

theorem computes_or : Computes w (fun _ a b _ => a ||| b) (fun a b _ => a ||| b) :=
  fun a b _ => Nat.mod_eq_of_lt (a ||| b).isLt

theorem computes_xor : Computes w (fun _ a b _ => a ^^^ b) (fun a b _ => a ^^^ b) :=
  fun a b _ => Nat.mod_eq_of_lt (a ^^^ b).isLt

theorem computes_shl : Computes w (fun w a b _ => a * 2 ^ (b % w)) (fun a b _ => a <<< (b.toNat % w)) :=
  fun a b _ => by rw [BitVec.toNat_shiftLeft, Nat.shiftLeft_eq]

theorem computes_shr : Computes w (fun w a b _ => a / 2 ^ (b % w)) (fun a b _ => a >>> (b.toNat % w)) :=
  fun a b _ => by
    dsimp only
    rw [← Nat.shiftRight_eq_div_pow, ← BitVec.toNat_ushiftRight]
    exact Nat.mod_eq_of_lt (a >>> (b.toNat % w)).isLt

theorem computes_sra (hw : 0 < w) : Computes w (fun w a b _ => wrapInt w (toInt true w a / (2 ^ (b % w) : Nat)))
    (fun a b _ => a.sshiftRight (b.toNat % w)) := by
  intro a b _
  simp only [toInt_toNat hw, wrapInt]
  rw [← Int.shiftRight_eq_div_pow, ← BitVec.toNat_ofInt]
  exact Nat.mod_eq_of_lt (BitVec.ofInt w (a.toInt >>> (b.toNat % w))).isLt

end

/-- Settles O37: every instruction is `Thread.arith` with a lane function of its own. -/
theorem vectorIntegers : Obligations.VectorIntegers := by
  unfold Obligations.VectorIntegers
  intro s vd vs1 vs2 et m int w a b c gives
  have hw : 0 < w := Nat.mul_pos (by decide) (Nat.two_pow_pos _)
  exact ⟨State.lanes_of_arith int computes_add rfl, State.lanes_of_arith int computes_sub rfl,
    State.lanes_of_arith int computes_mul rfl, State.lanes_of_arith int computes_fma rfl,
    State.lanes_of_arith int computes_minu rfl, State.lanes_of_arith int computes_maxu rfl,
    State.lanes_of_arith int (computes_min hw) rfl, State.lanes_of_arith int (computes_max hw) rfl,
    State.lanes_of_arith (vs2 := vs1) int (computes_abs hw) rfl, State.lanes_of_arith (vs2 := vs1) int computes_neg rfl,
    State.lanes_of_arith int computes_and rfl, State.lanes_of_arith int computes_or rfl,
    State.lanes_of_arith int computes_xor rfl, State.lanes_of_arith int computes_shl rfl,
    State.lanes_of_arith int computes_shr rfl, State.lanes_of_arith int (computes_sra hw) rfl⟩

end Sys2Proof.Machine

namespace Sys2Proof.Machine

open Sys2Proof

/-! # Results of the integer instructions (R51, R53, R54)

Every one of them is `State.write` of a value: what is left to say is that the value is the one of the statement. -/

/-- An instruction that writes a register gives the value that it computes. -/
theorem State.yields_of_write {s : State} {i : Instr} {rd : BitVec 4} {f : Thread → Word} {v : Word}
    (e : exec i s = .next (s.write rd f)) (value : f s.me = v := by rfl) : s.yields i rd v :=
  ⟨_, e, value ▸ s.gives_write rd f⟩

/-! ## Immediates -/

/-- An upper immediate stands above twelve zero bits (R53). -/
theorem upper20_eq (up : BitVec 20) : upper20 up = (up ++ 0#12).signExtend 64 := by
  have sign : (up ++ 0#12).msb = up.msb := by rw [BitVec.msb_append]; rfl
  unfold upper20
  ext i hi
  rw [BitVec.getElem_shiftLeft, BitVec.getElem_signExtend, BitVec.getElem_signExtend, sign]
  by_cases low : i < 12
  · rw [dif_pos (show i < 20 + 12 by omega), BitVec.getElem_append, dif_pos low]
    simp [low]
  · by_cases mid : i < 20 + 12
    · rw [dif_pos mid, BitVec.getElem_append, dif_neg low, dif_pos (show i - 12 < 20 by omega)]
      simp [low]
    · rw [dif_neg mid, dif_neg (show ¬ i - 12 < 20 by omega)]
      simp [low]

/-- The low word of a sum with an immediate is the sum of the low words (R53). -/
theorem lowW_add_sext12 (a : Word) (imm : BitVec 12) : lowW (a + sext12 imm) = a.setWidth 32 + imm.signExtend 32 := by
  have low : (imm.signExtend 64).setWidth 32 = imm.signExtend 32 := by
    ext i hi
    simp [BitVec.getElem_signExtend, show i < 64 by omega]
  rw [lowW, BitVec.truncate_eq_setWidth, BitVec.setWidth_add _ _ (by decide), sext12, low]

/-- Settles O1: the comparisons are stated on integers, and the immediates as their fields; every other value is the
model's own. -/
theorem integerResults : Obligations.IntegerResults := by
  unfold Obligations.IntegerResults
  have signed (a b : Word) : (if a.slt b = true then 1 else 0 : Word) = if a.toInt < b.toInt then 1 else 0 :=
    if_congr BitVec.slt_iff_toInt_lt rfl rfl
  have unsigned (a b : Word) : (if a.ult b = true then 1 else 0 : Word) = if a.toNat < b.toNat then 1 else 0 :=
    if_congr BitVec.ult_iff_toNat_lt rfl rfl
  refine ⟨fun s rd rs1 imm up sh sw => ?_, fun s rd rs1 rs2 => ?_⟩
  · exact ⟨State.yields_of_write rfl (upper20_eq up), State.yields_of_write rfl (congrArg _ (upper20_eq up)),
      State.yields_of_write rfl, State.yields_of_write rfl (signed _ _), State.yields_of_write rfl (unsigned _ _),
      State.yields_of_write rfl, State.yields_of_write rfl, State.yields_of_write rfl, State.yields_of_write rfl,
      State.yields_of_write rfl, State.yields_of_write rfl,
      State.yields_of_write rfl (congrArg sextW (lowW_add_sext12 _ imm)), State.yields_of_write rfl,
      State.yields_of_write rfl, State.yields_of_write rfl⟩
  · have shift (n : Nat) (b : Word) : b.toNat % 2 ^ n = (b.setWidth n).toNat := (BitVec.toNat_setWidth n b).symm
    exact ⟨State.yields_of_write rfl, State.yields_of_write rfl, State.yields_of_write rfl (congrArg _ (shift 6 _)),
      State.yields_of_write rfl (signed _ _), State.yields_of_write rfl (unsigned _ _), State.yields_of_write rfl,
      State.yields_of_write rfl (congrArg _ (shift 6 _)), State.yields_of_write rfl (congrArg _ (shift 6 _)),
      State.yields_of_write rfl, State.yields_of_write rfl, State.yields_of_write rfl, State.yields_of_write rfl,
      State.yields_of_write rfl (congrArg (sextW <| lowW _ <<< ·) (shift 5 _)),
      State.yields_of_write rfl (congrArg (sextW <| lowW _ >>> ·) (shift 5 _)),
      State.yields_of_write rfl (congrArg (sextW <| (lowW _).sshiftRight ·) (shift 5 _)), State.yields_of_write rfl,
      State.yields_of_write rfl (ite_not _ _ _)⟩

/-! ## Products, quotients and remainders (R53, R54) -/

section
variable {w n : Nat}

theorem ofNat_wrapInt (x : Int) : BitVec.ofNat w (wrapInt w x) = BitVec.ofInt w x := by
  apply BitVec.eq_of_toNat_eq
  rw [BitVec.toNat_ofNat, BitVec.toNat_ofInt, wrapInt]
  refine Nat.mod_eq_of_lt ?_
  have := Int.emod_lt_of_pos x (b := (2 ^ w : Nat)) (by exact_mod_cast Nat.two_pow_pos w)
  omega

theorem ofInt_tdiv (a b : BitVec w) : BitVec.ofInt w (a.toInt.tdiv b.toInt) = a.sdiv b :=
  BitVec.eq_of_toInt_eq (by rw [BitVec.toInt_ofInt, BitVec.toInt_sdiv])

theorem ofInt_tmod (a b : BitVec w) : BitVec.ofInt w (a.toInt.tmod b.toInt) = a.srem b := by
  rw [← BitVec.toInt_srem, BitVec.ofInt_toInt]

theorem toInt_unsigned (a : BitVec w) : toInt false w a.toNat = a.toNat := by
  simp [toInt, Nat.mod_eq_of_lt a.isLt]

theorem ofNat_allOnes : BitVec.ofNat w (2 ^ w - 1) = BitVec.allOnes w :=
  BitVec.eq_of_toNat_eq (by
    rw [BitVec.toNat_ofNat, BitVec.toNat_allOnes]
    exact Nat.mod_eq_of_lt (Nat.sub_lt (Nat.two_pow_pos w) Nat.one_pos))

variable {a b : BitVec n} {x y : BitVec w}

/-- The low bits of a register as an integer: the model's signed reading of its number. -/
theorem toInt_low (hw : 0 < w) (hx : a.setWidth w = x) : toInt true w a.toNat = x.toInt := by
  rw [← hx, ← toInt_toNat hw, BitVec.toNat_setWidth, toInt, toInt, Nat.mod_mod]

/-- The low bits of a register as a number. -/
theorem toNat_low (hx : a.setWidth w = x) : a.toNat % 2 ^ w = x.toNat := by rw [← hx, BitVec.toNat_setWidth]

theorem ofNat_toNat_self : BitVec.ofNat w x.toNat = x := by rw [BitVec.ofNat_toNat, BitVec.setWidth_eq]

/-- The test of a division by zero. -/
theorem toNat_eq_zero_iff : x.toNat = 0 ↔ x = 0#w := by
  rw [← BitVec.toNat_inj, BitVec.toNat_ofNat, Nat.zero_mod]

theorem ofNat_divS (hw : 0 < w) (hx : a.setWidth w = x) (hy : b.setWidth w = y) :
    BitVec.ofNat w (divS w a.toNat b.toNat) = if y = 0#w then BitVec.allOnes w else x.sdiv y := by
  rw [divS, toInt_low hw hx, toInt_low hw hy, toNat_low hy, apply_ite (BitVec.ofNat w), ofNat_wrapInt, ofInt_tdiv,
    ofNat_allOnes]
  exact if_congr toNat_eq_zero_iff rfl rfl

theorem ofNat_divU (hx : a.setWidth w = x) (hy : b.setWidth w = y) :
    BitVec.ofNat w (divU w a.toNat b.toNat) = if y = 0#w then BitVec.allOnes w else x / y := by
  rw [divU, toNat_low hx, toNat_low hy, apply_ite (BitVec.ofNat w), ofNat_allOnes, ← BitVec.toNat_udiv, ofNat_toNat_self]
  exact if_congr toNat_eq_zero_iff rfl rfl

theorem ofNat_remS (hw : 0 < w) (hx : a.setWidth w = x) (hy : b.setWidth w = y) :
    BitVec.ofNat w (remS w a.toNat b.toNat) = if y = 0#w then x else x.srem y := by
  rw [remS, toInt_low hw hx, toInt_low hw hy, toNat_low hx, toNat_low hy, apply_ite (BitVec.ofNat w), ofNat_wrapInt,
    ofInt_tmod, ofNat_toNat_self]
  exact if_congr toNat_eq_zero_iff rfl rfl

theorem ofNat_remU (hx : a.setWidth w = x) (hy : b.setWidth w = y) :
    BitVec.ofNat w (remU w a.toNat b.toNat) = if y = 0#w then x else x % y := by
  rw [remU, toNat_low hx, toNat_low hy, apply_ite (BitVec.ofNat w), ← BitVec.toNat_umod, ofNat_toNat_self,
    ofNat_toNat_self]
  exact if_congr toNat_eq_zero_iff rfl rfl

/-- The high word of a product of integers (R53). -/
theorem mulHigh_eq {sa sb : Bool} {x y : Word} {p q : Int} (hp : toInt sa 64 x.toNat = p) (hq : toInt sb 64 y.toNat = q) :
    mulHigh sa sb x y = BitVec.ofInt 64 (p * q / 2 ^ 64) := by
  rw [mulHigh, hp, hq]
  rfl

theorem ofInt_natCast_div (x y : Nat) : BitVec.ofInt 64 ((x : Int) * y / 2 ^ 64) = BitVec.ofNat 64 (x * y / 2 ^ 64) := by
  rw [← BitVec.ofInt_natCast, Int.natCast_ediv, Int.natCast_mul]
  rfl

end

/-- Settles O2: the model computes on numbers and integers what the operations of bit vectors give, on the whole registers
or on their low words. -/
theorem multiplyDivide : Obligations.MultiplyDivide := by
  unfold Obligations.MultiplyDivide
  intro s rd rs1 rs2 a b al bl
  have signed (x : Word) : toInt true 64 x.toNat = x.toInt := toInt_toNat (by decide) x
  have whole (x : Word) : x.setWidth 64 = x := BitVec.setWidth_eq x
  have div : s.yields (.div rd rs1 rs2) rd (if b = 0 then BitVec.allOnes 64 else a.sdiv b) :=
    State.yields_of_write rfl (ofNat_divS (by decide) (whole a) (whole b))
  have rem : s.yields (.rem rd rs1 rs2) rd (if b = 0 then a else a.srem b) :=
    State.yields_of_write rfl (ofNat_remS (by decide) (whole a) (whole b))
  refine ⟨State.yields_of_write rfl, State.yields_of_write rfl (mulHigh_eq (signed a) (signed b)),
    State.yields_of_write rfl (mulHigh_eq (signed a) (toInt_unsigned b)),
    State.yields_of_write rfl ((mulHigh_eq (toInt_unsigned a) (toInt_unsigned b)).trans (ofInt_natCast_div _ _)),
    State.yields_of_write rfl, div, State.yields_of_write rfl (ofNat_divU (whole a) (whole b)), rem,
    State.yields_of_write rfl (ofNat_remU (whole a) (whole b)),
    State.yields_of_write rfl (congrArg sextW (ofNat_divS (by decide) rfl rfl)),
    State.yields_of_write rfl (congrArg sextW (ofNat_divU rfl rfl)),
    State.yields_of_write rfl (congrArg sextW (ofNat_remS (by decide) rfl rfl)),
    State.yields_of_write rfl (congrArg sextW (ofNat_remU rfl rfl)), fun least minus => ?_⟩
  rw [least, minus] at div rem
  rw [least]
  have nonzero : BitVec.allOnes 64 ≠ 0 := by decide
  have quotient : (BitVec.intMin 64).sdiv (BitVec.allOnes 64) = BitVec.intMin 64 := by decide
  have remainder : (BitVec.intMin 64).srem (BitVec.allOnes 64) = 0 := by decide
  rw [if_neg nonzero, quotient] at div
  rw [if_neg nonzero, remainder] at rem
  exact ⟨div, rem⟩

end Sys2Proof.Machine

namespace Sys2Proof.Machine

open Sys2Proof

/-! # CSRs (R67 to R78, R130) -/

section
variable {s : State} {i : Instr} {rd : BitVec 4} {csr : BitVec 12} {x : Csr} {writes : Bool} {f : Word → Word}

/-- A Zicsr instruction that writes a CSR it may write: the write, and rd takes the value read before (R67). -/
theorem State.csrOp_writes (here : csrOf csr.toNat = some x) (may : x.writable = true) (write : writes = true) :
    s.csrOp rd csr writes f = (s.writeCsr x (f (s.readCsr x))).write rd (fun _ => s.readCsr x) := by
  rw [State.csrOp, here, write]
  dsimp only
  rw [may]
  rfl

/-- A Zicsr instruction that writes no CSR reads one (R67). -/
theorem State.csrOp_reads (here : csrOf csr.toNat = some x) (read : writes = false) :
    s.csrOp rd csr writes f = s.write rd (fun _ => s.readCsr x) := by
  rw [State.csrOp, here, read]
  rfl

theorem State.yields_of_csrOp (here : csrOf csr.toNat = some x) (read : writes = false)
    (e : exec i s = .next (s.csrOp rd csr writes f)) : s.yields i rd (s.readCsr x) :=
  State.yields_of_write (e.trans (congrArg _ (State.csrOp_reads here read)))

end

/-- The path of `cycle` (R78): the cycles of earlier slots, and of the one that the thread holds. -/
theorem State.readCsr_cycle (s : State) : s.readCsr .cycle = BitVec.ofNat 64 (s.me.cycles + match s.me.slot with
    | some _ => tget 0 s.cyc (s.me.core / 256) - s.me.slotFrom
    | none => 0) := by
  show BitVec.ofNat 64 (s.me.cycles + if s.me.slot.isSome = true then _ else 0) = _
  cases s.me.slot <;> rfl

/-- The three numbers of a forme (R77): along the snake, of its quadrant, and in rows. -/
theorem State.readCsr_formeid (s : State) :
    let f := s.me.core % 256 / 8
    let snake := if f / 8 % 2 = 0 then f else 8 * (f / 8) + 7 - f % 8
    s.readCsr .formeid = BitVec.ofNat 64 (snake * 2 ^ 10 + (2 * (f / 16) + f % 8 / 4) * 2 ^ 8 + f) := by
  intro f snake
  have row : formeRow (coreForme s.me.core) = f / 8 := by simp only [formeRow, coreForme]; omega
  have col : formeCol (coreForme s.me.core) = f % 8 := by simp only [formeCol, coreForme]; omega
  have path : snakeForme (coreForme s.me.core) = snake := by
    rw [snakeForme, row, col]
    exact if_congr Iff.rfl (by omega) rfl
  have quad : formeQuad (coreForme s.me.core) = 2 * (f / 16) + f % 8 / 4 := by rw [formeQuad, row, col]; omega
  have number : coreForme s.me.core % 32 = f := by simp only [coreForme]; omega
  show BitVec.ofNat 64 (snakeForme (coreForme s.me.core) * 1024 + formeQuad (coreForme s.me.core) * 256 +
    coreForme s.me.core % 32) = _
  rw [path, quad, number]
  rfl

/-- A programmable counter reads all ones where no event of its code is counted (R77). -/
theorem State.readCsr_pmc (s : State) (n : Nat) : s.readCsr (.pmc n) =
    if coreEvent ((tget 0 (s.core s.me.core).pmsel n).toNat % 2 ^ 16) = true then tget 0 (s.core s.me.core).pmc n
    else 0xFFFFFFFFFFFFFFFF :=
  if_congr Iff.rfl rfl (by decide)

/-- Settles O5: the number of a CSR names it, and its layout is the model's reading. -/
theorem csrReads : Obligations.CsrReads := by
  unfold Obligations.CsrReads
  intro s rd csr x here t
  have read {i : Instr} {f : Word → Word} (e : exec i s = .next (s.csrOp rd csr false f)) : s.yields i rd (s.readCsr x) :=
    State.yields_of_csrOp here rfl e
  have names {n : BitVec 12} {y : Csr} {v : Word} (named : csrOf n.toNat = some y) (value : s.readCsr y = v)
      (e : csr = n) : s.readCsr x = v := by
    subst e
    rw [← value, Option.some.inj (here.symm.trans named)]
  refine ⟨read rfl, read rfl, read rfl, read rfl, names (y := .oc) rfl rfl, names (y := .vmask) rfl rfl,
    names (y := .vrm) rfl rfl, names (y := .dphase) rfl rfl, names (y := .pushq) rfl rfl,
    names (y := .pushref) rfl rfl, names (y := .pweight) rfl rfl, names (y := .yldlim) rfl rfl, ?_,
    names (y := .instret) rfl rfl, ?_, names (y := .cycle) rfl s.readCsr_cycle,
    names (y := .thrid) rfl rfl, names (y := .formeid) rfl s.readCsr_formeid, names (y := .groupid) rfl rfl,
    names (y := .dieid) rfl rfl, names (y := .coreid) rfl rfl, names (y := .rank) rfl rfl, names (y := .moves) rfl rfl⟩
  · rintro (e | e)
    · exact names (y := .time) rfl rfl e
    · exact names (y := .gtick) rfl rfl e
  · intro n hn sel
    have both (selects : csrOf (BitVec.ofNat 12 (0x810 + n)).toNat = some (.pmsel n))
        (counts : csrOf (BitVec.ofNat 12 (0xC90 + n)).toNat = some (.pmc n)) :
        (csr = BitVec.ofNat 12 (0x810 + n) → s.readCsr x = sel.setWidth 64) ∧
        (csr = BitVec.ofNat 12 (0xC90 + n) → s.readCsr x =
          if coreEvent (sel.toNat % 2 ^ 16) = true then tget 0 (s.core t.core).pmc n else 0xFFFFFFFFFFFFFFFF) :=
      ⟨names selects rfl, names counts (s.readCsr_pmc n)⟩
    interval_cases n
    · exact both rfl rfl
    · exact both rfl rfl
    · exact both rfl rfl
    · exact both rfl rfl

end Sys2Proof.Machine

namespace Sys2Proof.Machine

open Sys2Proof

/-! ## Fields of a written word -/

theorem append_eq_ofNat {m n : Nat} (x : BitVec m) (y : BitVec n) :
    x ++ y = BitVec.ofNat (m + n) (x.toNat * 2 ^ n + y.toNat) := by
  apply BitVec.eq_of_toNat_eq
  have sum : (x ++ y).toNat = x.toNat * 2 ^ n + y.toNat := by
    rw [BitVec.toNat_append, ← Nat.shiftLeft_add_eq_or_of_lt y.isLt, Nat.shiftLeft_eq]
  rw [BitVec.toNat_ofNat, ← sum, Nat.mod_eq_of_lt (x ++ y).isLt]

theorem toNat_field {w : Nat} (v : BitVec w) (lo n : Nat) : (v.extractLsb' lo n).toNat = v.toNat / 2 ^ lo % 2 ^ n := by
  rw [BitVec.extractLsb'_toNat, Nat.shiftRight_eq_div_pow]

/-- The write of `vrm` (R71): a mode above 4 leaves the field as it is. -/
theorem vrmField_eq (v : Word) (t : Thread) :
    BitVec.ofNat 9 (v.toNat / 256 % 2 * 256 + (if v.toNat / 32 % 8 ≤ 4 then v.toNat / 32 % 8 else t.mode) * 32 +
      v.toNat % 32) =
    v.extractLsb' 8 1 ++ (if (v.extractLsb' 5 3).toNat ≤ 4 then v.extractLsb' 5 3 else t.vrm.extractLsb' 5 3) ++
      v.extractLsb' 0 5 := by
  have low : (v.extractLsb' 0 5).toNat = v.toNat % 32 := by rw [toNat_field]; simp
  have high : (v.extractLsb' 8 1).toNat = v.toNat / 256 % 2 := toNat_field v 8 1
  have mode : (v.extractLsb' 5 3).toNat = v.toNat / 32 % 8 := toNat_field v 5 3
  have old : (t.vrm.extractLsb' 5 3).toNat = t.mode := toNat_field t.vrm 5 3
  rw [append_eq_ofNat, append_eq_ofNat, BitVec.toNat_ofNat, apply_ite BitVec.toNat, low, high, mode, old]
  have : t.mode < 8 := old ▸ (t.vrm.extractLsb' 5 3).isLt
  congr 1
  split <;> omega

/-- The write of `pmsel` (R76): a mode of 3 leaves the field as it is. -/
theorem pmselField_eq (v : Word) (old : BitVec 18) :
    BitVec.ofNat 18 ((if v.toNat / 65536 % 4 = 3 then old.toNat / 65536 else v.toNat / 65536 % 4) * 65536 +
      v.toNat % 65536) =
    (if (v.extractLsb' 16 2).toNat = 3 then old.extractLsb' 16 2 else v.extractLsb' 16 2) ++ v.extractLsb' 0 16 := by
  have low : (v.extractLsb' 0 16).toNat = v.toNat % 65536 := by rw [toNat_field]; simp
  have mode : (v.extractLsb' 16 2).toNat = v.toNat / 65536 % 4 := toNat_field v 16 2
  have kept : (old.extractLsb' 16 2).toNat = old.toNat / 65536 := by
    have := old.isLt
    rw [toNat_field]
    exact Nat.mod_eq_of_lt (by omega)
  rw [append_eq_ofNat, apply_ite BitVec.toNat, low, mode, kept]
  rfl

/-- The write of `pushq` (R73): at most 512 is stored. -/
theorem pushqField_eq (v : Word) :
    BitVec.ofNat 10 (min 512 (v.toNat % 1024)) = if (v.setWidth 10).toNat ≤ 512 then v.setWidth 10 else 512 := by
  have field : (v.setWidth 10).toNat = v.toNat % 1024 := BitVec.toNat_setWidth 10 v
  apply BitVec.eq_of_toNat_eq
  rw [apply_ite BitVec.toNat, field, BitVec.toNat_ofNat]
  split
  · omega
  · rw [Nat.min_eq_left (by omega)]; rfl

/-- The write of `pweight` (R74): at least 1 is stored. -/
theorem pweightField_eq (v : Word) :
    BitVec.ofNat 4 (max 1 (v.toNat % 16)) = if v.setWidth 4 = 0#4 then 1 else v.setWidth 4 := by
  have field : (v.setWidth 4).toNat = v.toNat % 16 := BitVec.toNat_setWidth 4 v
  have zero : v.setWidth 4 = 0#4 ↔ v.toNat % 16 = 0 := by rw [← BitVec.toNat_inj, field]; rfl
  apply BitVec.eq_of_toNat_eq
  rw [apply_ite BitVec.toNat, field, BitVec.toNat_ofNat]
  split
  · next none => rw [zero.1 none]; rfl
  · next some =>
    have := mt zero.2 some
    omega

/-! ## Writes (R68, R70 to R76, R130) -/

section
variable (s : State) (v : Word)

theorem State.writeCsr_oc : s.writeCsr .oc v = s.modMe (fun t => { t with oc := v.setWidth 4 }) := by
  rw [← BitVec.ofNat_toNat]; rfl

theorem State.writeCsr_dphase : s.writeCsr .dphase v = s.modMe (fun t => { t with dphase := v.setWidth 9 }) := by
  rw [← BitVec.ofNat_toNat]; rfl

theorem State.writeCsr_yldlim : s.writeCsr .yldlim v = s.modMe (fun t => { t with yldlim := v.setWidth 48 }) := by
  rw [← BitVec.ofNat_toNat]; rfl

theorem State.writeCsr_vrm : s.writeCsr .vrm v = s.modMe (fun t => { t with vrm := v.extractLsb' 8 1 ++
    (if (v.extractLsb' 5 3).toNat ≤ 4 then v.extractLsb' 5 3 else t.vrm.extractLsb' 5 3) ++ v.extractLsb' 0 5 }) := by
  simp only [← vrmField_eq]; rfl

theorem State.writeCsr_pushq : s.writeCsr .pushq v = s.modCore s.myCore (fun k => { k with
    pushq := if (v.setWidth 10).toNat ≤ 512 then v.setWidth 10 else 512 }) := by
  rw [← pushqField_eq]; rfl

theorem State.writeCsr_pweight : s.writeCsr .pweight v = s.modCore s.myCore (fun k => { k with
    pweight := if v.setWidth 4 = 0#4 then 1 else v.setWidth 4 }) := by
  rw [← pweightField_eq]; rfl

theorem State.writeCsr_pmsel (n : Nat) : s.writeCsr (.pmsel n) v = s.modCore s.myCore (fun k => { k with
    pmsel := tset k.pmsel n ((if (v.extractLsb' 16 2).toNat = 3
      then (tget 0 (s.core s.myCore).pmsel n).extractLsb' 16 2 else v.extractLsb' 16 2) ++ v.extractLsb' 0 16)
    pmselCtx := tset k.pmselCtx n s.myCtx
    pmc := tset k.pmc n 0 }) := by
  rw [← pmselField_eq]; rfl

end

section
variable (s : State) (rd : BitVec 4) (old : Word)

/-- A CSR of the thread is written, and rd: nothing but the thread differs (R67). -/
theorem State.write_modMe {g : Thread → Thread} (regs : (g s.me).regs = s.me.regs) :
    let t := (s.modMe g).write rd (fun _ => old)
    (s.onlyMe t ∧ t.me = { g s.me with pc := (g s.me).pc + 4, instret := (g s.me).instret + 1, regs := t.me.regs }) ∧
    (∀ u, u ≠ s.cur → t.thr u = s.thr u) ∧ ∀ q, t.me.reg q = if q = rd ∧ q ≠ 0 then old else s.me.reg q := by
  obtain ⟨⟨frame, others, -⟩, reg, me⟩ := (s.modMe g).gives_write rd (fun _ => old)
  rw [State.me_modMe] at reg me
  have same (u : Nat) (other : u ≠ s.cur) : ((s.modMe g).write rd (fun _ => old)).thr u = s.thr u :=
    (others u other).trans ((s.thr_modMe g u).trans (if_neg other))
  refine ⟨⟨⟨frame, same, fun _ => ⟨rfl, rfl, rfl⟩⟩, me⟩, same, fun q => ?_⟩
  rw [reg, Thread.reg, Thread.reg, regs]

/-- A CSR of the core is written, and rd: nothing but the core and the thread differs (R67). -/
theorem State.write_modCore {f : Core → Core} :
    let t := (s.modCore s.myCore f).write rd (fun _ => old)
    (t = { s with threads := t.threads, cores := t.cores } ∧
      t.me = { s.me with pc := s.me.pc + 4, instret := s.me.instret + 1, regs := t.me.regs } ∧
      ∀ n, t.core n = if n = s.myCore then f (s.core s.myCore) else s.core n) ∧
    (∀ u, u ≠ s.cur → t.thr u = s.thr u) ∧ ∀ q, t.me.reg q = if q = rd ∧ q ≠ 0 then old else s.me.reg q := by
  obtain ⟨⟨frame, others, -⟩, reg, me⟩ := (s.modCore s.myCore f).gives_write rd (fun _ => old)
  exact ⟨⟨frame, me, fun n => State.core_setCore ..⟩, others, reg⟩

end

/-- Settles O4: each CSR that may be written is one of the thread or one of the core, written by its field rule. -/
theorem csrWrites : Obligations.CsrWrites := by
  unfold Obligations.CsrWrites
  intro s rd rs1 csr uimm x here may old c done core mode sel effect writes
  have effects (v : Word) : let t := (s.writeCsr x v).write rd (fun _ => old)
      effect v t ∧ (∀ u, u ≠ s.cur → t.thr u = s.thr u) ∧ ∀ q, t.me.reg q = if q = rd ∧ q ≠ 0 then old else s.me.reg q := by
    clear_value old
    cases x with
    | oc => rw [State.writeCsr_oc]; exact s.write_modMe rd old rfl
    | vmask => exact s.write_modMe rd old rfl
    | vrm => rw [State.writeCsr_vrm]; exact s.write_modMe rd old rfl
    | dphase => rw [State.writeCsr_dphase]; exact s.write_modMe rd old rfl
    | pushref => exact s.write_modMe rd old rfl
    | yldlim => rw [State.writeCsr_yldlim]; exact s.write_modMe rd old rfl
    | pushq => rw [State.writeCsr_pushq]; exact s.write_modCore rd old
    | pweight => rw [State.writeCsr_pweight]; exact s.write_modCore rd old
    | pmsel n => rw [State.writeCsr_pmsel]; exact s.write_modCore rd old
    | _ => exact absurd may Bool.false_ne_true
  have put {i : Instr} {w : Bool} {f : Word → Word} {v : Word} (e : exec i s = .next (s.csrOp rd csr w f))
      (write : w = true) (value : f old = v) : writes i v :=
    ⟨_, e.trans (congrArg _ (State.csrOp_writes here may write)), value ▸ effects (f old)⟩
  exact ⟨put rfl rfl rfl, put rfl rfl rfl, fun mask => put rfl (decide_eq_true mask) rfl,
    fun mask => put rfl (decide_eq_true mask) rfl, fun mask => put rfl (decide_eq_true mask) rfl,
    fun mask => put rfl (decide_eq_true mask) rfl⟩

/-! # Power-good (R393, R398) -/

/-- Settles O58: every clause reads a field of `State.reset`, or the fresh record of a table that is empty there. -/
theorem resetState : Obligations.ResetState := by
  unfold Obligations.ResetState
  exact ⟨rfl, rfl, rfl, rfl, rfl, rfl, rfl, rfl, rfl, rfl, rfl, rfl, rfl, fun _ => rfl, fun _ => rfl, fun _ => rfl,
    fun _ => ⟨rfl, rfl, rfl, rfl, rfl⟩, fun _ => ⟨rfl, rfl, rfl, fun _ => rfl⟩, fun _ => rfl, fun _ => rfl⟩

end Sys2Proof.Machine

namespace Sys2Proof.Machine

open Sys2Proof

/-! # Release and acquire steps (R122, R132) -/

/-! ## What a search of a table finds after a write -/

theorem any_of_tget {α : Type} {d : α} {p : α → Bool} (default : p d = false) {t : Tbl α} {n : Nat}
    (h : p (tget d t n) = true) : t.any (fun x => p x.2) = true := by
  induction t with
  | nil => exact absurd (default.symm.trans h) Bool.false_ne_true
  | cons x t ih =>
    obtain ⟨k, w⟩ := x
    rw [List.any_cons, Bool.or_eq_true]
    rw [tget] at h
    split at h
    · exact .inl h
    · exact .inr (ih h)

/-- A value that counts as the one before it, and a default that does not count: the search answers as before. -/
theorem any_tset {α : Type} {d v : α} {p : α → Bool} (default : p d = false) {t : Tbl α} {n : Nat}
    (h : p v = p (tget d t n)) : (tset t n v).any (fun x => p x.2) = t.any (fun x => p x.2) := by
  induction t with
  | nil => rw [tset, List.any_cons, h, tget, default]; rfl
  | cons x t ih =>
    obtain ⟨k, w⟩ := x
    rw [tget] at h
    rw [tset]
    by_cases same : k = n
    · rw [if_pos same] at h ⊢
      rw [List.any_cons, List.any_cons, h]
    · rw [if_neg same] at h ⊢
      split
      · rw [List.any_cons, h, Bool.or_eq_right_iff_imp]
        intro found
        rw [List.any_cons, any_of_tget default found, Bool.or_true]
      · rw [List.any_cons, List.any_cons, ih h]

theorem State.logged_setCore (s : State) {c : Nat} {k : Core} (h : k.side = (s.core c).side) (u : Nat) :
    (s.setCore c k).logged u = s.logged u := by
  unfold State.logged
  dsimp only
  congr 1
  exact any_tset (d := Core.fresh) (p := fun k => k.side.any (fun e => decide (e.uid = u))) rfl (by rw [h]; rfl)

/-- An update of some entries of a list that leaves those entries as they are. -/
theorem map_ite_self {α : Type} {l : List α} {p : α → Prop} [DecidablePred p] {f : α → α}
    (h : ∀ x ∈ l, p x → f x = x) : l.map (fun x => if p x then f x else x) = l := by
  conv_rhs => rw [← List.map_id l]
  refine List.map_congr_left fun x m => ?_
  split
  · next hp => exact h x m hp
  · rfl

/-! ## Write-backs of clean cores -/

/-- Two states that read the same in every core, thread and other field, whatever the list of cores holds: a release step
finds the same in both. -/
structure Alike (s t : State) : Prop where
  same : Same [.fCores] s t
  logged : ∀ u, t.logged u = s.logged u

theorem Alike.refl (s : State) : Alike s s := ⟨.refl s _, fun _ => rfl⟩

theorem Alike.trans {s t r : State} (h : Alike s t) (k : Alike t r) : Alike s r :=
  ⟨h.same.trans k.same, fun u => (k.logged u).trans (h.logged u)⟩

theorem Alike.setCore (s : State) (c : Nat) {k : Core} (h : k = s.core c) : Alike s (s.setCore c k) :=
  ⟨s.setCore_self c k h, s.logged_setCore (by rw [h])⟩

theorem Alike.fenced {s t : State} (h : Alike s t) (u : Nat) : t.fenced u = s.fenced u := by
  unfold State.fenced
  rw [h.same.thr, h.same.frame.net]

theorem Alike.established {s t : State} (h : Alike s t) (u scope : Nat) : t.established u scope = s.established u scope := by
  unfold State.established
  simp only [h.logged, h.fenced, h.same.thr, h.same.core]

/-- No untracked line of a core is dirty. -/
def State.coreClean (s : State) (c : Nat) : Prop := ∀ x ∈ (s.core c).l1, x.st = .raw → x.dirty = 0#128

theorem State.writeBackRaw_clean {s : State} {c : Nat} (h : s.coreClean c) : Alike s (s.writeBackRaw c) := by
  have none : (s.core c).l1.filter (fun x => decide (x.st = .raw ∧ x.dirty ≠ 0)) = [] := by
    rw [List.filter_eq_nil_iff]
    intro x m
    simpa using h x m
  have kept : (s.core c).l1.map (fun x => if x.st = .raw then { x with dirty := 0 } else x) = (s.core c).l1 :=
    map_ite_self fun x m raw => by rw [show (0 : BitVec 128) = x.dirty from (h x m raw).symm]
  unfold State.writeBackRaw
  rw [none]
  exact Alike.setCore s c (congrArg (fun l => { s.core c with l1 := l }) kept)

theorem State.writeBackRaw_foldl_clean {s : State} {l : List Nat} (h : ∀ c ∈ l, s.coreClean c) :
    Alike s (l.foldl State.writeBackRaw s) := by
  induction l generalizing s with
  | nil => exact Alike.refl s
  | cons c l ih =>
    have first := State.writeBackRaw_clean (h c List.mem_cons_self)
    refine first.trans (ih fun k m => ?_)
    have := h k (List.mem_cons_of_mem _ m)
    rwa [State.coreClean, first.same.core]

/-- The trail of a thread after a release step, established or not (R132). -/
def Thread.trailThen (t : Thread) (ok : Bool) (scope : Nat) : List Nat := if ok = true then t.trailAfter scope else t.trail

/-- A release step of a thread whose cores are clean: it is established where it was, and then the trail ends (R132). -/
structure Released (s : State) (scope : Nat) (r : State) : Prop where
  frame : Frame [.fCores, .fThreads] s r
  core : ∀ k, r.core k = s.core k
  others : ∀ u, u ≠ s.cur → r.thr u = s.thr u
  me : r.me = { s.me with trail := s.me.trailThen (s.established s.cur scope) scope }

theorem State.releaseStep_clean {s : State} (h : s.clean) (scope : Nat) :
    ∃ r, s.releaseStep scope = (r, s.established s.cur scope) ∧ Released s scope r := by
  have alike : Alike s (if scope < 3 then s else s.me.places.foldl State.writeBackRaw s) := by
    split
    · exact .refl s
    · exact State.writeBackRaw_foldl_clean h
  unfold State.releaseStep
  dsimp only
  generalize (if scope < 3 then s else s.me.places.foldl State.writeBackRaw s) = q at alike
  rw [alike.same.cur, alike.established]
  refine ⟨_, rfl, ?_⟩
  have me := alike.same.me
  by_cases ends : s.established s.cur scope = true ∧ 3 ≤ scope
  · rw [if_pos ends]
    refine ⟨(alike.same.frame.mono (by decide)).modMe _, alike.same.core, fun u other => ?_, ?_⟩
    · rw [State.thr_modMe, alike.same.cur, if_neg other, alike.same.thr]
    · rw [State.me_modMe, me, Thread.trailThen, if_pos ends.1, Thread.trailAfter, if_pos ends.2]
  · rw [if_neg ends]
    refine ⟨alike.same.frame.mono (by decide), alike.same.core, fun u _ => alike.same.thr u, ?_⟩
    have stays : s.me.trailThen (s.established s.cur scope) scope = s.me.trail := by
      unfold Thread.trailThen Thread.trailAfter
      split
      · next ok => exact if_neg fun wide => ends ⟨ok, wide⟩
      · rfl
    rw [stays, me]

/-! ## Acquire steps -/

section
variable {s : State} {c : Nat}

/-- A fetch made anew changes the claims of one core, and sends a message for each. -/
theorem State.refetch_frame_claims (s : State) (c : Nat) (p : Claim → Bool) :
    Frame [.fCores, .fWakeSeq, .fNet] s (s.refetch c p) := by
  unfold State.refetch
  exact (((Frame.refl _ s).withWakeSeq _).setCore _ _).trans (Frame.foldl _ (fun s _ => (Frame.refl _ s).send _) _ _)

theorem State.acquireStep_frame (s : State) (c scope : Nat) :
    Frame [.fCores, .fWakeSeq, .fNet] s (s.acquireStep c scope) := by
  unfold State.acquireStep State.refetchFor
  exact Frame.ite (Frame.refl _ s) (((s.refetch_frame_claims _ _).modCore _ _).modCore _ _)

/-- No claim of a core stands on a fetch of an untracked line. -/
def State.coreNoFetch (s : State) (c : Nat) : Prop := ∀ x ∈ (s.core c).claims, x.need ≠ .fetch

/-- Where no claim stands on a fetch, none is made anew. -/
theorem State.refetch_none (h : s.coreNoFetch c) (p : Claim → Bool) :
    s.refetch c p = State.setCore { s with wakeSeq := s.wakeSeq + 1 } c (s.core c) := by
  have idle {x : Claim} (m : x ∈ (s.core c).claims) (a b : Bool) : (decide (x.need = .fetch) && a && b) = false := by
    rw [decide_eq_false (h x m), Bool.false_and, Bool.false_and]
  have gone : (s.core c).claims.filter (fun x => decide (x.need = .fetch) &&
      (decide (x.stage = .waiting) || decide (x.stage = .ready)) && p x) = [] :=
    List.filter_eq_nil_iff.2 fun x m => by rw [idle m]; exact Bool.false_ne_true
  have kept : (s.core c).claims.map (fun x => if (decide (x.need = .fetch) &&
      (decide (x.stage = .waiting) || decide (x.stage = .ready)) && p x) = true then
        { x with stage := .waiting, copy := none, opened := false, tag := s.wakeSeq } else x) = (s.core c).claims :=
    map_ite_self fun x m again => by rw [idle m] at again; exact absurd again Bool.false_ne_true
  unfold State.refetch
  dsimp only
  rw [gone, kept]
  rfl

theorem State.refetchFor_none (fetch : s.coreNoFetch c) (mine : Nat → Bool) (p : Claim → Bool) (k : Nat) :
    (s.refetchFor c mine p).core k = s.core k := by
  unfold State.refetchFor
  rw [State.refetch_none fetch, State.modCore_eq, State.core_setCore]
  have same (n : Nat) : (State.setCore { s with wakeSeq := s.wakeSeq + 1 } c (s.core c)).core n = s.core n := by
    rw [State.core_setCore]
    split
    · next e => rw [e]
    · rfl
  split
  · next e =>
    rw [same, e]
    refine congrArg (fun l => { s.core c with claims := l }) ?_
    refine map_ite_self fun x m again => ?_
    simp only [Bool.and_eq_true, decide_eq_true_eq] at again
    exact absurd again.2.2 (fetch x m)
  · exact same k

/-- Where no claim stands on a fetch, an acquire step sends no message. -/
theorem State.acquireStep_silent (fetch : s.coreNoFetch c) (scope : Nat) :
    Frame [.fCores, .fWakeSeq] s (s.acquireStep c scope) := by
  unfold State.acquireStep State.refetchFor
  rw [State.refetch_none fetch]
  exact Frame.ite (Frame.refl _ s) (((((Frame.refl _ s).withWakeSeq _).setCore _ _).modCore _ _).modCore _ _)

/-- Of clean lines, an acquire step leaves those that are tracked (R132). -/
theorem filter_unclean {l : List L1Line} (clean : ∀ x ∈ l, x.st = .raw → x.dirty = 0#128) :
    (l.map L1Line.unclean).filter (fun x => !(decide (x.st = .raw) && decide (x.valid = 0))) =
      l.filter (fun x => decide (x.st ≠ .raw)) := by
  induction l with
  | nil => rfl
  | cons x l ih =>
    rw [List.map_cons, List.filter_cons, List.filter_cons, ih fun y m => clean y (List.mem_cons_of_mem _ m)]
    by_cases raw : x.st = .raw
    · have dirty := clean x List.mem_cons_self raw
      simp [L1Line.unclean, raw, dirty]
    · simp [L1Line.unclean, raw]

/-- A core after an acquire step of core `c`, where one is made: its untracked lines are gone (R132). -/
def State.coreAfter (s : State) (c : Nat) (acquire : Bool) (k : Nat) : Core :=
  { s.core k with
    l1 := if k = c ∧ acquire = true then (s.core k).l1.filter (fun x => decide (x.st ≠ .raw)) else (s.core k).l1 }

theorem State.coreAfter_false (s : State) (c k : Nat) : s.coreAfter c false k = s.core k := by
  rw [State.coreAfter, if_neg fun h => Bool.false_ne_true h.2]

/-- An acquire step where no claim stands on a fetch and no untracked line is dirty: from `pkg` on, the core's untracked
lines go (R132). -/
theorem State.acquireStep_clean (fetch : s.coreNoFetch c) (clean : s.coreClean c) (scope k : Nat) :
    (s.acquireStep c scope).core k = s.coreAfter c (decide (3 ≤ scope)) k := by
  unfold State.acquireStep State.coreAfter
  by_cases narrow : scope < 3
  · rw [if_pos narrow, if_neg (by simp; omega)]
  · rw [if_neg narrow, State.modCore_eq, State.core_setCore]
    by_cases e : k = c
    · rw [if_pos e, if_pos ⟨e, by simp; omega⟩, e, State.refetchFor_none fetch, filter_unclean clean]
    · rw [if_neg e, if_neg fun h => e h.1, State.refetchFor_none fetch]

end

end Sys2Proof.Machine

namespace Sys2Proof.Machine

open Sys2Proof

/-! # FENCE, ecall and ebreak (R63 to R66) -/

/-! ## Scopes under the cap (R64, R324) -/

section
variable {s t : State}

theorem State.capScope_five (s : State) : s.capScope 5 = if s.capped s.myCtx = true then 2 else 5 :=
  if_congr (and_iff_left (by decide)) rfl rfl

/-- The cap of the thread in execution stays where its group and the partitions do. -/
theorem State.capped_of_frame {T : List Field} (f : Frame T s t) (gid : t.me.gid = s.me.gid)
    (g : Field.fGroups ∉ T := by decide) (p : Field.fParts ∉ T := by decide) (x : Field.fCtxs ∉ T := by decide) :
    t.capped t.myCtx = s.capped s.myCtx := by
  have grp : t.grp t.me.gid = s.grp s.me.gid := by rw [gid, State.grp, State.grp, f.groups g]
  show (t.part (t.ctx (t.grp t.me.gid).ctx).part).cap = (s.part (s.ctx (s.grp s.me.gid).ctx).part).cap
  rw [grp, State.part, State.part, State.ctx, State.ctx, f.parts p, f.ctxs x]

theorem State.capScope_of_frame {T : List Field} (f : Frame T s t) (gid : t.me.gid = s.me.gid) (scope : Nat)
    (g : Field.fGroups ∉ T := by decide) (p : Field.fParts ∉ T := by decide) (x : Field.fCtxs ∉ T := by decide) :
    t.capScope scope = s.capScope scope := by
  unfold State.capScope
  rw [State.capped_of_frame f gid g p x]

/-- A scope-clamp event changes event counts at most. -/
theorem State.clampCount_frame (s : State) (scope : Nat) : Frame [.fCores, .fDies] s (s.clampCount scope) :=
  Frame.ite ((Frame.refl _ s).countMe _) (Frame.refl _ s)

theorem State.thr_clampCount (s : State) (scope u : Nat) : (s.clampCount scope).thr u = s.thr u := by
  unfold State.clampCount
  split <;> rfl

theorem State.me_clampCount (s : State) (scope : Nat) : (s.clampCount scope).me = s.me := by
  unfold State.clampCount
  split <;> rfl

theorem State.core_clampCount (s : State) (scope k : Nat) :
    (s.clampCount scope).core k = { s.core k with pmc := ((s.clampCount scope).core k).pmc } := by
  unfold State.clampCount
  split
  · exact State.core_count ..
  · rfl

/-- An instruction that is not ready leaves its thread so. -/
theorem State.stoppedAt_notReady (s : State) (nb : BitVec 1) (c : OCode) (w : WakeCond) :
    s.me.stoppedAt (s.notReady nb c w).me nb c w := by
  unfold State.notReady Thread.stoppedAt
  split
  · rw [State.me_countMe, State.me_modMe]; rfl
  · rw [State.me_countMe, State.me_modMe]; rfl

end

/-! ## The ordering of a fence -/

section
variable {s : State}

/-- What a fence waits for (R64): its release step, and the core's side log. -/
def State.settled (s : State) : Prop := s.established s.cur (s.capScope 5) = true ∧ (s.core s.myCore).side = []

/-- The thread after the release step of a fence that is settled. -/
def Thread.fencedTrail (t : Thread) (w : Bool) (scope : Nat) : Thread :=
  if w = true then { t with trail := t.trailAfter scope } else t

/-- A fence whose steps are done, before it ends: what they leave of the threads. -/
structure Fenced (s : State) (w : Bool) (t : State) : Prop where
  frame : Frame [.fCores, .fThreads, .fWakeSeq, .fNet] s t
  others : ∀ u, u ≠ s.cur → t.thr u = s.thr u
  me : t.me = s.me.fencedTrail w (s.capScope 5)

/-- The release step of a fence, where W is in pred, leaves every core as it was. -/
theorem State.fenceRelease_settled (clean : s.clean) {w : Bool} (settled : w = true → s.settled) :
    ∃ q, (if w = true then s.releaseStep (s.capScope 5) else (s, true)) = (q, true) ∧
      Frame [.fCores, .fThreads] s q ∧ (∀ k, q.core k = s.core k) ∧ (∀ u, u ≠ s.cur → q.thr u = s.thr u) ∧
      q.me = s.me.fencedTrail w (s.capScope 5) := by
  unfold Thread.fencedTrail
  by_cases hw : w = true
  · obtain ⟨q, step, frame, core, others, me⟩ := State.releaseStep_clean clean (s.capScope 5)
    rw [(settled hw).1] at step me
    exact ⟨q, (if_pos hw).trans step, frame, core, others, me.trans (if_pos hw).symm⟩
  · exact ⟨s, if_neg hw, .refl _ s, fun _ => rfl, fun _ _ => rfl, (if_neg hw).symm⟩

theorem State.fenceStep_settled (clean : s.clean) {w r : Bool} (settled : w = true → s.settled) :
    ∃ t, s.fenceStep w r = (t, true) ∧ Fenced s w t ∧ (s.noFetch → t.net = s.net ∧
      ∀ k, t.core k = s.coreAfter s.myCore (r && decide (3 ≤ s.capScope 5)) k) := by
  obtain ⟨q, step, frame, core, others, me⟩ := State.fenceRelease_settled clean settled
  have drained : (!w || (s.core s.myCore).side.isEmpty) = true := by
    by_cases hw : w = true
    · rw [(settled hw).2]; exact Bool.or_true _
    · rw [eq_false_of_ne_true hw]; rfl
  have at_ : q.myCore = s.myCore := by
    show q.me.core = s.me.core
    rw [me, Thread.fencedTrail]
    split <;> rfl
  have acquire := q.acquireStep_frame q.myCore (s.capScope 5)
  refine ⟨if r = true then q.acquireStep q.myCore (s.capScope 5) else q, ?_, ⟨?_, fun u other => ?_, ?_⟩, fun fetch => ?_⟩
  · unfold State.fenceStep
    dsimp only
    rw [step, drained]
    rfl
  · exact Frame.ite ((frame.mono (by decide)).trans (acquire.mono (by decide))) (frame.mono (by decide))
  · split
    · rw [State.thr, acquire.threads]
      exact others u other
    · exact others u other
  · split
    · rw [State.me, State.thr, acquire.threads, acquire.cur]
      exact me
    · exact me
  · have fetch' : q.coreNoFetch s.myCore := by rw [State.coreNoFetch, core]; exact fetch
    have clean' : q.coreClean s.myCore := by rw [State.coreClean, core]; exact clean _ List.mem_cons_self
    rw [at_]
    cases r with
    | true =>
      refine ⟨(State.acquireStep_silent fetch' _).net.trans frame.net, fun k => ?_⟩
      show (q.acquireStep _ _).core k = _
      rw [State.acquireStep_clean fetch' clean', State.coreAfter, core]
      rfl
    | false => exact ⟨frame.net, fun k => (core k).trans (s.coreAfter_false _ k).symm⟩

theorem State.fenceStep_unsettled (clean : s.clean) (r : Bool) (waits : ¬ s.settled) :
    ∃ t, s.fenceStep true r = (t, false) ∧ Released s (s.capScope 5) t := by
  obtain ⟨t, step, released⟩ := State.releaseStep_clean clean (s.capScope 5)
  have no : (s.established s.cur (s.capScope 5) && (!true || (s.core s.myCore).side.isEmpty)) = false := by
    rw [Bool.not_true, Bool.false_or, Bool.and_eq_false_iff, ← Bool.not_eq_true, ← Bool.not_eq_true, List.isEmpty_iff]
    exact not_and_or.1 waits
  refine ⟨t, ?_, released⟩
  unfold State.fenceStep
  dsimp only
  rw [if_pos rfl, step, no]
  rfl

end

/-! ## FENCE -/

/-- An update of threads, cores, dies and the order of waits. -/
theorem Frame.eq_update {s t : State} (h : Frame [.fThreads, .fCores, .fDies, .fWakeSeq] s t) :
    t = { s with threads := t.threads, cores := t.cores, dies := t.dies, wakeSeq := t.wakeSeq } := by
  refine Frame.eq h ⟨fun f m => ?_⟩ fun f m => ?_
  · cases f <;> first | rfl | exact absurd (by decide) m
  · fin_cases m <;> rfl

theorem State.capScope_five_eq (s : State) : s.capScope 5 = 2 ∨ s.capScope 5 = 5 := by
  rw [State.capScope_five]
  split
  · exact .inl rfl
  · exact .inr rfl

section
variable {s : State} {i : Instr}

/-- A FENCE with no empty set goes by its ordering step (R63). -/
theorem State.fence_eq {pred succ : Nat} {w r : Bool} (hp : pred ≠ 0) (hs : succ ≠ 0)
    (hw : decide (pred % 2 = 1 ∨ pred / 4 % 2 = 1) = w) (hr : decide (succ / 2 % 2 = 1 ∨ succ / 8 % 2 = 1) = r) :
    s.fence pred succ = if (s.fenceStep w r).2 = true then
        ((s.fenceStep w r).1.clampCount 5).plain (fun t => if w = true then t.released else t)
      else (s.fenceStep w r).1.notReady 0 .nr (.fenced ((s.fenceStep w r).1.capScope 5)) := by
  subst hw hr
  exact if_neg (not_or.2 ⟨hp, hs⟩)

/-- A fence that is settled completes: its thread moves on, and the core's clean untracked lines go where it acquires from
`pkg` on (R63, R64, R132). -/
theorem State.fence_done {w r : Bool} {q : State} (fenced : Fenced s w q)
    (cores : q.net = s.net ∧ ∀ k, q.core k = s.coreAfter s.myCore (r && decide (3 ≤ s.capScope 5)) k) :
    let t := (q.clampCount 5).plain (fun t => if w = true then t.released else t)
    t = { s with threads := t.threads, cores := t.cores, dies := t.dies, wakeSeq := t.wakeSeq } ∧
    (∀ u, u ≠ s.cur → t.thr u = s.thr u) ∧
    (∀ k, t.core k = { s.coreAfter s.myCore (r && decide (3 ≤ s.capScope 5)) k with pmc := (t.core k).pmc }) ∧
    t.me = { s.me with pc := s.me.pc + 4, instret := s.me.instret + 1,
                       interval := if w = true then (s.me.interval + 1) % 2 ^ 20 else s.me.interval,
                       trail := if w = true then s.me.trailAfter (s.capScope 5) else s.me.trail } := by
  obtain ⟨frame, others, me⟩ := fenced
  obtain ⟨net, core⟩ := cores
  have silent : Frame [.fThreads, .fCores, .fDies, .fWakeSeq] s q := ⟨fun f m => by
    by_cases e : f = .fNet
    · rw [e]; exact net
    · exact frame.same f (by revert m e; cases f <;> decide)⟩
  refine ⟨?_, fun u other => ?_, fun k => ?_, ?_⟩
  · exact ((silent.trans ((State.clampCount_frame q 5).mono (by decide))).modMe _).eq_update
  · rw [State.plain, State.thr_modMe, (State.clampCount_frame q 5).cur, frame.cur, if_neg other, State.thr_clampCount]
    exact others u other
  · rw [← core k]
    exact State.core_clampCount q 5 k
  · rw [State.me_plain, State.me_clampCount, me, Thread.fencedTrail]
    cases w <;> rfl

/-- A fence that is not settled leaves its thread waiting for it, its trail ended where the release step is established
(R64). -/
theorem State.fence_waits {q : State} (released : Released s (s.capScope 5) q) :
    { s.me with trail := s.me.trailThen (s.established s.cur (s.capScope 5)) (s.capScope 5) }.stoppedAt
      (q.notReady 0 .nr (.fenced (q.capScope 5))).me 0 .nr (.fenced (s.capScope 5)) := by
  have gid : q.me.gid = s.me.gid := by rw [released.me]
  rw [← released.me, State.capScope_of_frame released.frame gid]
  exact q.stoppedAt_notReady _ _ _

end

/-! ## ecall and ebreak -/

section
variable {s q : State}

/-- The thread that an `ecall` or `ebreak` traps with, its fence settled (R65, R66). -/
theorem State.me_fenced_released (fenced : Fenced s true q) : ((q.clampCount 5).modMe Thread.released).me =
    { s.me with interval := (s.me.interval + 1) % 2 ^ 20, trail := s.me.trailAfter (s.capScope 5) } := by
  rw [State.me_modMe, State.me_clampCount, fenced.me]
  rfl

theorem State.trappedFrom_fenced (fenced : Fenced s true q) (issues : s.me.issues) (cls : TrapClass) (extra : Word) :
    (((q.clampCount 5).modMe Thread.released).trapMe cls 0 extra).me.trappedFrom
      { s.me with interval := (s.me.interval + 1) % 2 ^ 20, trail := s.me.trailAfter (s.capScope 5) } cls 0 extra s.ir := by
  have me := State.me_fenced_released fenced
  have ir : ((q.clampCount 5).modMe Thread.released).ir = s.ir := (State.clampCount_frame q 5).ir.trans fenced.frame.ir
  rw [← me, ← ir]
  refine State.trapMe_me _ cls 0 extra ?_
  rw [me]
  exact Thread.calm_of_issues issues

end

/-- Settles O8: both make the fence, and trap in the state that it leaves. -/
theorem systemTraps : Obligations.SystemTraps := by
  unfold Obligations.SystemTraps
  intro s issues scope released settled traps clean
  have five : s.capScope 5 = scope := s.capScope_five
  have done : settled → ∃ q, s.fenceStep true true = (q, true) ∧ Fenced s true q := fun h => by
    obtain ⟨q, step, fenced, -⟩ := State.fenceStep_settled clean (w := true) (r := true)
      (fun _ => by rw [State.settled, five]; exact h)
    exact ⟨q, step, fenced⟩
  have waits : ¬ settled → ∃ q, s.fenceStep true true = (q, false) ∧
      { s.me with trail := if s.established s.cur scope = true then s.me.trailAfter scope else s.me.trail }.stoppedAt
        (q.notReady 0 .nr (.fenced (q.capScope 5))).me 0 .nr (.fenced scope) := fun h => by
    obtain ⟨q, step, fenced⟩ := State.fenceStep_unsettled clean true (by rw [State.settled, five]; exact h)
    have stopped := State.fence_waits fenced
    rw [five] at stopped
    exact ⟨q, step, stopped⟩
  have trapped {q : State} (fenced : Fenced s true q) (cls : TrapClass) (extra : Word) :
      (((q.clampCount 5).modMe Thread.released).trapMe cls 0 extra).me.trappedFrom released cls 0 extra s.ir := by
    have h := State.trappedFrom_fenced fenced issues cls extra
    rwa [five] at h
  refine ⟨⟨fun h => ?_, fun h => ?_⟩, ⟨fun h => ?_, fun h => ?_⟩⟩
  · obtain ⟨q, step, fenced⟩ := done h
    have number : q.me.reg 15 = s.me.reg 15 := by rw [fenced.me]; rfl
    have run : exec .ecall s =
        .next (((q.clampCount 5).modMe Thread.released).trapMe .ecall 0 (s.me.reg 15)) := by
      rw [show exec .ecall s = execEcall s from rfl, execEcall, step, ← number]
      rfl
    exact ⟨_, run, trapped fenced _ _⟩
  · obtain ⟨q, step, stopped⟩ := waits h
    exact ⟨_, by rw [show exec .ecall s = execEcall s from rfl, execEcall, step]; rfl, stopped⟩
  · obtain ⟨q, step, fenced⟩ := done h
    exact ⟨_, by rw [show exec .ebreak s = execEbreak s from rfl, execEbreak, step]; rfl, trapped fenced _ _⟩
  · obtain ⟨q, step, stopped⟩ := waits h
    exact ⟨_, by rw [show exec .ebreak s = execEbreak s from rfl, execEbreak, step]; rfl, stopped⟩

end Sys2Proof.Machine

namespace Sys2Proof.Machine

open Sys2Proof

/-! # Releases that write dirty untracked lines back (R122, R132) -/

/-! ## The messages of a write-back -/

/-- What a core sends home for a line: the dirty bytes of an untracked one (R122). -/
def rawMessage (c : Nat) (x : L1Line) : Option Msg :=
  if x.st = .raw ∧ x.dirty ≠ 0#128 then
    some { src := c, dst := homeAgent x.home, line := x.line, kind := .rawWriteBack x.data x.dirty }
  else none

/-- A line whose dirty bytes are on their way home. -/
def L1Line.cleaned (x : L1Line) : L1Line := if x.st = .raw then { x with dirty := 0#128 } else x

def State.rawMessages (s : State) (c : Nat) : List Msg := (s.core c).l1.filterMap (rawMessage c)

/-- The state has sent messages, and every core reads as before. -/
structure SentHome (s : State) (ms : List Msg) (t : State) : Prop where
  frame : Frame [.fCores, .fWakeSeq, .fNet] s t
  net : t.net = s.net ++ ms
  core : ∀ k, t.core k = s.core k

section
variable {s t r : State} {c : Nat}

theorem SentHome.refl (s : State) : SentHome s [] s := ⟨.refl _ s, (List.append_nil _).symm, fun _ => rfl⟩

theorem SentHome.trans {a b : List Msg} (h : SentHome s a t) (k : SentHome t b r) : SentHome s (a ++ b) r :=
  ⟨h.frame.trans k.frame, by rw [k.net, h.net, List.append_assoc], fun n => (k.core n).trans (h.core n)⟩

theorem SentHome.coreNoFetch {ms : List Msg} (h : SentHome s ms t) (fetch : s.coreNoFetch c) : t.coreNoFetch c := by
  rwa [State.coreNoFetch, h.core]

/-- A core without claims on a fetch gives up a dirty untracked line with one message. -/
theorem State.giveUpLine_raw (fetch : s.coreNoFetch c) {x : L1Line} (raw : x.st = .raw) (dirty : x.dirty ≠ 0#128) :
    SentHome s [{ src := c, dst := homeAgent x.home, line := x.line, kind := .rawWriteBack x.data x.dirty }]
      (s.giveUpLine c x) := by
  have gives : giveUp x = some (.rawWriteBack x.data x.dirty) := by
    unfold giveUp
    rw [raw]
    exact if_neg dirty
  unfold State.giveUpLine
  rw [gives]
  dsimp only
  rw [if_pos raw, State.refetch_none (c := c) (s := s.send _) fetch]
  refine ⟨(((Frame.refl _ s).send _).withWakeSeq _).setCore _ _, rfl, fun k => ?_⟩
  rw [State.core_setCore]
  split
  · next e => exact e ▸ rfl
  · rfl

theorem State.giveUpLine_foldl_raw (l : List L1Line) (fetch : s.coreNoFetch c) :
    SentHome s (l.filterMap (rawMessage c))
      ((l.filter (fun x => decide (x.st = .raw ∧ x.dirty ≠ 0))).foldl (fun s x => s.giveUpLine c x) s) := by
  induction l generalizing s with
  | nil => exact .refl s
  | cons x l ih =>
    rw [List.filterMap_cons, List.filter_cons]
    by_cases h : x.st = .raw ∧ x.dirty ≠ 0#128
    · have first := State.giveUpLine_raw fetch h.1 h.2
      rw [rawMessage, if_pos h, if_pos (decide_eq_true (p := x.st = .raw ∧ x.dirty ≠ 0) h),
        List.foldl_cons]
      exact first.trans (ih (first.coreNoFetch fetch))
    · rw [rawMessage, if_neg h, if_neg (by simpa using h)]
      exact ih fetch

/-! ## The cores of a release -/

/-- The cores `cs` have sent their dirty untracked bytes home, and hold the lines as clean copies (R122). -/
structure WroteBack (s : State) (cs : List Nat) (t : State) : Prop where
  frame : Frame [.fCores, .fWakeSeq, .fNet] s t
  net : t.net = s.net ++ cs.flatMap s.rawMessages
  core : ∀ k, t.core k =
    { s.core k with l1 := if k ∈ cs then (s.core k).l1.map L1Line.cleaned else (s.core k).l1 }

theorem State.writeBackRaw_wroteBack (fetch : s.coreNoFetch c) : WroteBack s [c] (s.writeBackRaw c) := by
  have fetch' : (s.modCore c fun k => { k with l1 := k.l1.map L1Line.cleaned }).coreNoFetch c := by
    rw [State.coreNoFetch, State.modCore_eq, State.core_setCore, if_pos rfl]
    exact fetch
  have sent := State.giveUpLine_foldl_raw (s.core c).l1 fetch'
  have cleaned : Frame [.fCores, .fWakeSeq, .fNet] s (s.modCore c fun k => { k with l1 := k.l1.map L1Line.cleaned }) :=
    (Frame.refl _ s).modCore _ _
  refine ⟨cleaned.trans sent.frame, sent.net.trans ?_, fun k => (sent.core k).trans ?_⟩
  · rw [List.flatMap_singleton]
    rfl
  · rw [State.modCore_eq, State.core_setCore]
    by_cases e : k = c
    · rw [if_pos e, if_pos (List.mem_singleton.2 e), e]
    · rw [if_neg e, if_neg (by simpa using e)]

theorem State.writeBackRaw_foldl_wroteBack {cs : List Nat} (nodup : cs.Nodup) (fetch : ∀ k ∈ cs, s.coreNoFetch k) :
    WroteBack s cs (cs.foldl State.writeBackRaw s) := by
  induction cs generalizing s with
  | nil => exact ⟨.refl _ s, (List.append_nil _).symm, fun _ => rfl⟩
  | cons c cs ih =>
    obtain ⟨fresh, nodup⟩ := List.nodup_cons.1 nodup
    have first := State.writeBackRaw_wroteBack (fetch c List.mem_cons_self)
    have same {k : Nat} (other : k ≠ c) : (s.writeBackRaw c).core k = s.core k := by
      rw [first.core, if_neg (by simpa using other)]
    have apart {k : Nat} (m : k ∈ cs) : k ≠ c := fun e => fresh (e ▸ m)
    have rest := ih nodup fun k m => by
      rw [State.coreNoFetch, same (apart m)]
      exact fetch k (List.mem_cons_of_mem _ m)
    refine ⟨first.frame.trans rest.frame, ?_, fun k => ?_⟩
    · have later : cs.flatMap (s.writeBackRaw c).rawMessages = cs.flatMap s.rawMessages :=
        List.flatMap_congr fun k m => by rw [State.rawMessages, same (apart m)]; rfl
      rw [List.foldl_cons, rest.net, first.net, later, List.append_assoc, List.flatMap_cons, List.flatMap_cons,
        List.flatMap_nil, List.append_nil]
    · rw [List.foldl_cons, rest.core]
      by_cases e : k = c
      · subst e
        rw [if_neg fresh, if_pos List.mem_cons_self, first.core, if_pos List.mem_cons_self]
      · rw [same e]
        simp [e]

theorem WroteBack.me {cs : List Nat} (h : WroteBack s cs t) : t.me = s.me := by
  rw [State.me, State.thr, h.frame.threads, h.frame.cur]
  rfl

/-- A message of a write-back under way keeps the release step of the thread from being established (R132). -/
theorem WroteBack.not_established (h : WroteBack s s.me.places t) {k : Nat} (place : k ∈ s.me.places) {x : L1Line}
    (held : x ∈ (s.core k).l1) (raw : x.st = .raw) (dirty : x.dirty ≠ 0#128) (scope : Nat) :
    t.established t.cur scope = false := by
  have sent : { src := k, dst := homeAgent x.home, line := x.line, kind := .rawWriteBack x.data x.dirty } ∈ t.net := by
    rw [h.net, List.mem_append, List.mem_flatMap]
    exact .inr ⟨k, place, List.mem_filterMap.2 ⟨x, held, if_pos ⟨raw, dirty⟩⟩⟩
  have waits : t.fenced t.cur = false := by
    unfold State.fenced
    rw [Bool.and_eq_false_iff, Bool.not_eq_false', List.any_eq_true]
    refine .inr ⟨_, sent, ?_⟩
    show t.me.places.contains k = true
    rw [h.me]
    exact List.contains_iff_mem.2 place
  unfold State.established
  rw [waits, Bool.and_false, Bool.false_and]

/-- The release step of a thread whose cores hold dirty untracked lines writes them back, and is not established. -/
theorem State.releaseStep_unclean (unclean : s.unclean) {scope : Nat} (wide : 3 ≤ scope) :
    ∃ r, s.releaseStep scope = (r, false) ∧ WroteBack s s.me.places r := by
  obtain ⟨nodup, fetch, k, place, x, held, raw, dirty⟩ := unclean
  have back := State.writeBackRaw_foldl_wroteBack nodup fetch
  refine ⟨_, ?_, back⟩
  have open_ := back.not_established place held raw dirty scope
  rw [back.frame.cur] at open_
  unfold State.releaseStep
  dsimp only
  rw [if_neg (Nat.not_lt.2 wide), back.frame.cur, open_]
  rfl

/-! ## The instructions that release first -/

theorem State.core_notReady (s : State) (nb : BitVec 1) (c : OCode) (w : WakeCond) (k : Nat) :
    (s.notReady nb c w).core k = { s.core k with pmc := ((s.notReady nb c w).core k).pmc } := by
  unfold State.notReady
  split
  · exact State.core_count ..
  · exact State.core_count ..

theorem State.thr_notReady (s : State) (nb : BitVec 1) (c : OCode) (w : WakeCond) {u : Nat} (other : u ≠ s.cur) :
    (s.notReady nb c w).thr u = s.thr u := by
  unfold State.notReady
  split
  · rw [State.thr_countMe, State.thr_modMe, if_neg other]
  · rw [State.thr_countMe, State.thr_modMe, if_neg other]; rfl

theorem State.writesBackFirst_of {i : Instr} {nb : BitVec 1} {w : WakeCond} (back : WroteBack s s.me.places r)
    (e : exec i s = .next (r.notReady nb .nr w)) : s.writesBackFirst i nb w := by
  have frame := r.notReady_frame nb .nr w
  refine ⟨_, e, ⟨frame.net.trans back.net, fun k => ?_, frame.mem.trans back.frame.mem, frame.lm.trans back.frame.lm,
    fun u other => ?_⟩, back.me ▸ r.stoppedAt_notReady nb .nr w⟩
  · rw [State.core_notReady, back.core]
    rfl
  · rw [State.thr_notReady _ _ _ _ (back.frame.cur.symm ▸ other), State.thr, back.frame.threads]
    rfl

theorem State.capScope_uncapped (h : s.capped s.myCtx = false) (scope : Nat) : s.capScope scope = scope :=
  if_neg fun k => Bool.false_ne_true (h.symm.trans k.1)

theorem State.clampedWait_uncapped (h : s.capped s.myCtx = false) (scope : Nat) (nb : BitVec 1) (c : OCode) (w : WakeCond) :
    s.clampedWait scope nb c w = s.notReady nb c w := by
  have none : s.clampCount scope = s := if_neg fun k => Bool.false_ne_true (h.symm.trans k.1)
  rw [State.clampedWait, none, ite_self]

theorem WroteBack.capped {cs : List Nat} (h : WroteBack s cs t) : t.capped t.myCtx = s.capped s.myCtx :=
  State.capped_of_frame h.frame (by rw [h.me])

/-- The ordering of a fence begins with the write-backs. -/
theorem State.fenceStep_unclean (unclean : s.unclean) (free : s.capped s.myCtx = false) (r : Bool) :
    ∃ q, s.fenceStep true r = (q, false) ∧ WroteBack s s.me.places q ∧ q.capScope 5 = 5 := by
  obtain ⟨q, step, back⟩ := State.releaseStep_unclean unclean (scope := 5) (by decide)
  refine ⟨q, ?_, back, State.capScope_uncapped (back.capped.trans free) 5⟩
  unfold State.fenceStep
  rw [State.capScope_uncapped free]
  dsimp only
  rw [if_pos rfl, step]
  rfl

/-- An instruction that waits while its release step at a scope is not established. -/
theorem State.writesBackFirst_of_release (unclean : s.unclean) (free : s.capped s.myCtx = false) {scope : Nat}
    (wide : 3 ≤ scope) {i : Instr} {nb : BitVec 1}
    (e : ∀ r, s.releaseStep (s.capScope scope) = (r, false) →
      exec i s = .next (r.clampedWait scope nb .nr (.release (s.capScope scope)))) :
    s.writesBackFirst i nb (.release scope) := by
  obtain ⟨r, step, back⟩ := State.releaseStep_unclean unclean wide
  have same := State.capScope_uncapped free scope
  rw [same] at e
  exact State.writesBackFirst_of back ((e r step).trans (by rw [State.clampedWait_uncapped (back.capped.trans free)]))

/-! ## The forms that release -/

section
variable {x y d : BitVec 4} {scope : BitVec 3} {nb : BitVec 1}

theorem State.fnc_waits {kind : BitVec 2} (releases : kind ≠ 0) (step : s.releaseStep (s.capScope scope.toNat) = (r, false)) :
    exec (.fnc kind scope nb) s = .next (r.clampedWait scope.toNat nb .nr (.release (s.capScope scope.toNat))) := by
  show execFnc kind scope nb s = _
  unfold execFnc
  dsimp only
  rw [if_neg releases, step]
  rfl

theorem State.pstr_waits {width : BitVec 3} (aligned : (s.me.reg y).toNat % widthBytes width = 0)
    (step : s.releaseStep (s.capScope scope.toNat) = (r, false)) :
    exec (.pstr x y width scope nb) s = .next (r.clampedWait scope.toNat nb .nr (.release (s.capScope scope.toNat))) := by
  show execPstr x y width scope nb s = _
  unfold execPstr
  dsimp only
  rw [if_neg (not_not.2 aligned), step]
  rfl

theorem State.amo_waits {width : BitVec 1} {f : Nat → Nat → Nat → Nat → Nat} {always : Bool}
    (aligned : (s.me.reg x).toNat % (if width = 1 then 4 else 8) = 0)
    (step : s.releaseStep (s.capScope scope.toNat) = (r, false)) :
    s.amo d x y width scope nb f always = r.clampedWait scope.toNat nb .nr (.release (s.capScope scope.toNat)) := by
  unfold State.amo
  dsimp only
  rw [if_neg (not_not.2 aligned), step]
  rfl

end

end

/-- Settles O7: the ordering of a fence on clean cores is its release step, the side log and its acquire step; on dirty
ones every release that reaches the home begins with the write-backs. -/
theorem fenceCompletes : Obligations.FenceCompletes := by
  unfold Obligations.FenceCompletes
  intro s rd rs1 pred succ r a b width sp nb z c scope kept settled ordered hasW hasR
  have five : s.capScope 5 = scope := s.capScope_five
  have wide : (decide (3 ≤ s.capScope 5) = true) = (scope = 5) := by
    rw [five, decide_eq_true_eq]
    rcases s.capScope_five_eq with h | h <;> rw [← five, h] <;> simp
  have ordering {i : Instr} {w r : Bool} (clean : s.clean) (noFetch : s.noFetch)
      (e : exec i s = .next (if (s.fenceStep w r).2 = true then
          ((s.fenceStep w r).1.clampCount 5).plain (fun t => if w = true then t.released else t)
        else (s.fenceStep w r).1.notReady 0 .nr (.fenced ((s.fenceStep w r).1.capScope 5)))) : ordered i w r := by
    refine ⟨fun done => ?_, fun hw waits => ?_⟩
    · obtain ⟨q, step, fenced, cores⟩ := State.fenceStep_settled clean (r := r)
        (fun h => by rw [State.settled, five]; exact done h)
      obtain ⟨only, others, cores, me⟩ := State.fence_done fenced (cores noFetch)
      rw [step, if_pos rfl] at e
      rw [five] at me
      refine ⟨_, e, only, others, fun k => ?_, me⟩
      have lines : (s.coreAfter c (r && decide (3 ≤ s.capScope 5)) k).l1 = kept r k :=
        if_congr (by rw [Bool.and_eq_true, wide]) rfl rfl
      rw [← lines]
      exact cores k
    · subst hw
      obtain ⟨q, step, released⟩ := State.fenceStep_unsettled clean r (by rw [State.settled, five]; exact waits)
      have stopped := State.fence_waits released
      rw [step, if_neg Bool.false_ne_true] at e
      rw [five] at stopped
      exact ⟨_, e, stopped⟩
  have nonzero {x : BitVec 4} (h : x ≠ 0#4) : x.toNat ≠ 0 := fun e => h (BitVec.eq_of_toNat_eq e)
  have writes (x : BitVec 4) : decide (x.toNat % 2 = 1 ∨ x.toNat / 4 % 2 = 1) = hasW x := by revert x; decide
  have reads (x : BitVec 4) : decide (x.toNat / 2 % 2 = 1 ∨ x.toNat / 8 % 2 = 1) = hasR x := by revert x; decide
  have some_ {x : BitVec 4} : hasW x = true → x ≠ 0#4 := by rintro h rfl; exact absurd h (by decide)
  refine ⟨fun empty => ?_, fun clean noFetch hp hs => ?_, fun clean noFetch => ?_, fun unclean free => ?_⟩
  · refine State.yields_of_write (f := fun _ => 0) (congrArg _ (if_pos ?_))
    exact empty.imp (congrArg BitVec.toNat) (congrArg BitVec.toNat)
  · exact ordering clean noFetch (congrArg _ (State.fence_eq (nonzero hp) (nonzero hs) (writes pred) (reads succ)))
  · exact ordering clean noFetch
      (congrArg Host.Outcome.next (State.fence_eq (pred := 3) (succ := 3) (by decide) (by decide) rfl rfl))
  · have fence {i : Instr} {pred succ : Nat} {r : Bool} (hp : pred ≠ 0) (hs : succ ≠ 0)
        (hw : decide (pred % 2 = 1 ∨ pred / 4 % 2 = 1) = true) (hr : decide (succ / 2 % 2 = 1 ∨ succ / 8 % 2 = 1) = r)
        (e : exec i s = .next (s.fence pred succ)) : s.writesBackFirst i 0 (.fenced 5) := by
      obtain ⟨q, step, back, cap⟩ := State.fenceStep_unclean unclean free r
      refine State.writesBackFirst_of back (e.trans (congrArg _ ?_))
      rw [State.fence_eq hp hs hw hr, step, if_neg Bool.false_ne_true, cap]
    have call {i : Instr} (e : ∀ q, s.fenceStep true true = (q, false) →
        exec i s = .next (q.notReady 0 .nr (.fenced (q.capScope 5)))) : s.writesBackFirst i 0 (.fenced 5) := by
      obtain ⟨q, step, back, cap⟩ := State.fenceStep_unclean unclean free true
      exact State.writesBackFirst_of back ((e q step).trans (by rw [cap]))
    refine ⟨fun hs hp => fence (nonzero (some_ hp)) (nonzero hs) ((writes pred).trans hp) rfl rfl,
      fence (by decide) (by decide) rfl rfl rfl, call fun q step => ?_, call fun q step => ?_, fun wide => ?_⟩
    · rw [show exec .ecall s = execEcall s from rfl, execEcall, step]
      rfl
    · rw [show exec .ebreak s = execEbreak s from rfl, execEbreak, step]
      rfl
    · have rel {i : Instr} := State.writesBackFirst_of_release unclean free wide (i := i) (nb := nb)
      refine ⟨rel fun r step => ?_, rel fun r step => ?_, fun aligned => rel fun r step => ?_, fun aligned => ?_⟩
      · exact State.fnc_waits (by decide) step
      · exact State.fnc_waits (by decide) step
      · exact State.pstr_waits aligned step
      · have amo {i : Instr} {f : Nat → Nat → Nat → Nat → Nat} {always : Bool}
            (e : exec i s = .next (s.amo r a b z sp nb f always)) : s.writesBackFirst i nb (.release sp.toNat) :=
          rel fun r step => e.trans (congrArg _ (State.amo_waits aligned step))
        exact ⟨amo rfl, amo rfl, amo rfl, amo rfl, amo rfl, amo rfl, amo rfl, amo rfl, amo rfl, amo rfl⟩

end Sys2Proof.Machine

namespace Sys2Proof.Machine

open Sys2Proof

/-! # Loads from a local memory (R58, R60, R134, R136) -/

/-! ## The bytes of a load (R4, R33) -/

/-- The bytes of a memory as a bit vector, the lowest byte at the lowest address. -/
theorem ofNat_mload_succ (m : Memory) (b n k : Nat) :
    BitVec.ofNat (k + 8) (mload m b (n + 1)) = BitVec.ofNat k (mload m (b + 1) n) ++ mget m b := by
  apply BitVec.eq_of_toNat_eq
  have byte := (mget m b).isLt
  rw [BitVec.toNat_append, BitVec.toNat_ofNat, BitVec.toNat_ofNat, ← Nat.shiftLeft_add_eq_or_of_lt byte, Nat.shiftLeft_eq,
    mload, show 2 ^ (k + 8) = 256 * 2 ^ k by rw [pow_add]; omega]
  rw [Nat.mod_mul, show ((mget m b).toNat + 256 * mload m (b + 1) n) / 256 = mload m (b + 1) n by omega]
  omega

theorem ofNat_mload_one (m : Memory) (b : Nat) : BitVec.ofNat 8 (mload m b 1) = mget m b := by
  rw [mload, mload]
  exact BitVec.ofNat_toNat ..|>.trans (BitVec.setWidth_eq _)

theorem ofNat_mload_two (m : Memory) (b : Nat) : BitVec.ofNat 16 (mload m b 2) = mget m (b + 1) ++ mget m b := by
  rw [ofNat_mload_succ m b 1 8, ofNat_mload_one]

theorem ofNat_mload_four (m : Memory) (b : Nat) : BitVec.ofNat 32 (mload m b 4) =
    mget m (b + 3) ++ mget m (b + 2) ++ mget m (b + 1) ++ mget m b := by
  rw [ofNat_mload_succ m b 3 24, ofNat_mload_succ m (b + 1) 2 16, ofNat_mload_two]

theorem ofNat_mload_eight (m : Memory) (b : Nat) : BitVec.ofNat 64 (mload m b 8) =
    mget m (b + 7) ++ mget m (b + 6) ++ mget m (b + 5) ++ mget m (b + 4) ++
      mget m (b + 3) ++ mget m (b + 2) ++ mget m (b + 1) ++ mget m b := by
  rw [ofNat_mload_succ m b 7 56, ofNat_mload_succ m (b + 1) 6 48, ofNat_mload_succ m (b + 2) 5 40,
    ofNat_mload_succ m (b + 3) 4 32, ofNat_mload_four]

/-- The bytes of a width code, extended as it says (R33). -/
theorem extendLoad_mload (m : Memory) (b : Nat) (w : BitVec 3) :
    extendLoad w (mload m b (widthBytes w)) = loadedValue m b w := by
  unfold extendLoad loadedValue widthBytes
  have : w.toNat < 8 := w.isLt
  generalize w.toNat = k at this
  interval_cases k
  · exact congrArg (BitVec.signExtend 64) (ofNat_mload_one m b)
  · exact congrArg (BitVec.signExtend 64) (ofNat_mload_two m b)
  · exact congrArg (BitVec.signExtend 64) (ofNat_mload_four m b)
  · exact ofNat_mload_eight m b
  · exact congrArg (BitVec.setWidth 64) (ofNat_mload_one m b)
  · exact congrArg (BitVec.setWidth 64) (ofNat_mload_two m b)
  · exact congrArg (BitVec.setWidth 64) (ofNat_mload_four m b)
  · exact ofNat_mload_eight m b

/-! ## Accesses to a local memory -/

section
variable {s : State} {ea : Word} {n b : Nat}

/-- An address in a region other than paged memory does not lie there. -/
theorem State.region_paged (u : Nat) {a r x : Nat} (region : s.region u a = some (r, x)) (paged : inPaged a = true) :
    r = 9 := by
  have far : 0x100000000 ≤ a := by
    rw [inPaged, decide_eq_true_eq] at paged
    omega
  rw [State.region, if_neg (by omega), if_neg (by omega), if_pos paged, Option.some.injEq, Prod.mk.injEq] at region
  exact region.1.symm

theorem State.not_inPaged_of_span {write : Bool} (h : s.span s.cur ea n write = .lm b) : inPaged ea.toNat = false := by
  rw [Bool.eq_false_iff]
  intro paged
  unfold State.span at h
  dsimp only at h
  cases first : s.region s.cur ea.toNat with
  | none => rw [first] at h; exact nomatch h
  | some p =>
    obtain ⟨r, x⟩ := p
    have nine := State.region_paged s.cur first paged
    subst nine
    cases last : s.region s.cur ((ea.toNat + (n - 1)) % 2 ^ 64) with
    | none => rw [first, last] at h; exact nomatch h
    | some q =>
      rw [first, last] at h
      dsimp only at h
      rw [if_pos rfl] at h
      split at h <;> exact nomatch h

/-- An access to bytes of a local memory finds them, at any alignment that it does not ask of every class. -/
theorem State.attempt_lm {k : AKind} {align bytes : Nat} (h : s.span s.cur ea n k.writes = .lm b) :
    s.attempt k ea n align false bytes = .ok s (.lm b) := by
  unfold State.attempt
  rw [if_neg (by rw [State.not_inPaged_of_span h]; simp), h]

/-! ## Loads -/

/-- An operation on the thread in execution, in a state that reads as before, and a completion with RDY. -/
theorem State.completeP_modMe {s' : State} (same : Same [.fCores] s s') {f : Thread → Thread} (gid : (f s.me).gid = s.me.gid)
    (nb : BitVec 1) {t : State} (e : (s'.modMe f).completeP nb .rdy = t) :
    t = { s with threads := t.threads, cores := t.cores, groups := t.groups } ∧
    (∀ u, u ≠ s.cur → t.thr u = s.thr u) ∧ (∀ k, t.core k = s.core k) ∧ s.progressed t ∧
    t.me = (f s.me).completed nb .rdy := by
  subst e
  have me : (s'.modMe f).me = f s.me := by rw [State.me_modMe, same.me]
  obtain ⟨frame, others, progressed, done⟩ := (s'.modMe f).completeP_rdy_facts nb
  refine ⟨?_, fun u other => ?_, fun k => ?_, fun g => ?_, done.trans (by rw [me])⟩
  · refine Frame.eq (T := [.fThreads, .fCores, .fGroups]) (Frame.trans
      ((same.frame.mono (by decide)).modMe _) (frame.mono (by decide))) ⟨fun f m => ?_⟩ (fun f m => ?_)
    · cases f <;> first | rfl | exact absurd (by decide) m
    · fin_cases m <;> rfl
  · rw [others u (same.cur ▸ other), State.thr_modMe, same.cur, if_neg other, same.thr]
  · show tget Core.fresh _ k = _
    rw [frame.cores]
    exact same.core k
  · have grp (g : Nat) : (s'.modMe f).grp g = s.grp g := by
      show tget Group.fresh s'.groups g = _
      rw [same.frame.groups]
      rfl
    rw [progressed g, me, gid, grp]

theorem State.loads_of {i : Instr} {nb : BitVec 1} {rd : BitVec 4} {w : BitVec 3} {v : Nat} (unclaimed : s.unclaimed ea)
    (e : exec i s = .next (s.loaded rd ea (.lm b) w v nb)) : s.loads i nb rd (extendLoad w v) := by
  have gid : (s.me.setReg rd (extendLoad w v)).gid = s.me.gid := by unfold Thread.setReg; split <;> rfl
  obtain ⟨only, others, cores, progressed, me⟩ := State.completeP_modMe (s.endOp_unclaimed ea unclaimed)
    (f := fun t => { t.setReg rd (extendLoad w v) with bytes := none }) gid nb rfl
  refine ⟨_, e, only, others, cores, progressed, fun q => ?_, ?_⟩
  · refine (congrArg (Thread.reg · q) me).trans ((s.me.reg_setReg rd _ q).trans ?_)
    by_cases h : q = rd
    · subst h; simp
    · simp [h]
  · refine me.trans (.trans ?_
      (congrArg (fun r : Thread => { s.me.completed nb .rdy with regs := r.regs, bytes := none }) me.symm))
    unfold Thread.setReg
    split <;> rfl

/-- What the load of a width code does at a byte of a local memory (R60, R134). -/
structure State.LmLoad (s : State) (rd : BitVec 4) (ea : Word) (w : BitVec 3) (nb : BitVec 1) (b : Nat)
    (r : State × Option OCode) : Prop where
  whole : ea.toNat % widthBytes w = 0 → r = (s.loaded rd ea (.lm b) w (mload s.lm b (widthBytes w)) nb, some .rdy)
  byte : ea.toNat % widthBytes w ≠ 0 →
    let k := s.me.bytesDone.1
    let v := s.me.bytesDone.2 + 256 ^ k * (mget s.lm (b + k)).toNat
    r = if k + 1 < widthBytes w then (s.byteMade k v, none) else (s.loaded rd ea (.lm b) w v nb, some .rdy)

theorem State.lmLoad_loadRes {rd : BitVec 4} {w : BitVec 3} {nb : BitVec 1}
    (h : s.span s.cur ea (widthBytes w) false = .lm b) : s.LmLoad rd ea w nb b (s.loadRes rd ea w nb) := by
  have ok := State.attempt_lm (k := .load) (align := widthBytes w) (bytes := allBytes (widthBytes w)) h
  constructor
  · intro aligned
    unfold State.loadRes
    dsimp only
    rw [ok]
    simp only [Spot.misaligned, aligned, ne_eq, not_true, if_false]
    rfl
  · intro misaligned
    unfold State.loadRes
    dsimp only
    rw [ok]
    simp only [Spot.misaligned, misaligned, ne_eq, not_false_iff, if_true]
    rfl

theorem State.reads_of {i : Instr} {rd : BitVec 4} {w : BitVec 3} {nb : BitVec 1} {r : State × Option OCode}
    (unclaimed : s.unclaimed ea) (load : s.LmLoad rd ea w nb b r)
    (e : r.2 = none ∨ r.2 = some .rdy → exec i s = .next r.1) :
    (ea.toNat % widthBytes w = 0 → s.loads i nb rd (loadedValue s.lm b w)) ∧
      (ea.toNat % widthBytes w ≠ 0 → s.loadsByte i nb rd w (widthBytes w) b) := by
  refine ⟨fun aligned => ?_, fun misaligned => ⟨fun more => ?_, fun last => ?_⟩⟩
  · obtain rfl := load.whole aligned
    rw [← extendLoad_mload]
    exact State.loads_of unclaimed (e (.inr rfl))
  · have byte := (load.byte misaligned).trans (if_pos more)
    subst byte
    exact ⟨_, e (.inl rfl), s.onlyMe_setThr _, s.me_modMe _⟩
  · have byte := (load.byte misaligned).trans (if_neg (Nat.not_lt.2 last))
    subst byte
    exact State.loads_of unclaimed (e (.inr rfl))

end

/-- Settles O9: each form makes the access of its width (R58), and a fused probe whose access is RDY, or has bytes left to
read, does not branch. -/
theorem loadsFromWindow : Obligations.LoadsFromWindow := by
  unfold Obligations.LoadsFromWindow
  intro s rd rs1 imm off width nb b
  have load {i : Instr} {ea : Word} (w : BitVec 3) {nb : BitVec 1} (e : exec i s = .next (s.loadOp rd ea w nb))
      (h : s.span s.cur ea (widthBytes w) false = .lm b) (unclaimed : s.unclaimed ea) :=
    State.reads_of unclaimed (State.lmLoad_loadRes (rd := rd) (nb := nb) h) fun _ => e
  have fused (h : s.span s.cur (s.me.reg rs1) (widthBytes width) false = .lm b) (unclaimed : s.unclaimed (s.me.reg rs1)) :=
    State.reads_of (i := .pldBr rd rs1 off width) unclaimed (State.lmLoad_loadRes (rd := rd) (nb := 1) h) fun ends => by
      show Host.Outcome.next (fuse s.me.pc off _) = _
      unfold fuse
      rcases ends with none | rdy
      · rw [none]
      · rw [rdy]
  exact ⟨load 0 rfl, load 1 rfl, load 2 rfl, load 3 rfl, load 4 rfl, load 5 rfl, load 6 rfl, load width rfl, fused⟩

end Sys2Proof.Machine

namespace Sys2Proof.Machine

open Sys2Proof

/-! # Memory errors, repairs and accesses of a Lantern core (R370, R389, R398, R407, R408, R426) -/

section
variable {s : State}

/-! ## Poisoned lines (R407) -/

/-- What spoiled words of a line leave: canonical memory, and the bytes of every other line. -/
structure Spoiled (line : Nat) (s t : State) : Prop where
  frame : Frame [.fMem, .fClockFree] s t
  wf : Memory.wf s.mem = true → Memory.wf t.mem = true
  other : Memory.wf s.mem = true → ∀ a, a / 128 ≠ line → mget t.mem a = mget s.mem a

theorem Spoiled.refl (line : Nat) (s : State) : Spoiled line s s := ⟨.refl _ s, id, fun _ _ _ => rfl⟩

theorem Spoiled.trans {line : Nat} {t r : State} (h : Spoiled line s t) (k : Spoiled line t r) : Spoiled line s r :=
  ⟨h.frame.trans k.frame, fun wf => k.wf (h.wf wf), fun wf a out => (k.other (h.wf wf) a out).trans (h.other wf a out)⟩

theorem Spoiled.foldl {line : Nat} {f : State → Nat → State} {l : List Nat}
    (h : ∀ s, ∀ i ∈ l, Spoiled line s (f s i)) (s : State) : Spoiled line s (l.foldl f s) := by
  induction l generalizing s with
  | nil => exact .refl line s
  | cons i l ih =>
    exact (h s i List.mem_cons_self).trans (ih (fun s k m => h s k (List.mem_cons_of_mem _ m)) _)

theorem State.spoilLine_spoiled (line : Nat) (s : State) : Spoiled line s (s.spoilLine line) := by
  unfold State.spoilLine
  refine Spoiled.foldl (fun s i m => ?_) s
  have inside : i < 16 := List.mem_range.1 m
  have written := (Frame.refl [.fMem, .fClockFree] s).withMem
    (mstore s.mem (128 * line + 8 * i) (Config.freeValue s.clockFree).toNat 8)
  exact ⟨written.withClockFree (s.clockFree + 1), Memory.wf_mstore _ _ _,
    fun wf a out => mget_mstore_out _ _ _ _ wf (by omega)⟩

/-- An uncorrectable error poisons its line, and no other byte changes (R61, R407). -/
theorem State.softError_uncorrectable (wf : Memory.wf s.mem = true) (pa : Nat) :
    ∃ t, exec (.softError pa false) s = .next t ∧ pa / 128 ∈ t.poison ∧ (∀ l ∈ s.poison, l ∈ t.poison) ∧
      (∀ a, a / 128 ≠ pa / 128 → mget t.mem a = mget s.mem a) ∧ t.threads = s.threads ∧ t.cores = s.cores := by
  have spoiled := s.spoilLine_spoiled (pa / 128)
  have run : exec (.softError pa false) s = .next { s.spoilLine (pa / 128) with
      poison := if (s.spoilLine (pa / 128)).poison.contains (pa / 128) then (s.spoilLine (pa / 128)).poison
        else pa / 128 :: (s.spoilLine (pa / 128)).poison } := rfl
  generalize s.spoilLine (pa / 128) = q at spoiled run
  have kept : q.poison = s.poison := spoiled.frame.poison
  refine ⟨_, run, ?_, fun l m => ?_, spoiled.other wf, spoiled.frame.threads, spoiled.frame.cores⟩
  · show _ ∈ if _ then _ else _
    split
    · next known => exact List.contains_iff_mem.1 known
    · exact List.mem_cons_self
  · show _ ∈ if _ then _ else _
    rw [← kept] at m
    split
    · exact m
    · exact List.mem_cons_of_mem _ m

/-! ## Spare rows and vaults (R407) -/

theorem State.holdVault_le (s : State) (key limit : Nat) : ∃ n, n ≤ limit ∧ s.holdVault key limit =
    { s with clockFree := s.clockFree + 1, heldUntil := tset s.heldUntil key (s.gtick + n) } :=
  ⟨_, Nat.le_of_lt_succ (Nat.mod_lt _ limit.succ_pos), rfl⟩

theorem State.rowSparing_new {d v row : Nat} (hd : d < 4) (hv : v < 64) (new : (d, v, row) ∉ s.sparedRows) :
    ∃ n, n ≤ 50000 ∧ exec (.rowSparing d v row) s = .next { s with
      sparedRows := s.sparedRows ++ [(d, v, row)], clockFree := s.clockFree + 1,
      heldUntil := tset s.heldUntil (d * 64 + v) (s.gtick + n) } := by
  obtain ⟨n, le, held⟩ :=
    State.holdVault_le { s with sparedRows := s.sparedRows ++ [(d, v, row)] } (d * 64 + v) 50000
  refine ⟨n, le, ?_⟩
  show execRowSparing d v row s = _
  rw [execRowSparing, if_pos ⟨hd, hv, by simpa using new⟩, held]

theorem State.vaultRecalibration_due {d v : Nat} (hd : d < 4) (hv : v < 64)
    (due : ∀ x ∈ s.hold, x.1 = d * 64 + v → x.2 + 100000000 ≤ s.gtick) :
    ∃ n, n ≤ 10000 ∧ exec (.vaultRecalibration d v) s = .next { s with
      hold := tset s.hold (d * 64 + v) s.gtick, clockFree := s.clockFree + 1,
      heldUntil := tset s.heldUntil (d * 64 + v) (s.gtick + n) } := by
  obtain ⟨n, le, held⟩ := State.holdVault_le { s with hold := tset s.hold (d * 64 + v) s.gtick } (d * 64 + v) 10000
  have recent : s.hold.any (fun x => decide (x.1 = d * 64 + v ∧ s.gtick < x.2 + 100000000)) = false := by
    rw [List.any_eq_false]
    intro x m
    simpa using due x m
  refine ⟨n, le, ?_⟩
  show execVaultRecalibration d v s = _
  unfold execVaultRecalibration
  dsimp only
  rw [if_pos ⟨hd, hv, by rw [recent]; rfl⟩, held]

/-- The copy into the die's spare vault begins where nothing holds it. -/
theorem State.vaultSparing_begins {d v : Nat} (hd : d < 4) (hv : v < 64)
    (held : s.sparedVault.find? (fun x => decide (x.1 = d)) = none) :
    exec (.vaultSparing d v false) s = .next { s with sparedVault := tset s.sparedVault d (v, false) } := by
  show execVaultSparing d v false s = _
  unfold execVaultSparing
  rw [held]
  exact if_neg (show ¬ (4 ≤ d ∨ 64 ≤ v) by omega)

/-- A vault whose copy has begun is switched to the spare one. -/
theorem State.vaultSparing_switches {d v : Nat} (hd : d < 4) (hv : v < 64)
    (held : s.sparedVault.find? (fun x => decide (x.1 = d)) = some (d, v, false)) :
    exec (.vaultSparing d v true) s = .next { s with sparedVault := tset s.sparedVault d (v, true) } := by
  show execVaultSparing d v true s = _
  unfold execVaultSparing
  rw [held]
  exact (if_neg (show ¬ (4 ≤ d ∨ 64 ≤ v) by omega)).trans (if_pos rfl)

/-- A second failing vault takes its partition unit out of service. -/
theorem State.vaultSparing_second {d v w : Nat} {b : Bool} (hd : d < 4) (hv : v < 64)
    (held : s.sparedVault.find? (fun x => decide (x.1 = d)) = some (d, w, b)) (other : w ≠ v) :
    exec (.vaultSparing d v false) s = .next { s with units := (8 * d + v / 8) :: s.units } := by
  show execVaultSparing d v false s = _
  unfold execVaultSparing
  rw [held]
  exact (if_neg (show ¬ (4 ≤ d ∨ 64 ≤ v) by omega)).trans (if_neg other)

/-! ## Retired cores (R408) -/

theorem State.coreRetire_free {c : Nat} (hc : c < 1024) (serves : (s.core c).retired = false)
    (free : ∀ q, q / 8 = c / 8 → s.groupOn q = none) :
    exec (.coreRetire c) s = .next (s.modCore c (fun k => { k with retired := true })) := by
  have none : (List.range 8).any (fun p => (s.groupOn (8 * (c / 8) + p)).isSome) = false := by
    rw [List.any_eq_false]
    intro p m
    have := List.mem_range.1 m
    rw [free _ (by omega)]
    exact Bool.false_ne_true
  show execCoreRetire c s = _
  unfold execCoreRetire
  dsimp only [coreForme]
  rw [serves, none, if_neg (by simp; omega)]

theorem State.core_modCore (s : State) (c : Nat) (f : Core → Core) :
    (s.modCore c f).core c = f (s.core c) ∧ ∀ k, k ≠ c → (s.modCore c f).core k = s.core k := by
  rw [State.modCore_eq]
  exact ⟨by rw [State.core_setCore, if_pos rfl], fun k other => by rw [State.core_setCore, if_neg other]⟩

/-! ## Memory at the home (R426) -/

section
variable {pa size : Nat}

theorem linesOf_one (h : pa / 128 = (pa + size - 1) / 128) : linesOf pa size = [pa / 128] := by
  rw [linesOf, ← h, Nat.sub_self]
  rfl

theorem linesOf_lanternReach (h : lanternReach pa size = true) : linesOf pa size = [pa / 128] := by
  refine linesOf_one ?_
  simp only [lanternReach, hostReach, Bool.or_eq_true, Bool.and_eq_true, decide_eq_true_eq] at h
  rcases h with ⟨⟨-, -, one⟩, -⟩ | ⟨⟨-, -, one⟩, -⟩
  · exact one
  · exact one

/-- A read at the home of a line that nothing holds changes nothing. -/
theorem State.homeRead_idle (one : linesOf pa size = [pa / 128]) (idle : (s.entry (pa / 128)).st = .i) :
    s.homeRead pa size = (s, mload s.mem pa size) := by
  have none : s.recallShare (pa / 128) = s := by
    unfold State.recallShare
    dsimp only
    rw [idle]
  rw [State.homeRead, one]
  simp only [List.foldl_cons, List.foldl_nil, none]

/-- A write at the home of a line without holders changes its bytes of memory. -/
theorem State.homeWrite_mem_alone (one : linesOf pa size = [pa / 128]) (alone : (s.entry (pa / 128)).holders = [])
    (v : Nat) : (s.homeWrite pa size v).mem = mstore s.mem pa v size := by
  have cores : (s.entry (pa / 128)).cores = [] := by
    rw [DirEntry.cores, alone]
    exact ite_self _
  have kept : (s.recallAll (pa / 128)).mem = s.mem := by
    unfold State.recallAll State.setEntry
    dsimp only
    rw [cores, List.foldl_nil]
    split <;> rfl
  rw [State.homeWrite, one]
  simp only [List.foldl_cons, List.foldl_nil, ← kept]
  rfl

theorem State.answers_homeWrite (s : State) (pa n v : Nat) : (s.homeWrite pa n v).answers = s.answers :=
  (s.homeWrite_frame pa n v).answers

/-- The answer that a Lantern core gets to an access. -/
def State.lanternAnswer (s : State) (pa v : Nat) : State :=
  { s with answers := s.answers ++ [{ what := 1, addr := pa, data := [BitVec.ofNat 64 v] }] }

variable {val : Word}

theorem State.lantern_read (plain : inRegister pa size = false)
    (home : (lanternReach pa size && s.ioReaches pa && s.quietAll pa size) = true)
    (read : s.homeRead pa size = (s, mload s.mem pa size)) :
    exec (.lanternCoreAccess 0 pa size val) s = .next (s.lanternAnswer pa (mload s.mem pa size)) := by
  show execLanternCoreAccess 0 pa size val s = _
  unfold execLanternCoreAccess
  dsimp only
  rw [plain, home, read]
  rfl

theorem State.lantern_write (plain : inRegister pa size = false)
    (home : (lanternReach pa size && s.ioReaches pa && s.quietAll pa size) = true) :
    exec (.lanternCoreAccess 1 pa size val) s = .next (s.homeWrite pa size val.toNat) := by
  show execLanternCoreAccess 1 pa size val s = _
  unfold execLanternCoreAccess
  dsimp only
  rw [plain, home]
  rfl

theorem State.lantern_amo {k : Nat} (three : 3 ≤ k) (known : k ≤ 11)
    (home : (lanternReach pa size && s.ioReaches pa && s.quietAll pa size) = true)
    (read : s.homeRead pa size = (s, mload s.mem pa size)) (width : size = 4 ∨ size = 8) (aligned : pa % size = 0) :
    exec (.lanternCoreAccess k pa size val) s = .next ((s.homeWrite pa size
      (lanternAmo (k - 3) (8 * size) (mload s.mem pa size) (val.toNat % 2 ^ (8 * size)))).lanternAnswer pa
        (mload s.mem pa size)) := by
  show execLanternCoreAccess k pa size val s = _
  unfold execLanternCoreAccess
  split
  · omega
  · omega
  · omega
  · rw [if_pos ⟨home, known, width, aligned⟩, read]
    rfl

end

/-! ## Device registers (R370, R389, R398) -/

section
variable {d off pa : Nat}

theorem regOf_service (hd : d < 4) (small : off < 0x1000000) (e : pa = 0x8000000000 + d * 0x1000000 + off) :
    regOf pa = .service d off := by
  subst e
  rw [regOf, if_pos (by omega), show (0x8000000000 + d * 0x1000000 + off - 0x8000000000) / 0x1000000 = d by omega,
    show (0x8000000000 + d * 0x1000000 + off) % 0x1000000 = off by omega]

theorem regOf_power (small : off < 0x1000) (e : pa = 0x8041000000 + off) : regOf pa = .power off := by
  subst e
  rw [regOf, if_neg (by omega), if_neg (by omega), if_pos (by omega), Nat.add_sub_cancel_left]

theorem inRegister_aligned (low : 0x8000000000 ≤ pa) (high : pa < sramBase) (aligned : pa % 8 = 0) :
    inRegister pa 8 = true := by
  rw [sramBase] at high
  have device : paClass pa = .device := by rw [paClass, if_neg (by omega), if_pos (by omega)]
  have outside : inSram pa = false := decide_eq_false (by rw [sramBase]; omega)
  rw [inRegister, device, outside, decide_eq_true (show 1 ≤ 8 ∧ pa / 8 = (pa + 8 - 1) / 8 by omega)]
  rfl

/-- A register that asks for a power state (R398). -/
theorem State.powerRead_preq (hd : d < 4) : s.powerRead (0x10 + 8 * d) = (s.dpow d).preq := by
  unfold State.powerRead
  dsimp only
  rw [if_neg (by omega), if_pos (by omega), show (0x10 + 8 * d - 0x10) / 8 = d by omega]

theorem State.powerWrite_parkctl (hd : d < 4) (v : Nat) : s.powerWrite (0x50 + 8 * d) v = s.parkWrite d v := by
  unfold State.powerWrite
  rw [if_neg (by omega), if_neg (by omega), if_pos (by omega), show (0x50 + 8 * d - 0x50) / 8 = d by omega]

/-- A power register that is read-only, or that the table does not list, ignores a write (R398). -/
theorem State.powerWrite_ignored (h : 0x30 ≤ off ∧ off < 0x50 ∨ 0x70 ≤ off) (v : Nat) : s.powerWrite off v = s := by
  unfold State.powerWrite
  rw [if_neg (by omega), if_neg (by omega), if_neg (by omega)]

end

section
variable {pa : Nat} {val : Word}

theorem State.lantern_readRegister (low : 0x8000000000 ≤ pa) (high : pa < sramBase) (aligned : pa % 8 = 0) {n : Nat}
    (read : s.deviceRead pa = n) : exec (.lanternCoreAccess 0 pa 8 val) s = .next (s.lanternAnswer pa n) := by
  have whole : pa / 8 * 8 = pa := by omega
  have value : BitVec.ofNat 64 (n / 2 ^ (8 * (pa % 8)) % 2 ^ (8 * 8)) = BitVec.ofNat 64 n := by
    rw [aligned, Nat.mul_zero, pow_zero, Nat.div_one]
    exact BitVec.eq_of_toNat_eq (by simp)
  show execLanternCoreAccess 0 pa 8 val s = _
  unfold execLanternCoreAccess
  dsimp only
  rw [inRegister_aligned low high aligned, if_pos rfl, whole, read, value]
  rfl

/-- What a Lantern core's write of 8 bytes writes to a register: its value, below what the register has beyond 64 bits. -/
theorem State.lantern_writeRegister (low : 0x8000000000 ≤ pa) (high : pa < sramBase) (aligned : pa % 8 = 0) {t : State}
    (write : ∀ h, s.deviceWrite pa (val.toNat + 2 ^ 64 * h) = some t) :
    exec (.lanternCoreAccess 1 pa 8 val) s = .next t := by
  have whole : pa / 8 * 8 = pa := by omega
  have value (n : Nat) : n % 2 ^ (8 * (pa % 8)) + 2 ^ (8 * (pa % 8)) * (val.toNat % 2 ^ (8 * 8)) +
      2 ^ (8 * (pa % 8)) * 2 ^ (8 * 8) * (n / (2 ^ (8 * (pa % 8)) * 2 ^ (8 * 8))) =
        val.toNat + 2 ^ 64 * (n / 2 ^ 64) := by
    rw [aligned, Nat.mul_zero, pow_zero, Nat.mod_one, Nat.zero_add, Nat.one_mul, Nat.one_mul,
      Nat.mod_eq_of_lt (by exact val.isLt)]
  show execLanternCoreAccess 1 pa 8 val s = _
  unfold execLanternCoreAccess
  dsimp only
  rw [inRegister_aligned low high aligned, if_pos rfl, whole, value, write]
  rfl

/-- A write of `parkctl` of a die that is out or unparking sets its bits alone (R398). -/
theorem State.parkWrite_waiting {d : Nat} (waits : (s.dpow d).park = .out ∨ (s.dpow d).park = .unparking) (h : Nat) :
    s.parkWrite d (val.toNat + 2 ^ 64 * h) =
      s.modDpow d (fun p => { p with parkBit := val.getLsbD 0, drainBit := val.getLsbD 1 }) := by
  have park : decide ((val.toNat + 2 ^ 64 * h) % 2 = 1) = val.getLsbD 0 := by
    rw [BitVec.getLsbD, Nat.testBit_zero]
    congr 1
    exact propext (by omega)
  have drain : decide ((val.toNat + 2 ^ 64 * h) / 2 % 2 = 1) = val.getLsbD 1 := by
    rw [BitVec.getLsbD, Nat.testBit_succ, Nat.testBit_zero]
    congr 1
    exact propext (by omega)
  unfold State.parkWrite
  dsimp only
  rw [park, drain]
  rcases waits with out | unparking
  · rw [out]
  · rw [unparking]

end

/-! ## What the AMOs of a Lantern core leave (R426) -/

theorem mload_lt (m : Memory) (a n : Nat) : mload m a n < 2 ^ (8 * n) := by
  induction n generalizing a with
  | zero => exact Nat.one_pos
  | succ n ih =>
    have byte := (mget m a).isLt
    have rest := ih (a + 1)
    rw [mload, show 2 ^ (8 * (n + 1)) = 256 * 2 ^ (8 * n) by rw [Nat.mul_succ, pow_add]; omega]
    omega

end

/-- Settles O55: each event is its model's branch for the states named; an access of a Lantern core is one at the home of a
line that nothing holds, or goes to the register at its address. -/
theorem memoryCare : Obligations.MemoryCare := by
  unfold Obligations.MemoryCare
  intro s ok
  have wf : Memory.wf s.mem = true := by
    rw [State.memOk, Bool.and_eq_true, Bool.and_eq_true] at ok
    exact ok.1.1
  refine ⟨fun pa => ⟨State.softError_uncorrectable wf pa, _, _, rfl, rfl, rfl⟩, fun d v row hd hv => ?_, fun c hc => ?_,
    fun pa size val reach plain quiet io idle alone => ?_, fun _ _ => rfl, fun val => ?_⟩
  · exact ⟨State.rowSparing_new hd hv, State.vaultRecalibration_due hd hv, State.vaultSparing_begins hd hv,
      State.vaultSparing_switches hd hv, fun w b => State.vaultSparing_second hd hv⟩
  · have changed (f : Core → Core) := s.core_modCore c f
    exact ⟨fun serves free => ⟨_, State.coreRetire_free hc serves free, rfl, changed _⟩,
      fun retired => ⟨_, if_pos retired, rfl, changed _⟩⟩
  · have one := linesOf_lanternReach reach
    have home : (lanternReach pa size && s.ioReaches pa && s.quietAll pa size) = true := by rw [reach, io, quiet]; rfl
    have read := State.homeRead_idle one idle
    refine ⟨⟨_, State.lantern_read plain home read, rfl⟩,
      ⟨_, State.lantern_write plain home, State.homeWrite_mem_alone one alone _, s.answers_homeWrite _ _ _⟩,
      fun width aligned => ?_⟩
    intro b amo
    have old_lt : mload s.mem pa size < 2 ^ (8 * size) := mload_lt _ _ _
    have b_lt : b < 2 ^ (8 * size) := Nat.mod_lt _ (Nat.two_pow_pos _)
    have leaves {k new : Nat} (three : 3 ≤ k) (known : k ≤ 11)
        (value : lanternAmo (k - 3) (8 * size) (mload s.mem pa size) b = new) : amo k new :=
      ⟨_, State.lantern_amo three known home read width aligned,
        value ▸ State.homeWrite_mem_alone one alone _, congrArg (· ++ _) (s.answers_homeWrite _ _ _)⟩
    exact ⟨leaves (by decide) (by decide) rfl,
      leaves (by decide) (by decide) (Nat.mod_eq_of_lt (Nat.and_lt_two_pow _ b_lt)),
      leaves (by decide) (by decide) (Nat.mod_eq_of_lt (Nat.or_lt_two_pow old_lt b_lt)),
      leaves (by decide) (by decide) (Nat.mod_eq_of_lt (Nat.xor_lt_two_pow old_lt b_lt)),
      leaves (by decide) (by decide) (Nat.mod_eq_of_lt (Nat.lt_of_le_of_lt (Nat.min_le_left _ _) old_lt)),
      leaves (by decide) (by decide) (Nat.mod_eq_of_lt (Nat.max_lt.2 ⟨old_lt, b_lt⟩)),
      leaves (by decide) (by decide) (Nat.mod_eq_of_lt b_lt)⟩
  · have power {off : Nat} (small : off < 0x1000) : regOf (0x8041000000 + off) = .power off := regOf_power small rfl
    have register {pa : Nat} (low : 0x8000000000 ≤ pa) (high : pa < 0xFFFF000000) (aligned : pa % 8 = 0) {n : Nat}
        (read : s.deviceRead pa = n) : exec (.lanternCoreAccess 0 pa 8 val) s = .next (s.lanternAnswer pa n) :=
      State.lantern_readRegister low high aligned read
    have ignored {pa : Nat} (low : 0x8000000000 ≤ pa) (high : pa < 0xFFFF000000) (aligned : pa % 8 = 0)
        (write : ∀ v, s.deviceWrite pa v = some s) : exec (.lanternCoreAccess 1 pa 8 val) s = .next s :=
      State.lantern_writeRegister low high aligned fun _ => write _
    have unlisted {off : Nat} (small : off < 0x1000) (h : 0x30 ≤ off ∧ off < 0x50 ∨ 0x70 ≤ off) (v : Nat) :
        s.deviceWrite (0x8041000000 + off) v = some s := by
      rw [State.deviceWrite, power small]
      exact congrArg some (State.powerWrite_ignored h v)
    refine ⟨register (by decide) (by decide) rfl rfl, fun d hd => ⟨fun off written => ?_, ?_, ?_, fun waits => ?_, ?_, ?_⟩,
      ignored (by decide) (by decide) rfl (unlisted (off := 0x70) (by decide) (.inr (by decide))),
      ignored (by decide) (by decide) rfl (unlisted (off := 0x100) (by decide) (.inr (by decide)))⟩
    · have service : regOf (0x8000000000 + d * 0x1000000 + off) = .service d off := regOf_service hd (by omega) rfl
      refine register (by omega) (by omega) (by omega) ?_
      rw [State.deviceRead, service]
      rcases written with rfl | rfl | rfl | rfl
      · rfl
      · rfl
      · rfl
      · rfl
    · refine register (by omega) (by omega) (by omega) ?_
      rw [State.deviceRead, regOf_service (off := 0x20) hd (by decide) (by omega)]
      rfl
    · refine register (by omega) (by omega) (by omega) ?_
      rw [State.deviceRead, regOf_power (off := 0x10 + 8 * d) (by omega) (by omega)]
      exact State.powerRead_preq hd
    · refine State.lantern_writeRegister (by omega) (by rw [sramBase]; omega) (by omega) fun h => ?_
      rw [State.deviceWrite, regOf_power (off := 0x50 + 8 * d) (by omega) (by omega)]
      exact congrArg some ((State.powerWrite_parkctl hd _).trans (State.parkWrite_waiting waits h))
    · refine ignored (by omega) (by omega) (by omega) fun v => ?_
      rw [State.deviceWrite, regOf_service (off := 0x20) hd (by decide) (by omega)]
      rfl
    · refine ignored (by omega) (by omega) (by omega) fun v => ?_
      rw [show 0x8041000030 + 8 * d = 0x8041000000 + (0x30 + 8 * d) by omega]
      exact unlisted (by omega) (.inl (by omega)) v

end Sys2Proof.Machine

namespace Sys2Proof.Machine

open Sys2Proof

/-! # Statements with a counterexample

Three statements on stores to a local memory say that the thread ends as `Thread.completed` leaves it, and leave out what
the write does to `releasing`: the first write after an `fnc rel` or `fnc full` carries the release, and clears the mark
(R315, `State.endReleasing`). One state refutes the three. The statement on the start of the package speaks of the bytes
of any memory, canonical or not. -/

/-- One thread in execution, READY on core 0 in a group with local memory, in a context with the race detector on, after
an `fnc rel`: its next write carries the release (R315). Its vector mask names lane 0. -/
def releasingState : State :=
  { State.reset with
    threads := [(0, { Thread.fresh with st := .ready, releasing := true, vmask := 1 })]
    groups := [(0, { Group.fresh with lm := 0x40000 })]
    ctxs := [(0, { Ctx.fresh with race := 1 })] }

/-- Refutes O10: `sb` of x0 at the first byte of the LM window, in `releasingState`, ends with `releasing` cleared. -/
theorem not_storesToWindow : ¬ Obligations.StoresToWindow := by
  unfold Obligations.StoresToWindow
  intro h
  obtain ⟨sb, -⟩ := h releasingState 0 0 0 0 0 0 0 (by decide)
  obtain ⟨t, e, -, -, -, -, -, me⟩ := (sb (by decide) ⟨by decide, by decide⟩).1 (by decide)
  obtain rfl := Host.Outcome.next.inj e
  exact absurd (congrArg Thread.releasing me) (by decide)

/-- Refutes O14: `amo.add` on the first word of the LM window, in `releasingState`, ends with `releasing` cleared. -/
theorem not_atomicsOnWindow : ¬ Obligations.AtomicsOnWindow := by
  unfold Obligations.AtomicsOnWindow
  intro h
  obtain ⟨⟨word, -⟩, -⟩ := h releasingState 0 0 0 0 0 0 (by decide) (by unfold State.clean; decide)
    (by unfold State.noFetch; decide)
  obtain ⟨t, e, -, -, -, -, me⟩ := (word (by decide)).2 (by decide) (by decide) ⟨by decide, by decide⟩
  obtain rfl := Host.Outcome.next.inj e
  exact absurd (congrArg Thread.releasing me) (by decide)

/-- The one active lane of a scatter over the lanes of v0 in `releasingState`. -/
theorem releasingState_active {k : Nat} (act : (1 : BitVec 1) = 0 ∨ releasingState.me.vmask.getLsbD k = true) : k = 0 := by
  obtain bad | bit := act
  · exact absurd bad (by decide)
  · have named : (1#64).getLsbD k = true := bit
    simpa using named

theorem releasingState_laneEa : releasingState.me.laneEa 0 (releasingState.me.reg 0) 8 0 = 0 := by
  have zero : laneGet 0#512 (8 * 8) 0 = 0 := by rw [laneGet, BitVec.toNat_zero, Nat.zero_div, Nat.zero_mod]
  show (0 : Word) + BitVec.ofNat 64 (laneGet 0#512 (8 * 8) 0) = 0
  rw [zero]
  rfl

/-- Refutes O43: `vstx` of the doubleword lane 0 to the first byte of the LM window, in `releasingState`, ends with
`releasing` cleared. -/
theorem not_vectorMemory : ¬ Obligations.VectorMemory := by
  unfold Obligations.VectorMemory
  intro h
  obtain ⟨-, -, -, -, -, scatter, -⟩ := h releasingState 0 0 0 3 1 0 (fun _ => 0) 0
    { asid := 0, level := 0, vpn := 0, pte := 0, homes := [] }
    { line := 0, st := .s, data := 0, valid := 0, dirty := 0, home := 0 } (by decide)
  obtain ⟨t, e, -, -, me, -⟩ := scatter ⟨by decide, by decide, by decide, fun k ⟨_, act⟩ => by
      obtain rfl := releasingState_active act
      have lm : releasingState.span 0 0 8 true = .lm 0 := by decide
      exact (congrArg (releasingState.span 0 · 8 true) releasingState_laneEa).trans lm⟩
    (fun j k ⟨_, hj⟩ ⟨_, hk⟩ ne => absurd ((releasingState_active hj).trans (releasingState_active hk).symm) ne)
  obtain rfl := Host.Outcome.next.inj e
  exact absurd (congrArg Thread.releasing me) (by decide +kernel)

/-- A package without power whose list of bytes is out of order: that at 2^51, of host memory (R267), stands behind one at
2^52, of no class, at which a read of a lower address stops. -/
def unsortedOff : State :=
  { State.reset with
    mem := [(2 ^ 52, 1), (2 ^ 51, 1)]
    power := { Power.reset with stage := .off } }

/-- Refutes O53: the statement asks for no canonical memory (`State.memOk`). POWER_GOOD keeps the cells of host memory, and
from `unsortedOff` that lets the byte at 2^51 read 1, where it read 0 before. -/
theorem not_powerStart : ¬ Obligations.PowerStart := by
  unfold Obligations.PowerStart
  intro h
  obtain ⟨on, -⟩ := h unsortedOff
  obtain ⟨t, e, -, -, -, -, -, -, -, bare, -⟩ := on rfl
  obtain rfl := Host.Outcome.next.inj e
  exact absurd (bare (2 ^ 51)) (by decide)

end Sys2Proof.Machine

namespace Sys2Proof.Machine

open Sys2Proof

/-! # What fires and the ends of claims do to threads and claims (R83 to R91)

The end of a claim wakes what waited for it: reservations pass on, entries and lines find their claims, and deferred requests
are performed. All that this does to threads is to fire wakes, and to claims, to open windows anew and fetch again. -/

/-! ## Fired threads -/

/-- What fires and the writes of held trap records leave of a thread: they end its waits and count its releases, and write
no register. -/
structure Thread.Fired (a b : Thread) : Prop where
  eq : b = { a with st := b.st, runnable := b.runnable, wokenAt := b.wokenAt, prio := b.prio, pc := b.pc, oc := b.oc,
                    instret := b.instret, wake := b.wake, wait := b.wait, interval := b.interval }
  st : b.st = a.st ∨ a.st = .waiting ∧ b.st = .ready

theorem Thread.Fired.refl (a : Thread) : a.Fired a := ⟨rfl, .inl rfl⟩

theorem Thread.Fired.trans {a b c : Thread} (h : a.Fired b) (k : b.Fired c) : a.Fired c := by
  refine ⟨?_, ?_⟩
  · have e := k.eq
    rw [h.eq] at e
    exact e
  · rcases k.st with same | ⟨waits, ready⟩
    · rw [same]
      exact h.st
    · rcases h.st with same | ⟨-, ready'⟩
      · exact .inr ⟨same ▸ waits, ready⟩
      · exact absurd (waits.symm.trans ready') TState.noConfusion

theorem Thread.fired_ready (seq : Nat) (t : Thread) : t.Fired (Thread.ready seq t) := by
  unfold Thread.ready
  dsimp only
  split
  · next waits => exact ⟨rfl, .inr ⟨waits, rfl⟩⟩
  · exact ⟨rfl, .inl rfl⟩
  · exact ⟨rfl, .inl rfl⟩

theorem Thread.fired_fire (seq : Nat) (t : Thread) : t.Fired (Thread.fire seq t) := by
  unfold Thread.fire
  split
  · exact .refl t
  · next w _ =>
    have armed (x : Option Wake) : t.Fired { t with wake := x } := ⟨rfl, .inl rfl⟩
    dsimp only
    split
    · exact armed _
    · split
      · exact (armed none).trans (Thread.fired_ready seq _)
      · exact armed _
      · split
        · have ended : t.Fired ({ t with wake := none, oc := BitVec.ofNat 4 OCode.rdy.code } : Thread).retire :=
            ⟨rfl, .inl rfl⟩
          exact ended.trans (Thread.fired_ready seq _)
        · exact armed _
      · split
        · exact (armed _).trans (Thread.fired_ready seq _)
        · exact armed _
      · exact armed _

theorem Thread.fired_released (t : Thread) : t.Fired t.released := ⟨rfl, .inl rfl⟩

/-! ## Claims -/

@[simp] theorem State.core_fireIf (s : State) (p : Nat → Thread → WakeCond → Bool) (k : Nat) :
    (s.fireIf p).core k = s.core k := rfl

@[simp] theorem State.core_fireOf (s : State) (u : Nat) (w : WakeCond) (k : Nat) : (s.fireOf u w).core k = s.core k := rfl

/-- An update of one core keeps, at every core, what it keeps of that one. -/
theorem State.modCore_keeps {α : Type} (g : Core → α) (s : State) {c : Nat} {f : Core → Core}
    (h : g (f (s.core c)) = g (s.core c)) (k : Nat) : g ((s.modCore c f).core k) = g (s.core k) := by
  rw [State.modCore_eq, State.core_setCore]
  split
  · next e => rw [h, e]
  · rfl

/-- A claim whose last resource has arrived, where it is the one of a thread at a PC and an address (R85). -/
def Claim.readied (uid : Nat) (pc ea : Word) (opened : Bool) (closes : Nat) (x : Claim) : Claim :=
  if x.uid = uid ∧ x.pc = pc ∧ x.ea = ea then
    { x with stage := if x.stage = .absent then .absent else .ready, opened := opened, closes := closes }
  else x

theorem State.core_claimReady (s : State) (c uid : Nat) (pc ea : Word) (k : Nat) : (s.claimReady c uid pc ea).core k =
    (s.modCore c (fun k => { k with claims := k.claims.map (Claim.readied uid pc ea
      (!(s.thr uid).opensLater (.claim pc ea)) (s.now (coreDie c) + holdWindow)) })).core k := rfl

/-- What the end of another claim may make of a claim at the core cycle `now`: it is its thread's as before, and its window
is past only where it was. -/
structure Claim.Becomes (now : Nat) (x y : Claim) : Prop where
  uid : y.uid = x.uid
  past : y.opened = true → y.closes ≤ now → x.opened = true ∧ x.closes ≤ now

theorem Claim.Becomes.refl (now : Nat) (x : Claim) : x.Becomes now x := ⟨rfl, fun o c => ⟨o, c⟩⟩

theorem Claim.Becomes.trans {now : Nat} {x y z : Claim} (h : x.Becomes now y) (k : y.Becomes now z) : x.Becomes now z :=
  ⟨k.uid.trans h.uid, fun o c => have ⟨o', c'⟩ := k.past o c; h.past o' c'⟩

theorem Claim.becomes_readied (now uid : Nat) (pc ea : Word) (opened : Bool) (x : Claim) :
    x.Becomes now (x.readied uid pc ea opened (now + holdWindow)) := by
  unfold Claim.readied
  split
  · exact ⟨rfl, fun _ late => absurd late (Nat.not_le.2 (Nat.lt_add_of_pos_right (by decide)))⟩
  · exact .refl now x

/-! ## Both through an operation -/

/-- A state seen through an operation that fires wakes, and leaves of each core's claims some as they may become. -/
structure Stirs (s t : State) : Prop where
  cyc : t.cyc = s.cyc
  thr : ∀ u, (s.thr u).Fired (t.thr u)
  claims : ∀ k, ∀ y ∈ (t.core k).claims, ∃ x ∈ (s.core k).claims, x.Becomes (s.now (coreDie k)) y

section
variable {s t r : State}

theorem Stirs.refl (s : State) : Stirs s s := ⟨rfl, fun _ => .refl _, fun _ y m => ⟨y, m, .refl _ y⟩⟩

theorem Stirs.trans (h : Stirs s t) (g : Stirs t r) : Stirs s r := by
  refine ⟨g.cyc.trans h.cyc, fun u => (h.thr u).trans (g.thr u), fun k z m => ?_⟩
  obtain ⟨y, m, yz⟩ := g.claims k z m
  obtain ⟨x, m, xy⟩ := h.claims k y m
  rw [State.now, h.cyc] at yz
  exact ⟨x, m, xy.trans yz⟩

theorem Stirs.foldl {α : Type} {f : State → α → State} (h : ∀ s x, Stirs s (f s x)) (l : List α) :
    ∀ s, Stirs s (l.foldl f s) := by
  induction l with
  | nil => exact .refl
  | cons x l ih => exact fun s => (h s x).trans (ih _)

theorem Stirs.ite {p : Prop} [Decidable p] (h : Stirs s t) (g : Stirs s r) : Stirs s (if p then t else r) := by
  split
  · exact h
  · exact g

/-- An operation on neither threads nor claims. -/
theorem Stirs.of_same (cyc : t.cyc = s.cyc) (threads : t.threads = s.threads)
    (claims : ∀ k, (t.core k).claims = (s.core k).claims) : Stirs s t :=
  ⟨cyc, fun u => by rw [show t.thr u = s.thr u by rw [State.thr, threads]; rfl]; exact .refl _, fun k y m => ⟨y, claims k ▸ m, .refl _ y⟩⟩

theorem Stirs.of_frame {T : List Field} (f : Frame T s t) (c : Field.fCyc ∉ T := by decide)
    (m : Field.fThreads ∉ T := by decide) (n : Field.fCores ∉ T := by decide) : Stirs s t :=
  .of_same (f.cyc c) (f.threads m) fun k => by rw [State.core, f.cores n]; rfl

theorem Stirs.modCore (s : State) {c : Nat} {f : Core → Core} (h : (f (s.core c)).claims = (s.core c).claims) :
    Stirs s (s.modCore c f) := .of_same rfl rfl (s.modCore_keeps Core.claims h)

/-- An operation on the claims of one core. -/
theorem Stirs.setCore (s : State) {c : Nat} {q : Core}
    (h : ∀ y ∈ q.claims, ∃ x ∈ (s.core c).claims, x.Becomes (s.now (coreDie c)) y) : Stirs s (s.setCore c q) := by
  refine ⟨rfl, fun u => .refl _, fun k y m => ?_⟩
  rw [State.core_setCore] at m
  split at m
  · next e => exact e ▸ h y m
  · exact ⟨y, m, .refl _ y⟩

/-- An operation on one core that leaves its claims. -/
theorem Stirs.setCore_same (s : State) {c : Nat} {q : Core} (h : q.claims = (s.core c).claims) : Stirs s (s.setCore c q) :=
  .setCore s fun y m => ⟨y, h ▸ m, .refl _ y⟩

theorem Stirs.mapClaims (s : State) {c : Nat} {f : Claim → Claim} {q : Core} (e : q.claims = (s.core c).claims.map f)
    (h : ∀ x : Claim, x.Becomes (s.now (coreDie c)) (f x)) : Stirs s (s.setCore c q) := by
  refine .setCore s fun y m => ?_
  rw [e, List.mem_map] at m
  obtain ⟨x, m, rfl⟩ := m
  exact ⟨x, m, h x⟩

theorem Stirs.fireIf (h : Stirs s t) (p : Nat → Thread → WakeCond → Bool) : Stirs s (t.fireIf p) := by
  refine h.trans ⟨rfl, fun u => ?_, fun k y m => ⟨y, m, .refl _ y⟩⟩
  rw [State.thr_fireIf]
  split
  · exact Thread.fired_fire _ _
  · exact .refl _

theorem Stirs.modThr (s : State) {u : Nat} {f : Thread → Thread} (h : (s.thr u).Fired (f (s.thr u))) :
    Stirs s (s.modThr u f) := by
  refine ⟨rfl, fun v => ?_, fun _ y m => ⟨y, m, .refl _ y⟩⟩
  rw [State.modThr, State.thr_setThr]
  split
  · next e => exact e ▸ h
  · exact .refl _

theorem Stirs.send (s : State) (m : Msg) : Stirs s (s.send m) := .of_same rfl rfl fun _ => rfl

end

section
variable (s : State) (c : Nat)

theorem State.serveBudgetOnce_stirs : Stirs s (s.serveBudgetOnce c) := by
  unfold State.serveBudgetOnce
  dsimp only
  split
  · exact .refl s
  · exact .ite ((Stirs.setCore_same s (by rfl)).fireIf _) (.refl s)

theorem State.serveBudget_stirs : Stirs s (s.serveBudget c) := .foldl (fun s _ => s.serveBudgetOnce_stirs c) _ s

theorem State.claimReady_stirs (uid : Nat) (pc ea : Word) : Stirs s (s.claimReady c uid pc ea) := by
  unfold State.claimReady
  exact (Stirs.mapClaims s rfl (Claim.becomes_readied _ uid pc ea _)).fireIf _

theorem State.serveEntry_stirs (need : Need) : Stirs s (s.serveEntry c need) := by
  unfold State.serveEntry
  dsimp only
  split
  · split
    · exact s.claimReady_stirs ..
    · exact .refl s
  · exact .refl s

/-- A fetch made anew has no window open. -/
theorem State.refetch_stirs (p : Claim → Bool) : Stirs s (s.refetch c p) := by
  unfold State.refetch
  dsimp only
  refine Stirs.trans ?_ (.foldl (fun s _ => Stirs.send s _) _ _)
  refine (Stirs.of_same (s := s) (t := { s with wakeSeq := s.wakeSeq + 1 }) rfl rfl fun _ => rfl).trans ?_
  refine Stirs.mapClaims _ rfl fun x => ?_
  split
  · exact ⟨rfl, fun opened _ => absurd opened Bool.false_ne_true⟩
  · exact .refl _ x

theorem State.giveUpLine_stirs (x : L1Line) : Stirs s (s.giveUpLine c x) := by
  unfold State.giveUpLine
  split
  · exact .refl s
  · exact .ite ((Stirs.send s _).trans (State.refetch_stirs ..)) (Stirs.send s _)

theorem State.install_stirs (x : L1Line) : Stirs s (s.install c x) := by
  unfold State.install
  dsimp only
  split
  · exact Stirs.modCore s rfl
  · split
    · exact s.giveUpLine_stirs ..
    · exact (Stirs.modCore s rfl).trans (State.giveUpLine_stirs ..)

theorem State.dropAlias_stirs (line : Nat) (raw : Bool) : Stirs s (s.dropAlias c line raw) := by
  unfold State.dropAlias
  split
  · exact .ite (.refl s) ((Stirs.modCore s rfl).trans (State.giveUpLine_stirs ..))
  · exact .refl s

theorem State.putGrant_stirs (line home : Nat) (st : LState) (d : BitVec 1024) : Stirs s (s.putGrant c line home st d) := by
  have placed (x : Prop) [Decidable x] (y : L1Line) : Stirs s ((if x then s.dropAlias c line false else s).install c y) :=
    (Stirs.ite (s.dropAlias_stirs c line false) (.refl s)).trans (State.install_stirs ..)
  unfold State.putGrant
  dsimp only
  split
  · split
    · exact .ite (.refl s) (((Stirs.modCore s rfl).trans (State.giveUpLine_stirs ..)).trans (State.install_stirs ..))
    · exact .ite (s.install_stirs ..) (s.install_stirs ..)
    · exact placed ..
    · exact placed ..
  · exact s.install_stirs ..

theorem State.takeGrant_stirs (line home : Nat) (st : LState) (d : BitVec 1024) :
    Stirs s (s.takeGrant c line home st d) :=
  (s.putGrant_stirs ..).trans (.foldl (fun s _ => s.claimReady_stirs ..) _ _)

theorem State.performRecall_stirs (m : Msg) : Stirs s (s.performRecall c m) := by
  have sent {f : Core → Core} (h : (f (s.core c)).claims = (s.core c).claims) (x : Msg) : Stirs s ((s.modCore c f).send x) :=
    (Stirs.modCore s h).trans (Stirs.send _ x)
  unfold State.performRecall
  dsimp only
  split
  · split
    · exact sent rfl _
    · exact Stirs.send s _
  · split
    · exact .ite (sent rfl _) (Stirs.send s _)
    · exact Stirs.send s _
  · split
    · split
      · exact sent rfl _
      · exact Stirs.send s _
    · exact Stirs.send s _
  · exact s.takeGrant_stirs ..
  · exact .refl s

theorem State.undefer_stirs : Stirs s (s.undefer c) := by
  unfold State.undefer
  exact (Stirs.setCore_same s (by rfl)).trans (.foldl (fun s m => s.performRecall_stirs c m) _ _)

theorem State.lookAgain_stirs (p : Claim → Bool) : Stirs s (s.lookAgain c p) := .foldl (fun s _ => Stirs.send s _) _ s

theorem State.afterClaim_stirs (x : Claim) : Stirs s (s.afterClaim c x) := by
  unfold State.afterClaim
  have dropped : Stirs s (if x.remote = true ∧ x.copy.isSome = true then
      s.send { src := c, dst := homeAgent x.home, line := x.line, kind := .claimReturn x.uid none } else s) :=
    .ite (Stirs.send s _) (.refl s)
  have woken := (dropped.fireIf (fun _ _ w => match w with
    | .unpinned c' l => decide (c' = c ∧ l = x.line)
    | .setFree c' k => decide (c' = c ∧ k = x.line % 64)
    | _ => false)).trans (State.lookAgain_stirs _ c (fun y => decide (y.line % 64 = x.line % 64)))
  exact (Stirs.ite (woken.trans (State.serveEntry_stirs ..)) woken).trans (State.serveBudget_stirs ..)

/-- The end of claims that a predicate names leaves the others, as they may become. -/
theorem State.endClaims_stirs (p : Claim → Bool) : Stirs s (s.endClaims c p) ∧
    Stirs (s.setCore c { s.core c with claims := (s.core c).claims.filter (fun x => !p x) }) (s.endClaims c p) := by
  have ended : Stirs (s.setCore c { s.core c with claims := (s.core c).claims.filter (fun x => !p x) }) (s.endClaims c p) :=
    (Stirs.foldl (fun s x => s.afterClaim_stirs c x) _ _).trans (State.undefer_stirs ..)
  exact ⟨(Stirs.setCore s fun y m => ⟨y, (List.mem_filter.1 m).1, .refl _ y⟩).trans ended, ended⟩

theorem State.endAllClaims_stirs (u : Nat) : Stirs s (s.endAllClaims u) :=
  ((Stirs.modCore s rfl).trans (State.endClaims_stirs _ _ _).1).trans (State.serveBudget_stirs ..)

/-- No claim of a thread is left on its core by the end of its claims (R85). -/
theorem State.endAllClaims_none (u : Nat) : ∀ x ∈ ((s.endAllClaims u).core (s.thr u).core).claims, x.uid ≠ u := by
  intro x m
  obtain ⟨y, m, becomes⟩ := (State.serveBudget_stirs _ _).claims _ x m
  obtain ⟨z, m, becomes'⟩ := (State.endClaims_stirs _ _ _).2.claims _ y m
  rw [State.core_setCore, if_pos rfl, List.mem_filter] at m
  rw [becomes.uid, becomes'.uid]
  simpa using m.2

end

end Sys2Proof.Machine

namespace Sys2Proof.Machine

open Sys2Proof

/-! # Completions in a state that reads as the one before (R26, R85) -/

theorem tset_tset_self {α : Type} (t : Tbl α) (n : Nat) (v w : α) : tset (tset t n v) n w = tset t n w := by
  induction t with
  | nil => exact if_pos rfl
  | cons x t ih =>
    obtain ⟨k, y⟩ := x
    by_cases e : k = n
    · simp only [tset, if_pos e, if_true]
    · by_cases lt : n < k
      · simp only [tset, if_neg e, if_pos lt, if_true]
      · simp only [tset, if_neg e, if_neg lt, ih]

theorem State.setThr_setThr (s : State) (u : Nat) (a b : Thread) : (s.setThr u a).setThr u b = s.setThr u b :=
  congrArg (fun l => { s with threads := l }) (tset_tset_self ..)

theorem State.modThr_modThr (s : State) (u : Nat) (f g : Thread → Thread) :
    (s.modThr u f).modThr u g = s.modThr u (fun t => g (f t)) := by
  have written : (s.modThr u f).thr u = f (s.thr u) := (State.thr_setThr ..).trans (if_pos rfl)
  rw [State.modThr, written]
  exact s.setThr_setThr ..

section
variable {s s' : State} {i : Instr} {nb : BitVec 1}

/-- Nothing written, and a completion with RDY. -/
theorem State.results_none_of (same : Same [.fCores] s s') (run : exec i s = .next (s'.completeP nb .rdy)) :
    s.results i nb 0 0 := by
  refine State.results_of same (run.trans (congrArg Host.Outcome.next ?_))
  have me : (s'.modMe fun t => t.setReg 0 0).me = s'.me := State.me_modMe ..
  rw [State.completeP_rdy, State.completeP_rdy, me]
  exact congrArg (fun q : State => q.modGrp s'.me.gid fun x => { x with wdCount := 0 }) (s'.setThr_setThr ..).symm

/-- A completion without effect. -/
theorem State.ends_of_same {c : OCode} (same : Same [.fCores] s s') (other : c ≠ .rdy)
    (run : exec i s = .next (s'.complete nb c)) : s.ends i nb c := by
  refine ⟨_, run, ?_⟩
  rw [State.complete_other s' nb c other]
  refine ⟨?_, fun u k => ?_, fun k => ?_, fun d => ?_, ?_⟩
  · refine Frame.eq (T := [.fThreads, .fCores, .fDies]) (((same.frame.mono (by decide)).setThr _ _).countMe _)
      ⟨fun f m => ?_⟩ (fun f m => ?_)
    · cases f <;> first | rfl | exact absurd (by decide) m
    · fin_cases m <;> rfl
  · rw [State.thr_countMe, State.thr_setThr, if_neg (same.cur ▸ k), same.thr]
  · rw [← same.core k]
    exact State.core_count _ _ _ _ _ k
  · refine (State.die_count _ _ _ _ _ d).trans ?_
    have die : (s'.setThr s'.cur (s'.me.completed nb c)).die d = s.die d := by
      show tget Die.fresh s'.dies d = _
      rw [same.frame.dies]
      rfl
    rw [die]
    rfl
  · rw [State.me_countMe, State.me_setThr, same.me]

end

end Sys2Proof.Machine

namespace Sys2Proof.Machine

open Sys2Proof

/-! # Writes at the home (R113, R426)

What a write at the home leaves: the bytes that it stores, the copies that it takes from the L1s, and the wakes that it fires. -/

/-- A read of bytes within a store gives the digits of the value there. -/
theorem mload_mstore {m : Memory} (wf : m.wf = true) (a v : Nat) {n : Nat} (j : Nat) : ∀ i, i + j ≤ n →
    mload (mstore m a v n) (a + i) j = v / 256 ^ i % 256 ^ j := by
  induction j with
  | zero => exact fun i _ => (Nat.mod_one _).symm
  | succ j ih =>
    intro i within
    have digit : (BitVec.ofNat 8 (v / 256 ^ i)).toNat = v / 256 ^ i % 256 := BitVec.toNat_ofNat ..
    rw [mload, mget_mstore_in a v n i wf (by omega), Nat.add_assoc, ih (i + 1) (by omega), digit, Nat.pow_succ,
      ← Nat.div_div_eq_div_mul, Nat.pow_succ, Nat.mul_comm (256 ^ j), Nat.mod_mul]

/-- What stands against a write at the home of some bytes is the same where an operation leaves what it is read of (R90). -/
theorem State.quietAll_of_frame {T : List Field} {s t : State} (f : Frame T s t) (pa n : Nat)
    (dir : Field.fDir ∉ T := by decide) (net : Field.fNet ∉ T := by decide) (held : Field.fHeldUntil ∉ T := by decide)
    (tick : Field.fGtick ∉ T := by decide) (cores : Field.fCores ∉ T := by decide) : t.quietAll pa n = s.quietAll pa n := by
  have quiet (line : Nat) : t.quiet line = s.quiet line := by
    unfold State.quiet State.entry State.vaultHeld
    rw [f.dir dir, f.net net, f.heldUntil held, f.gtick tick, f.cores cores]
  unfold State.quietAll
  rw [show t.quiet = s.quiet from funext quiet]

/-- An operation on the L1 lines of cores alone. -/
def L1Only (s t : State) : Prop := ∀ k, t.core k = { s.core k with l1 := (t.core k).l1 }

section
variable {s t r : State}

theorem L1Only.refl (s : State) : L1Only s s := fun _ => rfl

theorem L1Only.trans (h : L1Only s t) (g : L1Only t r) : L1Only s r := fun k => by
  have e := g k
  rw [h k] at e
  exact e

theorem L1Only.foldl {α : Type} {f : State → α → State} (h : ∀ s x, L1Only s (f s x)) (l : List α) :
    ∀ s, L1Only s (l.foldl f s) := by
  induction l with
  | nil => exact .refl
  | cons x l ih => exact fun s => (h s x).trans (ih _)

theorem L1Only.of_frame {T : List Field} (f : Frame T s t) (m : Field.fCores ∉ T := by decide) : L1Only s t := fun k => by
  rw [show t.core k = s.core k by rw [State.core, f.cores m]; rfl]

theorem L1Only.ite {p : Prop} [Decidable p] (h : L1Only s t) (g : L1Only s r) : L1Only s (if p then t else r) := by
  split
  · exact h
  · exact g

theorem L1Only.modCore (s : State) {c : Nat} {f : Core → Core} (h : f (s.core c) = { s.core c with l1 := (f (s.core c)).l1 }) :
    L1Only s (s.modCore c f) := fun k => by
  rw [State.modCore_eq, State.core_setCore]
  split
  · next e => exact e ▸ h
  · rfl

variable (s)

theorem State.takeCopy_l1Only (line c : Nat) (keep : Bool) : L1Only s (s.takeCopy line c keep) := by
  unfold State.takeCopy
  split
  · exact .refl s
  · next x _ =>
    have taken : L1Only s (match x.st with
      | .m => s.setHomeLine line x.data
      | .u k => s.setHomeLine line (combineLine k (s.homeLine line) x.data x.valid 32)
      | _ => s) := by
      split
      · exact .of_frame ((Frame.refl [.fMem] s).withMem _)
      · exact .of_frame ((Frame.refl [.fMem] s).withMem _)
      · exact .refl s
    exact .ite (taken.trans (L1Only.modCore _ rfl)) (taken.trans (L1Only.modCore _ rfl))

theorem State.recallAll_l1Only (line : Nat) : L1Only s (s.recallAll line) :=
  (L1Only.foldl (fun s c => s.takeCopy_l1Only line c false) _ s).trans (.of_frame (State.setEntry_frame ..))

theorem State.homeWrite_l1Only (pa n v : Nat) : L1Only s (s.homeWrite pa n v) := by
  have recalled := L1Only.foldl State.recallAll_l1Only (linesOf pa n) s
  exact (recalled.trans (.of_frame ((Frame.refl [.fMem] _).withMem _))).trans
    (.foldl (fun s line => .of_frame (s.wrote_frame line)) _ _)

/-- Of threads and claims, a write at the home fires wakes alone. -/
theorem State.homeWrite_stirs (pa n v : Nat) : Stirs s (s.homeWrite pa n v) := by
  have recalled : Stirs s ((linesOf pa n).foldl State.recallAll s) :=
    .foldl (fun s line => .of_same (s.recallAll_frame line).cyc (s.recallAll_frame line).threads fun k => by
      rw [s.recallAll_l1Only line k]) _ s
  exact (recalled.trans (.of_frame ((Frame.refl [.fMem] _).withMem _))).trans
    (.foldl (fun s _ => (Stirs.refl s).fireIf _) _ _)

/-- A write at the home stores its bytes into a memory in canonical form. -/
theorem State.homeWrite_stores (canon : s.Canon) (pa n v : Nat) :
    ∃ m : Memory, m.wf = true ∧ (s.homeWrite pa n v).mem = mstore m pa v n := by
  have recalled : ((linesOf pa n).foldl State.recallAll s).Canon := canon.foldl fun _ _ h => h.recallAll
  exact ⟨_, recalled.mem, (Frame.foldl State.wrote (fun s line => s.wrote_frame line) _ _).mem⟩

/-- What is read of the bytes that a write at the home has stored. -/
theorem State.mload_homeWrite (canon : s.Canon) (pa v : Nat) {n i j : Nat} (within : i + j ≤ n) :
    mload (s.homeWrite pa n v).mem (pa + i) j = v / 256 ^ i % 256 ^ j := by
  obtain ⟨m, wf, mem⟩ := s.homeWrite_stores canon pa n v
  rw [mem, mload_mstore wf pa v j i within]

end

end Sys2Proof.Machine

namespace Sys2Proof.Machine

open Sys2Proof

/-! # Waits of a thread (R97 to R99) -/

theorem State.thr_modMe_ne (s : State) (f : Thread → Thread) {u : Nat} (other : u ≠ s.cur) :
    (s.modMe f).thr u = s.thr u := by rw [State.thr_modMe, if_neg other]

/-- The end of a wait instruction changes its thread and event counts alone. -/
theorem State.endYield_onlyMeCounted {s q : State} (h : s.onlyMe q) (c : OCode) : s.onlyMeCounted (q.endYield c) ∧
    (q.endYield c).me = ({ q.me with oc := BitVec.ofNat 4 c.code } : Thread).retire := by
  obtain ⟨only, others, bytes⟩ := h
  obtain ⟨l, rfl⟩ : ∃ l, q = { s with threads := l } := ⟨_, only⟩
  have rest {u : Nat} (other : u ≠ s.cur) : (State.modMe { s with threads := l }
      fun t => { t with oc := BitVec.ofNat 4 c.code }.retire).thr u = s.thr u :=
    (State.thr_modMe_ne { s with threads := l } _ other).trans (others u other)
  unfold State.endYield
  dsimp only
  split
  · exact ⟨⟨rfl, fun _ => rest, fun _ => rfl, fun _ => rfl, fun _ => rfl, bytes⟩, State.me_modMe _ _⟩
  · exact ⟨⟨rfl, fun _ => rest, fun k => State.core_count _ _ _ _ _ k, fun d => State.die_count _ _ _ _ _ d, fun _ => rfl,
      bytes⟩, (State.me_countMe _ _).trans (State.me_modMe _ _)⟩

/-- A wait that ends makes a WAITING thread READY with a priority issue, and a PARKED one runnable (R80, R81). -/
theorem Thread.ready_of_idle {t : Thread} (idle : t.st = .waiting ∨ t.st = .parked) (seq : Nat) : Thread.ready seq t =
    if t.st = .parked then { t with wait := .none, wokenAt := seq, runnable := true }
    else { t with wait := .none, wokenAt := seq, st := .ready, prio := true } := by
  unfold Thread.ready
  dsimp only
  rcases idle with waiting | parked
  · rw [waiting, if_neg (by decide)]
  · rw [parked, if_pos rfl]

theorem Thread.waits_of_idle {t : Thread} (idle : t.saved = false ∧ (t.st = .waiting ∨ t.st = .parked)) :
    t.waits = true := by
  obtain ⟨held, waiting | parked⟩ := idle
  · rw [Thread.waits, held, waiting]; rfl
  · rw [Thread.waits, held, parked]; rfl

theorem State.endWaitOf_facts (s : State) (u : Nat) (c : OCode) : (s.endWaitOf u c).thr u = (s.thr u).endWait s.wakeSeq c ∧
    (∀ v, v ≠ u → (s.endWaitOf u c).thr v = s.thr v) ∧ (s.endWaitOf u c).mem = s.mem ∧ (s.endWaitOf u c).lm = s.lm := by
  unfold State.endWaitOf
  dsimp only
  split
  · exact ⟨(State.thr_setThr _ u u _).trans (if_pos rfl), fun v other => (State.thr_setThr _ u v _).trans (if_neg other),
      rfl, rfl⟩
  · exact ⟨(State.thr_setThr _ u u _).trans (if_pos rfl), fun v other => (State.thr_setThr _ u v _).trans (if_neg other),
      rfl, rfl⟩

/-- Settles O20: an instruction that waits either ends its wait at once or starts one, and each event ends the wait of its
thread. -/
theorem yieldAndSleep : Obligations.YieldAndSleep := by
  unfold Obligations.YieldAndSleep
  intro s rs1 n i u form d done ends waits woken passes idle
  have run : exec i s = .next (s.yieldOp n) := by
    rcases form with ⟨rfl, rfl⟩ | ⟨rfl, rfl⟩
    · rfl
    · rfl
  have ended {j : Instr} {q : State} {c : OCode} (only : s.onlyMe q) (e : exec j s = .next (q.endYield c)) :
      ends j (done q.me c) := by
    obtain ⟨counted, me⟩ := State.endYield_onlyMeCounted only c
    exact ⟨_, e, counted, me⟩
  have same : s.onlyMe s := ⟨rfl, fun _ _ => rfl, s.sameBytes_refl⟩
  have begun {j : Instr} {w : Wait} (e : exec j s = .next ({ s with wakeSeq := s.wakeSeq + 1 }.modMe (fun t => { t with
      st := .waiting, wait := w, waitFrom := s.wakeSeq }))) : waits j w :=
    ⟨_, e, rfl, fun v other => State.thr_modMe_ne { s with wakeSeq := s.wakeSeq + 1 } _ other, State.me_modMe _ _⟩
  have passed {j : Instr} {q : State} {c : OCode} (wakeSeq : q.wakeSeq = s.wakeSeq) (bytes : q.mem = s.mem ∧ q.lm = s.lm)
      (others : ∀ v, v ≠ u → q.thr v = s.thr v) (rests : (q.thr u).st = .waiting ∨ (q.thr u).st = .parked)
      (e : exec j s = .next (q.endWaitOf u c)) : passes j (done (q.thr u) c) := by
    obtain ⟨me, rest, mem, lm⟩ := State.endWaitOf_facts q u c
    refine ⟨_, e, me.trans ?_, fun v other => (rest v other).trans (others v other), mem.trans bytes.1, lm.trans bytes.2⟩
    rw [wakeSeq]
    exact Thread.ready_of_idle (t := done (q.thr u) c) rests s.wakeSeq
  have sleeps (zero : d = 0) : min (s.me.reg rs1).toNat 0xFFFFFFFFFFFF = 0 := by omega
  refine ⟨fun moved => ?_, fun unmoved => ⟨fun unarmed => ?_, fun zero => ?_, fun w armed => ⟨fun fired => ?_, fun more => ?_⟩⟩,
    fun long => ?_, fun t0 m rests wait limited late => ?_, fun e rests wait due => ⟨fun unmoved => ?_, fun moved => ?_⟩⟩
  · have only := s.onlyMe_setThr { s.me with movedPending := false }
    have me : (s.setThr s.cur { s.me with movedPending := false }).me = { s.me with movedPending := false } := s.me_setThr _
    rw [← me]
    refine ⟨ended only (run.trans ?_), fun zero => ended only ?_⟩
    · rw [State.yieldOp, if_pos moved]; rfl
    · show execSleep rs1 s = _
      rw [execSleep, if_pos (sleeps zero), if_pos moved]; rfl
  · exact ended same (run.trans (by rw [State.yieldOp, unmoved, unarmed]; rfl))
  · refine ended same ?_
    show execSleep rs1 s = _
    rw [execSleep, if_pos (sleeps zero), unmoved]; rfl
  · have only := s.onlyMe_setThr { s.me with wake := none }
    have me : (s.setThr s.cur { s.me with wake := none }).me = { s.me with wake := none } := s.me_setThr _
    rw [← me]
    refine ended only (run.trans ?_)
    rw [State.yieldOp, unmoved, armed]
    exact congrArg Host.Outcome.next (if_pos fired)
  · refine begun (run.trans ?_)
    rw [State.yieldOp, unmoved, armed]
    exact congrArg Host.Outcome.next (if_neg (Nat.not_le.2 more))
  · refine begun ?_
    show execSleep rs1 s = _
    exact if_neg (show ¬ min (s.me.reg rs1).toNat 0xFFFFFFFFFFFF = 0 by omega)
  · refine passed (q := s) rfl ⟨rfl, rfl⟩ (fun _ _ => rfl) rests.2 ?_
    show execYieldTimeout u s = _
    rw [execYieldTimeout, wait]
    exact if_pos (by rw [Thread.waits_of_idle rests, decide_eq_true limited, decide_eq_true late]; rfl)
  · refine passed (q := s) rfl ⟨rfl, rfl⟩ (fun _ _ => rfl) rests.2 ?_
    show execSleepEnd u s = _
    rw [execSleepEnd, wait]
    dsimp only
    rw [if_pos (by rw [Thread.waits_of_idle rests, decide_eq_true due]; rfl), unmoved]
    rfl
  · have me : (s.setThr u { s.thr u with movedPending := false }).thr u = { s.thr u with movedPending := false } :=
      (s.thr_setThr u u _).trans (if_pos rfl)
    rw [← me]
    refine passed rfl ⟨rfl, rfl⟩ (fun v other => (s.thr_setThr u v _).trans (if_neg other)) (by rw [me]; exact rests.2) ?_
    show execSleepEnd u s = _
    rw [execSleepEnd, wait]
    dsimp only
    rw [if_pos (by rw [Thread.waits_of_idle rests, decide_eq_true due]; rfl), if_pos moved]
    rfl

end Sys2Proof.Machine

namespace Sys2Proof.Machine

open Sys2Proof

/-! # Messages between threads (R93 to R95, R104 to R106) -/

section
variable {s : State} {c k : Nat} {m : OutMsg}

/-! ## The outbound queue of a core -/

/-- One message of a queue changes its state. -/
theorem getElem?_setOut (q : Core) (here : q.outq[k]? = some m) (st : OutSt) :
    (q.setOut k st).outq[k]? = some { m with st := st } ∧ ∀ j, j ≠ k → (q.setOut k st).outq[j]? = q.outq[j]? := by
  refine ⟨?_, fun j other => ?_⟩
  · rw [Core.setOut, List.getElem?_modify_eq, here]
    rfl
  · exact List.getElem?_modify_ne _ _ (Ne.symm other)

/-- The messages from place `k` of a list on, changed by `f`. -/
theorem getElem?_map_drop {α : Type} (l : List α) (f : α → α) {k j : Nat} {x : α} (h : l[j]? = some x) :
    (l.take k ++ (l.drop k).map f)[j]? = some (if k ≤ j then f x else x) := by
  obtain ⟨within, -⟩ := List.getElem?_eq_some_iff.1 h
  by_cases before : j < k
  · rw [if_neg (Nat.not_le.2 before), List.getElem?_append_left (by rw [List.length_take]; omega),
      List.getElem?_take_of_lt before, h]
  · have whole : (l.take k).length = k := by rw [List.length_take]; omega
    rw [if_pos (Nat.not_lt.1 before), List.getElem?_append_right (by omega), whole, List.getElem?_map, List.getElem?_drop,
      show k + (j - k) = j by omega, h]
    rfl

/-! ## What becomes of a flit (R94, R95) -/

/-- A flit that its thread cannot take now: it is returned (R94, R95). -/
def State.turnsAway (s : State) (m : OutMsg) : Prop :=
  s.asleep (s.thr m.dest).gid = true ∨ (s.thr m.dest).st = .migrating ∨ (s.thr m.dest).core ≠ m.core ∨
    32 ≤ (s.core m.core).mail.length ∨ s.earlierMail m = true

/-- A flit that may arrive now: it flies, and no earlier message of its queue to the thread is on its way (R94). -/
structure State.Arriving (s : State) (c k : Nat) (m : OutMsg) : Prop where
  here : (s.core c).outq[k]? = some m
  flying : m.st = .flying
  first : (s.core c).earlierOut k m.dest = false

/-- The flit enters the mailbox, and its message is accepted. -/
theorem State.mailboxFlit_enters (h : s.Arriving c k m) (live : (s.thr m.dest).st ≠ .exited) (taken : ¬ s.turnsAway m) :
    ∃ p, execMailboxFlit c k s = .next ((((s.modCore m.core (fun q => { q with
      mail := q.mail ++ [{ gid := m.gid, dest := m.dest, src := m.src, kind := m.kind, payload := m.payload }] })).modCore c
        (fun q => q.setOut k .accepted)).fireIf p).fireOf m.dest .mail) := by
  obtain ⟨here, flying, first⟩ := h
  unfold State.turnsAway at taken
  unfold execMailboxFlit
  rw [here]
  dsimp only
  rw [if_neg (by rw [first, flying]; decide), if_neg live, if_neg taken]
  exact ⟨_, rfl⟩

theorem State.mailboxFlit_returned (h : s.Arriving c k m) (live : (s.thr m.dest).st ≠ .exited) (away : s.turnsAway m) :
    execMailboxFlit c k s = .next (s.modCore c (fun q => q.setOut k .nacked)) := by
  obtain ⟨here, flying, first⟩ := h
  unfold State.turnsAway at away
  unfold execMailboxFlit
  rw [here]
  dsimp only
  rw [if_neg (by rw [first, flying]; decide), if_neg live, if_pos away]

/-- A message to a thread that has ended is accepted and gone (R95). -/
theorem State.mailboxFlit_discarded (h : s.Arriving c k m) (ended : (s.thr m.dest).st = .exited) :
    ∃ p, execMailboxFlit c k s = .next (((s.modCore c (fun q => q.setOut k .accepted)).fireIf p).count m.core
      (s.ctxOf m.dest) 0x1012 1) := by
  obtain ⟨here, flying, first⟩ := h
  unfold execMailboxFlit
  rw [here]
  dsimp only
  rw [if_neg (by rw [first, flying]; decide), if_pos ended]
  exact ⟨_, rfl⟩

/-- The end of a reservation for an entry leaves the queue (R104). -/
theorem State.outq_serveEntry (s : State) (c k : Nat) (need : Need) :
    ((s.serveEntry c need).core k).outq = (s.core k).outq := by
  unfold State.serveEntry
  dsimp only
  split
  · split
    · rw [State.core_claimReady]
      exact s.modCore_keeps Core.outq rfl k
    · rfl
  · rfl

/-! ## Acknowledgement, return and replay -/

/-- A message that the NACK of another one holds back with it: it awaits replay toward the core that the NACK names. -/
def OutMsg.again (m : OutMsg) (due place : Nat) (x : OutMsg) : OutMsg :=
  if x.dest = m.dest ∧ x.st ≠ .accepted then { x with st := .replay due, core := place } else x

theorem State.messageNack_eq (here : (s.core c).outq[k]? = some m) (nacked : m.st = .nacked) :
    execMessageNack c k s = .next (s.modCore c (fun q => { q with outq := q.outq.take k ++ (q.outq.drop k).map (
      m.again (s.now (coreDie c) + (s.die (coreDie c)).backoff)
        (if (s.thr m.dest).st = .migrating then (s.thr m.dest).target else (s.thr m.dest).core)) })) := by
  unfold execMessageNack
  rw [here]
  exact if_pos nacked

/-- Whether the back-off of a message to a thread has run out. -/
def OutMsg.due (dest now : Nat) (x : OutMsg) : Bool :=
  match x.st with | .replay n => decide (n ≤ now ∧ x.dest = dest) | _ => false

theorem State.messageReplay_eq (here : (s.core c).outq[k]? = some m) (ready : m.due m.dest (s.now (coreDie c)) = true) :
    execMessageReplay c k s = .next (s.modCore c (fun q => { q with
      outq := q.outq.map (fun x => if x.due m.dest (s.now (coreDie c)) then { x with st := .flying } else x) })) := by
  unfold execMessageReplay
  rw [here]
  exact if_pos ready

end

/-- Settles O24: each case reads off the equation of its event, and the one message or the messages that it marks. -/
theorem messageEvents : Obligations.MessageEvents := by
  unfold Obligations.MessageEvents
  intro s c k m here d now at_ away
  have set (q : State) (same : (q.core c).outq = (s.core c).outq) (st : OutSt) :
      at_ (q.modCore c fun x => x.setOut k st) st := by
    have core : (q.modCore c fun x => x.setOut k st).core c = (q.core c).setOut k st := (q.core_modCore c _).1
    have changed := getElem?_setOut (q.core c) (by rw [same]; exact here) st
    show _ ∧ _
    rw [core, ← same]
    exact changed
  have mailKept (q : Nat) (st : OutSt) : ((s.modCore c fun x => x.setOut k st).core q).mail = (s.core q).mail :=
    s.modCore_keeps Core.mail rfl q
  refine ⟨fun flying first live taken => ?_, fun flying first live turned => ?_, fun flying first ended => ?_,
    fun accepted => ?_, fun nacked => ?_, fun due waits passed => ?_⟩
  · obtain ⟨p, run⟩ := State.mailboxFlit_enters ⟨here, flying, first⟩ live taken
    refine ⟨_, run, set _ ?_ _, ?_⟩
    · exact s.modCore_keeps Core.outq rfl c
    · rw [State.core_fireOf, State.core_fireIf]
      exact (State.modCore_keeps Core.mail _ (by rfl) m.core).trans (congrArg Core.mail (s.core_modCore m.core _).1)
  · exact ⟨_, State.mailboxFlit_returned ⟨here, flying, first⟩ live turned, set s rfl _, rfl, fun q => mailKept q _⟩
  · obtain ⟨p, run⟩ := State.mailboxFlit_discarded ⟨here, flying, first⟩ ended
    refine ⟨_, run, ?_, fun q => ?_⟩
    · show _ ∧ _
      rw [State.core_count]
      exact set s rfl _
    · rw [State.core_count]
      exact mailKept q _
  · have run : exec (.messageAck c k) s =
        .next ((s.modCore c fun q => { q with outq := q.outq.eraseIdx k }).serveEntry c .outbound) := by
      show execMessageAck c k s = _
      unfold execMessageAck
      rw [here]
      exact if_pos accepted
    exact ⟨_, run, (State.outq_serveEntry _ c c _).trans (congrArg Core.outq (s.core_modCore c _).1)⟩
  · refine ⟨_, State.messageNack_eq here nacked, rfl, fun j x h => ?_⟩
    rw [(s.core_modCore c _).1, getElem?_map_drop _ _ h, OutMsg.again]
    by_cases behind : k ≤ j
    · rw [if_pos behind]
      exact congrArg some (if_congr (⟨fun same => ⟨behind, same⟩, And.right⟩) rfl rfl)
    · rw [if_neg behind, if_neg fun same => behind same.1]
  · refine ⟨_, State.messageReplay_eq here (by rw [OutMsg.due, waits]; simpa using passed), rfl, fun j x h => ?_⟩
    rw [(s.core_modCore c _).1, List.getElem?_map, h]
    refine congrArg some ?_
    obtain ⟨gid, dest, core, sender, src, kind, payload, seq, st⟩ := x
    cases st with
    | replay n => exact if_congr (by rw [OutMsg.due, decide_eq_true_iff]) rfl rfl
    | flying | nacked | accepted => exact if_neg Bool.false_ne_true

end Sys2Proof.Machine

namespace Sys2Proof.Machine

open Sys2Proof

/-! ## The instructions of messages (R93, R104 to R106) -/

section
variable {s : State} {dest : Nat} {a payload : Word} {nb : BitVec 1}

/-- A release step at `core` or `die` starts nothing (R132). -/
theorem State.releaseStep_near {scope : Nat} (near : scope < 3) (done : s.established s.cur scope = true) :
    s.releaseStep scope = (s, true) := by
  unfold State.releaseStep
  dsimp only
  rw [if_pos near, done, if_neg fun wide => absurd wide.2 (Nat.not_le.2 near)]

/-- Whether a message to a thread awaits replay on the core of the thread in execution (R94, R104). -/
def State.awaitsReplay (s : State) (dest : Nat) : Prop :=
  ∃ x ∈ (s.core s.myCore).outq, x.dest = dest ∧ ∃ due, x.st = .replay due

theorem State.awaitsReplay_iff : s.awaitsReplay dest ↔ (s.core s.myCore).outq.any (fun m => decide (m.dest = dest) &&
    (match m.st with | .replay _ => true | _ => false)) = true := by
  rw [List.any_eq_true]
  refine exists_congr fun x => and_congr_right fun _ => ?_
  rw [Bool.and_eq_true, decide_eq_true_iff]
  refine and_congr_right fun _ => ⟨fun ⟨due, e⟩ => by rw [e], fun e => ?_⟩
  split at e
  · next due st => exact ⟨due, st⟩
  · exact absurd e Bool.false_ne_true

theorem State.outbound_full (waits : s.awaitsReplay dest) : s.outbound a dest = .stop s .full (.outbound s.myCore dest) :=
  if_pos (State.awaitsReplay_iff.1 waits)

/-- The queue takes the message of an operation that has waited for nothing where an entry is free. -/
theorem State.outbound_free (free : ¬ s.awaitsReplay dest) (room : (s.core s.myCore).entriesUsed .outbound < 16)
    (unclaimed : s.unclaimed a) : s.outbound a dest = .ok s .log := by
  refine (if_neg (mt State.awaitsReplay_iff.2 free)).trans ?_
  rw [unclaimed.1]
  exact if_pos room

/-- Queueing a message leaves an operation that holds no claim without one. -/
theorem State.unclaimed_queueMail (unclaimed : s.unclaimed a) (kind : Nat) : (s.queueMail dest payload kind).unclaimed a := by
  have core : (s.queueMail dest payload kind).core s.myCore = _ := (State.core_modCore _ s.me.core _).1
  unfold State.unclaimed
  rw [show (s.queueMail dest payload kind).myCore = s.myCore from rfl, core]
  exact unclaimed

end

/-- Settles O23: each instruction reads off the queue or the mailbox what it does, and then completes or stops. -/
theorem messageInstructions : Obligations.MessageInstructions := by
  unfold Obligations.MessageInstructions
  intro s rd rs1 rs2 nb dest m pre post a c waiting
  have sent (named : s.mailDest a = some dest) (done : s.established s.cur 1 = true) :
      exec (.msend rs1 rs2 nb) s = (match s.outbound a dest with
      | .stop s c w => .next (s.notReady nb c w)
      | .ok s _ => .next ((((s.queueMail dest (s.me.reg rs2) 0).endOp a).modMe Thread.released).completeP nb .rdy)
      | _ => .next s) := by
    show execMsend rs1 rs2 nb s = _
    unfold execMsend
    dsimp only
    rw [named]
    dsimp only
    rw [State.releaseStep_near (by decide) done]
    rfl
  refine ⟨fun none => State.ends_of ?_, fun far => if_neg (Nat.not_lt.2 far), fun named done waits => State.stops_of ?_,
    fun named done free room unclaimed => ?_, fun held own first => ?_, fun empty => State.stops_of ?_, fun none => ?_,
    fun src kind last => ?_⟩
  · show execMsend rs1 rs2 nb s = _
    unfold execMsend
    dsimp only
    rw [none]
  · rw [sent named done, State.outbound_full waits]
  · rw [sent named done, State.outbound_free free room unclaimed]
    obtain ⟨only, others, cores, progressed, me⟩ := State.completeP_modMe (f := Thread.released)
      (State.endOp_unclaimed _ a (State.unclaimed_queueMail (dest := dest) (payload := s.me.reg rs2) unclaimed 0)) rfl nb rfl
    have queued := State.core_modCore { s with wakeSeq := s.wakeSeq + 1 } c (fun k => { k with outq := k.outq ++
      [{ gid := s.me.gid, dest := dest, core := if (s.thr dest).st = .migrating then (s.thr dest).target else (s.thr dest).core,
         sender := s.cur, src := s.me.index, kind := 0, payload := s.me.reg rs2, seq := s.wakeSeq, st := .flying }] })
    refine ⟨_, rfl, only, progressed, others, fun k => ?_, fun k other => ?_, ?_, me⟩
    · rw [cores]
      by_cases e : k = c
      · rw [e]
        exact queued.1.trans (by rw [show (s.queueMail dest (s.me.reg rs2) 0).core c = _ from queued.1]; rfl)
      · exact (queued.2 k e).trans (by rw [show (s.queueMail dest (s.me.reg rs2) 0).core k = _ from queued.2 k e]; rfl)
    · rw [cores]
      exact congrArg Core.outq (queued.2 k other)
    · rw [cores]
      exact ⟨_, congrArg Core.outq queued.1, rfl, rfl, rfl, rfl, rfl, rfl, rfl⟩
  · have found : (s.core c).mail.find? (fun x => decide (x.dest = s.cur)) = some m := by
      rw [held, List.find?_append, List.find?_eq_none.2 fun x mem => by simpa using first x mem]
      exact List.find?_cons_of_pos (p := fun x : Mail => decide (x.dest = s.cur)) (decide_eq_true own)
    have taken : (s.core c).mail.eraseP (fun x => decide (x.dest = s.cur)) = pre ++ post := by
      rw [held, List.eraseP_append_right _ fun x mem => by simpa using first x mem]
      exact congrArg (pre ++ ·) (List.eraseP_cons_of_pos (decide_eq_true own))
    have gid : (s.me.setReg rd m.payload).gid = s.me.gid := by unfold Thread.setReg; split <;> rfl
    have run : exec (.mrecv rd nb) s = .next (((s.modCore c (fun k => { k with
        mail := k.mail.eraseP (fun x => decide (x.dest = s.cur)) })).modMe (fun t => { t.setReg rd m.payload with
        last := some (m.src, m.kind) })).completeP nb .rdy) := by
      show execMrecv rd nb s = _
      unfold execMrecv
      dsimp only
      rw [found]
      rfl
    obtain ⟨only, others, cores, progressed, me⟩ := State.completeP_modMe (.refl (s.modCore c (fun k => { k with
        mail := k.mail.eraseP (fun x => decide (x.dest = s.cur)) })) _)
      (f := fun t => { t.setReg rd m.payload with last := some (m.src, m.kind) }) gid nb rfl
    refine ⟨_, run, only, progressed, others, ?_, fun q => ?_, ?_⟩
    · rw [cores]
      exact (congrArg Core.mail (s.core_modCore c _).1).trans taken
    · refine (congrArg (Thread.reg · q) me).trans ((s.me.reg_setReg rd _ q).trans ?_)
      by_cases h : q = rd
      · subst h; simp
      · simp [h]
    · refine me.trans (.trans ?_ (congrArg (fun r : Thread => { s.me.completed nb .rdy with
        regs := r.regs, last := some (m.src, m.kind) }) me.symm))
      show ({ (s.me.setReg rd m.payload) with last := some (m.src, m.kind) } : Thread).completed nb .rdy = _
      unfold Thread.setReg
      split <;> rfl
  · show execMrecv rd nb s = _
    unfold execMrecv
    dsimp only
    rw [List.find?_eq_none.2 fun x mem => by simpa using empty x mem]
  · refine State.results_of (.refl s _) ?_
    show execMfrom rd nb s = _
    unfold execMfrom
    rw [none]
  · refine State.results_of (.refl s _) ?_
    show execMfrom rd nb s = _
    unfold execMfrom
    rw [last]

end Sys2Proof.Machine

namespace Sys2Proof.Machine

open Sys2Proof

/-! # Moving (R91, R95, R103) -/

section
variable {s : State} {ea : Word} {e : TlbEntry} {rs1 : BitVec 4} {b target : Nat}

/-- A translation that the core holds, with nothing logged for the page, is taken at once (R272, R277). -/
theorem State.translate_held (held : s.translated ea e) (need : Need) (write : Bool) :
    s.translate ea need write = .held s e := by
  obtain ⟨hit, empty⟩ := held
  unfold State.translate
  dsimp only
  rw [empty, if_neg fun logged => logged.1 rfl, show s.tlbHit s.me.core s.myCtx ea.toNat = some e from hit]

/-- `go` to an address of a page whose translation is held. -/
theorem State.go_held (paged : s.span s.cur (s.me.reg rs1) 1 false = .paged) (held : s.translated (s.me.reg rs1) e)
    (memory : paClass (leafPa e.level e.pte.toNat (s.me.reg rs1).toNat) ≠ .device) (reads : pteR e.pte.toNat = true) :
    exec (.go rs1) s = if !pteT e.pte.toNat then .next ((s.endOp (s.me.reg rs1)).complete 1 .denied)
      else .next (s.goTo (s.me.reg rs1) (e.home (leafPa e.level e.pte.toNat (s.me.reg rs1).toNat / 128))) := by
  show execGo rs1 s = _
  unfold execGo
  dsimp only
  rw [paged]
  dsimp only
  rw [State.translate_held held]
  dsimp only
  rw [reads]
  exact if_neg fun bad => bad.elim memory Bool.false_ne_true

/-- `go` to an address of a local memory. -/
theorem State.go_lm (spans : s.span s.cur (s.me.reg rs1) 1 false = .lm b) :
    exec (.go rs1) s = .next (s.goTo (s.me.reg rs1) (b / 0x40000)) := by
  show execGo rs1 s = _
  unfold execGo
  dsimp only
  rw [spans]

/-- Whether the thread in execution may move to a core (R103). -/
def State.mayMove (s : State) (target : Nat) : Prop :=
  s.me.dirty = false ∧ s.myGrp.forme = true ∧ coreForme target = coreForme s.myCore ∧ target ∈ s.myGrp.cores

theorem State.mayMove_iff : (s.me.dirty || !s.myGrp.forme || coreForme target ≠ coreForme s.me.core ||
    !s.myGrp.cores.contains target) = true ↔ ¬ s.mayMove target := by
  unfold State.mayMove State.myCore
  cases s.me.dirty <;> cases s.myGrp.forme <;> simp [Classical.or_iff_not_imp_left]

theorem State.goTo_here (here : target = s.myCore) : s.goTo ea target = (s.endOp ea).completeP 1 .rdy := if_pos here

theorem State.goTo_denied (away : target ≠ s.myCore) (may : ¬ s.mayMove target) :
    s.goTo ea target = (s.endOp ea).complete 1 .denied := (if_neg away).trans (if_pos (State.mayMove_iff.2 may))

/-- A thread on its way to a core (R103). -/
def Thread.leaving (target : Nat) (t : Thread) : Thread :=
  { t with st := .migrating, target := target, wake := none, oc := 9 }.retire

/-- A state whose thread in execution goes to a core (R103). -/
def State.departs (s : State) (target : Nat) : State := ((s.leaveSlot s.cur).modMe (Thread.leaving target)).countMe 0x1009

theorem State.goTo_moves (away : target ≠ s.myCore) (may : s.mayMove target) :
    s.goTo ea target = (s.endAllClaims s.cur).departs target := by
  refine ((if_neg away).trans (if_neg fun no => State.mayMove_iff.1 no may)).trans ?_
  rw [State.departs, (s.endAllClaims_frame _).cur]
  rfl

theorem State.departs_frame (s : State) (target : Nat) : Frame [.fThreads, .fCores, .fDies] s (s.departs target) :=
  (((Frame.refl _ s).modThr _ _).modMe _).countMe _

theorem State.claims_departs (s : State) (target k : Nat) : ((s.departs target).core k).claims = (s.core k).claims := by
  unfold State.departs
  rw [State.countMe, State.core_count]
  rfl

/-- A thread leaves with nothing but its place, its outcome and its counts changed. -/
theorem State.me_departs (s : State) (target : Nat) : ∃ cycles, (s.departs target).me =
    { s.me with st := .migrating, target := target, oc := 9, wake := none, slot := none, cycles := cycles,
                pc := s.me.pc + 4, instret := s.me.instret + 1 } := by
  have left : (s.leaveSlot s.cur).me = _ := (State.thr_setThr ..).trans (if_pos rfl)
  exact ⟨_, (State.me_countMe ..).trans ((State.me_modMe ..).trans (congrArg (Thread.leaving target) left))⟩

end

section
variable {s : State} {u slot : Nat}

/-- A thread in a slot of the core that it was on its way to (R91, R103). -/
def Thread.landed (slot rank woken now : Nat) (t : Thread) : Thread :=
  { t with st := .ready, core := t.target, slot := some slot, slotFrom := now, rank := rank, moves := t.moves + 1,
           wokenAt := woken, trail := (t.trail ++ [t.core]).dedup.filter (fun x => decide (x ≠ t.target)) }

/-- The mail of a thread taken from one core and put behind that of another (R95). -/
def State.carryMail (s : State) (u source target : Nat) : State :=
  (s.modCore source (fun k => { k with mail := k.mail.filter (fun m => decide (m.dest ≠ u)) })).modCore target
    (fun k => { k with mail := k.mail ++ (s.core source).mail.filter (fun m => decide (m.dest = u)) })

theorem State.mail_carryMail (s : State) (u : Nat) {source target : Nat} (moved : target ≠ source) :
    ((s.carryMail u source target).core target).mail =
      (s.core target).mail ++ (s.core source).mail.filter (fun m => decide (m.dest = u)) ∧
    ∀ m ∈ ((s.carryMail u source target).core source).mail, m.dest ≠ u := by
  have taken := s.core_modCore source (fun k => { k with mail := k.mail.filter (fun m => decide (m.dest ≠ u)) })
  have put := (s.modCore source (fun k => { k with mail := k.mail.filter (fun m => decide (m.dest ≠ u)) })).core_modCore target
    (fun k => { k with mail := k.mail ++ (s.core source).mail.filter (fun m => decide (m.dest = u)) })
  unfold State.carryMail
  rw [put.1, put.2 source (Ne.symm moved), taken.1, taken.2 target moved]
  exact ⟨rfl, fun m mem => of_decide_eq_true (List.mem_filter.1 mem).2⟩

/-- A MIGRATING thread, with its messages, takes an EMPTY slot of the core that it is on its way to (R91, R95). -/
theorem State.migrationArrival_lands (moves : (s.thr u).st = .migrating)
    (fits : ((s.core (s.thr u).core).mail.filter (fun m => decide (m.dest = u))).length +
      (s.core (s.thr u).target).mail.length ≤ 32) (free : s.freeSlot (s.thr u).target = some slot) :
    exec (.migrationArrival u) s = .next (State.setThr { s.carryMail u (s.thr u).core (s.thr u).target with
      wakeSeq := s.wakeSeq + 1 } u ((s.thr u).landed slot
        ((s.grp (s.thr u).gid).cores.findIdx (fun x => decide (x = (s.thr u).target))) s.wakeSeq
        (s.now (coreDie (s.thr u).target)))) := by
  have run : exec (.migrationArrival u) s = execMigrationArrival u s := rfl
  unfold execMigrationArrival at run
  dsimp only at run
  rw [if_pos ⟨moves, fits, .inl (by rw [free]; rfl)⟩, free] at run
  dsimp only at run
  rw [State.takeSlot, State.modThr_modThr, State.modThr_modThr] at run
  exact run

end

/-- Settles O22: what `go` finds decides between a completion and a departure, and an arrival lands the thread. -/
theorem moving : Obligations.Moving := by
  unfold Obligations.Moving
  intro s rs1 b target e u slot ea pa held names inside old c mine
  have goes (at_ : names) : exec (.go rs1) s = .next (s.goTo ea target) := by
    rcases at_ with ⟨spans, rfl⟩ | ⟨⟨paged, translated, memory, reads⟩, tracked, rfl⟩
    · exact State.go_lm spans
    · rw [State.go_held paged translated memory reads, tracked]
      rfl
  refine ⟨fun at_ here unclaimed => ?_, fun at_ away out unclaimed => ?_, fun at_ untracked unclaimed => ?_,
    fun at_ away may issues => ?_, fun moves away fits free => ?_⟩
  · exact State.results_none_of (State.endOp_unclaimed s ea unclaimed)
      ((goes at_).trans (congrArg Host.Outcome.next (State.goTo_here here)))
  · exact State.ends_of_same (State.endOp_unclaimed s ea unclaimed) (by decide)
      ((goes at_).trans (congrArg Host.Outcome.next (State.goTo_denied away out)))
  · obtain ⟨paged, translated, memory, reads⟩ := at_
    refine State.ends_of_same (State.endOp_unclaimed s ea unclaimed) (by decide) ?_
    rw [State.go_held paged translated memory reads, untracked]
    rfl
  · have frame : Frame (claimFields ++ [.fDies]) s ((s.endAllClaims s.cur).departs target) :=
      ((s.endAllClaims_frame _).mono (by decide)).trans ((State.departs_frame _ _).mono (by decide))
    refine ⟨_, (goes at_).trans (congrArg Host.Outcome.next (State.goTo_moves away may)), frame.mem, frame.lm, frame.acc,
      fun x mem => ?_, ?_⟩
    · rw [State.claims_departs] at mem
      exact s.endAllClaims_none s.cur x mem
    · have ended := ((State.endAllClaims_marks s.cur s s.cur).keeps (Thread.calm_of_issues issues)).eq
      obtain ⟨cycles, me⟩ := (s.endAllClaims s.cur).me_departs target
      have stands : (s.endAllClaims s.cur).me = _ :=
        (congrArg (s.endAllClaims s.cur).thr (s.endAllClaims_frame _).cur).trans ended
      rw [stands] at me
      rw [me]
      rfl
  · obtain ⟨arrives, leaves⟩ := s.mail_carryMail u away
    have landed (q : State) (t : Thread) : (q.setThr u t).thr u = t := (State.thr_setThr ..).trans (if_pos rfl)
    refine ⟨_, State.migrationArrival_lands moves fits free, rfl, arrives, leaves,
      fun v other => (State.thr_setThr ..).trans (if_neg other), ?_, fun rank => ?_⟩
    · rw [landed]
      rfl
    · rw [landed]
      have found : (s.grp old.gid).cores.findIdx (fun x => decide (x = c)) < (s.grp old.gid).cores.length :=
        List.findIdx_lt_length_of_exists ⟨c, rank, decide_eq_true rfl⟩
      exact (List.getElem?_eq_getElem found).trans (congrArg some (of_decide_eq_true (List.findIdx_getElem (w := found))))

end Sys2Proof.Machine

namespace Sys2Proof.Machine

open Sys2Proof

/-! # Swaps and hold windows (R85, R87, R91, R298) -/

/-! ## Windows of reservations -/

/-- A state seen through an operation whose new reservations, of claims and of table entries, have a window that closes
later (R87, R298). -/
structure Reserves (s t : State) : Prop where
  cyc : t.cyc = s.cyc
  place : ∀ u, (t.thr u).core = (s.thr u).core
  claim : ∀ c, ∀ x ∈ (t.core c).reserved, x ∈ (s.core c).reserved ∨ s.now (coreDie c) < x.closes
  entry : ∀ d, ∀ x ∈ (t.die d).tableRes, x ∈ (s.die d).tableRes ∨ s.now (coreDie (s.thr x.uid).core) < x.closes

section
variable {s t r : State}

theorem Reserves.refl (s : State) : Reserves s s := ⟨rfl, fun _ => rfl, fun _ _ m => .inl m, fun _ _ m => .inl m⟩

theorem Reserves.trans (h : Reserves s t) (g : Reserves t r) : Reserves s r := by
  have now (k : Nat) : t.now k = s.now k := by rw [State.now, State.now, h.cyc]
  refine ⟨g.cyc.trans h.cyc, fun u => (g.place u).trans (h.place u), fun c x m => ?_, fun d x m => ?_⟩
  · rcases g.claim c x m with before | later
    · exact h.claim c x before
    · exact .inr (now _ ▸ later)
  · rcases g.entry d x m with before | later
    · exact h.entry d x before
    · rw [h.place, now] at later
      exact .inr later

theorem Reserves.foldl {α : Type} {f : State → α → State} (h : ∀ s x, Reserves s (f s x)) (l : List α) :
    ∀ s, Reserves s (l.foldl f s) := by
  induction l with
  | nil => exact .refl
  | cons x l ih => exact fun s => (h s x).trans (ih _)

theorem Reserves.fireIf (h : Reserves s t) (p : Nat → Thread → WakeCond → Bool) : Reserves s (t.fireIf p) := by
  refine h.trans ⟨rfl, fun u => ?_, fun _ _ m => .inl m, fun _ _ m => .inl m⟩
  rw [State.thr_fireIf]
  split
  · rw [(Thread.fired_fire _ _).eq]
  · rfl

theorem State.serveBudgetOnce_reserves (s : State) (c : Nat) : Reserves s (s.serveBudgetOnce c) := by
  unfold State.serveBudgetOnce
  dsimp only
  split
  · exact .refl s
  · split
    · refine Reserves.fireIf (s := s) ?_ _
      refine ⟨rfl, fun _ => rfl, fun k x m => ?_, fun _ _ m => .inl m⟩
      rw [State.core_setCore] at m
      split at m
      · next e =>
        rcases List.mem_append.1 m with before | new
        · exact .inl (e ▸ before)
        · rw [List.mem_singleton.1 new, e]
          exact .inr (Nat.lt_add_of_pos_right (by decide))
      · exact .inl m
    · exact .refl s

theorem State.serveTableOnce_reserves (s : State) (d : Nat) : Reserves s (s.serveTableOnce d) := by
  unfold State.serveTableOnce
  dsimp only
  split
  · exact .refl s
  · split
    · refine Reserves.fireIf (s := s) ?_ _
      refine ⟨rfl, fun _ => rfl, fun _ _ m => .inl m, fun k x m => ?_⟩
      rw [State.die_setDie] at m
      split at m
      · next e =>
        rcases List.mem_append.1 m with before | new
        · exact .inl (e ▸ before)
        · rw [List.mem_singleton.1 new]
          exact .inr (Nat.lt_add_of_pos_right (by decide))
      · exact .inl m
    · exact .refl s

theorem State.serveBudget_reserves (s : State) (c : Nat) : Reserves s (s.serveBudget c) :=
  .foldl (fun s _ => s.serveBudgetOnce_reserves c) _ s

theorem State.serveTable_reserves (s : State) (d : Nat) : Reserves s (s.serveTable d) :=
  .foldl (fun s _ => s.serveTableOnce_reserves d) _ s

end

/-! ## The close of a window -/

/-- Whether the window of a thread's claim is past (R85). -/
def Claim.late (u now : Nat) (x : Claim) : Bool := decide (x.uid = u) && x.opened && decide (x.closes ≤ now)

/-- Whether the window of a thread's reserved claim is past (R87). -/
def Hold.due (u now : Nat) (x : Hold) : Bool := decide (x.op.uid = u ∧ x.closes ≤ now) && x.opened

/-- Whether the window of a thread's reserved table entry is past (R298). -/
def TableHold.lapsed (u now : Nat) (x : TableHold) : Bool := decide (x.uid = u ∧ x.closes ≤ now) && x.opened

section
variable {s : State} {c u d now : Nat}

theorem Claim.late_iff {x : Claim} : x.late u now = true ↔ x.uid = u ∧ x.opened = true ∧ x.closes ≤ now := by
  rw [Claim.late, Bool.and_eq_true, Bool.and_eq_true, decide_eq_true_iff, decide_eq_true_iff, and_assoc]

theorem Hold.due_iff {x : Hold} : x.due u now = true ↔ x.op.uid = u ∧ x.opened = true ∧ x.closes ≤ now := by
  rw [Hold.due, Bool.and_eq_true, decide_eq_true_iff, and_assoc, and_comm (b := x.opened = true)]

theorem TableHold.lapsed_iff {x : TableHold} :
    x.lapsed u now = true ↔ x.uid = u ∧ x.opened = true ∧ x.closes ≤ now := by
  rw [TableHold.lapsed, Bool.and_eq_true, decide_eq_true_iff, and_assoc, and_comm (b := x.opened = true)]

theorem State.holdWindowClose_eq (kind : Nat) : exec (.holdWindowClose kind c u) s =
    if kind = 0 ∧ (s.core c).claims.any (Claim.late u (s.now (coreDie c))) then
      .next (s.endClaims c (Claim.late u (s.now (coreDie c))))
    else if kind = 1 ∧ (s.core c).reserved.any (Hold.due u (s.now (coreDie c))) then .next ((s.setCore c { s.core c with
      reserved := (s.core c).reserved.filter (fun x => !x.due u (s.now (coreDie c))) }).serveBudget c)
    else match [0, 1, 2, 3].find? (fun d => (s.die d).tableRes.any (TableHold.lapsed u (s.now (coreDie c)))) with
      | some d =>
        if kind = 2 ∧ (s.thr u).core = c then .next ((s.modDie d (fun x => { x with
          tableRes := x.tableRes.filter (fun y => !y.lapsed u (s.now (coreDie c))) })).serveTable d)
        else notEnabled "HOLD_WINDOW_CLOSE"
      | none => notEnabled "HOLD_WINDOW_CLOSE" := rfl

theorem State.holdWindowClose_claims (late : (s.core c).claims.any (Claim.late u (s.now (coreDie c))) = true) :
    exec (.holdWindowClose 0 c u) s = .next (s.endClaims c (Claim.late u (s.now (coreDie c)))) := by
  rw [State.holdWindowClose_eq, if_pos ⟨rfl, late⟩]

theorem State.holdWindowClose_reserved (late : (s.core c).reserved.any (Hold.due u (s.now (coreDie c))) = true) :
    exec (.holdWindowClose 1 c u) s = .next ((s.setCore c { s.core c with
      reserved := (s.core c).reserved.filter (fun x => !x.due u (s.now (coreDie c))) }).serveBudget c) := by
  rw [State.holdWindowClose_eq, if_neg fun other => absurd other.1 (by decide), if_pos ⟨rfl, late⟩]

/-- The first die that holds a reservation of the thread with its window past. -/
theorem State.find_lapsed (die : d < 4) (late : (s.die d).tableRes.any (TableHold.lapsed u now) = true)
    (first : ∀ k, k < d → (s.die k).tableRes.any (TableHold.lapsed u now) = false) :
    [0, 1, 2, 3].find? (fun d => (s.die d).tableRes.any (TableHold.lapsed u now)) = some d := by
  have parts : ∀ d < 4, [0, 1, 2, 3] = (List.range 4).take d ++ d :: (List.range 4).drop (d + 1) := by decide
  refine List.find?_eq_some_iff_append.2 ⟨late, _, _, parts d die, fun k m => ?_⟩
  have lt : k < d := by
    rw [List.take_range, List.mem_range] at m
    omega
  rw [first k lt]
  rfl

theorem State.holdWindowClose_entries (place : (s.thr u).core = c) (die : d < 4)
    (late : (s.die d).tableRes.any (TableHold.lapsed u (s.now (coreDie c))) = true)
    (first : ∀ k, k < d → (s.die k).tableRes.any (TableHold.lapsed u (s.now (coreDie c))) = false) :
    exec (.holdWindowClose 2 c u) s = .next ((s.modDie d (fun x => { x with
      tableRes := x.tableRes.filter (fun y => !y.lapsed u (s.now (coreDie c))) })).serveTable d) := by
  rw [State.holdWindowClose_eq, if_neg fun other => absurd other.1 (by decide), if_neg fun other => absurd other.1 (by decide),
    State.find_lapsed die late first]
  exact if_pos ⟨rfl, place⟩

end

/-! ## Swaps -/

section
variable {s : State} {c u k : Nat}

/-- A parked thread in a slot (R91). -/
def Thread.seated (k now : Nat) (t : Thread) : Thread :=
  { t with st := .ready, runnable := false, prio := true, slot := some k, slotFrom := now }

theorem State.swapIn_eq (free : s.freeSlot c = some k)
    (first : leastBy (fun v => (s.thr v).wokenAt) (s.runnables c) = some u) : s.swapIn c =
      some ((s.setThr u ((s.thr u).seated k (s.now (coreDie (s.thr u).core)))).parkFreed (s.ctxOf u)) := by
  unfold State.swapIn
  rw [free, first]
  dsimp only
  rw [State.takeSlot, State.modThr_modThr]
  rfl

/-- A WAITING thread goes to the park area (R91). -/
theorem State.swapOut_eq
    (first : leastBy (fun v => (s.thr v).waitFrom) ((s.threads.filter (fun x => decide (x.2.core = c ∧ x.2.st = .waiting) &&
      x.2.slot.isSome && !x.2.saved)).map (·.1)) = some u)
    (full : s.freeSlot c = none) (waits : s.runnables c ≠ []) (room : s.parkFree (s.ctxOf u) = true) :
    ∃ cycles ctx, exec (.swapOut c) s = .next ((s.setThr u { s.thr u with
      st := .parked, runnable := false, slot := none, cycles := cycles }).count c ctx 0x1011 1) := by
  have run : exec (.swapOut c) s = execSwapOut c s := rfl
  unfold execSwapOut at run
  dsimp only at run
  rw [first] at run
  dsimp only at run
  rw [full, if_pos ⟨rfl, waits⟩, room, State.leaveSlot, State.modThr_modThr] at run
  exact ⟨_, _, run⟩

end

/-- Settles O25: a swap moves the one thread that it picks, and what a close of windows serves anew has a later window. -/
theorem slotEvents : Obligations.SlotEvents := by
  unfold Obligations.SlotEvents
  intro s c u k d waiting now due lapsed
  refine ⟨fun free first idle parked => ?_, fun first full waits room => ?_, fun late => ?_, fun late => ?_,
    fun die late here before => ?_⟩
  · have issues : ((s.thr u).seated k (s.now (coreDie (s.thr u).core))).issues := ⟨rfl, idle⟩
    have run : exec (.swapIn c) s = execSwapIn c s := rfl
    rw [execSwapIn, State.swapIn_eq free first] at run
    refine ⟨_, run, rfl, ?_⟩
    have seated : (s.setThr u ((s.thr u).seated k (s.now (coreDie (s.thr u).core)))).thr u = _ :=
      (State.thr_setThr ..).trans (if_pos rfl)
    rw [State.parkFreed, State.fire, State.thr_fireIf, seated]
    split
    · obtain ⟨w, fired⟩ := Thread.fire_of_issues _ _ issues
      rw [fired]
      rfl
    · rfl
  · obtain ⟨cycles, ctx, run⟩ := State.swapOut_eq first full waits room
    refine ⟨_, run, fun v other => ?_, ?_, rfl, rfl⟩
    · rw [State.thr_count, State.thr_setThr, if_neg other]
    · rw [State.thr_count, State.thr_setThr, if_pos rfl]
  · have pending : (s.core c).claims.any (Claim.late u now) = true :=
      List.any_eq_true.2 (late.imp fun x ⟨m, past⟩ => ⟨m, Claim.late_iff.2 past⟩)
    refine ⟨_, State.holdWindowClose_claims pending, fun y m ⟨own, opened, closes⟩ => ?_⟩
    obtain ⟨x, m, becomes⟩ := (s.endClaims_stirs c (Claim.late u now)).2.claims c y m
    rw [State.core_setCore, if_pos rfl, List.mem_filter] at m
    have past := Claim.late_iff.2 ⟨becomes.uid.symm.trans own, becomes.past opened closes⟩
    exact absurd m.2 (by rw [show x.late u now = true from past]; decide)
  · have pending : (s.core c).reserved.any (Hold.due u now) = true :=
      List.any_eq_true.2 (late.imp fun x ⟨m, past⟩ => ⟨m, Hold.due_iff.2 past⟩)
    refine ⟨_, State.holdWindowClose_reserved pending, fun x m past => ?_⟩
    rcases (State.serveBudget_reserves _ c).claim c x m with before | later
    · rw [State.core_setCore, if_pos rfl, List.mem_filter] at before
      exact absurd before.2 (by rw [show x.due u now = true from Hold.due_iff.2 past]; decide)
    · exact absurd past.2.2 (Nat.not_le.2 later)
  · have pending : (s.die d).tableRes.any (TableHold.lapsed u now) = true :=
      List.any_eq_true.2 (late.imp fun x ⟨m, past⟩ => ⟨m, TableHold.lapsed_iff.2 past⟩)
    have first (k : Nat) (lt : k < d) : (s.die k).tableRes.any (TableHold.lapsed u now) = false :=
      List.any_eq_false.2 fun x m past => before k lt x m (TableHold.lapsed_iff.1 past)
    refine ⟨_, State.holdWindowClose_entries here die pending first, fun x m past => ?_⟩
    rcases (State.serveTable_reserves _ d).entry d x m with before | later
    · rw [State.modDie_eq, State.die_setDie, if_pos rfl, List.mem_filter] at before
      exact absurd before.2 (by rw [show x.lapsed u now = true from TableHold.lapsed_iff.2 past]; decide)
    · refine absurd past.2.2 (Nat.not_le.2 ?_)
      have place : ((s.modDie d (fun x => { x with
        tableRes := x.tableRes.filter (fun y => !y.lapsed u now) })).thr x.uid).core = c := by rw [past.1]; exact here
      rw [place] at later
      exact later

end Sys2Proof.Machine

namespace Sys2Proof.Machine

open Sys2Proof

/-! # What reaches a core (R85, R90, R116, R125, R128, R129) -/

/-! ## Lines of an L1 -/

theorem findLine_dropLine (n l : Nat) (k : List L1Line) :
    findLine l (dropLine n k) = if l = n then none else findLine l k := by
  induction k with
  | nil => exact (ite_self _).symm
  | cons x k ih =>
    unfold dropLine at ih ⊢
    by_cases gone : x.line = n
    · rw [List.filter_cons_of_neg (by simpa using gone), ih]
      by_cases same : l = n
      · rw [if_pos same, if_pos same]
      · rw [if_neg same, if_neg same, findLine, if_neg fun e => same (e.symm.trans gone)]
    · rw [List.filter_cons_of_pos (by simpa using gone), findLine, findLine, ih]
      by_cases here : x.line = l
      · rw [if_pos here, if_pos here, if_neg fun e => gone (here.trans e)]
      · rw [if_neg here, if_neg here]

theorem Core.line_delLine (k : Core) (n l : Nat) : (k.delLine n).line l = if l = n then none else k.line l :=
  findLine_dropLine ..

theorem Core.line_putLine (k : Core) (x : L1Line) (l : Nat) :
    (k.putLine x).line l = if l = x.line then some x else k.line l := by
  show findLine l (x :: dropLine x.line k.l1) = _
  rw [findLine, findLine_dropLine]
  by_cases here : l = x.line
  · rw [if_pos here, if_pos here.symm, if_pos here]
  · rw [if_neg here, if_neg (Ne.symm here), if_neg here]
    rfl

/-- A core with one line of its L1 changed by `f`. -/
def Core.editLine (k : Core) (n : Nat) (f : L1Line → L1Line) : Core :=
  { k with l1 := k.l1.map (fun y => if y.line = n then f y else y) }

theorem Core.line_editLine (k : Core) (n l : Nat) {f : L1Line → L1Line} (same : ∀ y, (f y).line = y.line) :
    (k.editLine n f).line l = if l = n then (k.line l).map f else k.line l := by
  unfold Core.line Core.editLine
  dsimp only
  induction k.l1 with
  | nil => exact (ite_self _).symm
  | cons x k ih =>
    rw [List.map_cons, findLine, findLine]
    have line : (if x.line = n then f x else x).line = x.line := by
      split
      · exact same x
      · rfl
    rw [line]
    by_cases here : x.line = l
    · rw [if_pos here, if_pos here, here]
      by_cases e : l = n
      · rw [if_pos e, if_pos e]
        rfl
      · rw [if_neg e, if_neg e]
    · rw [if_neg here, if_neg here, ih]

/-! ## Messages taken and answered -/

section
variable {s : State} {n : Nat} {m : Msg}

theorem State.take_delivers (h : s.Delivers n m) {ok : MsgKind → Bool} (kind : ok m.kind = true) :
    s.take n ok = some (m, { s with net := s.net.eraseIdx n }) := by
  obtain ⟨here, first, way, vault⟩ := h
  have passes : s.deliverable n m = true := by
    have open_ : (m.kind.brings && s.vaultHeld m.line) = false := by
      cases brings : m.kind.brings with
      | false => rfl
      | true => exact vault brings
    have oldest : (s.net.take n).any (fun x => decide (x.src = m.src ∧ x.dst = m.dst)) = false :=
      List.any_eq_false.2 fun x mem same => first x mem (of_decide_eq_true same)
    rw [State.deliverable, way, open_, oldest]
    rfl
  unfold State.take
  rw [here]
  exact if_pos (by rw [kind, passes]; rfl)

/-- What a core does to the line of a message, with its reply, as the whole of a step. -/
structure State.Performs (s : State) (n : Nat) (m : Msg) (y : Option L1Line) (x : MsgKind) (t : State) : Prop where
  line : (t.core m.dst).line m.line = y
  others : ∀ l, l ≠ m.line → (t.core m.dst).line l = (s.core m.dst).line l
  cores : ∀ q, q ≠ m.dst → t.core q = s.core q
  net : t.net = s.net.eraseIdx n ++ [{ src := m.dst, dst := m.src, line := m.line, kind := x }]
  mem : t.mem = s.mem
  threads : t.threads = s.threads

/-- The line stays as it is. -/
theorem State.performs_send {y : Option L1Line} (line : (s.core m.dst).line m.line = y) (x : MsgKind) :
    s.Performs n m y x ({ s with net := s.net.eraseIdx n }.send { src := m.dst, dst := m.src, line := m.line, kind := x }) :=
  ⟨line, fun _ _ => rfl, fun _ _ => rfl, rfl, rfl, rfl⟩

/-- The core is changed at the line alone. -/
theorem State.performs_modCore {y : Option L1Line} {f : Core → Core} (line : (f (s.core m.dst)).line m.line = y)
    (others : ∀ l, l ≠ m.line → (f (s.core m.dst)).line l = (s.core m.dst).line l) (x : MsgKind) :
    s.Performs n m y x ((State.modCore { s with net := s.net.eraseIdx n } m.dst f).send
      { src := m.dst, dst := m.src, line := m.line, kind := x }) := by
  obtain ⟨here, there⟩ := State.core_modCore { s with net := s.net.eraseIdx n } m.dst f
  exact ⟨(congrArg (Core.line · m.line) here).trans line, fun l other => (congrArg (Core.line · l) here).trans (others l other),
    there, rfl, rfl, rfl⟩

theorem State.performs_delLine (x : MsgKind) :
    s.Performs n m none x ((State.modCore { s with net := s.net.eraseIdx n } m.dst (fun k => k.delLine m.line)).send
      { src := m.dst, dst := m.src, line := m.line, kind := x }) :=
  State.performs_modCore ((Core.line_delLine ..).trans (if_pos rfl))
    (fun _ other => (Core.line_delLine ..).trans (if_neg other)) x

/-! ## Recalls (R90, R116) -/

/-- A recall is deferred while a claim would lose what it pins, and else performed. -/
theorem recallEvent_eq (h : s.Delivers n m) {k : MsgKind} (kind : m.kind = k) (name : String) : recallEvent s n k name =
    if (s.core m.dst).defers m.line k.leaves then
      .next (State.modCore { s with net := s.net.eraseIdx n } m.dst (fun c => { c with deferred := c.deferred ++ [m] }))
    else .next (State.performRecall { s with net := s.net.eraseIdx n } m.dst m) := by
  unfold recallEvent
  rw [State.take_delivers h (decide_eq_true kind)]
  rfl

theorem State.performRecall_gone (kind : m.kind = .inval ∨ m.kind = .shareRecall ∨ m.kind = .updRecall)
    (gone : (s.core m.dst).line m.line = none) : s.performRecall m.dst m =
      s.send { src := m.dst, dst := m.src, line := m.line, kind := .ack none 0 0 } := by
  unfold State.performRecall
  rw [gone]
  rcases kind with kind | kind | kind <;> rw [kind]

variable {x : L1Line}

theorem State.performRecall_inval (kind : m.kind = .inval) (held : (s.core m.dst).line m.line = some x) :
    s.performRecall m.dst m = (s.modCore m.dst (fun k => k.delLine m.line)).send
      { src := m.dst, dst := m.src, line := m.line, kind := .ack (if x.st = .m then some x.data else none) 0 0 } := by
  unfold State.performRecall
  rw [kind]
  dsimp only
  rw [held]

theorem State.performRecall_share (kind : m.kind = .shareRecall) (held : (s.core m.dst).line m.line = some x)
    (owned : x.st = .m ∨ x.st = .e) : s.performRecall m.dst m =
      (s.modCore m.dst (fun k => k.editLine m.line (fun y => { y with st := .s }))).send
        { src := m.dst, dst := m.src, line := m.line, kind := .ack (if x.st = .m then some x.data else none) 0 0 } := by
  unfold State.performRecall
  rw [kind]
  dsimp only
  rw [held]
  exact if_pos owned

theorem State.performRecall_upd {q : Nat} (kind : m.kind = .updRecall) (held : (s.core m.dst).line m.line = some x)
    (copy : x.st = .u q) : s.performRecall m.dst m = (s.modCore m.dst (fun k => k.delLine m.line)).send
      { src := m.dst, dst := m.src, line := m.line, kind := .ack (if x.valid = 0 then none else some x.data) x.valid q } := by
  unfold State.performRecall
  rw [kind]
  dsimp only
  rw [held]
  dsimp only
  rw [copy]

/-! ## Push fills (R116, R128) -/

theorem execPushFill_eq (h : s.Delivers n m) {d : BitVec 1024} (kind : m.kind = .pushFill d) : execPushFill n s =
    let q : State := { s with net := s.net.eraseIdx n }
    let k := s.core m.dst
    let reply (b : Bool) : Msg := { src := m.dst, dst := m.src, line := m.line, kind := .pushReply b }
    match k.line m.line with
    | some _ => .next (q.send (reply true))
    | none =>
      if k.pushq.toNat ≤ k.spCount ∨ (8 ≤ k.waysUsed m.line ∧ (k.victim m.line).isNone) then
        let ctx := match (s.entry m.line).req.bind (fun r => r.kind.requester) with | some u => s.ctxOf u | none => 4096
        .next ((q.count m.dst ctx 0x2002 1).send (reply false))
      else .next ((q.install m.dst { line := m.line, st := .sp, data := d, valid := 0, dirty := 0, home := m.src - 1024 }).send
        (reply true)) := by
  unfold execPushFill
  rw [State.take_delivers h (by rw [kind])]
  dsimp only
  rw [kind]
  rfl

/-- A line that the set has room for takes a free way (R111). -/
theorem State.install_free {c : Nat} (room : (s.core c).waysUsed x.line < 8) :
    s.install c x = s.modCore c (fun k => k.putLine x) := if_pos (.inr room)

end

/-! ## Grants (R85) -/

/-- A claim as it was, except for its stage and its window. -/
structure Claim.Alike (x y : Claim) : Prop where
  eq : y = { x with stage := y.stage, opened := y.opened, closes := y.closes }

theorem Claim.Alike.refl (x : Claim) : x.Alike x := ⟨rfl⟩

theorem Claim.Alike.trans {x y z : Claim} (h : x.Alike y) (k : y.Alike z) : x.Alike z := by
  refine ⟨?_⟩
  have e := k.eq
  rw [h.eq] at e
  exact e

/-- A claim that still waits is none of those that have become ready. -/
theorem Claim.readied_facts (uid : Nat) (pc ea : Word) (opened : Bool) (closes : Nat) (x : Claim) :
    x.Alike (x.readied uid pc ea opened closes) ∧ ((x.readied uid pc ea opened closes).stage = .waiting →
      x.stage = .waiting ∧ ¬ (x.uid = uid ∧ x.pc = pc ∧ x.ea = ea)) := by
  unfold Claim.readied
  split
  · refine ⟨⟨rfl⟩, fun waits => ?_⟩
    dsimp only at waits
    split at waits <;> exact nomatch waits
  · next other => exact ⟨.refl x, fun waits => ⟨waits, other⟩⟩

/-- A claim that waits after some have become ready waited before, and is none of them. -/
theorem State.waiting_claimReady_foldl (c : Nat) (l : List Claim) : ∀ s : State, ∀ y ∈
    ((l.foldl (fun s x => s.claimReady c x.uid x.pc x.ea) s).core c).claims, ∃ x ∈ (s.core c).claims, x.Alike y ∧
      (y.stage = .waiting → x.stage = .waiting ∧ ∀ z ∈ l, ¬ (x.uid = z.uid ∧ x.pc = z.pc ∧ x.ea = z.ea)) := by
  induction l with
  | nil => exact fun s y mem => ⟨y, mem, .refl y, fun waits => ⟨waits, fun _ => nofun⟩⟩
  | cons z l ih =>
    intro s y mem
    obtain ⟨w, mem, alike, rest⟩ := ih _ y mem
    rw [State.core_claimReady, (s.core_modCore c _).1, List.mem_map] at mem
    obtain ⟨x, mem, rfl⟩ := mem
    obtain ⟨same, first⟩ := Claim.readied_facts z.uid z.pc z.ea _ _ x
    refine ⟨x, mem, same.trans alike, fun waits => ?_⟩
    obtain ⟨waited, others⟩ := rest waits
    obtain ⟨waited, other⟩ := first waited
    refine ⟨waited, fun v m => ?_⟩
    rcases List.mem_cons.1 m with rfl | m
    · exact other
    · have key := others v m
      rw [same.eq] at key
      exact key

/-- What of a core its claims leave. -/
theorem State.l1_claimReady_foldl (c k : Nat) (l : List Claim) : ∀ s : State,
    ((l.foldl (fun s x => s.claimReady c x.uid x.pc x.ea) s).core k).l1 = (s.core k).l1 := by
  induction l with
  | nil => exact fun _ => rfl
  | cons z l ih =>
    intro s
    refine (ih _).trans ?_
    rw [State.core_claimReady]
    exact s.modCore_keeps Core.l1 rfl k

theorem State.wakeClaims_frame (s : State) (c line : Nat) : Frame [.fCores, .fThreads, .fWakeSeq] s (s.wakeClaims c line) :=
  Frame.foldl _ (fun s _ => s.claimReady_frame _ _ _ _) _ _

/-- Where a line is held, no claim that it serves waits for it after its claims have been woken (R85). -/
theorem State.served_wakeClaims (s : State) {c line : Nat} {l : L1Line} (held : (s.core c).line line = some l) :
    ∀ y ∈ ((s.wakeClaims c line).core c).claims, y.line = line → y.remote = false → servesNeed y.need l.st = true →
      y.stage ≠ .waiting := by
  intro y mem here near serves waits
  obtain ⟨x, mem, alike, before⟩ := State.waiting_claimReady_foldl c _ s y mem
  obtain ⟨waited, others⟩ := before waits
  rw [alike.eq] at here near serves
  refine others x (List.mem_filter.2 ⟨mem, ?_⟩) ⟨rfl, rfl, rfl⟩
  rw [held, near, decide_eq_true ⟨here, waited⟩]
  exact serves

/-- A grant of a line that the L1 holds nothing of, with a free way for it. -/
theorem State.putGrant_new {s : State} {c line home : Nat} {st : LState} {d : BitVec 1024}
    (gone : (s.core c).line line = none) (room : (s.core c).waysUsed line < 8) (plain : ∀ q, st ≠ .u q) :
    s.putGrant c line home st d = s.modCore c (fun k => k.putLine
      { line := line, st := st, data := d, valid := 0, dirty := 0, home := home }) := by
  unfold State.putGrant
  dsimp only
  rw [gone]
  dsimp only
  rw [State.install_free room]
  cases st with
  | u q => exact absurd rfl (plain q)
  | _ => rfl

theorem execClaimDataArrival_grant {s : State} {n uid : Nat} {m : Msg} {st : LState} {d : BitVec 1024} (h : s.Delivers n m)
    (kind : m.kind = .grant uid st d) (plain : ∀ q, st ≠ .u q) : execClaimDataArrival n s =
      .next (State.takeGrant { s with net := s.net.eraseIdx n } m.dst m.line (m.src - 1024) st d) := by
  unfold execClaimDataArrival
  rw [State.take_delivers h (by rw [kind])]
  dsimp only
  rw [kind]
  dsimp only
  have takes : (State.core { s with net := s.net.eraseIdx n } m.dst).holdsGrant m.line st = false := by
    cases st with
    | u q => exact absurd rfl (plain q)
    | _ => rfl
  rw [takes]
  rfl

/-! ## Completed pushes (R127, R129) -/

/-- A state seen through an operation that leaves the pushes that cores and threads wait for, and what they count. -/
structure KeepsPushes (s t : State) : Prop where
  queue : ∀ k, (t.core k).pushes = (s.core k).pushes
  counts : ∀ u, (t.thr u).pushes = (s.thr u).pushes ∧ (t.thr u).pushref = (s.thr u).pushref ∧
    (t.thr u).refusal = (s.thr u).refusal

section
variable {s t r : State}

theorem KeepsPushes.refl (s : State) : KeepsPushes s s := ⟨fun _ => rfl, fun _ => ⟨rfl, rfl, rfl⟩⟩

theorem KeepsPushes.trans (h : KeepsPushes s t) (g : KeepsPushes t r) : KeepsPushes s r :=
  ⟨fun k => (g.queue k).trans (h.queue k), fun u =>
    have ⟨pushes, pushref, refusal⟩ := g.counts u
    have ⟨pushes', pushref', refusal'⟩ := h.counts u
    ⟨pushes.trans pushes', pushref.trans pushref', refusal.trans refusal'⟩⟩

theorem KeepsPushes.foldl {α : Type} {f : State → α → State} (h : ∀ s x, KeepsPushes s (f s x)) (l : List α) :
    ∀ s, KeepsPushes s (l.foldl f s) := by
  induction l with
  | nil => exact .refl
  | cons x l ih => exact fun s => (h s x).trans (ih _)

theorem KeepsPushes.ite {p : Prop} [Decidable p] (h : KeepsPushes s t) (g : KeepsPushes s r) :
    KeepsPushes s (if p then t else r) := by
  split
  · exact h
  · exact g

theorem KeepsPushes.of_frame {T : List Field} (f : Frame T s t) (m : Field.fThreads ∉ T := by decide)
    (n : Field.fCores ∉ T := by decide) : KeepsPushes s t :=
  ⟨fun k => by rw [State.core, f.cores n]; rfl, fun u => by rw [State.thr, f.threads m]; exact ⟨rfl, rfl, rfl⟩⟩

theorem KeepsPushes.modCore (s : State) {c : Nat} {f : Core → Core} (h : (f (s.core c)).pushes = (s.core c).pushes) :
    KeepsPushes s (s.modCore c f) := ⟨s.modCore_keeps Core.pushes h, fun _ => ⟨rfl, rfl, rfl⟩⟩

theorem KeepsPushes.modThr (s : State) {u : Nat} {f : Thread → Thread} (h : (f (s.thr u)).pushes = (s.thr u).pushes ∧
    (f (s.thr u)).pushref = (s.thr u).pushref ∧ (f (s.thr u)).refusal = (s.thr u).refusal) : KeepsPushes s (s.modThr u f) := by
  refine ⟨fun _ => rfl, fun v => ?_⟩
  rw [State.modThr, State.thr_setThr]
  split
  · next e => exact e ▸ h
  · exact ⟨rfl, rfl, rfl⟩

theorem KeepsPushes.of_stirs (h : Stirs s t) (queue : ∀ k, (t.core k).pushes = (s.core k).pushes) : KeepsPushes s t :=
  ⟨queue, fun u => by rw [(h.thr u).eq]; exact ⟨rfl, rfl, rfl⟩⟩

theorem KeepsPushes.fireIf (h : KeepsPushes s t) (p : Nat → Thread → WakeCond → Bool) : KeepsPushes s (t.fireIf p) :=
  h.trans (.of_stirs ((Stirs.refl t).fireIf p) fun _ => rfl)

theorem KeepsPushes.count (s : State) (c ctx code n : Nat) : KeepsPushes s (s.count c ctx code n) :=
  ⟨fun k => by rw [State.core_count], fun _ => ⟨rfl, rfl, rfl⟩⟩

variable (s)

theorem State.lookAgain_keepsPushes (c : Nat) (p : Claim → Bool) : KeepsPushes s (s.lookAgain c p) :=
  .foldl (fun s _ => .of_frame (T := [.fNet]) ((Frame.refl _ s).withNet _)) _ s

theorem State.linePerformed_keepsPushes (c line : Nat) : KeepsPushes s (s.linePerformed c line) :=
  .ite (.refl s) (((KeepsPushes.refl s).fireIf _).trans (State.lookAgain_keepsPushes ..))

theorem State.serveEntry_keepsPushes (c : Nat) (need : Need) : KeepsPushes s (s.serveEntry c need) := by
  unfold State.serveEntry
  dsimp only
  split
  · split
    · exact .of_stirs (s.claimReady_stirs ..) fun k => by
        rw [State.core_claimReady]
        exact s.modCore_keeps Core.pushes rfl k
    · exact .refl s
  · exact .refl s

theorem State.homeWrite_keepsPushes (pa n v : Nat) : KeepsPushes s (s.homeWrite pa n v) :=
  .of_stirs (s.homeWrite_stirs pa n v) fun k => by rw [s.homeWrite_l1Only pa n v k]

theorem State.serveTable_keepsPushes (d : Nat) : KeepsPushes s (s.serveTable d) := by
  refine .foldl (fun s _ => ?_) _ s
  unfold State.serveTableOnce
  dsimp only
  split
  · exact .refl s
  · exact .ite ((KeepsPushes.of_frame ((Frame.refl [.fDies] s).setDie _ _)).fireIf _) (.refl s)

theorem State.freePlace_keepsPushes (d e : Nat) : KeepsPushes s (s.freePlace d e) :=
  (KeepsPushes.of_frame ((Frame.refl [.fDies] s).modDie _ _)).trans (State.serveTable_keepsPushes ..)

theorem State.setQuoin_keepsPushes (key : Nat) (q : Quoin) : KeepsPushes s (s.setQuoin key q) :=
  .of_frame ((Frame.refl [.fQuoins] s).withQuoins _)

theorem State.skipDropped_keepsPushes (d : Nat) (l : List Nat) : ∀ (s : State) (n : Nat),
    KeepsPushes s (s.skipDropped d l n).1 := by
  induction l with
  | nil => exact fun s _ => .refl s
  | cons e l ih =>
    intro s n
    unfold State.skipDropped
    split
    · exact (s.freePlace_keepsPushes d e).trans (ih _ _)
    · exact .refl s

theorem State.setPlace_keepsPushes (d e : Nat) (p : Place) : KeepsPushes s (s.setPlace d e p) :=
  .of_frame ((Frame.refl [.fDies] s).modDie _ _)

theorem State.grantNext_keepsPushes (key : Nat) : KeepsPushes s (s.grantNext key) := by
  have skipped := State.skipDropped_keepsPushes (s.quoin key).die (s.quoin key).places s 0
  unfold State.grantNext
  dsimp only
  split
  · exact skipped.trans (State.setQuoin_keepsPushes ..)
  · have granted (q : Quoin) (d e : Nat) (p : Place) := (skipped.trans (State.setQuoin_keepsPushes _ key q)).trans
      (State.setPlace_keepsPushes _ d e p)
    split
    · exact (granted ..).fireIf _
    · exact granted ..

theorem State.rewriteQuoin_keepsPushes (key : Nat) : KeepsPushes s (s.rewriteQuoin key) := by
  unfold State.rewriteQuoin
  dsimp only
  split
  · exact s.setQuoin_keepsPushes ..
  · refine .ite (s.setQuoin_keepsPushes ..) (.ite (s.setQuoin_keepsPushes ..) ?_)
    have counted (q : Quoin) (p : Prop) [Decidable p] (d : Nat) :
        KeepsPushes s ((if p then s.countDie d 0x6001 0 1 else s).setQuoin key q) :=
      (KeepsPushes.ite (.of_frame (s.countDie_frame ..)) (.refl s)).trans (State.setQuoin_keepsPushes ..)
    exact .ite (counted ..) ((counted ..).trans (State.homeWrite_keepsPushes ..))

theorem State.releasePlace_keepsPushes (d e : Nat) : KeepsPushes s (s.releasePlace d e) :=
  (((s.setQuoin_keepsPushes _ _).trans (State.freePlace_keepsPushes ..)).trans (State.grantNext_keepsPushes ..)).trans
    (State.rewriteQuoin_keepsPushes ..)

theorem State.dropMail_keepsPushes (u : Nat) : KeepsPushes s (s.dropMail u) :=
  have dropped := KeepsPushes.modCore s rfl
  .ite dropped (dropped.trans (KeepsPushes.count ..))

theorem State.finishEnd_keepsPushes (u : Nat) : KeepsPushes s (s.finishEnd u) := by
  unfold State.finishEnd
  dsimp only
  refine .ite (.refl s) ?_
  have released := KeepsPushes.foldl (fun s (x : Nat × Nat) => s.releasePlace_keepsPushes x.1 x.2) (s.grantsOf u) s
  have left (c : Nat) (f : Kernel → Kernel) (g : Nat) (q : State) : KeepsPushes q
      ((((q.leaveSlot u).modThr u (fun t => { t with st := .exited, ending := false })).modKer c f).parkFreed g) := by
    have slot : KeepsPushes q (q.leaveSlot u) := .modThr q ⟨rfl, rfl, rfl⟩
    have exited := slot.trans (.modThr (u := u) (f := fun t => { t with st := .exited, ending := false }) _ ⟨rfl, rfl, rfl⟩)
    have signed := exited.trans (.of_frame ((Frame.refl [.fKernels] _).modKer c f))
    exact signed.fireIf fun _ _ w => decide (w = .park g)
  have grouped (g : Nat) (f : Group → Group) (q : State) : KeepsPushes q (q.modGrp g f) :=
    .of_frame ((Frame.refl [.fGroups] q).modGrp _ _)
  have ended (c g h : Nat) (f : Kernel → Kernel) (e : Group → Group) :=
    ((released.trans (State.dropMail_keepsPushes _ u)).trans (left c f g _)).trans (grouped h e _)
  exact .ite (ended ..) ((ended ..).trans (grouped ..))

theorem State.fireReleases_keepsPushes : KeepsPushes s s.fireReleases :=
  (KeepsPushes.foldl (fun s (x : Nat × Thread) => s.finishEnd_keepsPushes x.1) _ s).fireIf _

/-- What completed pushes free goes on (R131, R142). -/
theorem State.completed_keepsPushes (c line : Nat) :
    KeepsPushes s (((s.linePerformed c line).serveEntry c .pushEntry).fireReleases) :=
  ((s.linePerformed_keepsPushes c line).trans (State.serveEntry_keepsPushes ..)).trans (State.fireReleases_keepsPushes _)

end

/-- A push of a thread is no longer waited for, and its refusals are counted (R129). -/
def State.pushDone (s : State) (c line uid refused : Nat) : State :=
  (s.modCore c (fun k => { k with pushes := k.pushes.erase (line, uid) })).modThr uid (fun t => { t with
    pushes := t.pushes - 1, pushref := BitVec.ofNat 64 (min (2 ^ 64 - 1) (t.pushref.toNat + refused)),
    refusal := t.refusal || decide (refused ≠ 0) })

theorem execPushCompletion_eq {s : State} {n uid refused : Nat} {m : Msg} (h : s.Delivers n m)
    (kind : m.kind = .pushDone uid refused) : execPushCompletion n s = .next
      ((((State.pushDone { s with net := s.net.eraseIdx n } m.dst m.line uid refused).linePerformed m.dst m.line).serveEntry
        m.dst .pushEntry).fireReleases) := by
  unfold execPushCompletion
  rw [State.take_delivers h (by rw [kind])]
  dsimp only
  rw [kind]
  rfl

/-- Settles O29: each message is taken from the network and does at its core what the equation of its event says. -/
theorem coreMessages : Obligations.CoreMessages := by
  unfold Obligations.CoreMessages
  intro s n m delivers c k rest room reply performs waits
  have recalled {i : Instr} {kind : MsgKind} {name : String} {y : Option L1Line} {x : MsgKind}
      (run : exec i s = recallEvent s n kind name) (is : m.kind = kind) (free : k.defers m.line kind.leaves = false)
      {t : State} (does : State.performRecall { s with net := rest } c m = t) (p : s.Performs n m y x t) : performs i y x :=
    ⟨t, run.trans ((recallEvent_eq delivers is name).trans ((if_neg (by rw [free]; decide)).trans (by rw [← does]))),
      p.line, p.others, p.cores, p.net, p.mem, p.threads⟩
  refine ⟨fun is held => ?_, fun is free => ⟨fun gone => ?_, fun x held => ?_⟩,
    fun is free => ⟨fun gone => ?_, fun x held own => ?_⟩, fun is free => ⟨fun gone => ?_, fun x q held copy => ?_⟩,
    fun d is => ⟨fun x held => ?_, fun free quota => ?_, fun gone full => ?_⟩, fun uid refused is => ?_, fun uid st d is free plain => ?_⟩
  · refine ⟨_, (recallEvent_eq delivers is _).trans (if_pos held), rfl, fun q => ?_⟩
    rw [State.modCore_eq, State.core_setCore]
    rfl
  · exact recalled rfl is free (State.performRecall_gone (.inl is) gone) (State.performs_send gone _)
  · exact recalled rfl is free (State.performRecall_inval is held) (State.performs_delLine _)
  · exact recalled rfl is free (State.performRecall_gone (.inr (.inl is)) gone) (State.performs_send gone _)
  · refine recalled rfl is free (State.performRecall_share is held own.symm) (State.performs_modCore ?_ (fun l other => ?_) _)
    · rw [Core.line_editLine (f := fun y => { y with st := .s }) _ _ _ fun _ => rfl, if_pos rfl, held]
      rfl
    · rw [Core.line_editLine (f := fun y => { y with st := .s }) _ _ _ fun _ => rfl, if_neg other]
  · exact recalled rfl is free (State.performRecall_gone (.inr (.inr is)) gone) (State.performs_send gone _)
  · exact recalled rfl is free (State.performRecall_upd is held copy) (State.performs_delLine _)
  · obtain p := State.performs_send (n := n) held (.pushReply true)
    refine ⟨_, (execPushFill_eq delivers is).trans ?_, p.line, p.others, p.cores, p.net, p.mem, p.threads⟩
    dsimp only
    rw [held]
  · have p : s.Performs n m _ _ _ := State.performs_modCore (f := fun k => k.putLine
        { line := m.line, st := .sp, data := d, valid := 0, dirty := 0, home := m.src - 1024 })
      ((Core.line_putLine ..).trans (if_pos rfl)) (fun _ other => (Core.line_putLine ..).trans (if_neg other)) (.pushReply true)
    refine ⟨_, (execPushFill_eq delivers is).trans ?_, p.line, p.others, p.cores, p.net, p.mem, p.threads⟩
    dsimp only
    rw [free.1]
    dsimp only
    rw [if_neg fun full => full.elim (Nat.not_le.2 quota) fun full => Nat.not_le.2 free.2 full.1, State.install_free free.2]
  · have run := execPushFill_eq delivers is
    dsimp only at run
    rw [gone] at run
    dsimp only at run
    rw [if_pos (.inl full)] at run
    refine ⟨_, run, ?_, rfl, rfl⟩
    show (State.core (State.count ..) c).line m.line = none
    rw [State.core_count]
    exact gone
  · have run : exec (.pushCompletion n) s = _ := execPushCompletion_eq delivers is
    have kept := State.completed_keepsPushes (State.pushDone { s with net := s.net.eraseIdx n } c m.line uid refused) c m.line
    have thr : (State.pushDone { s with net := s.net.eraseIdx n } c m.line uid refused).thr uid = _ :=
      (State.thr_setThr ..).trans (if_pos rfl)
    obtain ⟨pushes, pushref, refusal⟩ := kept.counts uid
    rw [thr] at pushes pushref refusal
    exact ⟨_, run, (kept.queue c).trans (congrArg Core.pushes (State.core_modCore { s with net := s.net.eraseIdx n } c
      (fun k => { k with pushes := k.pushes.erase (m.line, uid) })).1), pushes, pushref, refusal⟩
  · have run : exec (.claimDataArrival n) s = _ := execClaimDataArrival_grant delivers is plain
    rw [State.takeGrant, State.putGrant_new (s := { s with net := s.net.eraseIdx n }) free.1 free.2 plain] at run
    have frame := State.wakeClaims_frame (State.modCore { s with net := s.net.eraseIdx n } m.dst (fun k => k.putLine
      { line := m.line, st := st, data := d, valid := 0, dirty := 0, home := m.src - 1024 })) m.dst m.line
    have held : ((State.modCore { s with net := s.net.eraseIdx n } m.dst (fun k => k.putLine
        { line := m.line, st := st, data := d, valid := 0, dirty := 0, home := m.src - 1024 })).core c).line m.line =
        some { line := m.line, st := st, data := d, valid := 0, dirty := 0, home := m.src - 1024 } :=
      (congrArg (Core.line · m.line) (State.core_modCore ..).1).trans ((Core.line_putLine ..).trans (if_pos rfl))
    refine ⟨_, run, ?_, frame.net, frame.mem, fun y mem here near serves => ?_⟩
    · exact (congrArg (findLine m.line) (State.l1_claimReady_foldl ..)).trans held
    · exact State.served_wakeClaims _ held y mem here near serves

end Sys2Proof.Machine

namespace Sys2Proof.Machine

open Sys2Proof

/-! # Events of traps (R108 to R110, R358) -/

/-! ## Writes at the home of lines without holders -/

theorem tget_tdel {α : Type} (d : α) (t : Tbl α) (n m : Nat) : tget d (tdel t n) m = if m = n then d else tget d t m := by
  induction t with
  | nil => exact (ite_self _).symm
  | cons x t ih =>
    obtain ⟨k, v⟩ := x
    by_cases gone : k = n
    · rw [tdel, if_pos gone, ih, tget]
      by_cases same : m = n
      · rw [if_pos same, if_pos same]
      · rw [if_neg same, if_neg same, if_neg fun e => same (e.symm.trans gone)]
    · rw [tdel, if_neg gone, tget, tget, ih]
      by_cases here : k = m
      · rw [if_pos here, if_pos here, if_neg fun e => gone (here.trans e)]
      · rw [if_neg here, if_neg here]

section
variable {s : State}

/-- No core holds a copy of a line (R117). -/
def State.alone (s : State) (line : Nat) : Prop := (s.entry line).holders = []

/-- A write at the home takes nothing from a line without holders. -/
theorem State.recallAll_alone {line : Nat} (alone : s.alone line) : s.recallAll line = { s with dir := tdel s.dir line } := by
  have cores : (s.entry line).cores = [] := by
    rw [DirEntry.cores, show (s.entry line).holders = [] from alone]
    exact ite_self _
  unfold State.recallAll
  dsimp only
  rw [cores]
  exact if_pos (by decide)

theorem State.alone_withoutEntry {line l : Nat} (alone : s.alone l) : State.alone { s with dir := tdel s.dir line } l := by
  show (tget DirEntry.fresh (tdel s.dir line) l).holders = []
  rw [tget_tdel]
  split
  · rfl
  · exact alone

theorem State.recallAll_foldl_alone (l : List Nat) : ∀ {s : State}, (∀ x ∈ l, s.alone x) →
    (l.foldl State.recallAll s).mem = s.mem ∧ ∀ x, s.alone x → (l.foldl State.recallAll s).alone x := by
  induction l with
  | nil => exact fun _ => ⟨rfl, fun _ h => h⟩
  | cons line l ih =>
    intro s alone
    rw [List.foldl_cons, State.recallAll_alone (alone line List.mem_cons_self)]
    obtain ⟨mem, rest⟩ := ih (s := { s with dir := tdel s.dir line })
      fun x m => State.alone_withoutEntry (alone x (List.mem_cons_of_mem _ m))
    exact ⟨mem, fun x h => rest x (State.alone_withoutEntry h)⟩

/-- A write at the home of lines without holders stores its bytes, and leaves every line without holders so. -/
theorem State.homeWrite_alone {pa n : Nat} (alone : ∀ x ∈ linesOf pa n, s.alone x) (v : Nat) :
    (s.homeWrite pa n v).mem = mstore s.mem pa v n ∧ ∀ x, s.alone x → (s.homeWrite pa n v).alone x := by
  obtain ⟨mem, rest⟩ := State.recallAll_foldl_alone (linesOf pa n) alone
  have woken := Frame.foldl State.wrote (fun s line => s.wrote_frame line) (linesOf pa n)
    { (linesOf pa n).foldl State.recallAll s with mem := mstore ((linesOf pa n).foldl State.recallAll s).mem pa v n }
  refine ⟨woken.mem.trans (by rw [mem]), fun x h => ?_⟩
  show (tget DirEntry.fresh (State.homeWrite ..).dir x).holders = []
  rw [show (s.homeWrite pa n v).dir = _ from woken.dir]
  exact rest x h

/-! ## The write of a record (R109, R110) -/

variable {m : State} {ctx pa : Nat} {r : TrapRec} {rest : List TrapRec}

theorem State.writeTrap_eq (held : tget [] s.heldTraps ctx = r :: rest) (record : s.quietAll ((s.ctx ctx).pa + 96) 8 = true)
    (slot : s.quietAll pa 64 = true) (drained : s.logged r.uid = false) (fenced : s.fenced r.uid = true)
    (room : ((s.ctx ctx).ttail + 2 ^ 32 - s.peek ((s.ctx ctx).pa + 100) 4) % 2 ^ 32 < 2 ^ (s.ctx ctx).tlg)
    (reach : s.reach ctx (((s.ctx ctx).tring.toNat + 64 * ((s.ctx ctx).ttail % 2 ^ (s.ctx ctx).tlg)) % 2 ^ 64) true =
      some (m, pa)) : s.writeTrap ctx = some ((m.putTrap ctx pa r rest).modThr r.uid Thread.released) := by
  unfold State.writeTrap
  dsimp only
  rw [held]
  dsimp only
  rw [record, drained, fenced, if_neg (by decide), if_neg (Nat.not_le.2 room), reach]
  dsimp only
  rw [State.quietAll_of_frame (s.reach_frame _ _ _ _ reach), slot]
  rfl

/-- The record and the tail in memory, where no core holds a copy of their lines. -/
theorem State.mem_putTrap (alone : ∀ x ∈ linesOf pa 64 ++ linesOf ((s.ctx ctx).pa + 96) 4, s.alone x) :
    (s.putTrap ctx pa r rest).mem =
      mstore (mstore s.mem pa r.bytes 64) ((s.ctx ctx).pa + 96) (((s.ctx ctx).ttail + 1) % 2 ^ 32) 4 := by
  obtain ⟨record, rest⟩ := State.homeWrite_alone (fun x m => alone x (List.mem_append_left _ m)) r.bytes
  obtain ⟨tail, -⟩ := State.homeWrite_alone (fun x m => rest x (alone x (List.mem_append_right _ m)))
    (((s.ctx ctx).ttail + 1) % 2 ^ 32)
  exact tail.trans (by rw [record])

theorem State.ctx_putTrap :
    (s.putTrap ctx pa r rest).ctx ctx = { s.ctx ctx with ttail := ((s.ctx ctx).ttail + 1) % 2 ^ 32 } := by
  have ctxs := ((s.homeWrite_frame pa 64 r.bytes).trans (State.homeWrite_frame _ ((s.ctx ctx).pa + 96) 4
    (((s.ctx ctx).ttail + 1) % 2 ^ 32))).ctxs
  refine (tget_tset_self ..).trans ?_
  show ({ tget Ctx.fresh (State.homeWrite ..).ctxs ctx with ttail := _ } : Ctx) = _
  rw [ctxs]
  rfl

end

/-! ## What a trap does to the other threads -/

section
variable (s : State)

theorem State.writeBackRaw_stirs (c : Nat) : Stirs s (s.writeBackRaw c) :=
  (Stirs.modCore s rfl).trans (.foldl (fun s x => s.giveUpLine_stirs c x) _ _)

theorem State.trapRelease_stirs (ctx u : Nat) : Stirs s (s.trapRelease ctx u) :=
  .ite (.refl s) (.foldl (fun s c => s.writeBackRaw_stirs c) _ _)

theorem State.traceHw_stirs (c : Nat) (r : TraceRec) : Stirs s (s.traceHw c r) := by
  have lost := Stirs.modCore s (c := c) (f := fun k => { k with lost := k.lost + 1 }) rfl
  exact .ite (.ite (Stirs.modCore s rfl) (lost.trans (.of_same rfl rfl fun k => by rw [State.core_count]))) (.refl s)

theorem State.putTrap_stirs (ctx pa : Nat) (r : TrapRec) (rest : List TrapRec) : Stirs s (s.putTrap ctx pa r rest) :=
  ((s.homeWrite_stirs ..).trans (State.homeWrite_stirs ..)).trans (.of_same rfl rfl fun _ => rfl)

theorem State.writeTrap_stirs (ctx : Nat) : Stirs s ((s.writeTrap ctx).getD s) := by
  unfold State.writeTrap
  dsimp only
  split
  · exact .refl s
  · next r rest _ =>
    split
    · exact .refl s
    · split
      · exact .refl s
      · split
        · exact .refl s
        · next m pa reach =>
          split
          · exact .refl s
          · exact ((Stirs.of_frame (s.reach_frame _ _ _ _ reach)).trans (m.putTrap_stirs ctx pa r rest)).trans
              (.modThr _ (Thread.fired_released _))

/-- A trap of one thread only ends waits of another, or counts its release. -/
theorem State.trap_fires {u v : Nat} (other : v ≠ u) (cls : TrapClass) (pc va extra : Word) (insn : Nat) :
    (s.thr v).Fired ((s.trap u cls pc va extra insn).thr v) := by
  have ended := (s.endAllClaims_stirs u).thr v
  unfold State.trap
  dsimp only
  generalize s.endAllClaims u = a at ended ⊢
  generalize s.trapRec u cls pc va extra insn = r
  generalize ({ tick := _, kind := 2, ctx := _, core := _, slot := _, index := _, pc := pc, value := _ } : TraceRec) = x
  generalize (s.grp (s.thr u).gid).ctx = ctx
  have same : (a.modThr u (fun t => t.trapped r)).thr v = a.thr v := (a.thr_setThr u v _).trans (if_neg other)
  rw [← same] at ended
  have held (q : State) : Stirs q (q.holdTrap ctx r) := .of_frame (q.holdTrap_frame ctx r)
  have traced := ((State.trapRelease_stirs (a.modThr u (fun t => t.trapped r)) ctx u).trans (held _)).trans
    (State.traceHw_stirs _ (s.thr u).core x)
  split
  · exact ended.trans ((traced.trans (State.writeTrap_stirs _ ctx)).thr v)
  · exact ended.trans (traced.thr v)

end

/-! ## The expiry of a watchdog (R358) -/

/-- A thread that stands TRAPPED at its PC by the watchdog of its group. -/
def Thread.expired (t : Thread) : Prop :=
  t.st = .trapped ∧ t.wait = .none ∧ ∃ q, t.trap = some q ∧ q.cls = .watchdog ∧ q.pc = t.pc

/-- A thread that the watchdog of a group traps. -/
def Thread.stoppable (gid : Nat) (t : Thread) : Prop :=
  t.gid = gid ∧ t.saved = false ∧ t.ending = false ∧ (t.st = .ready ∨ t.st = .waiting ∨ t.st = .parked)

theorem Thread.expired_wakeOnly {a b : Thread} (h : a.expired) (k : a.WakeOnly b) : b.expired := by
  rw [k.eq]
  exact h

theorem Thread.expired_calm {t : Thread} (h : t.expired) : t.calm := ⟨h.2.1, by rw [h.1]; decide⟩

theorem Thread.stoppable_fired {gid : Nat} {a b : Thread} (h : a.stoppable gid) (k : a.Fired b) : b.stoppable gid := by
  obtain ⟨group, held, live, runs⟩ := h
  have st : b.st = .ready ∨ b.st = .waiting ∨ b.st = .parked := by
    rcases k.st with same | ⟨-, ready⟩
    · rw [same]
      exact runs
    · exact .inl ready
  unfold Thread.stoppable
  rw [k.eq]
  exact ⟨group, held, live, st⟩

section
variable (s : State) (u v : Nat)

/-- A thread trapped by the watchdog (R358). -/
def State.bark (s : State) (u : Nat) : State := s.trap u .watchdog (s.thr u).pc 0 0 (s.nextWord u)

/-- The thread itself stands TRAPPED, whatever the end of its claims has done to it. -/
theorem State.bark_expires : ((s.bark u).thr u).expired := by
  unfold State.bark State.trap
  dsimp only
  generalize s.endAllClaims u = a
  have cls : (s.trapRec u .watchdog (s.thr u).pc 0 0 (s.nextWord u)).cls = .watchdog := rfl
  generalize s.trapRec u .watchdog (s.thr u).pc 0 0 (s.nextWord u) = r at cls ⊢
  generalize ({ tick := _, kind := 2, ctx := _, core := _, slot := _, index := _, pc := _, value := _ } : TraceRec) = x
  generalize (s.grp (s.thr u).gid).ctx = ctx
  have trapped : (a.modThr u (fun t => t.trapped r)).thr u = (a.thr u).trapped r := (a.thr_setThr u u _).trans (if_pos rfl)
  have stands : ((a.modThr u (fun t => t.trapped r)).thr u).expired := by
    rw [trapped]
    exact ⟨rfl, rfl, r, rfl, cls, rfl⟩
  generalize a.modThr u (fun t => t.trapped r) = b at stands ⊢
  have kept (q : State) (k : Marks u b q) : (q.thr u).expired :=
    Thread.expired_wakeOnly stands (k.keeps (Thread.expired_calm stands))
  have traced : Marks u b (((b.trapRelease ctx u).holdTrap ctx r).traceHw (s.thr u).core x) :=
    ((State.trapRelease_marks u b ctx u).trans (r := (b.trapRelease ctx u).holdTrap ctx r) (Marks.of_eq rfl)).trans
      (State.traceHw_marks u _ _ x)
  split
  · rcases State.writeTrap_marks u _ ctx with written | ⟨m, written, released⟩
    · exact kept _ (traced.trans written)
    · rw [released]
      exact kept m (traced.trans written)
  · exact kept _ traced

theorem State.expired_bark (h : (s.thr u).expired) : ((s.bark v).thr u).expired := by
  by_cases own : u = v
  · rw [own]
    exact s.bark_expires v
  · exact Thread.expired_wakeOnly h (((s.trap_facts ..).2 u own).keeps (Thread.expired_calm h))

/-- A thread that stands TRAPPED by the watchdog, or that one may still trap. -/
def Thread.watched (gid : Nat) (t : Thread) : Prop := t.expired ∨ t.stoppable gid

theorem State.watched_bark {gid : Nat} (h : (s.thr u).watched gid) : ((s.bark v).thr u).watched gid := by
  rcases h with stands | runs
  · exact .inl (s.expired_bark u v stands)
  · by_cases own : u = v
    · rw [own]
      exact .inl (s.bark_expires v)
    · exact .inr (Thread.stoppable_fired runs (s.trap_fires own ..))

end

/-- The traps of a list of threads keep what each of them keeps. -/
theorem State.foldl_bark {p : State → Prop} (keeps : ∀ s v, p s → p (s.bark v)) (l : List (Nat × Thread)) :
    ∀ s, p s → p (l.foldl (fun s x => s.bark x.1) s) := by
  induction l with
  | nil => exact fun _ h => h
  | cons x l ih => exact fun s h => ih _ (keeps s x.1 h)

theorem State.foldl_bark_mem {u : Nat} (l : List (Nat × Thread)) : ∀ s : State, (∃ t, (u, t) ∈ l) →
    ((l.foldl (fun s x => s.bark x.1) s).thr u).expired := by
  induction l with
  | nil => exact fun _ h => absurd h.choose_spec (by simp)
  | cons x l ih =>
    intro s h
    obtain ⟨t, mem⟩ := h
    rcases List.mem_cons.1 mem with rfl | mem
    · exact State.foldl_bark (p := fun s => (s.thr u).expired) (fun s v => s.expired_bark u v) l _ (s.bark_expires u)
    · exact ih _ ⟨t, mem⟩

theorem mem_of_tget_ne {α : Type} {d : α} {t : Tbl α} {n : Nat} (h : tget d t n ≠ d) : (n, tget d t n) ∈ t := by
  induction t with
  | nil => exact absurd rfl h
  | cons x t ih =>
    obtain ⟨k, v⟩ := x
    rw [tget] at h ⊢
    split at h
    · next e => rw [if_pos e, e]; exact List.mem_cons_self
    · next e => rw [if_neg e]; exact List.mem_cons_of_mem _ (ih h)

/-- A fold that keeps a number no smaller than one at one. -/
theorem foldl_min_one {α : Type} {f : Nat → α → Nat} (l : List α) (h : ∀ x, f 1 x = 1) : l.foldl f 1 = 1 := by
  induction l with
  | nil => rfl
  | cons x l ih => rw [List.foldl_cons, h, ih]

theorem State.watchdogRoom_one (s : State) : s.watchdogRoom 1 = 1 := by
  refine foldl_min_one _ fun x => ?_
  split
  · next counts => exact Nat.min_eq_left (by omega)
  · rfl

theorem State.ackRoom_one (s : State) : s.ackRoom 1 = 1 := by
  refine foldl_min_one _ fun x => ?_
  split
  · split
    · next waits => exact Nat.min_eq_left (by omega)
    · rfl
  · rfl

theorem State.endTicks_one (s : State) : (s.endTicks 1).1 =
    (((s.groups.filter (fun x => s.watchdogDue x.1)).foldl (fun s x => s.expire x.1) s).sendAcks).passTicks 1 := by
  unfold State.endTicks
  rw [if_neg (by decide)]
  dsimp only
  rw [State.watchdogRoom_one, State.ackRoom_one]

section
variable (s : State) (g : Nat) {gid u : Nat}

theorem State.watched_expire (h : (s.thr u).watched gid) : ((s.expire g).thr u).watched gid :=
  State.foldl_bark (p := fun s => (s.thr u).watched gid) (fun s v => s.watched_bark u v) _
    (s.modGrp g (fun g => { g with wdCount := g.wdLimit + 1 })) h

theorem State.expired_expire (h : (s.thr u).expired) : ((s.expire g).thr u).expired :=
  State.foldl_bark (p := fun s => (s.thr u).expired) (fun s v => s.expired_bark u v) _
    (s.modGrp g (fun g => { g with wdCount := g.wdLimit + 1 })) h

/-- The watchdog of its group traps a thread that it may (R358). -/
theorem State.expire_expires (h : (s.thr u).watched gid) : ((s.expire gid).thr u).expired := by
  rcases h with stands | ⟨group, held, live, runs⟩
  · exact s.expired_expire gid stands
  · have known : (u, s.thr u) ∈ s.threads := mem_of_tget_ne fun fresh => by
      have st : (s.thr u).st = .exited := congrArg Thread.st fresh
      rw [st] at runs
      exact absurd runs (by decide)
    refine State.foldl_bark_mem _ _ ⟨s.thr u, List.mem_filter.2 ⟨known, ?_⟩⟩
    dsimp only
    rw [group, held, live]
    rcases runs with st | st | st <;> rw [st] <;> simp

theorem State.expired_foldl (l : List (Nat × Group)) : ∀ s : State, (s.thr u).expired →
    ((l.foldl (fun s x => s.expire x.1) s).thr u).expired := by
  induction l with
  | nil => exact fun _ h => h
  | cons x l ih => exact fun s h => ih _ (s.expired_expire x.1 h)

theorem State.expires_foldl (l : List (Nat × Group)) : ∀ s : State, (s.thr u).watched gid → (∃ q, (gid, q) ∈ l) →
    ((l.foldl (fun s x => s.expire x.1) s).thr u).expired := by
  induction l with
  | nil => exact fun _ _ h => absurd h.choose_spec (by simp)
  | cons x l ih =>
    intro s watched h
    obtain ⟨q, mem⟩ := h
    rcases List.mem_cons.1 mem with rfl | mem
    · exact State.expired_foldl l _ (s.expire_expires watched)
    · exact ih _ (s.watched_expire x.1 watched) ⟨q, mem⟩

end

/-- Settles O26: a held record is written where nothing stands against it, and a thread of an expired group stands TRAPPED
from its own trap on. -/
theorem trapEvents : Obligations.TrapEvents := by
  unfold Obligations.TrapEvents
  intro s m ctx gid pa r rest x tail lines
  refine ⟨fun held record slot drained fenced room reach => ?_, fun running reached => ?_⟩
  · have run : exec (.trapRecordWrite ctx) s = execTrapRecordWrite ctx s := rfl
    rw [execTrapRecordWrite, State.writeTrap_eq held record slot drained fenced room reach] at run
    have frame := s.reach_frame _ _ _ _ reach
    have same : m.ctx ctx = x := by
      rw [State.ctx, frame.ctxs]
      rfl
    refine ⟨_, run, tget_tset_self .., State.ctx_putTrap.trans (by rw [same]), fun alone => ?_⟩
    refine (State.mem_putTrap (rest := rest) fun l mem => ?_).trans (by rw [same])
    rw [same] at mem
    show (tget DirEntry.fresh m.dir l).holders = []
    rw [frame.dir]
    exact alone l mem
  · have due : s.watchdogDue gid = true := decide_eq_true ⟨running, reached⟩
    refine ⟨_, if_pos due, fun u group held live runs => ?_⟩
    rw [State.endTicks_one]
    have known : (gid, s.grp gid) ∈ s.groups := mem_of_tget_ne fun fresh => by
      have st : (s.grp gid).st = .unplaced := congrArg Group.st fresh
      rw [st] at running
      exact absurd running (by decide)
    obtain ⟨st, -, q, trap, cls, pc⟩ := State.expires_foldl (s.groups.filter (fun x => s.watchdogDue x.1)) s
      (.inr ⟨group, held, live, runs⟩) ⟨_, List.mem_filter.2 ⟨known, due⟩⟩
    exact ⟨st, q, trap, cls, pc⟩

end Sys2Proof.Machine

namespace Sys2Proof.Machine

open Sys2Proof

/-! # Observation (R107, R382 to R390) -/

/-! ## Marks (R107) -/

section
variable {s : State} {i : Instr} {nb : BitVec 1} {rs1 : BitVec 4}

/-- A count before the thread stops with nb = 1. -/
theorem State.stops_counted {c : OCode} {w : WakeCond} (code : Nat)
    (run : exec i s = .next ((s.countMe code).notReady 1 c w)) : s.stops i 1 c w := by
  have pmcs {a b d : Core} (h : b = { a with pmc := b.pmc }) (g : d = { b with pmc := d.pmc }) :
      d = { a with pmc := d.pmc } := by
    rw [h] at g
    exact g
  have counters {a b d : Die} (h : b = { a with counters := b.counters }) (g : d = { b with counters := d.counters }) :
      d = { a with counters := d.counters } := by
    rw [h] at g
    exact g
  refine ⟨_, run, Frame.eq_update ?_, fun u other => ?_, fun k => ?_, fun d => ?_, ?_⟩
  · exact ((((Frame.refl _ s).countMe _).modMe _).countMe _)
  · exact (State.thr_countMe ..).trans (State.thr_modMe_ne (s.countMe code) _ other)
  · exact pmcs (State.core_count s s.myCore s.myCtx code 1 k) (State.core_count _ _ _ _ _ k)
  · exact counters (State.die_count s s.myCore s.myCtx code 1 d) (State.die_count _ _ _ _ _ d)
  · unfold Thread.stoppedAt
    rw [if_pos rfl]
    exact (State.me_countMe ..).trans (State.me_modMe ..)

/-- The record that a mark appends (R107, R384). -/
def State.markRecord (s : State) (rs1 : BitVec 4) : TraceRec :=
  { tick := s.gtick, kind := 1, ctx := s.myCtx, core := s.myCore, slot := s.me.slot.getD 0, index := s.me.index,
    pc := s.me.pc, value := s.me.reg rs1 }

theorem execMark_eq (on : s.traced s.myCtx (coreDie s.myCore) = true) : execMark rs1 nb s =
    if (s.core s.myCore).trace.length < 32 then .next ((s.modCore s.myCore (fun k => { k with
      trace := k.trace ++ [s.markRecord rs1] })).completeP nb .rdy)
    else .next ((if nb = 1 then s.countMe 0x1013 else s).notReady nb .full (.trace s.myCore)) := by
  unfold execMark
  dsimp only
  rw [show s.traced s.myCtx (coreDie s.me.core) = true from on]
  rfl

end

/-! ## Trace rings (R383 to R385) -/

section
variable (r : TraceRec)

/-- The word of a record that tells its kind and whose it is. -/
def TraceRec.identity : Nat :=
  r.kind % 256 * 2 ^ 56 + r.ctx % 4096 * 2 ^ 44 + coreDie r.core % 4 * 2 ^ 42 + coreLocal r.core * 2 ^ 34 +
    r.slot % 16 * 2 ^ 30 + (if r.kind ≤ 2 then r.index % 256 * 2 ^ 8 else 0)

theorem TraceRec.identity_bounds : r.kind % 256 * 2 ^ 56 ≤ r.identity ∧ r.identity < r.kind % 256 * 2 ^ 56 + 2 ^ 56 := by
  have index : (if r.kind ≤ 2 then r.index % 256 * 2 ^ 8 else 0) < 2 ^ 16 := by split <;> omega
  unfold TraceRec.identity coreLocal
  omega

theorem TraceRec.bytes_eq :
    r.bytes = r.tick % 2 ^ 64 + 2 ^ 64 * (r.identity + 2 ^ 64 * (r.pc.toNat + 2 ^ 64 * r.value.toNat)) := by
  show _ + _ + _ + _ = _
  unfold TraceRec.identity
  ring

/-- The words of a record, and the byte of its kind. -/
theorem TraceRec.bytes_words : r.bytes / 256 ^ 0 % 256 ^ 8 = r.tick % 2 ^ 64 ∧ r.bytes / 256 ^ 15 % 256 ^ 1 = r.kind % 256 ∧
    r.bytes / 256 ^ 16 % 256 ^ 8 = r.pc.toNat ∧ r.bytes / 256 ^ 24 % 256 ^ 8 = r.value.toNat := by
  have bounds := r.identity_bounds
  have pc := r.pc.isLt
  have value := r.value.isLt
  rw [r.bytes_eq]
  generalize r.identity = id at *
  generalize r.pc.toNat = p at *
  generalize r.value.toNat = v at *
  norm_num at *
  omega

end

section
variable {s : State} {c : Nat} {r : TraceRec} {rest : List TraceRec}

/-- The record that a drain writes: the loss of records comes before the oldest (R385). -/
def TraceRec.drained (lost : Nat) (r : TraceRec) : TraceRec :=
  if lost = 0 then r else { r with kind := 7, slot := 0, index := 0, pc := 0, value := BitVec.ofNat 64 lost }

/-- A record written at a place of a die's ring, and taken from its core's buffer. -/
def State.drain (s : State) (c pa tail : Nat) (rest : List TraceRec) (bytes : Nat) : State :=
  ((s.homeWrite pa 32 bytes).modDie (coreDie c) (fun x => { x with traceTail := (tail + 1) % 2 ^ 32 })).modCore c
    (fun k => if k.lost = 0 then { k with trace := rest } else { k with lost := 0 })

theorem traceDrain_eq (oldest : (s.core c).trace = r :: rest) {ring : Nat × Nat × Nat} {tail pa : Nat}
    (at_ : tget (0, 0, 0) s.observe.trRing (coreDie c) = ring) (next : (s.die (coreDie c)).traceTail = tail)
    (place : ring.1 + 32 * (tail % 2 ^ ring.2.1) = pa) (room : ringFull ring tail = false) (quiet : s.quietAll pa 32 = true) :
    exec (.traceDrain c) s = .next (if (s.core c).lost = 0 then
      (s.drain c pa tail rest (r.drained (s.core c).lost).bytes).fire (fun w => decide (w = .trace c))
      else s.drain c pa tail rest (r.drained (s.core c).lost).bytes) := by
  subst at_ next place
  show execTraceDrain c s = _
  unfold execTraceDrain
  dsimp only
  rw [oldest]
  dsimp only
  rw [room, quiet]
  rfl

theorem State.traceTail_drain (s : State) (c pa tail : Nat) (rest : List TraceRec) (bytes : Nat) :
    ((s.drain c pa tail rest bytes).die (coreDie c)).traceTail = (tail + 1) % 2 ^ 32 :=
  congrArg Die.traceTail ((State.die_setDie ..).trans (if_pos rfl))

theorem State.core_drain (s : State) (c pa tail : Nat) (rest : List TraceRec) (bytes : Nat) :
    ((s.core c).lost = 0 → ((s.drain c pa tail rest bytes).core c).trace = rest) ∧
    ((s.core c).lost ≠ 0 → ((s.drain c pa tail rest bytes).core c).trace = (s.core c).trace ∧
      ((s.drain c pa tail rest bytes).core c).lost = 0) := by
  have kept := s.homeWrite_l1Only pa 32 bytes c
  have same : ((s.homeWrite pa 32 bytes).core c).lost = (s.core c).lost := by rw [kept]
  have core : (s.drain c pa tail rest bytes).core c = if ((s.homeWrite pa 32 bytes).core c).lost = 0 then
      { (s.homeWrite pa 32 bytes).core c with trace := rest } else { (s.homeWrite pa 32 bytes).core c with lost := 0 } :=
    (State.core_modCore ..).1
  rw [core]
  refine ⟨fun none => ?_, fun some => ?_⟩
  · rw [if_pos (same.trans none)]
  · rw [if_neg fun none => some (same.symm.trans none)]
    exact ⟨by rw [kept], rfl⟩

/-- What a drain writes and what it leaves in the buffer. -/
theorem traceDrain_facts (oldest : (s.core c).trace = r :: rest) {ring : Nat × Nat × Nat} {tail pa : Nat}
    (at_ : tget (0, 0, 0) s.observe.trRing (coreDie c) = ring) (next : (s.die (coreDie c)).traceTail = tail)
    (place : ring.1 + 32 * (tail % 2 ^ ring.2.1) = pa) (room : ringFull ring tail = false) (quiet : s.quietAll pa 32 = true) :
    ∃ t, exec (.traceDrain c) s = .next t ∧ t.mem = (s.homeWrite pa 32 (r.drained (s.core c).lost).bytes).mem ∧
      (t.die (coreDie c)).traceTail = (tail + 1) % 2 ^ 32 ∧ ((s.core c).lost = 0 → (t.core c).trace = rest) ∧
      ((s.core c).lost ≠ 0 → (t.core c).trace = r :: rest ∧ (t.core c).lost = 0) := by
  have run := traceDrain_eq oldest at_ next place room quiet
  obtain ⟨whole, loss⟩ := s.core_drain c pa tail rest (r.drained (s.core c).lost).bytes
  by_cases none : (s.core c).lost = 0
  · rw [if_pos none] at run
    exact ⟨_, run, rfl, s.traceTail_drain c pa tail rest _, whole, fun some => absurd none some⟩
  · rw [if_neg none] at run
    obtain ⟨trace, lost⟩ := loss none
    exact ⟨_, run, rfl, s.traceTail_drain c pa tail rest _, whole, fun _ => ⟨trace.trans oldest, lost⟩⟩

/-- A record read back from where it has been written. -/
theorem State.mload_record (canon : s.Canon) (pa : Nat) (q : TraceRec) :
    mload (s.homeWrite pa 32 q.bytes).mem pa 8 = q.tick % 2 ^ 64 ∧
    mload (s.homeWrite pa 32 q.bytes).mem (pa + 15) 1 = q.kind % 256 ∧
    mload (s.homeWrite pa 32 q.bytes).mem (pa + 16) 8 = q.pc.toNat ∧
    mload (s.homeWrite pa 32 q.bytes).mem (pa + 24) 8 = q.value.toNat := by
  obtain ⟨tick, kind, pc, value⟩ := q.bytes_words
  have stored {i j : Nat} (within : i + j ≤ 32) := s.mload_homeWrite canon pa q.bytes within
  exact ⟨(stored (i := 0) (by decide)).trans tick, (stored (by decide)).trans kind, (stored (by decide)).trans pc,
    (stored (by decide)).trans value⟩

end

/-! ## Snapshots (R388) -/

theorem wordsValue_words (a b : Nat) (l : List Nat) : wordsValue (a :: b :: l) / 256 ^ 0 % 256 ^ 8 = a % 2 ^ 64 ∧
    wordsValue (a :: b :: l) / 256 ^ 8 % 256 ^ 8 = b % 2 ^ 64 := by
  show (a % 2 ^ 64 + 2 ^ 64 * (b % 2 ^ 64 + 2 ^ 64 * wordsValue l)) / _ % _ = _ ∧
    (a % 2 ^ 64 + 2 ^ 64 * (b % 2 ^ 64 + 2 ^ 64 * wordsValue l)) / _ % _ = _
  norm_num
  omega

/-- An update of one die keeps, at every die, what it keeps of that one. -/
theorem State.modDie_keeps {α : Type} (g : Die → α) (s : State) {d : Nat} {f : Die → Die}
    (h : g (f (s.die d)) = g (s.die d)) (e : Nat) : g ((s.modDie d f).die e) = g (s.die e) := by
  rw [State.modDie_eq, State.die_setDie]
  split
  · next same => rw [h, same]
  · rfl

section
variable (s : State) (d : Nat)

theorem State.latchDie_frame : Frame [.fDies, .fClockFree] s (s.latchDie d) := by
  have latched : Frame [.fDies, .fClockFree] s (s.modDie d (fun y => { y with latched := some s.gtick })) :=
    (Frame.refl _ s).modDie _ _
  exact .ite latched (.ite (latched.modDie _ _) ((latched.withClockFree _).modDie _ _))

theorem State.latchIo_frame : Frame [.fObserve] s s.latchIo := (Frame.refl _ s).withObserve _

theorem State.latchDies_frame (l : List Nat) : Frame [.fDies, .fClockFree] s (l.foldl (fun s d => s.latchDie d) s) :=
  .foldl _ (fun s d => s.latchDie_frame d) _ _

theorem State.latchAll_frame : Frame [.fDies, .fClockFree, .fObserve] s s.latchAll :=
  ((s.latchDies_frame _).mono (by decide)).trans ((State.latchIo_frame _).mono (by decide))

/-- A die that latches its counters has, and another keeps what it has. -/
theorem State.latched_latchDie (e : Nat) :
    ((s.latchDie d).die e).latched = if e = d then some s.gtick else (s.die e).latched := by
  have latched : ((s.modDie d (fun y => { y with latched := some s.gtick })).die e).latched =
      if e = d then some s.gtick else (s.die e).latched := by
    rw [State.modDie_eq, State.die_setDie]
    split <;> rfl
  unfold State.latchDie
  dsimp only
  split
  · exact latched
  · split
    · exact (State.modDie_keeps Die.latched _ rfl e).trans latched
    · exact (State.modDie_keeps Die.latched { s.modDie d (fun y => { y with latched := some s.gtick }) with
        clockFree := s.clockFree + 128 } rfl e).trans latched

theorem State.latched_latchDies (l : List Nat) : ∀ s : State,
    (∀ e ∈ l, ((l.foldl (fun s d => s.latchDie d) s).die e).latched = some s.gtick) ∧
    ∀ e, (s.die e).latched = some s.gtick → ((l.foldl (fun s d => s.latchDie d) s).die e).latched = some s.gtick := by
  induction l with
  | nil => exact fun s => ⟨fun _ => nofun, fun _ h => h⟩
  | cons d l ih =>
    intro s
    obtain ⟨all, kept⟩ := ih (s.latchDie d)
    rw [(s.latchDie_frame d).gtick] at all kept
    refine ⟨fun e mem => ?_, fun e had => kept e ?_⟩
    · rcases List.mem_cons.1 mem with rfl | mem
      · exact kept e ((s.latched_latchDie e e).trans (if_pos rfl))
      · exact all e mem
    · rw [State.latched_latchDie]
      split
      · rfl
      · exact had

/-- Every started die has its counters latched at the tick. -/
theorem State.latched_latchAll : ∀ e ∈ s.startedDies, (s.latchAll.die e).latched = some s.gtick :=
  (State.latched_latchDies s.startedDies s).1

end

/-! ### The only started die of a package -/

section
variable {s : State} {d : Nat}

/-- The ring of a die's snapshots, and the place of its next record (R388, R389). -/
def State.snapRingOf (s : State) (d : Nat) : Nat × Nat × Nat := tget (0, 0, 0) s.observe.snapRing d

theorem State.started_latchDie (s : State) (d e : Nat) : ((s.latchDie d).die e).started = (s.die e).started := by
  have latched : ((s.modDie d (fun y => { y with latched := some s.gtick })).die e).started = (s.die e).started :=
    s.modDie_keeps Die.started rfl e
  unfold State.latchDie
  dsimp only
  split
  · exact latched
  · split
    · exact (State.modDie_keeps Die.started _ rfl e).trans latched
    · exact (State.modDie_keeps Die.started { s.modDie d (fun y => { y with latched := some s.gtick }) with
        clockFree := s.clockFree + 128 } rfl e).trans latched

theorem State.die_modDie (s : State) (d : Nat) (f : Die → Die) : (s.modDie d f).die d = f (s.die d) :=
  (State.die_setDie ..).trans (if_pos rfl)

/-- A die at the tick at which its counters are latched. -/
def State.latchAt (s : State) (d : Nat) : State := s.modDie d (fun y => { y with latched := some s.gtick })

theorem State.die_latchAt (s : State) (d : Nat) : (s.latchAt d).die d = { s.die d with latched := some s.gtick } :=
  s.die_modDie d (fun y => { y with latched := some s.gtick })

/-- The words of a record begin with the number of those missed. -/
theorem State.snapWords_missed (s : State) (d : Nat) :
    ∃ l, s.snapWords d = ((s.die d).missed % 2 ^ 32 * 2 ^ 32 + d % 4) :: l := ⟨_, rfl⟩

/-- A latched record of a die, with its tick first and the number of missed ones behind it. -/
theorem State.latchDie_room (lg : (s.snapRingOf d).2.1 ≠ 0) (room : ringFull (s.snapRingOf d) (s.die d).snapTail = false)
    (written : (s.die d).snap = none) : ∃ l, (s.latchDie d).die d = { s.die d with
      latched := some s.gtick, missed := 0, snap := some (s.gtick :: ((s.die d).missed % 2 ^ 32 * 2 ^ 32 + d % 4) :: l) } := by
  obtain ⟨l, words⟩ := (s.latchAt d).snapWords_missed d
  unfold State.snapRingOf at lg room
  have latches : s.latchDie d = State.modDie { s.latchAt d with clockFree := s.clockFree + 128 } d (fun y => { y with
      snap := some (s.gtick :: (s.latchAt d).snapWords d), missed := 0 }) := by
    unfold State.latchDie
    dsimp only
    rw [if_neg lg, if_neg (by rw [room, written]; decide)]
    rfl
  rw [latches, State.die_modDie, words, show State.die { s.latchAt d with clockFree := s.clockFree + 128 } d = _ from
    s.die_latchAt d, State.die_latchAt]
  exact ⟨l, rfl⟩

theorem State.latchDie_full (lg : (s.snapRingOf d).2.1 ≠ 0) (full : ringFull (s.snapRingOf d) (s.die d).snapTail = true) :
    (s.latchDie d).die d = { s.die d with latched := some s.gtick, missed := (s.die d).missed + 1 } := by
  have latched := s.die_latchAt d
  unfold State.snapRingOf at lg full
  unfold State.latchDie
  dsimp only
  rw [if_neg lg, if_pos (by rw [full]; rfl)]
  exact (State.die_modDie ..).trans (by rw [show State.die (s.modDie d _) d = _ from latched])

/-- The I/O die, without a ring, latches alone. -/
def State.ioLatch (s : State) : State := { s with observe := { s.observe with ioLatched := some s.gtick } }

theorem State.snapDie_frame (s : State) (d : Nat) : Frame (writeFields ++ [.fDies]) s (s.snapDie d) := by
  unfold State.snapDie
  dsimp only
  split
  · exact Frame.refl _ s
  · exact .ite (((s.homeWrite_frame _ _ _).mono (by decide)).modDie _ _) (Frame.refl _ s)

theorem State.snapshot_eq (due : s.snapDue = true) (only : s.startedDies = [d]) (lg : (s.snapRingOf 4).2.1 = 0)
    (io : s.observe.ioSnap = none) : exec .snapshot s = .next ((s.latchDie d).ioLatch.snapDie d) := by
  have observe := (s.latchDie_frame d).observe
  unfold State.snapRingOf at lg
  have latched : s.latchAll = (s.latchDie d).ioLatch := by
    show (List.foldl _ s s.startedDies).latchIo = _
    rw [only]
    show (s.latchDie d).latchIo = _
    unfold State.latchIo State.ioLatch
    dsimp only
    rw [if_pos (by rw [observe]; exact lg)]
  have started : (s.latchDie d).ioLatch.startedDies = [d] := by
    refine Eq.trans ?_ only
    exact congrArg (fun p => (List.range 4).filter p) (funext fun e => s.started_latchDie d e)
  have io' (q : State) (h : q.observe.ioSnap = none) : q.snapIo = q := by
    unfold State.snapIo
    dsimp only
    rw [h]
  show execSnapshot s = _
  unfold execSnapshot
  rw [if_pos due, latched]
  refine congrArg Host.Outcome.next ?_
  unfold State.snapAll
  rw [started]
  refine io' _ ?_
  show ((s.latchDie d).ioLatch.snapDie d).observe.ioSnap = none
  rw [(State.snapDie_frame _ d).observe]
  exact (congrArg Observe.ioSnap observe).trans io

/-- A record that is due is written where its place can be, and waits elsewhere; where none is, nothing is written. -/
theorem State.snapDie_waits {pa : Nat} {l : List Nat} (place : ringPlace (s.snapRingOf d) 8192 (s.die d).snapTail = pa)
    (due : (s.die d).snap = some l) : s.snapDie d = if s.quietAll pa 8192 then
      (s.homeWrite pa (8 * l.length) (wordsValue l)).modDie d (fun y => { y with
        snapTail := (y.snapTail + 1) % 2 ^ 32, snap := none }) else s := by
  subst place
  unfold State.snapDie
  dsimp only
  rw [due]
  rfl

theorem State.snapDie_none (none : (s.die d).snap = none) : s.snapDie d = s := by
  unfold State.snapDie
  dsimp only
  rw [none]

theorem State.die_homeWrite (s : State) (pa n v d : Nat) : (s.homeWrite pa n v).die d = s.die d := by
  rw [State.die, (s.homeWrite_frame pa n v).dies]
  rfl

theorem State.latched_snapDie (s : State) (d : Nat) : ((s.snapDie d).die d).latched = (s.die d).latched := by
  unfold State.snapDie
  dsimp only
  split
  · rfl
  · split
    · exact (State.modDie_keeps Die.latched _ (by rfl) d).trans (congrArg Die.latched (State.die_homeWrite ..))
    · rfl

theorem State.ioLatch_frame (s : State) (d : Nat) : Frame [.fDies, .fClockFree, .fObserve] s (s.latchDie d).ioLatch :=
  ((s.latchDie_frame d).mono (by decide)).withObserve _

theorem State.snapRingOf_ioLatch (s : State) (d e : Nat) : (s.latchDie d).ioLatch.snapRingOf e = s.snapRingOf e := by
  show tget (0, 0, 0) (s.latchDie d).observe.snapRing e = _
  rw [(s.latchDie_frame d).observe]
  rfl

/-- A latched record is written at once where its place can be, and else waits. -/
theorem State.snapped_room {pa : Nat} (canon : s.Canon) (place : ringPlace (s.snapRingOf d) 8192 (s.die d).snapTail = pa)
    (lg : (s.snapRingOf d).2.1 ≠ 0) (room : ringFull (s.snapRingOf d) (s.die d).snapTail = false)
    (written : (s.die d).snap = none) :
    (s.quietAll pa 8192 = true → mload ((s.latchDie d).ioLatch.snapDie d).mem pa 8 = s.gtick % 2 ^ 64 ∧
      mload ((s.latchDie d).ioLatch.snapDie d).mem (pa + 8) 8 = (s.die d).missed % 2 ^ 32 * 2 ^ 32 + d % 4 ∧
      (((s.latchDie d).ioLatch.snapDie d).die d).snapTail = ((s.die d).snapTail + 1) % 2 ^ 32 ∧
      (((s.latchDie d).ioLatch.snapDie d).die d).missed = 0 ∧ (((s.latchDie d).ioLatch.snapDie d).die d).snap = none) ∧
    (s.quietAll pa 8192 = false → ((s.latchDie d).ioLatch.snapDie d).mem = s.mem ∧
      (((s.latchDie d).ioLatch.snapDie d).die d).snapTail = (s.die d).snapTail ∧
      ∃ l, (((s.latchDie d).ioLatch.snapDie d).die d).snap = some (s.gtick :: l)) := by
  obtain ⟨l, latched⟩ := State.latchDie_room lg room written
  have frame := s.ioLatch_frame d
  have ring := s.snapRingOf_ioLatch d d
  have die : (s.latchDie d).ioLatch.die d = _ := latched
  generalize (s.latchDie d).ioLatch = q at *
  generalize eq : (s.die d).missed % 2 ^ 32 * 2 ^ 32 + d % 4 = w at *
  have waits := State.snapDie_waits (s := q) (d := d) (pa := pa) (by rw [ring, die]; exact place) (by rw [die])
  rw [State.quietAll_of_frame frame] at waits
  refine ⟨fun quiet => ?_, fun busy => ?_⟩
  · obtain ⟨tick, word⟩ := wordsValue_words s.gtick w l
    have stored {i j : Nat} (within : i + j ≤ 8 * (s.gtick :: w :: l).length) :=
      q.mload_homeWrite (canon.of_frame frame) pa (wordsValue (s.gtick :: w :: l)) within
    have long : 8 + 8 ≤ 8 * (s.gtick :: w :: l).length := by
      rw [List.length_cons, List.length_cons]
      omega
    rw [quiet, if_pos rfl] at waits
    rw [waits, State.die_modDie, State.die_homeWrite, die]
    refine ⟨(stored (i := 0) (Nat.le_trans (by decide) long)).trans tick,
      (stored long).trans (word.trans ?_), rfl, rfl, rfl⟩
    rw [← eq]
    omega
  · rw [busy, if_neg Bool.false_ne_true] at waits
    rw [waits, die]
    exact ⟨frame.mem, rfl, _, rfl⟩

/-- A record that finds its ring full is missed. -/
theorem State.snapped_full (lg : (s.snapRingOf d).2.1 ≠ 0) (full : ringFull (s.snapRingOf d) (s.die d).snapTail = true)
    (written : (s.die d).snap = none) : (((s.latchDie d).ioLatch.snapDie d).die d).missed = (s.die d).missed + 1 ∧
      ((s.latchDie d).ioLatch.snapDie d).mem = s.mem := by
  have latched : (s.latchDie d).ioLatch.die d = _ := State.latchDie_full lg full
  have none : (s.latchDie d).ioLatch.snapDie d = (s.latchDie d).ioLatch := State.snapDie_none (by rw [latched]; exact written)
  rw [none, latched]
  exact ⟨rfl, (s.ioLatch_frame d).mem⟩

/-! ## Stops and the tick counter (R382, R390) -/

theorem State.stopNow_facts (s : State) : s.stopNow.power = { s.power with stopped := true } ∧ s.stopNow.mem = s.mem ∧
    s.stopNow.threads = s.threads ∧ s.stopNow.cores = s.cores ∧ s.stopNow.observe.arm = s.observe.arm := by
  have arm : s.latchAll.observe.arm = s.observe.arm := by
    have observe := (s.latchDies_frame s.startedDies).observe
    show (State.latchIo _).observe.arm = _
    unfold State.latchIo
    dsimp only
    rw [observe]
    split
    · rfl
    · split <;> rfl
  have frame := s.latchAll_frame
  unfold State.stopNow
  dsimp only
  split
  · exact ⟨by rw [frame.power], frame.mem, frame.threads, frame.cores, arm⟩
  · exact ⟨rfl, rfl, rfl, rfl, rfl⟩

/-- A write of `stopctl` arms the stop, and a stop tick that has passed stops the package (R389, R390). -/
theorem State.armStop_facts (s : State) (v : Nat) : (s.armStop v).observe.arm = decide (v % 2 = 1) ∧
    (v % 2 = 1 → s.observe.stopTk ≤ s.gtick → (s.armStop v).power.stopped = true) ∧
    (v % 2 ≠ 1 ∨ s.gtick < s.observe.stopTk → (s.armStop v).power = s.power) := by
  have stops := State.stopNow_facts { s with observe := { s.observe with arm := decide (v % 2 = 1) } }
  obtain ⟨power, -, -, -, arm⟩ := stops
  unfold State.armStop
  dsimp only
  by_cases due : State.stopDue { s with observe := { s.observe with arm := decide (v % 2 = 1) } } = true
  · rw [if_pos due]
    obtain ⟨⟨armed, reached⟩, -⟩ : (v % 2 = 1 ∧ s.observe.stopTk ≤ s.gtick) ∧ _ := by
      simpa [State.stopDue] using due
    refine ⟨arm, fun _ _ => by rw [power], fun no => ?_⟩
    exact absurd no (by omega)
  · rw [if_neg due]
    refine ⟨rfl, fun armed reached => ?_, fun _ => rfl⟩
    by_contra runs
    exact due (by rw [State.stopDue, decide_eq_true armed, decide_eq_true reached, Bool.eq_false_iff.2 runs]; rfl)

theorem State.registerWrite_eq {s : State} {off : Nat} {val : Word} (within : off < 0x1000) :
    exec (.registerWrite (0x8040000000 + off) val) s = .next (s.observeWrite off val.toNat) := by
  show execRegisterWrite (0x8040000000 + off) val s = _
  unfold execRegisterWrite
  rw [if_neg (by omega), show 0x8040000000 + off - 0x8040000000 = off by omega]

/-- The registers of a die's snapshot ring: base, lg and head, and a read-only tail (R389). -/
theorem State.observeWrite_snapRing (s : State) {d f : Nat} (die : d < 4) (field : f < 4) (v : Nat) :
    s.observeWrite (0x40 + 8 * f + 32 * d) v = if f = 3 then s else { s with observe := { s.observe with
      snapRing := tset s.observe.snapRing d (ringWrite (tget (0, 0, 0) s.observe.snapRing d) f v) } } := by
  have slot : (0x40 + 8 * f + 32 * d - 0x40) % 32 / 8 = f := by omega
  have place : (0x40 + 8 * f + 32 * d - 0x40) / 32 = d := by omega
  unfold State.observeWrite
  dsimp only
  rw [if_neg (by omega), if_neg (by omega), if_neg (by omega), if_neg (by omega), if_pos (by omega), slot, place]

end

/-- A correction of the tick counter (R382). -/
def State.corrected (s : State) : State := { s with observe := { s.observe with corrected := some s.gtick } }

theorem State.gtickDiscipline_eq {s : State}
    (free : s.observe.corrected = none ∨ ∃ k, s.observe.corrected = some k ∧ k + 1000 ≤ s.gtick) (double : Bool) :
    exec (.gtickDiscipline double) s = .next (if double then (s.corrected.endTicks 1).1 else s.corrected) := by
  show execGtickDiscipline double s = _
  unfold execGtickDiscipline
  rcases free with none | ⟨k, last, long⟩
  · rw [none]
    rfl
  · rw [last]
    dsimp only
    rw [decide_eq_true long]
    rfl

/-- Where no watchdog is due at its end, a tick passes with threads and memory as they were (R358, R382). -/
theorem State.endTicks_quiet {s : State} (quiet : ∀ g ∈ s.groups, s.watchdogDue g.1 = false) :
    (s.endTicks 1).1 = s.sendAcks.passTicks 1 := by
  have none : s.groups.filter (fun x => s.watchdogDue x.1) = [] := List.filter_eq_nil_iff.2 fun g mem due =>
    absurd (due.symm.trans (quiet g mem)) (by decide)
  rw [State.endTicks_one, none]
  rfl

/-- Settles O52: each event reads off the observation state what it does, and what it writes is read back from memory. -/
theorem observation : Obligations.Observation := by
  unfold Obligations.Observation
  refine ⟨fun s rs1 nb => ⟨fun off => ?_, fun on room => ?_, fun on full => ?_⟩, fun s canon => ?_⟩
  · refine State.results_none_of (.refl s _) ?_
    show execMark rs1 nb s = _
    unfold execMark
    dsimp only
    rw [show s.traced s.myCtx (coreDie s.me.core) = false from Bool.eq_false_iff.2 off]
    rfl
  · obtain ⟨frame, others, progressed, me⟩ := State.completeP_rdy_facts (s.modCore s.myCore (fun k => { k with
      trace := k.trace ++ [s.markRecord rs1] })) nb
    refine ⟨_, (execMark_eq on).trans (if_pos room), ?_, progressed, others, me, fun k => ?_⟩
    · rw [State.completeP_rdy]
      rfl
    · show tget Core.fresh _ k = _
      rw [frame.cores]
      exact State.core_setCore ..
  · have run : exec (.mark rs1 nb) s = _ := (execMark_eq on).trans (if_neg (Nat.not_lt.2 full))
    by_cases asks : nb = 1
    · subst asks
      exact State.stops_counted 0x1013 run
    · rw [if_neg asks] at run
      exact State.stops_of run
  · refine ⟨?_, ?_, ?_, ?_, ?_, ?_⟩
    · intro c r rest oldest d ring tail pa room quiet
      obtain ⟨t, run, mem, tail', whole, loss⟩ := traceDrain_facts oldest rfl rfl rfl room quiet
      obtain ⟨tick, kind, pc, value⟩ := s.mload_record (State.canon_iff.2 canon) pa (r.drained (s.core c).lost)
      refine ⟨t, run, ?_⟩
      rw [mem, tick, kind, pc, value]
      by_cases none : (s.core c).lost = 0
      · rw [show r.drained (s.core c).lost = r from if_pos none]
        exact ⟨rfl, tail', fun _ => ⟨whole none, rfl, rfl, rfl⟩, fun some => absurd none some⟩
      · rw [show r.drained (s.core c).lost = _ from if_neg none]
        obtain ⟨trace, lost⟩ := loss none
        exact ⟨rfl, tail', fun zero => absurd zero none, fun _ => ⟨trace, lost, rfl, BitVec.toNat_ofNat ..⟩⟩
    · intro d due only ring tail pa io idle written
      have latched : ((s.latchDie d).die d).latched = some s.gtick := (s.latched_latchDie d d).trans (if_pos rfl)
      have snapped (lg : ring.2.1 ≠ 0) (room : ringFull ring tail = false) :=
        State.snapped_room (pa := pa) (State.canon_iff.2 canon) rfl lg room written
      refine ⟨_, State.snapshot_eq due only io idle, (State.latched_snapDie ..).trans latched, ?_,
        fun lg room quiet => (snapped lg room).1 quiet, fun lg room busy => (snapped lg room).2 busy,
        fun lg full => State.snapped_full lg full written⟩
      rw [(State.snapDie_frame _ d).observe]
      exact congrArg some (s.latchDie_frame d).gtick
    · intro due now
      obtain ⟨arm, reached, runs⟩ := now
      obtain ⟨power, mem, threads, cores, -⟩ := s.stopNow_facts
      have run : exec .stopOnTick s = .next s.stopNow := by
        refine if_pos ?_
        rw [State.stopDue, arm, decide_eq_true reached, runs]
        rfl
      refine ⟨_, run, power, mem, threads, cores, fun idle => ?_, fun snap d started => ?_⟩
      · rw [State.stopNow, idle]
        rfl
      · rw [State.stopNow, snap]
        exact s.latched_latchAll d started
    · intro val
      have bit : decide (val.toNat % 2 = 1) = val.getLsbD 0 := by
        rw [BitVec.getLsbD, Nat.testBit_zero]
      have run : exec (.stopctlArm val) s = .next (s.armStop val.toNat) := rfl
      obtain ⟨fires, keeps⟩ := s.armStop_facts val.toNat
      rw [bit] at fires
      have armed : val.toNat % 2 = 1 ↔ val.getLsbD 0 = true := by rw [← bit, decide_eq_true_iff]
      refine ⟨_, run, fires, fun on => keeps.1 (armed.2 on), fun off => keeps.2 (off.imp_left fun no => ?_)⟩
      rw [ne_eq, armed, no]
      decide
    · intro d val die writes n ring
      have written {off : Nat} {y : Observe} (within : off < 0x1000) (e : s.observeWrite off n = { s with observe := y }) :
          writes off y := ⟨_, (State.registerWrite_eq within).trans (congrArg Host.Outcome.next e), rfl⟩
      refine ⟨written (by decide) rfl, fun least most => written (by decide) ?_, written (by omega) ?_, written (by omega) ?_,
        written (by omega) ?_, written (by omega) ?_⟩
      · have bit : val.getLsbD 63 = decide (n / 2 ^ 63 % 2 = 1) := Nat.testBit_eq_decide_div_mod_eq
        rw [bit]
        unfold State.observeWrite
        rw [if_pos rfl]
        dsimp only
        rw [if_pos ⟨least, most⟩]
      · exact s.observeWrite_snapRing (f := 0) die (by decide) n
      · exact s.observeWrite_snapRing (f := 1) die (by decide) n
      · exact s.observeWrite_snapRing (f := 2) die (by decide) n
      · exact s.observeWrite_snapRing (f := 3) die (by decide) n
    · intro free
      have runs := State.gtickDiscipline_eq free
      refine ⟨fun quiet => ⟨_, runs true, ?_⟩, ⟨_, runs false, rfl⟩⟩
      rw [if_pos rfl, State.endTicks_quiet (s := s.corrected) quiet]
      exact ⟨rfl, rfl, rfl, rfl⟩

end Sys2Proof.Machine

namespace Sys2Proof.Machine

open Sys2Proof

/-! # Counterexamples to statements on probes and on threads

One statement takes a way of an L1 set as free that a claim of another line holds already (R85, R111). The other asks of a
thread that ends only that its release is established, not that it issues (`Thread.issues`), as no thread does in a wait. -/

/-- The translation of the page at 2^32: untracked, readable and writable memory at PA 0, homed beside core 0. -/
def rawPage : TlbEntry := { asid := 0, level := 2, vpn := 0x10000, pte := 399, homes := [0] }

/-- A claim of thread 1 on core 0 that awaits a readable copy of a tracked line. -/
def awaitedLine (line : Nat) : Claim :=
  { uid := 1, pc := 0, word := 0, ea := 0, need := .share, write := false, line := line, stage := .waiting, opened := false,
    closes := 0, remote := false, copy := none, tag := 0, home := 0 }

/-- A READY thread on core 0 with 2^32 in x1. The core's L1 is empty, and eight claims of another thread await the eight
ways of set 0. -/
def promisedSet : State :=
  { State.reset with
    threads := [(0, { Thread.fresh with st := .ready, regs := [(1, 0x100000000)] })]
    cores := [(0, { Core.fresh with tlb := [rawPage], claims := (List.range 8).map (fun i => awaitedLine (64 * (i + 1))) })] }

theorem promisedSet_reachesRaw : promisedSet.ReachesRaw 0x100000000 1 true rawPage where
  paged := by decide
  aligned := by decide
  unlogged := by decide
  translation := by decide
  memory := by decide
  untracked := by decide
  readable := by decide
  writable := by decide
  settled := by decide
  sound := by decide
  unchecked := by decide
  prompt := by decide

theorem promisedSet_waits : (promisedSet.storeOp 0 (promisedSet.me.reg 1 + sext12 0) 0 0).me.st = .waiting := by
  decide

/-- Refutes O11: set 0 holds no line in `promisedSet`, but claims hold its eight ways, so the store of `pst` to an untracked
line that the core does not hold waits for one of them. -/
theorem not_probesHitLine : ¬ Obligations.ProbesHitLine := by
  unfold Obligations.ProbesHitLine
  intro h
  obtain ⟨-, -, -, store⟩ := h promisedSet 0 1 0 0 0 rawPage
    { line := 0, st := .raw, data := 0, valid := 0, dirty := 0, home := 0 }
  obtain ⟨t, y, e, -, -, -, me, -⟩ := store promisedSet_reachesRaw ⟨by decide, by decide⟩ (by unfold State.noFetch; decide)
    (by decide) ⟨by decide, by decide⟩ (.inr ⟨by decide, by decide, rfl⟩)
  obtain rfl := Host.Outcome.next.inj e
  exact absurd (promisedSet_waits.symm.trans (congrArg Thread.st me)) TState.noConfusion

/-- A thread in execution that is WAITING in a `yield`, its wake armed on the end of a claim in set 0 of its L1, and that
holds such a claim. -/
def yieldingState : State :=
  { State.reset with
    threads := [(0, { Thread.fresh with st := .waiting, wait := .yield 0 1, wake := some { cond := .setFree 0 0, fired := 0 } })]
    cores := [(0, { Core.fresh with claims := [{ awaitedLine 0 with uid := 0 }] })] }

/-- Refutes O21: in `yieldingState` the end of the claim, which `thr.exit` begins with (R102), fires the wake and ends the
`yield`; that retires an instruction beside the `thr.exit`. -/
theorem not_threadsStartAndEnd : ¬ Obligations.ThreadsStartAndEnd := by
  unfold Obligations.ThreadsStartAndEnd
  intro h
  obtain ⟨-, -, -, -, exits, -⟩ := h yieldingState 0 0 0 0 0
  obtain ⟨t, e, -, -, instret, -⟩ := exits (by decide)
  obtain rfl := Host.Outcome.next.inj e
  exact absurd instret (by decide)

end Sys2Proof.Machine

namespace Sys2Proof.Machine

open Sys2Proof

/-! # Counterexamples to statements on lines and on homes

Two statements on writes to a local memory leave out that the first write after an `fnc rel` or `fnc full` clears
`releasing` (R315). Two on line operations and pushes leave out the claims that still await the line: `line.inv` and
`line.wbinv` wait for the end of such a claim as they do for that of a pin, and so does a push (R86, R131). One on a home
leaves out that an entry takes the number of the home that serves the line (log 60), and one that claims which waited for
a write look again when it is performed (R131). -/

/-! ## Writes that carry a release (R315) -/

/-- Refutes O15: `pstr` of x0 to the first byte of the LM window, in `releasingState`, ends with `releasing` cleared. -/
theorem not_acquireReleaseForms : ¬ Obligations.AcquireReleaseForms := by
  unfold Obligations.AcquireReleaseForms
  intro h
  obtain ⟨-, pstr, -⟩ := h releasingState 0 0 0 0 0 0 0 (by decide) (by unfold State.clean; decide)
    (by unfold State.noFetch; decide)
  obtain ⟨t, e, -, -, me, -⟩ := pstr (by decide) (by decide) (by decide) ⟨by decide, by decide⟩
  obtain rfl := Host.Outcome.next.inj e
  exact absurd (congrArg Thread.releasing me) (by decide)

/-- Refutes O16: `red` of x0 to the first word of the LM window, in `releasingState`, ends with `releasing` cleared. -/
theorem not_redCombines : ¬ Obligations.RedCombines := by
  unfold Obligations.RedCombines
  intro h
  obtain ⟨red, -⟩ := h releasingState 0 0 0 0 0 rawPage
    { line := 0, st := .s, data := 0, valid := 0, dirty := 0, home := 0 } (by decide)
  obtain ⟨t, e, -, -, -, -, -, me⟩ := red (by decide) (by decide) ⟨by decide, by decide⟩
  obtain rfl := Host.Outcome.next.inj e
  exact absurd (congrArg Thread.releasing me) (by decide)

/-! ## A line that a claim awaits (R86, R131, R144) -/

/-- The translation of the page at 2^32: tracked memory at PA 0, readable, writable and open to pushes, homed beside core 0. -/
def pushPage : TlbEntry := { asid := 0, level := 2, vpn := 0x10000, pte := 495, homes := [0] }

/-- A READY thread on core 0 with 2^32 in x1, whose line, 0, the core does not hold: a claim of thread 1 awaits a readable
copy. Constant word 0 names core 1 as the one target of a push. -/
def awaitingState : State :=
  { State.reset with
    threads := [(0, { Thread.fresh with st := .ready, regs := [(1, 0x100000000)] })]
    cores := [(0, { Core.fresh with tlb := [pushPage], claims := [awaitedLine 0] })]
    lm := [(0, 1), (4, 1)] }

theorem awaitingState_translated : awaitingState.translated (awaitingState.me.reg 1) pushPage := ⟨by decide, by decide⟩

theorem awaitingState_unclaimed : awaitingState.unclaimed (awaitingState.me.reg 1) := ⟨by decide, by decide⟩

/-- Refutes O17: the claim in `awaitingState` pins no line yet, for its copy has not come, but `line.inv` waits for its end. -/
theorem not_lineOperations : ¬ Obligations.LineOperations := by
  unfold Obligations.LineOperations
  intro h
  obtain ⟨-, -, unpinned⟩ := h awaitingState 1 0 pushPage
  obtain ⟨absent, -⟩ := unpinned
    ⟨by decide, awaitingState_translated, awaitingState_unclaimed, by unfold State.noFetch; decide⟩ (by decide)
  obtain ⟨-, ⟨t, e, me, -⟩, -⟩ := absent (by decide)
  obtain rfl := Host.Outcome.next.inj e
  exact absurd (congrArg Thread.st me) (by decide)

/-- Refutes O18: a push of a line keeps others off it, so that `psh.line` in `awaitingState` waits for the end of the claim. -/
theorem not_pushesLeave : ¬ Obligations.PushesLeave := by
  unfold Obligations.PushesLeave
  intro h
  obtain ⟨-, unmodified, -⟩ := h awaitingState 0 1 0 0 pushPage [1]
  obtain ⟨t, e, me, -⟩ := unmodified ⟨by decide, awaitingState_translated, awaitingState_unclaimed, by decide, by decide,
    by decide, by decide, by decide, by decide⟩ (by decide) (fun x held => absurd held (Option.some_ne_none x).symm)
  obtain rfl := Host.Outcome.next.inj e
  exact absurd (congrArg Thread.st me) (by decide)

/-! ## What a home leaves (log 60, R131) -/

/-- A claim of thread 1 on core 256, of die 1, asks the home slice beside core 9 for a line to read; the slice has a token.
Core 2 owns the line, whose entry is as the slice makes it for the first request of a line: with no home written. -/
def ownedLine : State :=
  { State.reset with
    net := [{ src := 256, dst := 1033, line := 5, kind := .remoteReq 1 false }]
    dir := [(5, { DirEntry.fresh with st := .ex, holders := [2] })]
    buckets := [(17 * 9 + 16, { Bucket.fresh with tokens := 1 })]
    links := [(linkTo 1 0, { Link.fresh with st := .up })] }

/-- Refutes O27: the entry of `ownedLine`, which awaits the owner's reply in W, takes the number 9 of the slice that serves
the request. -/
theorem not_homeRequests : ¬ Obligations.HomeRequests := by
  unfold Obligations.HomeRequests
  intro h
  obtain ⟨-, -, -, -, remote, -⟩ := h ownedLine 0 1 0 { src := 256, dst := 1033, line := 5, kind := .remoteReq 1 false } _
    ⟨rfl, fun _ x => absurd x List.not_mem_nil, by decide, fun brings => absurd brings (by decide)⟩ rfl
  obtain ⟨-, owned, -⟩ := remote rfl ⟨⟨by decide, by decide⟩, by decide, by decide⟩
  obtain ⟨t, e, entry, -⟩ := owned (by decide)
  obtain rfl := Host.Outcome.next.inj e
  exact absurd (congrArg DirEntry.home entry) (by decide)

/-- The modified claim copy of thread 0 on core 1 reaches its home, and a blocked claim of thread 1 on that core has waited
for the write. -/
def returningCopy : State :=
  { State.reset with
    net := [{ src := 1, dst := 1024, line := 5, kind := .claimReturn 0 (some 7) }]
    dir := [(5, { DirEntry.fresh with pins := [(0, true)] })]
    cores := [(1, { Core.fresh with claims := [{ awaitedLine 5 with stage := .blocked }] })] }

/-- Refutes O28: once the write of `returningCopy` is performed, core 1 sends itself a word for the claim that waited for
it. -/
theorem not_homeReturns : ¬ Obligations.HomeReturns := by
  unfold Obligations.HomeReturns
  intro h
  obtain ⟨-, -, -, -, -, returned, -⟩ := h returningCopy 0
    { src := 1, dst := 1024, line := 5, kind := .claimReturn 0 (some 7) } _
    ⟨rfl, fun _ x => absurd x List.not_mem_nil, by decide, fun _ => by decide⟩ rfl
    (by unfold State.noneEnding; decide) (by decide)
  obtain ⟨t, e, -, net, -⟩ := returned 0 7 rfl (by decide)
  obtain rfl := Host.Outcome.next.inj e
  exact absurd (congrArg List.length net) (by decide)

end Sys2Proof.Machine

namespace Sys2Proof.Machine

open Sys2Proof

/-! # A walk that waits for a vault (R273, R407)

The statement on translation asks nothing of the vaults in which the entries of a walk stand. A vault that is being repaired
holds its traffic, and a walk that reads from it is not enabled until then. -/

/-- A miss of a load of thread 0 on core 0, at VA 0. The context's tables begin at PA 0, where the entry that the walk reads
is 0, and the vault of that entry holds traffic until tick 1. -/
def heldWalk : State :=
  { State.reset with
    formes := [(0, { Forme.fresh with misses := [{ core := 0, uid := 0, asid := 0, va := 0, write := false, kind := 1 }] })]
    heldUntil := [(vaultOf 0, 1)] }

theorem heldWalk_waits : exec (.tableWalk 0) heldWalk = notEnabled "TABLE_WALK" := rfl

/-- Refutes O46: in `heldWalk` no page is present at VA 0, but the walk that finds it so cannot be made yet. -/
theorem not_translation : ¬ Obligations.Translation := by
  unfold Obligations.Translation
  intro h
  obtain ⟨walks, -⟩ := h heldWalk (by decide)
  obtain ⟨-, absent⟩ := walks 0 _ rfl (by decide) (by decide) (by decide)
  obtain ⟨t, e, -⟩ := absent 0 false (by decide) (by decide)
  cases heldWalk_waits.symm.trans e

end Sys2Proof.Machine

namespace Sys2Proof.Machine

open Sys2Proof

/-! # Hardware barriers (R146 to R154, R158 to R161) -/

/-! ## What operations leave of the barriers -/

section
variable {s t : State} (kind unit idx : Nat)

theorem State.bar_of_frame {T : List Field} (f : Frame T s t) (c : Field.fCores ∉ T := by decide)
    (r : Field.fFormes ∉ T := by decide) (d : Field.fDies ∉ T := by decide) : t.bar kind unit idx = s.bar kind unit idx := by
  unfold State.bar State.core State.forme State.die
  rw [f.cores c, f.formes r, f.dies d]

theorem State.bar_setBar (s : State) (b : Bar) : (s.setBar kind unit idx b).bar kind unit idx = b := by
  match kind with
  | 0 =>
    show tget Bar.fresh ((s.modCore unit _).core unit).bars idx = b
    rw [(s.core_modCore unit _).1, tget_tset, if_pos rfl]
  | 1 =>
    show tget Bar.fresh ((s.modForme unit _).forme unit).bars idx = b
    rw [State.modForme_eq, State.forme_setForme, if_pos rfl, tget_tset, if_pos rfl]
  | _ + 2 =>
    show tget Bar.fresh ((s.modDie unit _).die unit).bars idx = b
    rw [State.modDie_eq, State.die_setDie, if_pos rfl, tget_tset, if_pos rfl]

/-- Event counts stand apart from barriers. -/
theorem State.bar_count (s : State) (c ctx code n : Nat) : (s.count c ctx code n).bar kind unit idx = s.bar kind unit idx := by
  unfold State.bar
  rw [State.core_count, State.die_count]
  rfl

theorem State.bar_notReady (s : State) (nb : BitVec 1) (c : OCode) (w : WakeCond) :
    (s.notReady nb c w).bar kind unit idx = s.bar kind unit idx := by
  unfold State.notReady State.countMe
  split
  · exact State.bar_count ..
  · exact State.bar_count ..

/-- The fields in which the units keep their barriers. -/
abbrev barFields : List Field := [.fCores, .fFormes, .fDies]

theorem State.setBar_frame (s : State) (b : Bar) : Frame barFields s (s.setBar kind unit idx b) := by
  unfold State.setBar
  split
  · exact (Frame.refl _ s).modCore _ _
  · exact (Frame.refl _ s).modForme _ _
  · exact (Frame.refl _ s).modDie _ _

end

/-! ## Arrivals counted (R150, R153) -/

section
variable (s : State) (kind unit idx : Nat)

/-- The fields that an advance may change. -/
abbrev advanceFields : List Field := [.fCores, .fFormes, .fDies, .fCtxs, .fThreads, .fWakeSeq, .fGroups]

/-- An advance steps the phase and starts the count again; to a thread it does no more than fire a wake. -/
theorem State.advanceBar_facts : Frame advanceFields s (s.advanceBar kind unit idx) ∧
    (∀ u, Marks u s (s.advanceBar kind unit idx)) ∧ ∃ rel epoch, (s.advanceBar kind unit idx).bar kind unit idx =
      { s.bar kind unit idx with phase := ((s.bar kind unit idx).phase + 1) % 2 ^ 16, arrived := 0, rel := rel, epoch := epoch } := by
  unfold State.advanceBar
  extract_lets b d now ctx epoch rel q x woken
  clear_value ctx
  have counted : Frame [.fCtxs] s q := by
    unfold q
    split
    · exact (Frame.refl _ s).modCtx _ _
    · exact .refl _ s
  have written : Frame [.fCores, .fFormes, .fDies, .fCtxs] s x :=
    (counted.mono (by decide)).trans ((q.setBar_frame ..).mono (by decide))
  have fired : Frame advanceFields s woken := (written.mono (by decide)).fireIf _
  have marks (u : Nat) : Marks u s woken := (Marks.of_frame u written).fireIf _
  have bar : woken.bar kind unit idx = _ :=
    (State.bar_of_frame kind unit idx ((Frame.refl [.fThreads, .fWakeSeq] x).fireIf _)).trans (q.bar_setBar ..)
  split
  · next g _ =>
    have progress : Frame [.fGroups] woken (woken.progress g) := (Frame.refl _ _).modGrp _ _
    exact ⟨fired.trans (progress.mono (by decide)), fun u => (marks u).trans (.of_frame u progress),
      _, _, (State.bar_of_frame kind unit idx progress).trans bar⟩
  · exact ⟨fired, marks, _, _, bar⟩

/-- An arrival before the last expected one. -/
theorem State.countArrival_few (few : (s.bar kind unit idx).arrived + 1 < (s.bar kind unit idx).expected) :
    s.countArrival kind unit idx =
      s.setBar kind unit idx { s.bar kind unit idx with arrived := (s.bar kind unit idx).arrived + 1 } :=
  if_neg (Nat.not_le.2 few)

/-- An arrival is counted in the barrier alone, but for the advance that the last expected one makes. -/
theorem State.countArrival_facts : Frame advanceFields s (s.countArrival kind unit idx) ∧
    (∀ u, Marks u s (s.countArrival kind unit idx)) ∧
    let b := s.bar kind unit idx
    let after := (s.countArrival kind unit idx).bar kind unit idx
    after.expected = b.expected ∧ (b.arrived + 1 < b.expected → after = { b with arrived := b.arrived + 1 }) ∧
      (b.expected ≤ b.arrived + 1 → after.phase = (b.phase + 1) % 2 ^ 16 ∧ after.arrived = 0) := by
  extract_lets b after
  have one (c : Bar) := s.setBar_frame kind unit idx c
  by_cases last : b.expected ≤ b.arrived + 1
  · have counted : s.countArrival kind unit idx =
        (s.setBar kind unit idx { b with arrived := b.arrived + 1 }).advanceBar kind unit idx := if_pos last
    obtain ⟨frame, marks, rel, epoch, bar⟩ :=
      (s.setBar kind unit idx { b with arrived := b.arrived + 1 }).advanceBar_facts kind unit idx
    rw [State.bar_setBar, ← counted] at bar
    rw [← counted] at frame marks
    exact ⟨((one _).mono (by decide)).trans frame, fun u => (Marks.of_frame u (one _)).trans (marks u),
      (congrArg Bar.expected bar :), fun few => absurd last (Nat.not_le.2 few),
      fun _ => ⟨congrArg Bar.phase bar, congrArg Bar.arrived bar⟩⟩
  · have counted := s.countArrival_few kind unit idx (Nat.not_le.1 last)
    have now : after = { b with arrived := b.arrived + 1 } :=
      (congrArg (State.bar · kind unit idx) counted).trans (s.bar_setBar ..)
    rw [counted]
    exact ⟨(one _).mono (by decide), fun u => .of_frame u (one _), (congrArg Bar.expected now :), fun _ => now,
      fun h => absurd h last⟩

end

/-! ## The barrier of an instruction (R147, R150, R151) -/

section
variable {s : State} {k idx : Nat}

/-- A barrier of a kind below that of the semaphores, as the core of the thread in execution sees it. -/
def State.myBar (s : State) (k idx : Nat) : Bar := s.bar k (unitOf k s.myCore) idx

/-- Its group or context holds the barrier, and the barrier is configured. -/
def State.usable (s : State) (k idx : Nat) : Prop := s.holdsBar k idx = true ∧ (s.myBar k idx).expected ≠ 0

/-- The phase and the epoch that the core sees now. -/
def State.seenNow (s : State) (k idx : Nat) : Nat × Nat := (s.myBar k idx).seen (s.now (coreDie s.myCore)) s.myCore

theorem State.usable_iff : s.usable k idx ↔
    ¬ (!s.holdsBar k idx || decide ((s.bar k (unitOf k s.myCore) idx).expected = 0)) = true := by
  unfold State.usable State.myBar
  simp

theorem State.arriveHw_denied (h : ¬ s.usable k idx) : s.arriveHw k idx = .denied s :=
  if_pos (not_not.1 (mt State.usable_iff.2 h))

theorem State.arriveHw_released (near : k < 3) (h : s.usable k idx) : s.arriveHw k idx =
    if s.established s.cur k = false then .wait s .nr (.release k)
    else if (s.myBar k idx).pending (s.now (coreDie s.myCore)) s.myCore = true then
      .wait s .nr (.barRelease k (unitOf k s.myCore) idx)
    else .counted ((s.modMe Thread.released).countArrival k (unitOf k s.myCore) idx) (s.myBar k idx).phase := by
  have step : s.releaseStep k = (s, s.established s.cur k) := by
    unfold State.releaseStep
    dsimp only
    rw [if_pos near, if_neg fun wide => absurd wide.2 (Nat.not_le.2 near)]
  unfold State.arriveHw
  dsimp only
  rw [if_neg (State.usable_iff.1 h), step]
  dsimp only
  cases s.established s.cur k <;> rfl

/-- What the wait part of an instruction does with a barrier that it may use (R151). -/
theorem State.waitAt_usable (near : k < 3) (h : s.usable k idx) (token : Nat) (nb : BitVec 1) (clamp : Bool) :
    s.waitAt k idx token nb clamp =
      if ((s.seenNow k idx).1 + 2 ^ 16 - token) % 2 ^ 16 = 0 then s.notReady nb .nr (.phase k (unitOf k s.myCore) idx)
      else (s.modMe fun t => { t with epoch := (s.seenNow k idx).2, overflow := false }).completeP nb
        (waitCode (((s.seenNow k idx).1 + 2 ^ 16 - token) % 2 ^ 16)) := by
  refine (if_neg (Nat.ne_of_lt near)).trans ((if_neg (State.usable_iff.1 h)).trans ?_)
  have acquire : s.barAcquire k (some (s.seenNow k idx).2) =
      s.modMe fun t => { t with epoch := (s.seenNow k idx).2, overflow := false } :=
    congrArg (fun q : State => q.modMe fun t => { t with epoch := (s.seenNow k idx).2, overflow := false }) (if_pos near)
  rw [← acquire]
  rfl

theorem State.waitAt_denied (near : k < 3) (h : ¬ s.usable k idx) (token : Nat) (nb : BitVec 1) (clamp : Bool) :
    s.waitAt k idx token nb clamp = s.complete nb .denied :=
  (if_neg (Nat.ne_of_lt near)).trans (if_pos (not_not.1 (mt State.usable_iff.2 h)))


theorem State.me_completeP (s : State) (nb : BitVec 1) (c : OCode) : (s.completeP nb c).me = s.me.completed nb c := by
  have ended : (s.complete nb c).me = s.me.completed nb c := by
    by_cases rdy : c = .rdy
    · rw [rdy, State.complete_rdy, State.me_setThr]
    · rw [State.complete_other s nb c rdy, State.me_countMe, State.me_setThr]
  unfold State.completeP
  split
  · exact ended
  · exact ended

/-- A register that a thread has written, and the others (R51). -/
theorem Thread.reg_given (t : Thread) (rd : BitVec 4) (v : Word) (q : BitVec 4) :
    (t.setReg rd v).reg q = if q = rd ∧ q ≠ 0 then v else t.reg q := by
  rw [Thread.reg_setReg]
  exact if_congr (and_congr_right fun e => by rw [e]) rfl rfl

/-- A wait that is over completes as an acquire: the thread takes the epoch that its core sees (R151, R159). -/
theorem State.waitAt_past (near : k < 3) (h : s.usable k idx) {token d : Nat} (nb : BitVec 1) (clamp : Bool)
    (e : ((s.seenNow k idx).1 + 2 ^ 16 - token) % 2 ^ 16 = d) (past : d ≠ 0) :
    (s.waitAt k idx token nb clamp).mem = s.mem ∧ (s.waitAt k idx token nb clamp).me =
      { s.me.completed nb (waitCode d) with epoch := (s.seenNow k idx).2, overflow := false } := by
  rw [State.waitAt_usable near h, e, if_neg past]
  exact ⟨(State.completeP_frame ..).mem, (State.me_completeP ..).trans (congrArg (Thread.completed · nb _) (State.me_modMe ..))⟩

/-- An arrival at a barrier, counted as a release of the thread in execution (R158). -/
def State.arrivedAt (s : State) (k idx : Nat) : State := (s.modMe Thread.released).countArrival k (unitOf k s.myCore) idx

/-- An arrival releases its thread, and does no more to it than fire its wake. -/
theorem State.arrivedAt_facts (issues : s.me.issues) (k idx : Nat) : Frame advanceFields s (s.arrivedAt k idx) ∧
    (∃ w, (s.arrivedAt k idx).me = { s.me.released with wake := w }) ∧
    let b := s.myBar k idx
    let after := (s.arrivedAt k idx).bar k (unitOf k s.myCore) idx
    after.expected = b.expected ∧ (b.arrived + 1 < b.expected → after = { b with arrived := b.arrived + 1 }) ∧
      (b.expected ≤ b.arrived + 1 → after.phase = (b.phase + 1) % 2 ^ 16 ∧ after.arrived = 0) := by
  obtain ⟨frame, marks, counted⟩ := (s.modMe Thread.released).countArrival_facts k (unitOf k s.myCore) idx
  have released : (s.modMe Thread.released).thr s.cur = s.me.released := State.me_modMe ..
  have calm : ((s.modMe Thread.released).thr s.cur).calm := by rw [released]; exact Thread.calm_of_issues issues
  have only := ((marks s.cur).keeps calm).eq
  rw [released] at only
  exact ⟨((Frame.refl _ s).modMe _).trans frame, ⟨_, (congrArg (s.arrivedAt k idx).thr frame.cur).trans only⟩, counted⟩

/-- A barrier that no core has yet to see released shows its phase (R153). -/
theorem State.seenNow_of_not_pending (h : (s.myBar k idx).pending (s.now (coreDie s.myCore)) s.myCore = false) :
    s.seenNow k idx = ((s.myBar k idx).phase, (s.myBar k idx).epoch) := by
  unfold State.seenNow Bar.seen
  rw [List.find?_eq_none.2 fun x m found => Bool.false_ne_true (h.symm.trans (List.any_eq_true.2 ⟨x, m, found⟩))]

/-- Who may use a barrier rests on the thread's group, and for a barrier of the die on the barrier's holder (R147). -/
theorem State.holdsBar_congr {t : State} (near : k < 3) (gid : t.me.gid = s.me.gid)
    (groups : t.groups = s.groups) (holder : (t.myBar k idx).holder = (s.myBar k idx).holder) :
    t.holdsBar k idx = s.holdsBar k idx := by
  have group : t.myGrp = s.myGrp := by rw [State.myGrp, State.grp, groups, gid]; rfl
  match k, near with
  | 0, _ => rfl
  | 1, _ => exact congrArg Group.forme group
  | 2, _ =>
    show decide ((t.myBar 2 idx).holder = some t.myGrp.ctx) = decide ((s.myBar 2 idx).holder = some s.myGrp.ctx)
    rw [holder, group]

/-- An arrival before the last expected one changes the count of its barrier alone, and counts the release. -/
theorem State.arrivedAt_few (few : (s.myBar k idx).arrived + 1 < (s.myBar k idx).expected) : s.arrivedAt k idx =
    (s.modMe Thread.released).setBar k (unitOf k s.myCore) idx
      { s.myBar k idx with arrived := (s.myBar k idx).arrived + 1 } := State.countArrival_few _ _ _ _ few

/-- Its thread may still use the barrier, and sees the phase in which it has arrived. -/
theorem State.arrivedAt_few_facts (near : k < 3) (h : s.usable k idx)
    (ahead : (s.myBar k idx).pending (s.now (coreDie s.myCore)) s.myCore = false)
    (few : (s.myBar k idx).arrived + 1 < (s.myBar k idx).expected) {f : Thread → Thread}
    (core : ∀ t, (f t).core = t.core) (gid : ∀ t, (f t).gid = t.gid) {q : State} (e : q = (s.arrivedAt k idx).modMe f) :
    q.usable k idx ∧ q.seenNow k idx = ((s.myBar k idx).phase, (s.myBar k idx).epoch) ∧ q.myCore = s.myCore ∧
      q.me = f s.me.released ∧
      q.bar k (unitOf k s.myCore) idx = { s.myBar k idx with arrived := (s.myBar k idx).arrived + 1 } := by
  have set := (s.modMe Thread.released).setBar_frame k (unitOf k s.myCore) idx
    { s.myBar k idx with arrived := (s.myBar k idx).arrived + 1 }
  rw [← State.arrivedAt_few few] at set
  have frame : Frame [.fCores, .fFormes, .fDies, .fThreads] s q := by
    rw [e]
    exact (((Frame.refl _ s).modMe _).trans (set.mono (by decide))).modMe _
  have bar : q.bar k (unitOf k s.myCore) idx = { s.myBar k idx with arrived := (s.myBar k idx).arrived + 1 } := by
    rw [e, State.bar_of_frame k _ idx ((Frame.refl [.fThreads] (s.arrivedAt k idx)).modMe f), State.arrivedAt_few few,
      State.bar_setBar]
  have me : q.me = f s.me.released := by
    rw [e, State.me_modMe, State.me, State.thr, set.threads, set.cur]
    exact congrArg f (State.me_modMe ..)
  have at_ : q.myCore = s.myCore := by
    rw [State.myCore, me, core]
    rfl
  have mine : q.me.gid = s.me.gid := by
    rw [me, gid]
    rfl
  have mybar : q.myBar k idx = { s.myBar k idx with arrived := (s.myBar k idx).arrived + 1 } := by
    rw [State.myBar, at_, bar]
  have held : q.holdsBar k idx = true :=
    (State.holdsBar_congr near mine frame.groups (congrArg Bar.holder mybar :)).trans h.1
  have now : q.now (coreDie q.myCore) = s.now (coreDie s.myCore) := by
    rw [at_]
    exact congrArg (tget 0 · _) frame.cyc
  refine ⟨⟨held, by rw [mybar]; exact h.2⟩, ?_, at_, me, bar⟩
  rw [State.seenNow_of_not_pending (by rw [mybar, now, at_]; exact ahead), mybar]

end

/-! ## The instructions (R158 to R161) -/

section
variable {s : State} {rd rs1 : BitVec 4} {kind : BitVec 2} {idx : BitVec 6} {nb : BitVec 1}

/-- The next instruction is another. -/
theorem pc_moved (pc : Word) : pc + 4 ≠ pc := fun e => by simp at e

/-- The wait part of `bar.aw` in a state that its arrival has left: it forgets the arrival where the thread moves on (R160). -/
def State.waitOn (s : State) (pc : Word) (k idx token : Nat) (nb : BitVec 1) : State :=
  if (s.waitAt k idx token nb false).me.pc = pc then s.waitAt k idx token nb false
  else (s.waitAt k idx token nb false).modMe fun t => { t with arrived := none }

theorem State.waitOn_moved {k i token : Nat} {pc : Word} (h : (s.waitAt k i token nb false).me.pc ≠ pc) :
    s.waitOn pc k i token nb = (s.waitAt k i token nb false).modMe fun t => { t with arrived := none } := if_neg h

/-- A wait that is not over: with nb = 1 the thread moves on, with nb = 0 it stays and remembers its arrival. -/
theorem State.waitOn_notReady {k i token : Nat} {w : WakeCond} (h : s.waitAt k i token nb false = s.notReady nb .nr w) :
    s.waitOn s.me.pc k i token nb =
      if nb = 1 then (s.notReady nb .nr w).modMe fun t => { t with arrived := none } else s.notReady nb .nr w := by
  have stopped := s.stoppedAt_notReady nb .nr w
  unfold Thread.stoppedAt at stopped
  unfold State.waitOn
  rw [h]
  split at stopped
  · next one => rw [if_neg (by rw [stopped]; exact pc_moved _), if_pos one]
  · next zero => rw [if_pos (by rw [stopped]), if_neg zero]

theorem State.arriveAt_hw (hw : kind ≠ 3) (s : State) (i : Nat) : s.arriveAt kind.toNat i = s.arriveHw kind.toNat i :=
  if_neg fun e => hw (BitVec.eq_of_toNat_eq e)

theorem execBarAw_again {token : Nat} (arrived : s.me.arrived = some (s.me.pc, token)) :
    exec (.barAw rd kind idx nb) s = .next (s.waitOn s.me.pc kind.toNat idx.toNat token nb) := by
  show execBarAw rd kind idx nb s = _
  unfold execBarAw
  dsimp only
  rw [arrived, Option.filter_some, if_pos (decide_eq_true rfl)]
  rfl

/-- An arrival that does not count, as both instructions end with it. -/
theorem State.arrives_denied (hw : kind ≠ 3) (not : ¬ s.usable kind.toNat idx.toNat) :
    exec (.barArrive rd kind idx nb) s = .next (s.complete nb .denied) ∧
      (s.me.arrived = none → exec (.barAw rd kind idx nb) s = .next (s.complete nb .denied)) := by
  constructor
  · show execBarArrive rd kind idx nb s = _
    unfold execBarArrive
    rw [State.arriveAt_hw hw, State.arriveHw_denied not]
  · intro none
    show execBarAw rd kind idx nb s = _
    unfold execBarAw
    dsimp only
    rw [none, Option.filter_none]
    dsimp only
    rw [State.arriveAt_hw hw, State.arriveHw_denied not]

/-- An arrival whose release step is not established waits for it (R158). -/
theorem State.arrives_unreleased (hw : kind ≠ 3) (near : kind.toNat < 3) (may : s.usable kind.toNat idx.toNat)
    (waits : s.established s.cur kind.toNat = false) :
    exec (.barArrive rd kind idx nb) s = .next (s.notReady nb .nr (.release kind.toNat)) ∧
      (s.me.arrived = none → exec (.barAw rd kind idx nb) s = .next (s.notReady 0 .nr (.release kind.toNat))) := by
  have arrival := State.arriveHw_released near may
  rw [if_pos waits] at arrival
  constructor
  · show execBarArrive rd kind idx nb s = _
    unfold execBarArrive
    rw [State.arriveAt_hw hw, arrival]
    exact congrArg (fun q : State => Host.Outcome.next (q.notReady nb .nr (.release kind.toNat)))
      (if_neg fun sem => Nat.ne_of_lt near sem.1)
  · intro none
    show execBarAw rd kind idx nb s = _
    unfold execBarAw
    dsimp only
    rw [none, Option.filter_none]
    dsimp only
    rw [State.arriveAt_hw hw, arrival]

/-- The thread of a `bar.aw` whose arrival at `pc` has been counted: rd takes the token, and the thread remembers it (R160). -/
def Thread.arriving (rd : BitVec 4) (pc : Word) (token : Nat) (t : Thread) : Thread :=
  { t.setReg rd (BitVec.ofNat 64 token) with arrived := some (pc, token) }

theorem Thread.arriving_core (rd : BitVec 4) (pc : Word) (token : Nat) (t : Thread) :
    (t.arriving rd pc token).core = t.core := t.setReg_core ..

theorem Thread.arriving_gid (rd : BitVec 4) (pc : Word) (token : Nat) (t : Thread) :
    (t.arriving rd pc token).gid = t.gid := t.setReg_gid ..

/-- An arrival that counts gives rd its phase; `bar.aw` waits on it. -/
theorem State.arrives_counted (hw : kind ≠ 3) (near : kind.toNat < 3) (may : s.usable kind.toNat idx.toNat)
    (released : s.established s.cur kind.toNat = true)
    (ahead : (s.myBar kind.toNat idx.toNat).pending (s.now (coreDie s.myCore)) s.myCore = false) :
    let token := (s.myBar kind.toNat idx.toNat).phase
    exec (.barArrive rd kind idx nb) s = .next (((s.arrivedAt kind.toNat idx.toNat).modMe
      (fun t => t.setReg rd (BitVec.ofNat 64 token))).completeP nb .rdy) ∧
      (s.me.arrived = none → exec (.barAw rd kind idx nb) s = .next (((s.arrivedAt kind.toNat idx.toNat).modMe
        (Thread.arriving rd s.me.pc token)).waitOn s.me.pc kind.toNat idx.toNat token nb)) := by
  have arrival := State.arriveHw_released near may
  rw [if_neg (by rw [released]; decide), if_neg (by rw [ahead]; decide)] at arrival
  constructor
  · show execBarArrive rd kind idx nb s = _
    unfold execBarArrive
    rw [State.arriveAt_hw hw, arrival]
    rfl
  · intro none
    show execBarAw rd kind idx nb s = _
    unfold execBarAw
    dsimp only
    rw [none, Option.filter_none]
    dsimp only
    rw [State.arriveAt_hw hw, arrival]
    rfl

/-- Before the last arrival, `bar.aw` counts its own and then waits on the phase (R160). -/
theorem execBarAw_few (hw : kind ≠ 3) (near : kind.toNat < 3) (may : s.usable kind.toNat idx.toNat)
    (released : s.established s.cur kind.toNat = true)
    (ahead : (s.myBar kind.toNat idx.toNat).pending (s.now (coreDie s.myCore)) s.myCore = false) (first : s.me.arrived = none)
    (few : (s.myBar kind.toNat idx.toNat).arrived + 1 < (s.myBar kind.toNat idx.toNat).expected) :
    let b := s.myBar kind.toNat idx.toNat
    let unit := unitOf kind.toNat s.myCore
    ∃ t, exec (.barAw rd kind idx nb) s = .next t ∧
      (∀ r, t.me.reg r = if r = rd ∧ r ≠ 0 then BitVec.ofNat 64 b.phase else s.me.reg r) ∧
      t.bar kind.toNat unit idx.toNat = { b with arrived := b.arrived + 1 } ∧
      t.me.wake = some { cond := .phase kind.toNat unit idx.toNat, fired := 0 } ∧
      if nb = 1 then t.me.oc = 1 ∧ t.me.pc = s.me.pc + 4 ∧ t.me.arrived = none
      else t.me.st = .waiting ∧ t.me.pc = s.me.pc ∧ t.me.arrived = some (s.me.pc, b.phase) := by
  intro b unit
  obtain ⟨-, run⟩ := State.arrives_counted (rd := rd) (nb := nb) hw near may released ahead
  obtain ⟨q, e⟩ : ∃ q, q = (s.arrivedAt kind.toNat idx.toNat).modMe (Thread.arriving rd s.me.pc b.phase) := ⟨_, rfl⟩
  obtain ⟨usable, shows, core, me, bar⟩ := State.arrivedAt_few_facts near may ahead few
    (Thread.arriving_core _ _ _) (Thread.arriving_gid _ _ _) e
  replace run := (run first).trans
    (congrArg (fun q : State => Host.Outcome.next (q.waitOn s.me.pc kind.toNat idx.toNat b.phase nb)) e.symm)
  have pc : q.me.pc = s.me.pc := by rw [me]; exact Thread.setReg_pc ..
  have regs (r : BitVec 4) : q.me.reg r = if r = rd ∧ r ≠ 0 then BitVec.ofNat 64 b.phase else s.me.reg r := by
    rw [me]; exact Thread.reg_given ..
  have same : (b.phase + 2 ^ 16 - b.phase) % 2 ^ 16 = 0 := by rw [Nat.add_sub_cancel_left, Nat.mod_self]
  have waiting : q.waitAt kind.toNat idx.toNat b.phase nb false = q.notReady nb .nr (.phase kind.toNat unit idx.toNat) := by
    rw [State.waitAt_usable near usable, shows, core]
    exact if_pos same
  have ended := State.waitOn_notReady waiting
  rw [pc] at ended
  have stopped := q.stoppedAt_notReady nb .nr (.phase kind.toNat unit idx.toNat)
  have counted := (State.bar_notReady kind.toNat unit idx.toNat q nb .nr (.phase kind.toNat unit idx.toNat)).trans bar
  unfold Thread.stoppedAt at stopped
  by_cases one : nb = 1
  · rw [if_pos one] at stopped ended
    refine ⟨_, run.trans (congrArg Host.Outcome.next ended), ?_⟩
    rw [if_pos one, State.me_modMe, stopped]
    exact ⟨regs, counted, rfl, rfl, congrArg (· + 4) pc, rfl⟩
  · rw [if_neg one] at stopped ended
    refine ⟨_, run.trans (congrArg Host.Outcome.next ended), ?_⟩
    rw [if_neg one, stopped]
    exact ⟨regs, counted, rfl, rfl, pc, congrArg Thread.arrived me⟩

/-- A configuration that keeps to the table of R161. -/
theorem cfgBroken_iff (near : kind.toNat < 3) (v : Nat) : cfgBroken kind.toNat v = true ↔
    2 ^ 40 ≤ v ∨ v % 2 ^ 16 = 0 ∨ (kind.toNat = 0 ∧ v / 2 ^ 32 % 256 ≠ 0) ∨ v / 2 ^ 16 % 2 ^ 16 ≠ 0 := by
  have sem : kind.toNat ≠ 3 := Nat.ne_of_lt near
  unfold cfgBroken
  simp only [sem, or_false, if_false, Bool.or_eq_true, Bool.and_eq_true, decide_eq_true_eq]
  omega

theorem execBarCfg_denied (hw : kind ≠ 3)
    (no : s.holdsBar kind.toNat idx.toNat = false ∨ cfgBroken kind.toNat (s.me.reg rs1).toNat = true) :
    exec (.barCfg rs1 kind idx nb) s = .next (s.complete nb .denied) := by
  refine (if_neg fun e => hw (BitVec.eq_of_toNat_eq e)).trans (if_pos ?_)
  rw [Bool.or_eq_true, Bool.not_eq_true']
  exact no

/-- A barrier with a new expected count and stagger step. -/
def Bar.configured (b : Bar) (v : Nat) : Bar := { b with expected := v % 2 ^ 16, step := v / 2 ^ 32 % 256 }

/-- The configuration of a barrier in the state, which advances where its count has been reached already (R161). -/
def State.configuredBar (s : State) (k idx v : Nat) : State :=
  let t := s.setBar k (unitOf k s.myCore) idx ((s.myBar k idx).configured v)
  if v % 2 ^ 16 ≤ (s.myBar k idx).arrived then t.advanceBar k (unitOf k s.myCore) idx else t

theorem execBarCfg_holds (hw : kind ≠ 3) (held : s.holdsBar kind.toNat idx.toNat = true)
    (sound : ¬ cfgBroken kind.toNat (s.me.reg rs1).toNat = true) : exec (.barCfg rs1 kind idx nb) s =
      .next ((s.configuredBar kind.toNat idx.toNat (s.me.reg rs1).toNat).completeP nb .rdy) := by
  refine (if_neg fun e => hw (BitVec.eq_of_toNat_eq e)).trans (if_neg ?_)
  rw [Bool.or_eq_true, Bool.not_eq_true', held]
  exact not_or.2 ⟨Bool.noConfusion, sound⟩

theorem State.configuredBar_facts (issues : s.me.issues) (k idx v : Nat) :
    (∃ w, (s.configuredBar k idx v).me = { s.me with wake := w }) ∧
    ((s.myBar k idx).arrived < v % 2 ^ 16 →
      (s.configuredBar k idx v).bar k (unitOf k s.myCore) idx = (s.myBar k idx).configured v) ∧
    (v % 2 ^ 16 ≤ (s.myBar k idx).arrived →
      ((s.configuredBar k idx v).bar k (unitOf k s.myCore) idx).expected = v % 2 ^ 16 ∧
      ((s.configuredBar k idx v).bar k (unitOf k s.myCore) idx).phase = ((s.myBar k idx).phase + 1) % 2 ^ 16 ∧
      ((s.configuredBar k idx v).bar k (unitOf k s.myCore) idx).arrived = 0) := by
  generalize e : s.myBar k idx = b
  have set := s.setBar_frame k (unitOf k s.myCore) idx (b.configured v)
  by_cases reached : v % 2 ^ 16 ≤ b.arrived
  · have configured : s.configuredBar k idx v =
        (s.setBar k (unitOf k s.myCore) idx (b.configured v)).advanceBar k (unitOf k s.myCore) idx := by
      rw [State.configuredBar, e, if_pos reached]
    obtain ⟨frame, marks, rel, epoch, bar⟩ :=
      (s.setBar k (unitOf k s.myCore) idx (b.configured v)).advanceBar_facts k (unitOf k s.myCore) idx
    rw [State.bar_setBar, ← configured] at bar
    rw [← configured] at frame marks
    have only := (((Marks.of_frame s.cur set).trans (marks s.cur)).keeps (Thread.calm_of_issues issues)).eq
    exact ⟨⟨_, (congrArg (s.configuredBar k idx v).thr (frame.cur.trans set.cur)).trans only⟩,
      fun few => absurd reached (Nat.not_le.2 few), fun _ => ⟨(congrArg Bar.expected bar :), (congrArg Bar.phase bar :),
      (congrArg Bar.arrived bar :)⟩⟩
  · have configured : s.configuredBar k idx v = s.setBar k (unitOf k s.myCore) idx (b.configured v) := by
      rw [State.configuredBar, e, if_neg reached]
    have me : (s.configuredBar k idx v).me = s.me := by
      rw [configured, State.me, State.me, State.thr, State.thr, set.threads, set.cur]
    exact ⟨⟨s.me.wake, me⟩, fun _ => (congrArg (State.bar · k _ idx) configured).trans (s.bar_setBar ..),
      fun h => absurd h reached⟩

/-- The release of a core's waiters, whose cycle has come (R153, R154). -/
theorem execBarrierRelease_due {k unit i c : Nat} {x : Nat × Nat × Nat × Nat}
    (ahead : (s.bar k unit i).rel.find? (fun y => decide (y.1 = c)) = some x) (due : x.2.1 ≤ s.now (unitDie k unit)) :
    exec (.barrierRelease k unit i c) s = .next ((s.setBar k unit i
      { s.bar k unit i with rel := tdel (s.bar k unit i).rel c }).wakeCore k unit i [c]) := by
  show execBarrierRelease k unit i c s = _
  unfold execBarrierRelease
  dsimp only
  rw [ahead]
  exact if_pos due

end

/-- Settles O33: an instruction goes by what it finds of its barrier, and the thread of an arrival takes no more from the
wakes of an advance than a mark on its own. -/
theorem barrierInstructions : Obligations.BarrierInstructions := by
  unfold Obligations.BarrierInstructions
  intro s rd rs1 kind idx nb c issues hw k unit b now held open_ seen after v away given acquired arrive wait aw cfg
  have near : k < 3 := by
    have : k ≠ 3 := fun e => hw (BitVec.eq_of_toNat_eq e)
    have := kind.isLt
    omega
  have waits (o : Nat) (may : held) (e : away = o) (past : o ≠ 0) : ∃ t, exec wait s = .next t ∧ t.mem = s.mem ∧
      t.me = acquired (waitCode o) := ⟨_, rfl, State.waitAt_past near may nb true e past⟩
  refine ⟨fun no => ?_, fun may unreleased => ?_, fun ⟨may, released, ahead⟩ => ?_, fun may same => ?_, fun may one => ?_,
    fun may far => ?_, fun ⟨may, released, ahead⟩ first few _ => ?_, fun token may arrived one => ?_, fun no => ?_,
    fun holds low some' step scope => ?_, fun at_ x ahead due => ?_⟩
  · obtain ⟨a, w⟩ := State.arrives_denied (rd := rd) (nb := nb) hw no
    exact ⟨State.ends_of a, State.ends_of (congrArg Host.Outcome.next (State.waitAt_denied near no ..)),
      fun none => State.ends_of (w none)⟩
  · obtain ⟨a, w⟩ := State.arrives_unreleased (rd := rd) (nb := nb) hw near may unreleased
    exact ⟨State.stops_of a, fun none => State.stops_of (w none)⟩
  · obtain ⟨-, ⟨w, counted⟩, expected, few, last⟩ := State.arrivedAt_facts issues k idx.toNat
    obtain ⟨run, -⟩ := State.arrives_counted (rd := rd) (nb := nb) hw near may released ahead
    have bar := State.bar_of_frame k unit idx.toNat (((Frame.refl [.fThreads, .fGroups] (s.arrivedAt k idx.toNat)).modMe
      fun t => t.setReg rd (BitVec.ofNat 64 b.phase)).trans (State.completeP_rdy_facts _ nb).1)
    have me := (State.me_completeP ((s.arrivedAt k idx.toNat).modMe fun t => t.setReg rd (BitVec.ofNat 64 b.phase)) nb
      .rdy).trans (congrArg (Thread.completed · nb .rdy) ((State.me_modMe ..).trans (congrArg (Thread.setReg · rd _) counted)))
    refine ⟨_, run, fun r => (congrArg (Thread.reg · r) me).trans (Thread.reg_given ..),
      (congrArg Bar.expected bar).trans expected, fun h => bar.trans (few h), fun h => ?_, ?_⟩
    · obtain ⟨phase, arrived⟩ := last h
      exact ⟨(congrArg Bar.phase bar).trans phase, (congrArg Bar.arrived bar).trans arrived⟩
    · refine me.trans (.trans ?_ (congrArg (fun t : Thread => { s.me.completed nb .rdy with
        regs := t.regs, wake := t.wake, interval := (s.me.interval + 1) % 2 ^ 20 }) me.symm))
      unfold Thread.setReg
      split <;> rfl
  · refine State.stops_of (congrArg Host.Outcome.next ?_)
    exact (State.waitAt_usable near may ..).trans (if_pos same)
  · exact waits 1 may one (by decide)
  · obtain ⟨t, e, mem, me⟩ := waits away may rfl (by omega)
    exact ⟨t, e, mem, me.trans (congrArg acquired (if_neg (by omega)))⟩
  · exact execBarAw_few hw near may released ahead first few
  · obtain ⟨mem, me⟩ := State.waitAt_past near may nb false one (by decide)
    refine ⟨_, (execBarAw_again arrived).trans (congrArg Host.Outcome.next (State.waitOn_moved ?_)), mem, ?_⟩
    · rw [me]; exact pc_moved _
    · rw [State.me_modMe, me]; rfl
  · refine State.ends_of (execBarCfg_denied hw ?_)
    rw [cfgBroken_iff near]
    exact no
  · have sound : ¬ cfgBroken kind.toNat (s.me.reg rs1).toNat = true := by
      rw [cfgBroken_iff near]
      exact not_or.2 ⟨Nat.not_le.2 low, not_or.2 ⟨some', not_or.2 ⟨fun ⟨zero, far⟩ => far (by rw [step zero]),
        not_not.2 scope⟩⟩⟩
    obtain ⟨⟨w, me⟩, few, last⟩ := State.configuredBar_facts issues k idx.toNat v
    have bar := State.bar_of_frame k unit idx.toNat (State.completeP_rdy_facts (s.configuredBar k idx.toNat v) nb).1
    refine ⟨_, execBarCfg_holds hw holds sound, ?_, fun h => ?_, fun h => ?_⟩
    · rw [State.me_completeP, me]
      rfl
    · have byte : v / 2 ^ 32 < 256 := by omega
      exact bar.trans ((few h).trans (congrArg (fun n => { b with expected := v % 2 ^ 16, step := n })
        (Nat.mod_eq_of_lt byte)))
    · obtain ⟨expected, phase, arrived⟩ := last h
      exact ⟨(congrArg Bar.expected bar).trans expected, (congrArg Bar.phase bar).trans phase,
        (congrArg Bar.arrived bar).trans arrived⟩
  · exact ⟨_, execBarrierRelease_due ahead due,
      (State.bar_of_frame k unit _ ((Frame.refl [.fThreads, .fWakeSeq] _).fireIf _)).trans (State.bar_setBar ..)⟩
end Sys2Proof.Machine

namespace Sys2Proof.Machine

open Sys2Proof

/-! # Bytes of a line (R4) -/

section
variable (d : BitVec 1024) (off v : Nat)

theorem testBit_lineGet (n i : Nat) :
    (lineGet d off n).testBit i = (decide (i < 8 * n) && d.getLsbD (8 * off + i)) := by
  rw [lineGet, Nat.testBit_mod_two_pow, Nat.testBit_div_two_pow, Nat.add_comm i]
  rfl

/-- The bytes set hold the value, the others as before. -/
theorem getLsbD_lineSet {n i : Nat} (bit : i < 1024) : (lineSet d off n v).getLsbD i =
    if 8 * off ≤ i ∧ i < 8 * (off + n) then v.testBit (i - 8 * off) else d.getLsbD i := by
  have low : d.toNat % 2 ^ (8 * off) < 2 ^ (8 * off) := Nat.mod_lt _ (by positivity)
  have mid : v % 2 ^ (8 * n) < 2 ^ (8 * n) := Nat.mod_lt _ (by positivity)
  have inner : 2 ^ (8 * off) * (v % 2 ^ (8 * n)) + d.toNat % 2 ^ (8 * off) < 2 ^ (8 * (off + n)) := by
    rw [Nat.mul_add, Nat.pow_add]
    calc _ < 2 ^ (8 * off) * (v % 2 ^ (8 * n)) + 2 ^ (8 * off) := by omega
      _ = 2 ^ (8 * off) * (v % 2 ^ (8 * n) + 1) := by ring
      _ ≤ _ := Nat.mul_le_mul_left _ mid
  unfold lineSet
  dsimp only
  rw [BitVec.getLsbD_ofNat, decide_eq_true bit, Bool.true_and, Nat.add_comm (d.toNat % _),
    Nat.add_comm _ (2 ^ (8 * (off + n)) * _), Nat.testBit_two_pow_mul_add _ inner, Nat.testBit_two_pow_mul_add _ low]
  rw [Nat.testBit_mod_two_pow, Nat.testBit_mod_two_pow, Nat.testBit_div_two_pow, BitVec.getLsbD]
  split
  · split
    · next h => rw [if_neg (by omega), decide_eq_true h, Bool.true_and]
    · next h => rw [if_pos (by omega), decide_eq_true (by omega), Bool.true_and]
  · next h => rw [if_neg (by omega), Nat.sub_add_cancel (by omega)]

/-- A write of bytes that a mask names all. -/
theorem getLsbD_lineMask {mask : Nat} {i : Nat} (bit : i < 1024) :
    ∀ {n : Nat}, off + n ≤ 128 → (∀ k < n, mask.testBit k = true) →
    (lineMask d off v mask n).getLsbD i = if 8 * off ≤ i ∧ i < 8 * (off + n) then v.testBit (i - 8 * off) else d.getLsbD i
  | 0, _, _ => (if_neg (by omega)).symm
  | n + 1, within, all => by
    have rest := getLsbD_lineMask bit (n := n) (by omega) fun k h => all k (by omega)
    unfold lineMask
    dsimp only
    rw [if_pos (all n n.lt_succ_self), getLsbD_lineSet _ _ _ bit, rest, show (256 : Nat) = 2 ^ 8 from rfl,
      Nat.testBit_mod_two_pow, Nat.testBit_div_two_pow]
    by_cases last : 8 * (off + n) ≤ i ∧ i < 8 * (off + n + 1)
    · rw [if_pos last, if_pos (by omega), decide_eq_true (by omega), Bool.true_and,
        show i - 8 * (off + n) + 8 * n = i - 8 * off by omega]
    · rw [if_neg last]
      exact if_congr (by omega) rfl rfl

/-- What is read of the bytes that a store has written. -/
theorem lineGet_lineMask {n : Nat} (within : off + n ≤ 128) :
    lineGet (lineMask d off v (allBytes n) n) off n = v % 2 ^ (8 * n) := by
  refine Nat.eq_of_testBit_eq fun i => ?_
  rw [testBit_lineGet, Nat.testBit_mod_two_pow]
  by_cases h : i < 8 * n
  · rw [getLsbD_lineMask d off v (by omega) within fun k hk => by rw [allBytes, Nat.testBit_two_pow_sub_one, decide_eq_true hk],
      if_pos (by omega), Nat.add_sub_cancel_left]
  · rw [decide_eq_false h, Bool.false_and, Bool.false_and]

end

/-! # Semaphores (R149, R158, R377, R378) -/

/-! ## The word (R149) -/

section
variable {p ex ar sc : Nat}

/-- A configured, well-formed word of four fields. -/
structure SemFields (p ex ar sc : Nat) : Prop where
  phase : p < 2 ^ 16
  expected : ex < 2 ^ 16
  arrived : ar < ex
  scope : sc = 3 ∨ sc = 4

/-- The word of four fields (R149). -/
def semOf (p ex ar sc : Nat) : Nat := p * 2 ^ 48 + ex * 2 ^ 32 + ar * 2 ^ 16 + sc

/-- The word of its fields after an arrival. -/
def semNext (p ex ar sc : Nat) : Nat := if ar + 1 = ex then semOf ((p + 1) % 2 ^ 16) ex 0 sc else semOf p ex (ar + 1) sc

theorem SemFields.read (h : SemFields p ex ar sc) : semPhase (semOf p ex ar sc) = p ∧ semExpected (semOf p ex ar sc) = ex ∧
    semArrived (semOf p ex ar sc) = ar ∧ semReserved (semOf p ex ar sc) = 0 ∧ semScope (semOf p ex ar sc) = sc := by
  obtain ⟨hp, hex, har, hsc⟩ := h
  unfold semPhase semExpected semArrived semReserved semScope semOf
  omega

theorem SemFields.sound (h : SemFields p ex ar sc) :
    semMalformed (semOf p ex ar sc) = false ∧ semUnconfigured (semOf p ex ar sc) = false := by
  obtain ⟨-, expected, arrived, reserved, scope⟩ := h.read
  obtain ⟨-, -, few, kind⟩ := h
  have configured : semUnconfigured (semOf p ex ar sc) = false := by
    rw [semUnconfigured, expected, decide_eq_false (by omega)]
  refine ⟨?_, configured⟩
  rw [semMalformed, configured, expected, arrived, reserved, scope, decide_eq_false (not_not.2 rfl),
    decide_eq_false (by omega), decide_eq_false (by omega)]
  rfl

theorem SemFields.arrive (h : SemFields p ex ar sc) :
    semArrive (semOf p ex ar sc) = (semNext p ex ar sc, decide (ar + 1 = ex)) := by
  obtain ⟨phase, expected, arrived, -, scope⟩ := h.read
  obtain ⟨hp, hex, har, hsc⟩ := h
  unfold semArrive semNext
  rw [phase, expected, arrived, scope]
  split
  · next last =>
    rw [decide_eq_true last, semWord, semOf, Nat.zero_mod, Nat.mod_eq_of_lt hex, Nat.mod_eq_of_lt (show sc < 8 by omega)]
  · next few =>
    rw [decide_eq_false few, semWord, semOf, Nat.mod_eq_of_lt hp, Nat.mod_eq_of_lt hex,
      Nat.mod_eq_of_lt (show ar + 1 < 2 ^ 16 by omega), Nat.mod_eq_of_lt (show sc < 8 by omega)]

theorem SemFields.scope_next (h : SemFields p ex ar sc) : semScope (semNext p ex ar sc) = sc ∧ semNext p ex ar sc < 2 ^ 64 := by
  obtain ⟨hp, hex, har, hsc⟩ := h
  unfold semNext semOf semScope
  split <;> omega

end

/-! ## Access to a held line (R111, R116, R271, R274) -/

section
variable {s : State} {ea : Word} {n : Nat} {e : TlbEntry} {x : L1Line}

/-- An access that has waited for nothing and finds its line held for what it needs is performed there. -/
theorem State.attempt_held {k : AKind} (held : s.HoldsLine ea n k.writes e x) (unclaimed : s.unclaimed ea)
    (serves : servesNeed k.need x.st = true) (read : k ≠ .semLoad) (bytes : Nat) : s.attempt k ea n n true bytes =
      .ok s (.line (leafPa e.level e.pte.toNat ea.toNat / 128) (leafPa e.level e.pte.toNat ea.toNat % 128)) := by
  have shadow : s.inShadow s.myCtx ea.toNat = false := decide_eq_false fun h => h.1 held.unchecked
  have line : (s.core s.me.core).line (leafPa e.level e.pte.toNat ea.toNat / 128) = some x := held.held
  have none : (s.core s.me.core).findClaim s.cur s.me.pc s.ir ea = none := unclaimed.1
  have near : coreDie (e.home (leafPa e.level e.pte.toNat ea.toNat / 128)) = coreDie s.me.core := held.near
  have settled : s.pendingWrite s.me.core (leafPa e.level e.pte.toNat ea.toNat / 128) = false := held.settled
  have writable : (k.writes && !pteW e.pte.toNat) = false ∧ (k.writes && pteMG e.pte.toNat) = false ∧
      (k.writes && !pteD e.pte.toNat) = false := by
    cases w : k.writes with
    | false => exact ⟨rfl, rfl, rfl⟩
    | true =>
      obtain ⟨hw, hd, hmg⟩ := held.writable w
      rw [hw, hd, hmg]
      exact ⟨rfl, rfl, rfl⟩
  obtain ⟨hw, hmg, hd⟩ := writable
  have ready (m : BitVec 128) (p : Spot) : s.ready k ea m e (leafPa e.level e.pte.toNat ea.toNat) p = .ok s p := by
    have sound : s.poisonOf (leafPa e.level e.pte.toNat ea.toNat / 128) = false := by
      rw [State.poisonOf, List.contains_eq_mem, decide_eq_false held.sound]
    have unchecked : s.raceCheck s.myCtx s.meAgent ea.toNat (sectorsIn ea.toNat m) k.writes (pteT e.pte.toNat) = .ok s :=
      if_pos held.unchecked
    unfold State.ready State.takeOracle State.racePass
    dsimp only
    rw [none, held.prompt]
    simp only [Option.isSome_none, Bool.false_eq_true, if_false, sound, Bool.and_false, unchecked]
    split <;> rfl
  have leaf (m : BitVec 128) : s.onLeaf k ea m e =
      .ok s (.line (leafPa e.level e.pte.toNat ea.toNat / 128) (leafPa e.level e.pte.toNat ea.toNat % 128)) := by
    unfold State.onLeaf
    simp only [if_neg held.memory, held.tracked, held.readable, hw, hmg, hd, settled, near, line, serves, decide_eq_false read,
      Bool.or_false, Bool.not_true, Bool.and_false, Bool.false_eq_true, if_false, if_true, ready]
  unfold State.attempt
  rw [if_neg fun bad => bad.1 held.aligned, held.paged]
  dsimp only
  rw [shadow, held.unlogged, State.translate_held ⟨held.translation, held.unlogged⟩, decide_eq_false (not_not.2 rfl),
    Bool.and_false, Bool.false_and, Bool.false_and]
  exact leaf _

/-! ## Writes to a held line -/

/-- The race detector is off for the thread in execution, where its group and the contexts read as before. -/
theorem State.race_of_frame {t : State} {T : List Field} (f : Frame T s t) (gid : t.me.gid = s.me.gid)
    (g : Field.fGroups ∉ T := by decide) (c : Field.fCtxs ∉ T := by decide) :
    (t.ctx t.myCtx).race = (s.ctx s.myCtx).race := by
  have group : t.grp t.me.gid = s.grp s.me.gid := by rw [State.grp, State.grp, f.groups g, gid]
  show (t.ctx (t.grp t.me.gid).ctx).race = (s.ctx (s.grp s.me.gid).ctx).race
  rw [group, State.ctx, State.ctx, f.ctxs c]

theorem State.shadowRelease_off (off : (s.ctx s.myCtx).race = 0) (ea : Word) : s.shadowRelease ea = s := by
  unfold State.shadowRelease
  dsimp only
  exact if_pos (.inl off)

/-- A write into a held line, with the detector off: the line is modified in its L1, and to the thread the write does no more
than fire its wake and end what an `fnc rel` has left to it (R116, R315). -/
theorem State.writeAt_held (issues : s.me.issues) (off : (s.ctx s.myCtx).race = 0) {l : Nat} (o v mask home : Nat)
    (held : (s.core s.myCore).line l = some x) :
    Frame [.fCores, .fThreads, .fWakeSeq, .fQuoins] s (s.writeAt (.line l o) ea n v mask home) ∧
    (s.writeAt (.line l o) ea n v mask home).core s.myCore =
      (s.core s.myCore).putLine { x with st := .m, data := lineMask x.data o v mask n } ∧
    ∃ w b, (s.writeAt (.line l o) ea n v mask home).me = { s.me with wake := w, releasing := b } := by
  obtain ⟨y, hy⟩ : ∃ y : L1Line, y = { x with st := .m, data := lineMask x.data o v mask n } := ⟨_, rfl⟩
  obtain ⟨q, e⟩ : ∃ q, q = s.storeAt (.line l o) ea n v mask home := ⟨_, rfl⟩
  have put : q = ((s.modCore s.myCore (fun k => k.putLine y)).wrote l).noteStore (128 * l + o) n := by
    rw [e, hy]
    unfold State.storeAt State.putAt
    dsimp only
    rw [held]
  have frame : Frame [.fCores, .fThreads, .fWakeSeq, .fQuoins] s q := by
    rw [put]
    exact (((Frame.refl _ s).modCore _ _).fireIf _).withQuoins _
  have core : q.core s.myCore = (s.core s.myCore).putLine y := by
    rw [put]
    exact (s.core_modCore s.myCore fun k => k.putLine y).1
  have marks : Marks s.cur s q := by
    have written : Marks s.cur s (s.modCore s.myCore fun k => k.putLine y) := .of_eq rfl
    have fired : Marks s.cur s ((s.modCore s.myCore fun k => k.putLine y).wrote l) := written.fireIf _
    rw [put]
    exact fired.trans (.of_frame s.cur ((Frame.refl [.fQuoins] _).withQuoins _))
  have me : q.me = { s.me with wake := q.me.wake } := by
    have only := (marks.keeps (Thread.calm_of_issues issues)).eq
    rwa [show q.thr s.cur = q.me by rw [State.me, frame.cur]] at only
  have still : (q.ctx q.myCtx).race = 0 := (State.race_of_frame frame (by rw [me])).trans off
  have write : s.writeAt (.line l o) ea n v mask home =
      if q.me.releasing && !(sectorsIn ea.toNat (BitVec.ofNat 128 (mask * 2 ^ (ea.toNat % 128)))).isEmpty then
        q.endReleasing else q := by
    unfold State.writeAt
    dsimp only
    rw [← e, List.foldl_fixed' fun va => State.shadowRelease_off still (BitVec.ofNat 64 va)]
  rw [write, ← hy]
  split
  · refine ⟨frame.modMe _, core, q.me.wake, false, ?_⟩
    rw [State.endReleasing, State.me_modMe, me]
  · exact ⟨frame, core, q.me.wake, s.me.releasing, me⟩

/-! ## Arrival at a semaphore word (R158) -/

/-- The release step of an arrival, or none where it consumes a reply: an established one changes the trail alone. -/
theorem State.releaseStep_established (clean : s.clean) {scope : Nat} (established : s.established s.cur scope = true)
    (answered : Bool) : ∃ r, (if answered then (s, true) else s.releaseStep scope) = (r, true) ∧
      Frame [.fCores, .fThreads] s r ∧ (∀ k, r.core k = s.core k) ∧ ∃ trail, r.me = { s.me with trail := trail } := by
  obtain ⟨r, step, released⟩ := State.releaseStep_clean clean scope
  rw [established] at step
  cases answered with
  | true => exact ⟨s, rfl, .refl _ s, fun _ => rfl, s.me.trail, rfl⟩
  | false => exact ⟨r, step, released.frame, released.core, _, released.me⟩

theorem State.binding_package {w : Nat} (h : semScope w = 3) (pa : Nat) : s.binding pa w = .none :=
  if_neg (by rw [h]; decide)

/-- A byte of the LM window or the forme window lies in no region of paged memory (R20, R23). -/
theorem State.region_window {u r b : Nat} (window : inWindows ea = true) (region : s.region u ea.toNat = some (r, b)) :
    r ≤ 8 := by
  rw [inWindows, Bool.or_eq_true, decide_eq_true_eq, decide_eq_true_eq] at window
  unfold State.region at region
  dsimp only at region
  split at region
  · split at region
    · cases region
      omega
    · cases region
  · next high =>
    have low := window.resolve_left high
    rw [if_pos low] at region
    split at region
    · split at region
      · cases region
        omega
      · cases region
    · cases region

theorem State.not_inWindows_of_span {write : Bool} (paged : s.span s.cur ea n write = .paged) : inWindows ea = false := by
  rw [Bool.eq_false_iff]
  intro window
  unfold State.span at paged
  dsimp only at paged
  split at paged
  · cases paged
  · next first _ =>
    have low := State.region_window window first
    split at paged
    · cases paged
    · rw [if_neg (by omega)] at paged
      split at paged <;> cases paged
  · cases paged

theorem findLine_line {l : Nat} : ∀ {k : List L1Line}, findLine l k = some x → x.line = l
  | y :: k, h => by
    unfold findLine at h
    split at h
    · next e => cases h; exact e
    · exact findLine_line h

/-- The count of an arrival in a held line, with the detector off: the write, the end of the operation and the release of the
thread leave the line modified with its new bytes, and its thread in the next interval (R116, R158). -/
theorem State.release_writeAt_held (issues : s.me.issues) (off : (s.ctx s.myCtx).race = 0) (unclaimed : s.unclaimed ea) {l : Nat}
    (o v mask home : Nat) (held : (s.core s.myCore).line l = some x) :
    let t := ((((s.writeAt (.line l o) ea n v mask home).endOp ea).modMe Thread.released).shadowRelease ea).clampCount 3
    (∃ w b, t.me = { s.me.released with wake := w, releasing := b }) ∧
    (t.core s.myCore).line l = some { x with st := .m, data := lineMask x.data o v mask n } := by
  obtain ⟨frame, core, w, b, me⟩ := State.writeAt_held (ea := ea) (n := n) issues off o v mask home held
  generalize s.writeAt (.line l o) ea n v mask home = q at frame core me
  have home : q.myCore = s.myCore := by rw [State.myCore, me]; rfl
  have free : q.unclaimed ea := by
    unfold State.unclaimed
    rw [home, core, frame.cur, frame.ir, me]
    exact unclaimed
  have same := State.endOp_unclaimed q ea free
  have frame : Frame [.fCores, .fThreads, .fWakeSeq, .fQuoins] s ((q.endOp ea).modMe Thread.released) :=
    (frame.trans (same.frame.mono (by decide))).modMe _
  have own : ((q.endOp ea).modMe Thread.released).me = q.me.released := by rw [State.me_modMe, same.me]
  have still := (State.race_of_frame frame (by rw [own, me]; rfl)).trans off
  intro t
  have ended : t = ((q.endOp ea).modMe Thread.released).clampCount 3 := by
    rw [← State.shadowRelease_off still ea]
  rw [ended, State.me_clampCount, State.core_clampCount, own, me]
  refine ⟨⟨w, b, rfl⟩, ?_⟩
  change ((q.endOp ea).core s.myCore).line l = _
  rw [same.core, core, Core.line_putLine, if_pos (findLine_line held).symm]

theorem State.tellProxies_package {v : Nat} (h : semScope v = 3) (pa : Nat) : s.tellProxies pa v = s := by
  rw [State.tellProxies, State.binding_package h]

/-- An arrival at a well-formed, configured word of scope `pkg` that the access reaches is counted there, after the release
step or, where a reply has answered it, without. -/
theorem State.arriveSem_package {idx w v : Nat} {spot : Spot} {advance : Bool} (aligned : (s.semVa idx).toNat % 8 = 0)
    (paged : inWindows (s.semVa idx) = false) (attempt : s.attempt .amo (s.semVa idx) 8 8 true (allBytes 8) = .ok s spot)
    (read : s.readAt spot (s.semVa idx) 8 = w) (malformed : semMalformed w = false) (configured : semUnconfigured w = false)
    (scope : semScope w = 3) (arrive : semArrive w = (v, advance)) (next : semScope v = 3) :
    ∃ answered : Bool, ∀ r, (if answered then (s, true) else s.releaseStep (s.capScope 3)) = (r, true) →
      s.arriveSem idx = .counted (((((r.writeAt spot (s.semVa idx) 8 v (allBytes 8) (r.homeAt (s.semVa idx))).endOp
        (s.semVa idx)).modMe Thread.released).shadowRelease (s.semVa idx)).clampCount 3) (semPhase w) := by
  unfold State.arriveSem
  dsimp only
  rw [if_neg (not_not.2 aligned), paged, attempt]
  dsimp only
  rw [read, malformed, configured, scope, arrive, Bool.or_false, if_neg Bool.false_ne_true, if_neg Bool.false_ne_true]
  apply Exists.intro
  intro r step
  rw [step]
  dsimp only
  rw [State.binding_package scope, State.tellProxies_package next, ite_self]
  rfl

/-- An arrival at a semaphore of scope `pkg` that the core holds is counted in its line, as a release of the thread. -/
theorem State.arriveSem_held {idx p ex ar pa : Nat} (issues : s.me.issues) (clean : s.clean)
    (established : s.established s.cur (s.capScope 3) = true) (held : s.HoldsLine (s.semVa idx) 8 true e x)
    (unclaimed : s.unclaimed (s.semVa idx)) (writable : x.st = .e ∨ x.st = .m) (fields : SemFields p ex ar 3)
    (place : leafPa e.level e.pte.toNat (s.semVa idx).toNat = pa) (word : lineGet x.data (pa % 128) 8 = semOf p ex ar 3) :
    ∃ t, s.arriveSem idx = .counted t p ∧
      (∃ w b trail, t.me = { s.me.released with wake := w, releasing := b, trail := trail }) ∧
      (t.core s.myCore).line (pa / 128) =
        some { x with st := .m, data := lineMask x.data (pa % 128) (semNext p ex ar 3) (allBytes 8) 8 } := by
  have serves : servesNeed .excl x.st = true := by
    obtain exclusive | modified := writable
    · rw [exclusive]; rfl
    · rw [modified]; rfl
  have line : (s.core s.myCore).line (pa / 128) = some x := place ▸ held.held
  have attempt := State.attempt_held (k := .amo) held unclaimed serves (by decide) (allBytes 8)
  rw [place] at attempt
  have read : s.readAt (.line (pa / 128) (pa % 128)) (s.semVa idx) 8 = semOf p ex ar 3 := by
    unfold State.readAt
    dsimp only
    rw [line]
    exact word
  obtain ⟨malformed, configured⟩ := fields.sound
  obtain ⟨phase, -, -, -, scope⟩ := fields.read
  obtain ⟨answered, counted⟩ := State.arriveSem_package held.aligned (State.not_inWindows_of_span held.paged) attempt read
    malformed configured scope fields.arrive fields.scope_next.1
  obtain ⟨r, step, frame, core, trail, me⟩ := State.releaseStep_established clean established answered
  have home : r.myCore = s.myCore := by rw [State.myCore, me]; rfl
  have free : r.unclaimed (s.semVa idx) := by
    unfold State.unclaimed
    rw [home, core, frame.cur, frame.ir, me]
    exact unclaimed
  have off : (r.ctx r.myCtx).race = 0 := (State.race_of_frame frame (by rw [me])).trans held.unchecked
  have kept : (r.core r.myCore).line (pa / 128) = some x := by rw [home, core, line]
  obtain ⟨⟨w, b, own⟩, new⟩ := State.release_writeAt_held (n := 8) (me ▸ issues) off free (pa % 128) (semNext p ex ar 3)
    (allBytes 8) (r.homeAt (s.semVa idx)) kept
  rw [home] at new
  rw [me] at own
  rw [phase] at counted
  exact ⟨_, counted r step, ⟨w, b, trail, own⟩, new⟩

/-- A leaf keeps the alignment of an address to 8 bytes. -/
theorem leafPa_aligned {va : Nat} (h : va % 8 = 0) (lv p : Nat) : leafPa lv p va % 8 = 0 := by
  have low : va % 2 ^ levelBits lv % 8 = 0 := by
    by_cases small : levelBits lv = 0
    · rw [small, Nat.pow_zero, Nat.mod_one]
    · have wide : 3 ≤ levelBits lv := by unfold levelBits at small ⊢; omega
      rw [Nat.mod_mod_of_dvd va (Nat.pow_dvd_pow 2 wide), h]
  unfold leafPa
  omega

/-- `bar.arrive` at a semaphore: where the arrival counts, rd takes the phase. -/
theorem execBarArrive_semaphore {rd : BitVec 4} {idx : BitVec 6} {nb : BitVec 1} {t : State} {token : Nat}
    (h : s.arriveSem idx.toNat = .counted t token) :
    exec (.barArrive rd 3 idx nb) s = .next ((t.modMe fun u => u.setReg rd (BitVec.ofNat 64 token)).completeP nb .rdy) := by
  show execBarArrive rd 3 idx nb s = _
  have arrival : s.arriveAt (3 : BitVec 2).toNat idx.toNat = .counted t token := (if_pos rfl).trans h
  unfold execBarArrive
  rw [arrival]

/-- What `bar.arrive` does at a word that the core holds (R158). -/
theorem execBarArrive_held {rd : BitVec 4} {idx : BitVec 6} {nb : BitVec 1} {p ex ar pa : Nat} (issues : s.me.issues)
    (clean : s.clean) (established : s.established s.cur (s.capScope 3) = true)
    (held : s.HoldsLine (s.semVa idx.toNat) 8 true e x) (unclaimed : s.unclaimed (s.semVa idx.toNat))
    (own : x.st = .e ∨ x.st = .m) (fields : SemFields p ex ar 3)
    (place : leafPa e.level e.pte.toNat (s.semVa idx.toNat).toNat = pa)
    (word : lineGet x.data (pa % 128) 8 = semOf p ex ar 3) :
    ∃ t y, exec (.barArrive rd 3 idx nb) s = .next t ∧ (t.core s.myCore).line (pa / 128) = some y ∧ y.st = .m ∧
      lineGet y.data (pa % 128) 8 = semNext p ex ar 3 ∧
      (∀ q, t.me.reg q = if q = rd ∧ q ≠ 0 then BitVec.ofNat 64 p else s.me.reg q) ∧
      t.me.interval = (s.me.interval + 1) % 2 ^ 20 ∧ t.me.pc = s.me.pc + 4 := by
  have aligned : pa % 8 = 0 := place ▸ leafPa_aligned held.aligned ..
  obtain ⟨t, count, ⟨w, b, trail, me⟩, line⟩ := State.arriveSem_held issues clean established held unclaimed own fields
    place word
  have run := execBarArrive_semaphore (rd := rd) (nb := nb) count
  obtain ⟨frame, -, -, done⟩ := (t.modMe fun u => u.setReg rd (BitVec.ofNat 64 p)).completeP_rdy_facts nb
  rw [State.me_modMe] at done
  have core : ((t.modMe fun u => u.setReg rd (BitVec.ofNat 64 p)).completeP nb .rdy).core s.myCore = t.core s.myCore := by
    rw [State.core, frame.cores]
    rfl
  refine ⟨_, _, run, (congrArg (Core.line · _) core).trans line, rfl, ?_, fun q => ?_, ?_, ?_⟩
  · rw [lineGet_lineMask _ _ _ (by omega), Nat.mod_eq_of_lt fields.scope_next.2]
  · rw [done]
    refine (Thread.reg_given ..).trans ?_
    rw [me]
    rfl
  · rw [done]
    refine (Thread.setReg_interval ..).trans ?_
    rw [me]
    rfl
  · rw [done]
    refine (congrArg (· + 4) (Thread.setReg_pc ..)).trans ?_
    rw [me]
    rfl

/-! ## The pod (R377, R378) -/

section
variable {u entry pkg uid phase pa mask home : Nat}

theorem State.quietAll_one (one : linesOf pa n = [pa / 128]) (quiet : s.quiet (pa / 128) = true) : s.quietAll pa n = true := by
  rw [State.quietAll, one, List.all_cons, quiet]
  rfl

/-- The proxies' share of an advance: phases to send, and nothing else changes. -/
theorem State.tellProxies_podOut (s : State) (pa v : Nat) : ∃ l, s.tellProxies pa v = { s with podOut := s.podOut ++ l } := by
  unfold State.tellProxies
  split
  · exact ⟨_, rfl⟩
  · exact ⟨[], by rw [List.append_nil]⟩

/-- An arrival from another package is counted at the home word and answered with the phase it was counted in. -/
theorem execSemRemoteArrival_home {p ex ar sc : Nat} (fields : SemFields p ex ar sc) (word : s.peek pa 8 = semOf p ex ar sc)
    (aligned : pa % 8 = 0) (bound : tget Binding.none s.bindings entry = .home pa mask) (quiet : s.quiet (pa / 128) = true)
    (alone : (s.entry (pa / 128)).holders = []) :
    ∃ t l, exec (.semRemoteArrival entry pkg uid) s = .next t ∧ t.mem = mstore s.mem pa (semNext p ex ar sc) 8 ∧
      t.podOut = s.podOut ++ .reply pkg uid p :: l ∧ (ar + 1 < ex → l = []) := by
  have one : linesOf pa 8 = [pa / 128] := linesOf_one (by omega)
  obtain ⟨malformed, configured⟩ := fields.sound
  obtain ⟨phase, -⟩ := fields.read
  obtain ⟨q, e⟩ : ∃ q, q = { s.homeWrite pa 8 (semNext p ex ar sc) with
    podOut := (s.homeWrite pa 8 (semNext p ex ar sc)).podOut ++ [PodMsg.reply pkg uid p] } := ⟨_, rfl⟩
  have mem : q.mem = mstore s.mem pa (semNext p ex ar sc) 8 := by rw [e]; exact State.homeWrite_mem_alone one alone _
  have sent : q.podOut = s.podOut ++ [.reply pkg uid p] := by
    rw [e, ← (s.homeWrite_frame pa 8 (semNext p ex ar sc)).podOut]
  have run : exec (.semRemoteArrival entry pkg uid) s =
      .next (if ar + 1 = ex then q.tellProxies pa (semNext p ex ar sc) else q) := by
    show execSemRemoteArrival entry pkg uid s = _
    unfold execSemRemoteArrival
    rw [bound]
    dsimp only
    rw [word, malformed, configured, fields.arrive, phase, ← e, if_pos ⟨State.quietAll_one one quiet, rfl, rfl⟩]
    exact congrArg Host.Outcome.next (if_congr decide_eq_true_iff rfl rfl)
  obtain ⟨l, told⟩ := q.tellProxies_podOut pa (semNext p ex ar sc)
  by_cases last : ar + 1 = ex
  · rw [if_pos last, told] at run
    exact ⟨_, l, run, mem, by rw [sent, List.append_assoc]; rfl, fun few => absurd last (Nat.ne_of_lt few)⟩
  · rw [if_neg last] at run
    exact ⟨q, [], run, mem, sent, fun _ => rfl⟩

theorem Thread.Fired.remote {a b : Thread} (h : a.Fired b) : b.remote = a.remote := by rw [h.eq]

/-- A fire leaves what a thread's remote arrival waits for. -/
theorem State.remote_fireOf (s : State) (u v : Nat) (c : WakeCond) : ((s.fireOf u c).thr v).remote = (s.thr v).remote := by
  rw [State.fireOf, State.thr_fireIf]
  split
  · exact (Thread.fired_fire ..).remote
  · rfl

/-- The home's reply to a thread is kept for it. -/
theorem execSemArrivalReply_thread {r : RemoteArrival} (thread : uid < 2 ^ 40) (sent : (s.thr uid).remote = some r)
    (open_ : r.reply = none) (quiet : s.quietAll r.pa 8 = true) :
    ∃ t, exec (.semArrivalReply uid phase) s = .next t ∧
      (t.thr uid).remote = some { pa := r.pa, reply := some (phase % 2 ^ 16) } := by
  have run : exec (.semArrivalReply uid phase) s = .next (((s.writeProxy r.pa phase).modThr uid fun t =>
      { t with remote := some { pa := r.pa, reply := some (phase % 2 ^ 16) } }).fireOf uid .semReply) := by
    show execSemArrivalReply uid phase s = _
    unfold execSemArrivalReply
    rw [if_neg (show ¬ hardwareUid ≤ uid from Nat.not_le.2 thread), sent]
    dsimp only
    rw [open_, if_pos ⟨rfl, quiet⟩]
  exact ⟨_, run, by rw [State.remote_fireOf, State.modThr_eq, State.thr_setThr, if_pos rfl]⟩

/-- Both messages that bring a phase to a proxy write it there: an update, and the reply to an arrival of hardware. -/
theorem exec_phase (bound : tget Binding.none s.bindings entry = .proxy pa home n) (quiet : s.quietAll pa 8 = true) :
    exec (.semPhaseUpdate entry phase) s = .next (s.writeProxy pa phase) ∧
      exec (.semArrivalReply (2 ^ 40 + entry) phase) s = .next (s.writeProxy pa phase) := by
  constructor
  · show execSemPhaseUpdate entry phase s = _
    unfold execSemPhaseUpdate
    rw [bound]
    exact if_pos quiet
  · show execSemArrivalReply (2 ^ 40 + entry) phase s = _
    unfold execSemArrivalReply
    rw [if_pos (show hardwareUid ≤ 2 ^ 40 + entry from Nat.le_add_right ..), show 2 ^ 40 + entry - hardwareUid = entry from Nat.add_sub_cancel_left .., bound]
    exact if_pos quiet

/-- A phase that lies behind the proxy's is not written; any other is. -/
theorem State.writeProxy_behind {d : Nat} (behind : (phase + 2 ^ 16 - s.peek pa 8 / 2 ^ 48 % 2 ^ 16) % 2 ^ 16 = d) :
    (32768 ≤ d → s.writeProxy pa phase = s) ∧ (d < 32768 → s.writeProxy pa phase =
      s.homeWrite pa 8 (s.peek pa 8 % 2 ^ 48 + phase % 2 ^ 16 * 2 ^ 48)) := by
  unfold State.writeProxy semPhase
  dsimp only
  rw [behind]
  exact ⟨fun late => if_neg (Nat.not_lt.2 late), fun ahead => if_pos ahead⟩

end

end

/-- Settles O34: an arrival that the core can count is the write of the next word into its line, as a release; the messages
of the pod write the home's memory, as nothing holds the word's line. -/
theorem semaphores : Obligations.Semaphores := by
  intro s rd idx nb e x entry pkg uid phase pa mask
  dsimp only
  refine ⟨?_, ?_, ?_, ?_⟩
  · intro p ex ar hp hex har held _ unclaimed clean established own issues word
    exact execBarArrive_held issues clean established held unclaimed own ⟨hp, hex, har, .inl rfl⟩ rfl word
  · intro p ex ar sc hp hex har hsc word aligned bound quiet alone
    obtain ⟨t, l, run, mem, sent, few⟩ := execSemRemoteArrival_home (pkg := pkg) (uid := uid) ⟨hp, hex, har, hsc⟩ word aligned
      bound quiet alone
    exact ⟨t, run, mem, fun h => few h ▸ sent, l, sent⟩
  · intro r thread sent open_ quiet
    exact execSemArrivalReply_thread thread sent open_ quiet
  · intro home n bound aligned quiet alone
    have one : linesOf pa 8 = [pa / 128] := linesOf_one (by omega)
    obtain ⟨update, reply⟩ := exec_phase (phase := phase) bound (State.quietAll_one one quiet)
    obtain ⟨late, ahead⟩ := State.writeProxy_behind (s := s) (pa := pa) (phase := phase) rfl
    constructor
    · intro h
      rw [late h] at update reply
      exact ⟨update, reply⟩
    · intro h
      have mem := State.homeWrite_mem_alone one alone (s.peek pa 8 % 2 ^ 48 + phase % 2 ^ 16 * 2 ^ 48)
      rw [ahead h] at update reply
      exact ⟨⟨_, update, mem⟩, _, reply, mem⟩

end Sys2Proof.Machine

namespace Sys2Proof.Machine

open Sys2Proof

/-! # Lanewise vector instructions on floating types (R169, R190 to R195) -/

/-- The floating types are the codes from 4 on (R37). -/
theorem isFloat_of_flt {et : Nat} {f : Fmt} (flt : etType et = .flt f) : isFloat et = true := by
  refine decide_eq_true (Nat.le_of_not_lt fun int => ?_)
  interval_cases et <;> cases flt

/-- An instruction of the floating types gives in each lane its lane function of the operands' patterns. -/
theorem State.lanes_of_arith_flt {s : State} {i : Instr} {vd vs1 vs2 et : BitVec 3} {m : BitVec 1}
    {fi : Nat → Nat → Nat → Nat → Nat} {ff : Fmt → Rnd → Nat → Nat → Nat → Nat × BitVec 5} {rounds : Bool} {f : Fmt}
    {g : Nat → Nat × BitVec 5} (flt : etType et.toNat = .flt f)
    (e : exec i s = .next (s.plain (fun t => t.arith vd vs1 vs2 et m fi ff rounds)))
    (values : ∀ k, ff f (s.me.rnd k) (laneGet (s.me.vreg vs1) f.width k) (laneGet (s.me.vreg vs2) f.width k)
      (laneGet (s.me.vreg vd) f.width k) = g k := by exact fun _ => rfl) :
    s.lanes i vd f.width (512 / f.width) m rounds g := by
  have arith : s.me.arith vd vs1 vs2 et m fi ff rounds = s.me.lanes vd f.width (512 / f.width) m rounds g := by
    unfold Thread.arith
    rw [isFloat_of_flt flt, Bool.and_true, flt, ← funext values]
    rfl
  exact State.lanes_of_plain e arith (Nat.le_refl _)

theorem laneGet_lt (r : BitVec 512) (w k : Nat) : laneGet r w k < 2 ^ w := Nat.mod_lt _ (Nat.two_pow_pos w)

theorem Fmt.two_pow_width (f : Fmt) : 2 ^ f.width = 2 * f.sign := by
  rw [Fmt.width, Fmt.sign, Nat.add_assoc, Nat.pow_add, Nat.pow_one]

/-- The sign bit of a pattern is its top bit. -/
theorem Fmt.div_sign {f : Fmt} {a : Nat} (wide : a < 2 ^ f.width) : a / f.sign = if f.sign ≤ a then 1 else 0 := by
  rw [f.two_pow_width] at wide
  split
  · exact Nat.div_eq_of_lt_le (by omega) (by omega)
  · exact Nat.div_eq_of_lt (by omega)

/-- Negation flips the sign bit of a pattern (R194). -/
theorem Fmt.flip_sign {f : Fmt} {a : Nat} (wide : a < 2 ^ f.width) :
    (if a / f.sign % 2 = 1 then a % f.sign else a + f.sign) = if f.sign ≤ a then a - f.sign else a + f.sign := by
  rw [Fmt.div_sign wide]
  rw [f.two_pow_width] at wide
  by_cases neg : f.sign ≤ a
  · simp only [neg, if_true, Nat.one_mod]
    rw [Nat.mod_eq_sub_mod neg, Nat.mod_eq_of_lt (by omega)]
  · simp [neg]

/-- Settles O38: every instruction is `Thread.arith` with a lane function of its own on the operands' patterns. -/
theorem vectorFloats : Obligations.VectorFloats := by
  unfold Obligations.VectorFloats
  intro s vd vs1 vs2 et m f flt w bits a b c md rounds picks signs
  exact ⟨State.lanes_of_arith_flt flt rfl, State.lanes_of_arith_flt flt rfl, State.lanes_of_arith_flt flt rfl,
    State.lanes_of_arith_flt flt rfl, State.lanes_of_arith_flt flt rfl, State.lanes_of_arith_flt flt rfl,
    State.lanes_of_arith_flt flt rfl, State.lanes_of_arith_flt flt rfl, State.lanes_of_arith_flt flt rfl,
    State.lanes_of_arith_flt flt rfl fun k => if_congr Iff.rfl rfl <|
      congrArg (·, 0) (Fmt.flip_sign (laneGet_lt _ _ k)),
    State.lanes_of_arith_flt flt rfl, State.lanes_of_arith_flt (vs2 := vs1) flt rfl⟩

end Sys2Proof.Machine

namespace Sys2Proof.Machine

open Sys2Proof

/-! # Special values of floating arithmetic (R164 to R169, R191 to R195) -/

/-! ## A NaN operand, and what is invalid -/

section
variable (sig : Bool) (y : FVal) (md : Nat) (f : Fmt) (rd : Rnd)

theorem FVal.eq_nan_of_isNan {x : FVal} (h : x.isNan = true) : ∃ sig, x = .nan sig := by
  cases x with
  | nan sig => exact ⟨sig, rfl⟩
  | inf n => cases h
  | fin n j e => cases h

/-- A NaN is delivered as the canonical one, with the flags raised before (R165). -/
theorem deliver_nan (sticky : Bool) (flags : BitVec 5) :
    deliver f rd { v := .nan sig, sticky := sticky, flags := flags } = (f.nan, flags) := rfl

theorem deliver_invalid : deliver f rd Exact.invalid = (f.nan, flNV) := rfl

theorem exactSum_nan : exactSum md [.nan sig, y] =
    { v := .nan false, sticky := false, flags := 0 ||| sigFlag (.nan sig) ||| sigFlag y } := rfl

theorem exactMul_nan : exactMul (.nan sig) y =
    { v := .nan false, sticky := false, flags := sigFlag (.nan sig) ||| sigFlag y } := rfl

theorem exactDiv_nan : exactDiv (.nan sig) y =
    { v := .nan false, sticky := false, flags := sigFlag (.nan sig) ||| sigFlag y } := rfl

theorem exactSqrt_nan : exactSqrt (.nan sig) =
    { v := .nan false, sticky := false, flags := if sig then flNV else 0 } := rfl

end

section
variable (n p : Bool) {j : Nat} (e d : Int)

theorem exactMul_zero_inf : exactMul (.fin n 0 e) (.inf p) = Exact.invalid := rfl

/-- Nothing times infinity is invalid even beside a NaN (R191). -/
theorem exactFma_zero_inf_nan (md : Nat) : exactFma md (.fin n 0 e) (.inf p) (.nan false) = Exact.invalid := by
  have flags : 0 ||| sigFlag (.nan false) ||| sigFlag (.nan false) ||| flNV ||| sigFlag (.nan false) = flNV := by decide
  rw [exactFma, exactMul_zero_inf, Exact.invalid, exactSum_nan]
  exact congrArg (Exact.mk (.nan false) false) flags

/-- A number divided by zero is an infinity of the product of the signs, with DZ (R169). -/
theorem exactDiv_zero (h : j ≠ 0) : exactDiv (.fin n j e) (.fin p 0 d) =
    { v := .inf (n != p), sticky := false, flags := flDZ } := if_neg h

theorem exactSqrt_negative (h : j ≠ 0) : exactSqrt (.fin true j e) = Exact.invalid := if_neg h

end

/-! ## A value that the format holds -/

section
variable {f : Fmt} {rd : Rnd}

/-- A format with infinities delivers one as it stands (R168). -/
theorem deliver_inf (ieee : f.narrow = false) (neg sticky : Bool) (flags : BitVec 5) :
    deliver f rd { v := .inf neg, sticky := sticky, flags := flags } =
      ((if neg = true then f.sign else 0) + f.top, flags) := by
  simp [deliver, ieee]

/-- Nothing is raised where nothing is dropped: the threshold of the dither is below the whole of 256 (R167, R171). -/
theorem roundsUp_exact (thr : rd.thr < 256) (neg : Bool) (q : Nat) : roundsUp rd neg q 0 0 false = false := by
  unfold roundsUp
  split
  case h_5 => simpa using thr
  all_goals simp

/-- A value that stands at the last place is rounded to itself. -/
theorem roundAt_exact (thr : rd.thr < 256) (neg : Bool) (man : Nat) (exp : Int) :
    roundAt rd neg man exp exp false = (man, false) := by
  simp [roundAt, roundsUp_exact thr]

/-- A non-zero value whose exponent is that of its last place in the format is delivered as it stands, without a flag. -/
theorem deliver_exact (thr : rd.thr < 256) {neg : Bool} {man : Nat} {exp : Int} (pos : man ≠ 0)
    (place : max ((Nat.log2 man : Int) + exp - (f.f : Int)) f.low = exp)
    (fits : (exp - f.low).toNat * 2 ^ f.f + man ≤ f.maxBits) :
    deliver f rd (Exact.of (.fin neg man exp)) =
      ((if neg = true then f.sign else 0) + ((exp - f.low).toNat * 2 ^ f.f + man), 0) := by
  simp [deliver, Exact.of, pos, place, roundAt_exact thr, Nat.not_lt.2 fits]

/-- A pattern is its sign bit, its exponent field and its fraction (R163). -/
theorem Fmt.fields {k : Nat} (wide : k < 2 ^ f.width) : k =
    (if decide (k / f.sign % 2 = 1) = true then f.sign else 0) + (k / 2 ^ f.f % 2 ^ f.e * 2 ^ f.f + k % 2 ^ f.f) := by
  have low : k / 2 ^ f.f % 2 ^ f.e * 2 ^ f.f + k % 2 ^ f.f = k % f.sign := by
    rw [Fmt.sign, Nat.add_comm f.e, Nat.pow_add, Nat.mod_mul]
    ring
  have parts := Nat.div_add_mod k f.sign
  rw [Fmt.div_sign wide] at parts
  rw [low, Fmt.div_sign wide]
  by_cases neg : f.sign ≤ k
  · simp only [neg, if_true, Nat.mul_one] at parts
    simp [neg, parts]
  · simp [neg, Nat.mod_eq_of_lt (Nat.lt_of_not_le neg)]

/-- An exponent field below all ones is that of a finite magnitude. -/
theorem Fmt.le_maxBits (ieee : f.narrow = false) {e m : Nat} (he : e < 2 ^ f.e - 1) (hm : m < 2 ^ f.f) :
    e * 2 ^ f.f + m ≤ f.maxBits := by
  have row : (e + 1) * 2 ^ f.f ≤ (2 ^ f.e - 1) * 2 ^ f.f := Nat.mul_le_mul_right _ he
  rw [Nat.succ_mul] at row
  simp only [Fmt.maxBits, Fmt.top, ieee, Bool.false_eq_true, if_false]
  omega

/-- A subnormal number or a zero has the fraction as its significand, at the lowest place (R163). -/
theorem deliver_subnormal (ieee : f.narrow = false) (thr : rd.thr < 256) (exps : 1 < 2 ^ f.e) (neg : Bool) {m : Nat}
    (hm : m < 2 ^ f.f) : deliver f rd (Exact.of (.fin neg m f.low)) = ((if neg = true then f.sign else 0) + m, 0) := by
  by_cases zero : m = 0
  · subst zero
    rfl
  · have log := (Nat.log2_lt zero).2 hm
    have fits := Fmt.le_maxBits ieee (e := 0) (by omega) hm
    have e := deliver_exact (f := f) (neg := neg) (exp := f.low) thr zero (by omega) (by simpa using fits)
    simpa using e

/-- A normal number has a leading one above its fraction (R163). -/
theorem deliver_normal (ieee : f.narrow = false) (thr : rd.thr < 256) (neg : Bool) {e m : Nat} (pos : e ≠ 0)
    (he : e < 2 ^ f.e - 1) (hm : m < 2 ^ f.f) :
    deliver f rd (Exact.of (.fin neg (2 ^ f.f + m) (f.low + (e : Int) - 1))) =
      ((if neg = true then f.sign else 0) + (e * 2 ^ f.f + m), 0) := by
  have some : 2 ^ f.f + m ≠ 0 := by omega
  have log : (2 ^ f.f + m).log2 = f.f := (Nat.log2_eq_iff some).2 ⟨by omega, by rw [Nat.pow_succ]; omega⟩
  have place : (f.low + (e : Int) - 1 - f.low).toNat = e - 1 := by omega
  have bits : (e - 1) * 2 ^ f.f + (2 ^ f.f + m) = e * 2 ^ f.f + m := by
    obtain ⟨c, rfl⟩ := Nat.exists_eq_succ_of_ne_zero pos
    rw [Nat.succ_sub_one, Nat.succ_mul, Nat.add_assoc]
  rw [deliver_exact thr some (by omega) (by rw [place, bits]; exact Fmt.le_maxBits ieee he hm), place, bits]

/-- A pattern that is no NaN, decoded and delivered, is itself: under no rounding mode does its value change. -/
theorem deliver_fdecode (ieee : f.narrow = false) (thr : rd.thr < 256) (exps : 1 < 2 ^ f.e) {k : Nat}
    (wide : k < 2 ^ f.width) (number : (fdecode f k).isNan = false) :
    deliver f rd (Exact.of (fdecode f k)) = (k, 0) := by
  have he : k / 2 ^ f.f % 2 ^ f.e < 2 ^ f.e := Nat.mod_lt _ (Nat.two_pow_pos _)
  have hm : k % 2 ^ f.f < 2 ^ f.f := Nat.mod_lt _ (Nat.two_pow_pos _)
  have fields := Fmt.fields wide
  revert number
  simp only [fdecode, ieee, Bool.false_eq_true, if_false]
  split
  case isTrue top =>
    split
    case isTrue zero =>
      intro _
      rw [top, zero] at fields
      rw [Nat.add_zero] at fields
      show deliver f rd { v := .inf _, sticky := false, flags := 0 } = _
      rw [deliver_inf ieee]
      exact congrArg (·, 0) fields.symm
    case isFalse => exact fun number => by cases number
  case isFalse top =>
    intro _
    split
    case isTrue sub =>
      rw [sub, Nat.zero_mul, Nat.zero_add] at fields
      rw [deliver_subnormal ieee thr exps _ hm, ← fields]
    case isFalse pos =>
      rw [deliver_normal ieee thr _ pos (by omega) hm, ← fields]

end

/-- Settles O39: each special case is an equation of its exact operation, and a value that the format holds has its last
place where the rounding looks for it. -/
theorem floatingValues : Obligations.FloatingValues := by
  unfold Obligations.FloatingValues
  intro f rd md x y n p j k e d fmt thr invalid
  have shape : f.narrow = false ∧ 1 < 2 ^ f.e := by rcases fmt with rfl | rfl | rfl | rfl <;> decide
  obtain ⟨ieee, exps⟩ := shape
  have bad : deliver f rd Exact.invalid = (f.nan, flNV) := deliver_invalid f rd
  refine ⟨fun h => ?_, bad, bad, bad, bad, ?_, bad, bad, fun h => ?_, fun h => ?_, bad, deliver_fdecode ieee thr exps⟩
  · obtain ⟨sig, rfl⟩ := FVal.eq_nan_of_isNan h
    rw [exactSum_nan, exactMul_nan, exactDiv_nan, exactSqrt_nan]
    simp only [deliver_nan, and_self]
  · rw [exactFma_zero_inf_nan, bad]
  · rw [exactDiv_zero n p e d h, deliver_inf ieee]
    cases n <;> cases p <;> rfl
  · exact (congrArg (deliver f rd) (exactSqrt_negative e h)).trans bad

end Sys2Proof.Machine

namespace Sys2Proof.Machine

open Sys2Proof

/-! # Vector moves, selection, permutation and conversions (R186, R198 to R203, R206, R207) -/

theorem etType_width (et : BitVec 3) : (etType et.toNat).width = 8 ∨ (etType et.toNat).width = 16 ∨
    (etType et.toNat).width = 32 ∨ (etType et.toNat).width = 64 := by
  have : et.toNat < 8 := et.isLt
  generalize et.toNat = k at this
  interval_cases k <;> decide

theorem etType_width_pos (et : BitVec 3) : 0 < (etType et.toNat).width := by
  rcases etType_width et with w | w | w | w <;> omega

/-- A pattern read as a signed integer is that bit vector's value. -/
theorem toInt_eq_toInt_ofNat {w : Nat} (hw : 0 < w) (a : Nat) : toInt true w a = (BitVec.ofNat w a).toInt := by
  rw [← toInt_toNat hw, BitVec.toNat_ofNat, toInt, toInt, Nat.mod_mod]

/-- A constant word is a load from the core's local memory (R21, R36). -/
theorem State.constWord_eq (s : State) (core n : Nat) :
    s.constWord core n = loadedValue s.lm (core * 2 ^ 18 + 8 * n) 3 := by
  have byte : lmByte core (8 * n) = core * 2 ^ 18 + 8 * n := by simp [lmByte]
  rw [State.constWord, byte]
  exact extendLoad_mload s.lm (core * 2 ^ 18 + 8 * n) 3

/-- A lane taken to a register, as the instruction computes it, is sign-extended for an integer type (R201). -/
theorem ext_value (et : BitVec 3) (x : Nat) :
    (if isFloat et.toNat then BitVec.ofNat 64 x else BitVec.ofInt 64 (toInt true (etType et.toNat).width x) : Word) =
      if et.toNat < 4 then (BitVec.ofNat (etType et.toNat).width x).signExtend 64 else BitVec.ofNat 64 x := by
  rw [toInt_eq_toInt_ofNat (etType_width_pos et)]
  by_cases int : et.toNat < 4
  · rw [if_pos int, isFloat, decide_eq_false (Nat.not_le.2 int)]
    rfl
  · rw [if_neg int, isFloat, decide_eq_true (Nat.le_of_not_lt int)]
    rfl

/-- A register result that makes the thread vector-dirty: nothing else changes (R186). -/
theorem State.soiling_write {s : State} {i : Instr} {rd : BitVec 4} {f : Thread → Word} {v : Word}
    (e : exec i s = .next (s.plain (fun t => { t.setReg rd (f t) with dirty := true }))) (value : f s.me = v) :
    ∃ t, exec i s = .next t ∧ s.onlyMe t ∧
      t.me = { s.me with pc := s.me.pc + 4, instret := s.me.instret + 1, regs := t.me.regs, dirty := true } ∧
      ∀ q, t.me.reg q = if q = rd ∧ q ≠ 0 then v else s.me.reg q := by
  have me := s.me_plain (fun t => { t.setReg rd (f t) with dirty := true })
  dsimp only at me
  rw [value] at me
  refine ⟨_, e, s.onlyMe_setThr _, ?_, fun q => ?_⟩
  · rw [me, Thread.setReg_eq]
    rfl
  · rw [me]
    exact (Thread.reg_setReg s.me rd v q).trans (if_congr (and_congr_right fun h => by rw [h]) rfl rfl)

/-- Settles O41: every instruction is `Thread.lanes` of the statement's lane function, but for the two that write a register
or all of them. -/
theorem vectorMoves : Obligations.VectorMoves := by
  unfold Obligations.VectorMoves
  constructor
  · intro s vd vs1 vs2 et xs c8 m w n a b d gives
    have full : n ≤ 512 / w := Nat.le_refl _
    refine ⟨State.lanes_of_plain rfl ?_ full, State.lanes_of_plain rfl rfl full, State.lanes_of_plain rfl ?_ full,
      State.lanes_of_plain rfl rfl full, State.lanes_of_plain rfl rfl full, State.lanes_of_plain rfl ?_ full,
      State.soiling_write rfl (ext_value et _), ?_⟩
    · refine congrArg (s.me.lanes vd w n 0 false) (funext fun k => congrArg (·, 0) ?_)
      exact apply_ite (laneGet · w k) _ _ _
    · rw [s.constWord_eq]
      rfl
    · refine congrArg (s.me.lanes vd w n m false) (funext fun k => congrArg (·, 0) (if_congr ?_ rfl rfl))
      show 0 ≤ (k : Int) - d ∧ (k : Int) - d < n ↔ d ≤ k ∧ (k : Int) < n + d
      omega
    · have vreg (r : BitVec 3) : (s.plain (fun t => { t with vregs := [], vmask := 0, dirty := false })).me.vreg r = 0 := by
        rw [State.me_plain]
        rfl
      exact ⟨_, rfl, s.onlyMe_setThr _, vreg, by rw [State.me_plain]; rfl⟩
  · intro s vd vs1 src et m a b lane float n
    have wide : 8 ≤ (etType et.toNat).width := by rcases etType_width et with w | w | w | w <;> omega
    have bytes : n ≤ 512 / 8 := Nat.div_le_div_left wide (by decide)
    refine ⟨State.lanes_of_plain rfl rfl (Nat.min_le_right _ _), ?_, ?_, ?_, ?_⟩
    · rintro rfl
      exact State.lanes_of_plain rfl rfl (Nat.le_refl _)
    · rintro rfl
      exact State.lanes_of_plain rfl rfl (Nat.le_refl _)
    · rintro rfl
      exact State.lanes_of_plain rfl rfl bytes
    · rintro rfl
      exact State.lanes_of_plain rfl rfl bytes

end Sys2Proof.Machine

namespace Sys2Proof.Machine

open Sys2Proof

/-! # Vector reductions and dot products (R178, R180, R204, R205)

The tree of R178 combines pairs level by level. What a level keeps between its input and its output, the whole tree keeps
between the leaves and the result (`treeReduce_rel`): for a sum the total modulo the width, for a maximum or minimum that
every leaf is matched by a value of the output, which is itself a leaf. -/

/-! ## The tree of a reduction -/

section
variable {op : Nat → Nat → Nat × BitVec 5}

theorem length_treeLevel (l : List (Option Nat)) : (treeLevel op l).1.length = (l.length + 1) / 2 := by
  fun_induction treeLevel op l with
  | case1 l r x y ih => simp only [List.length_cons, r, ih]; omega
  | case2 l r x ih => simp only [List.length_cons, r, ih]; omega
  | case3 l r y ih => simp only [List.length_cons, r, ih]; omega
  | case4 l short =>
    match l, short with
    | [], _ => rfl
    | [_], _ => simp
    | a :: b :: l, short => exact (short a b l rfl).elim

/-- A relation that every level has between its output and its input holds between the result and the leaves. -/
theorem treeReduce_rel {r : List (Option Nat) → List (Option Nat) → Prop} (refl : ∀ l, r l l)
    (trans : ∀ {a b c}, r a b → r b c → r a c) (level : ∀ l, r (treeLevel op l).1 l) (n : Nat) (l : List (Option Nat))
    (full : l.length = 2 ^ n) : r [(treeReduce op n l).1] l := by
  induction n generalizing l with
  | zero =>
    obtain ⟨x, rfl⟩ := List.length_eq_one_iff.1 full
    exact refl _
  | succ n ih =>
    have half : (treeLevel op l).1.length = 2 ^ n := by
      rw [length_treeLevel, full, Nat.pow_succ]
      omega
    exact trans (ih _ half) (level l)

/-- A tree of an operation without flags raises none. -/
theorem treeReduce_flags (quiet : ∀ a b, (op a b).2 = 0) (n : Nat) (l : List (Option Nat)) :
    (treeReduce op n l).2 = 0 := by
  have level (l : List (Option Nat)) : (treeLevel op l).2 = 0 := by
    fun_induction treeLevel op l with
    | case1 l r x y ih => simp [r, ih, quiet]
    | case2 l r x ih => exact ih
    | case3 l r y ih => exact ih
    | case4 => rfl
  induction n generalizing l with
  | zero => rfl
  | succ n ih =>
    show (treeLevel op l).2 ||| (treeReduce op n (treeLevel op l).1).2 = 0
    rw [level, ih]
    rfl

end

/-! ## Sums -/

/-- The sum of the active leaves. -/
def activeSum (l : List (Option Nat)) : Nat := (l.map (·.getD 0)).sum

theorem treeLevel_sum (m : Nat) (l : List (Option Nat)) :
    activeSum (treeLevel (fun a b => ((a + b) % m, 0)) l).1 % m = activeSum l % m := by
  fun_induction treeLevel (fun a b => ((a + b) % m, (0 : BitVec 5))) l with
  | case1 l r x y ih =>
    simp only [activeSum, List.map_cons, List.sum_cons, Option.getD_some] at ih ⊢
    rw [← Nat.add_assoc, Nat.mod_add_mod, Nat.add_mod, ih, ← Nat.add_mod]
  | case2 l r x ih =>
    simp only [activeSum, List.map_cons, List.sum_cons, Option.getD_some, Option.getD_none, Nat.zero_add] at ih ⊢
    rw [Nat.add_mod, ih, ← Nat.add_mod]
  | case3 l r y ih =>
    simp only [activeSum, List.map_cons, List.sum_cons, Option.getD_none, Nat.zero_add] at ih ⊢
    rw [Nat.add_mod, ih, ← Nat.add_mod]
  | case4 => rfl

/-- The tree of wrapping additions gives the wrapping sum of its active leaves (R204). -/
theorem treeReduce_sum (m n : Nat) (l : List (Option Nat)) (full : l.length = 2 ^ n) :
    (treeReduce (fun a b => ((a + b) % m, 0)) n l).1.getD 0 % m = activeSum l % m := by
  have sum := treeReduce_rel (r := fun a b => activeSum a % m = activeSum b % m) (fun _ => rfl) Eq.trans
    (treeLevel_sum m) n l full
  simpa [activeSum] using sum

/-! ## Maxima and minima -/

/-- The choice of the greater of two lanes by a key, the first where they are equal: `vredMax` by the lane's integer,
`vredMin` by its negative. -/
def greater (key : Nat → Int) (a b : Nat) : Nat × BitVec 5 := (if key a < key b then b else a, 0)

/-- Every active leaf of `l'` is one of `l`, and none of `l` lies above all of `l'`. -/
def Tops (key : Nat → Int) (l' l : List (Option Nat)) : Prop :=
  (∀ x, some x ∈ l' → some x ∈ l) ∧ ∀ x, some x ∈ l → ∃ y, some y ∈ l' ∧ key x ≤ key y

section
variable {key : Nat → Int}

/-- Lists with the same active leaves top each other. -/
theorem Tops.of_mem_iff {a b : List (Option Nat)} (h : ∀ x, some x ∈ a ↔ some x ∈ b) : Tops key a b :=
  ⟨fun x => (h x).1, fun x hx => ⟨x, (h x).2 hx, Int.le_refl _⟩⟩

theorem Tops.trans {a b c : List (Option Nat)} (ab : Tops key a b) (bc : Tops key b c) : Tops key a c := by
  refine ⟨fun x h => bc.1 x (ab.1 x h), fun x h => ?_⟩
  obtain ⟨y, hy, xy⟩ := bc.2 x h
  obtain ⟨z, hz, yz⟩ := ab.2 y hy
  exact ⟨z, hz, Int.le_trans xy yz⟩

theorem Tops.append {a b c d : List (Option Nat)} (ab : Tops key a b) (cd : Tops key c d) : Tops key (a ++ c) (b ++ d) := by
  constructor
  · intro x h
    exact List.mem_append.2 ((List.mem_append.1 h).imp (ab.1 x) (cd.1 x))
  · intro x h
    rcases List.mem_append.1 h with h | h
    · obtain ⟨y, hy, le⟩ := ab.2 x h
      exact ⟨y, List.mem_append.2 (.inl hy), le⟩
    · obtain ⟨y, hy, le⟩ := cd.2 x h
      exact ⟨y, List.mem_append.2 (.inr hy), le⟩

theorem greater_neg : greater (fun x => - key x) = fun a b => (if key b < key a then b else a, 0) := by
  funext a b
  exact congrArg (·, 0) (if_congr Int.neg_lt_neg_iff rfl rfl)

theorem tops_greater (x y : Nat) : Tops key [some (greater key x y).1] [some x, some y] := by
  unfold greater
  by_cases lt : key x < key y
  · simp [Tops, lt, Int.le_of_lt]
  · simp [Tops, lt, Int.not_lt.1 lt]

theorem treeLevel_tops (l : List (Option Nat)) : Tops key (treeLevel (greater key) l).1 l := by
  fun_induction treeLevel (greater key) l with
  | case1 l r x y ih => exact (tops_greater x y).append ih
  | case2 l r x ih => exact Tops.append (a := [some x]) (b := [some x, none]) (.of_mem_iff (by simp)) ih
  | case3 l r y ih => exact Tops.append (a := [y]) (b := [none, y]) (.of_mem_iff (by simp)) ih
  | case4 => exact .of_mem_iff fun _ => Iff.rfl

/-- The tree of choices gives an active leaf that no other lies above; without an active leaf it gives nothing (R204). -/
theorem treeReduce_greater (n : Nat) (l : List (Option Nat)) (full : l.length = 2 ^ n) :
    match (treeReduce (greater key) n l).1 with
    | none => ∀ x, some x ∉ l
    | some v => some v ∈ l ∧ ∀ x, some x ∈ l → key x ≤ key v := by
  have tops : Tops key [(treeReduce (greater key) n l).1] l :=
    treeReduce_rel (r := Tops key) (fun _ => .of_mem_iff fun _ => Iff.rfl) Tops.trans treeLevel_tops n l full
  revert tops
  cases (treeReduce (greater key) n l).1 <;> simp [Tops]

end

/-! ## The result of a reduction -/

/-- Lane `k` of width `w` takes part: it is an active lane of the register (R185). -/
def Thread.joins (t : Thread) (w : Nat) (m : BitVec 1) (k : Nat) : Prop :=
  k < 512 / w ∧ (m = 0 ∨ t.vmask.getLsbD k = true)

/-- The leaves of a reduction: the lanes that take part (R178). -/
def Thread.leaves (t : Thread) (vs1 : BitVec 3) (w : Nat) (m : BitVec 1) : List (Option Nat) :=
  (List.range (512 / w)).map (fun k => if m = 0 ∨ t.vmask.getLsbD k = true then some (laneGet (t.vreg vs1) w k) else none)

/-- The value that a reduction leaves in lane 0. -/
def Thread.reduced (t : Thread) (vs1 : BitVec 3) (w : Nat) (m : BitVec 1) (op : Nat → Nat → Nat × BitVec 5) (empty : Nat) :
    Nat :=
  (treeReduce op (Nat.log2 (512 / w)) (t.leaves vs1 w m)).1.getD empty % 2 ^ w

section
variable (t : Thread) (vs1 : BitVec 3) {w : Nat} (m : BitVec 1)

theorem Thread.mem_leaves (x : Nat) : some x ∈ t.leaves vs1 w m ↔ ∃ k, t.joins w m k ∧ x = laneGet (t.vreg vs1) w k := by
  unfold Thread.leaves Thread.joins
  rw [List.mem_map]
  refine exists_congr fun k => ?_
  rw [List.mem_range, and_assoc]
  refine and_congr_right fun _ => ?_
  by_cases act : m = 0 ∨ t.vmask.getLsbD k = true
  · rw [if_pos act, Option.some.injEq, eq_comm]
    exact (and_iff_right act).symm
  · rw [if_neg act]
    exact ⟨nofun, fun h => (act h.1).elim⟩

/-- The registers of the vector stream divide into lanes whose number is a power of two (R184). -/
theorem Thread.length_leaves (et : BitVec 3) : (t.leaves vs1 (etType et.toNat).width m).length =
    2 ^ Nat.log2 (512 / (etType et.toNat).width) := by
  rw [Thread.leaves, List.length_map, List.length_range]
  rcases etType_width et with w | w | w | w <;> rw [w] <;> rfl

/-- A reduction by a choice leaves an active lane that no other lies above, and the empty value where no lane is active
(R204). -/
theorem Thread.reduced_greater {key : Nat → Int} {empty : Nat}
    (full : (t.leaves vs1 w m).length = 2 ^ Nat.log2 (512 / w)) (small : empty < 2 ^ w) :
    let a (k : Nat) : Nat := laneGet (t.vreg vs1) w k
    let v := t.reduced vs1 w m (greater key) empty
    ((∀ k, ¬ t.joins w m k) → v = empty) ∧ ((∃ k, t.joins w m k) →
      (∃ k, t.joins w m k ∧ v = a k) ∧ ∀ k, t.joins w m k → key (a k) ≤ key v) := by
  intro a v
  have tree := treeReduce_greater (key := key) _ _ full
  simp only [v, Thread.reduced]
  cases best : (treeReduce (greater key) (Nat.log2 (512 / w)) (t.leaves vs1 w m)).1 with
  | none =>
    rw [best] at tree
    exact ⟨fun _ => Nat.mod_eq_of_lt small, fun ⟨k, hk⟩ => (tree _ ((t.mem_leaves vs1 m _).2 ⟨k, hk, rfl⟩)).elim⟩
  | some x =>
    rw [best] at tree
    obtain ⟨k, hk, rfl⟩ := (t.mem_leaves vs1 m x).1 tree.1
    rw [Option.getD_some, Nat.mod_eq_of_lt (laneGet_lt _ w k)]
    exact ⟨fun none => (none k hk).elim, fun _ =>
      ⟨⟨k, hk, rfl⟩, fun j hj => tree.2 _ ((t.mem_leaves vs1 m _).2 ⟨j, hj, rfl⟩)⟩⟩

/-- A reduction by wrapping addition leaves the wrapping sum of the active lanes (R204). -/
theorem Thread.reduced_add (full : (t.leaves vs1 w m).length = 2 ^ Nat.log2 (512 / w)) :
    t.reduced vs1 w m (fun a b => ((a + b) % 2 ^ w, 0)) 0 = ((List.range (512 / w)).map
      (fun k => if m = 0 ∨ t.vmask.getLsbD k = true then laneGet (t.vreg vs1) w k else 0)).sum % 2 ^ w := by
  rw [Thread.reduced, treeReduce_sum _ _ _ full, activeSum, Thread.leaves, List.map_map]
  refine congrArg (fun f => ((List.range (512 / w)).map f).sum % 2 ^ w) (funext fun k => ?_)
  exact (apply_ite (fun o : Option Nat => o.getD 0) _ _ _)

end

section
variable (t : Thread) (vd vs1 et : BitVec 3) (m : BitVec 1) (op : Nat → Nat → Nat × BitVec 5) (empty : Nat)

/-- A reduction writes one register, and flags and phase at most. -/
theorem Thread.reduce_eq (rounds : Bool) :
    let w := (etType et.toNat).width
    t.reduce vd vs1 et m op empty rounds =
      ((t.setVreg vd (BitVec.ofNat 512 (t.reduced vs1 w m op empty))).raiseFlags
        (treeReduce op (Nat.log2 (512 / w)) (t.leaves vs1 w m)).2).stepPhase
          (rounds && (List.range (512 / w)).any (t.active m)) := by
  simp only [Thread.reduce, Thread.reduced, Thread.leaves, Thread.active_iff]

/-- A reduction that neither rounds nor raises flags changes neither flags nor phase. -/
theorem Thread.reduce_quiet (quiet : ∀ a b, (op a b).2 = 0) : (t.reduce vd vs1 et m op empty false).vrm = t.vrm ∧
    (t.reduce vd vs1 et m op empty false).dphase = t.dphase := by
  rw [Thread.reduce_eq, treeReduce_flags quiet]
  exact ⟨BitVec.or_zero, rfl⟩

end

/-- A register that holds a value of the width of a lane holds it in lane 0, and zero in the others. -/
theorem laneGet_ofNat {w v : Nat} (fits : w ≤ 512) (hv : v < 2 ^ w) (k : Nat) :
    laneGet (BitVec.ofNat 512 v) w k = if k = 0 then v else 0 := by
  have whole : (BitVec.ofNat 512 v).toNat = v := by
    have room := Nat.pow_le_pow_right Nat.two_pos fits
    rw [BitVec.toNat_ofNat, Nat.mod_eq_of_lt (Nat.lt_of_lt_of_le hv room)]
  rw [laneGet, whole]
  split
  case isTrue first => rw [first, Nat.mul_zero, Nat.pow_zero, Nat.div_one, Nat.mod_eq_of_lt hv]
  case isFalse later =>
    have above : 2 ^ w ≤ 2 ^ (w * k) :=
      Nat.pow_le_pow_right (by decide) (Nat.le_mul_of_pos_right w (Nat.pos_of_ne_zero later))
    rw [Nat.div_eq_of_lt (Nat.lt_of_lt_of_le hv above), Nat.zero_mod]

/-- The instruction answers a next state in which a register holds a value in lane 0 and zero in its other lanes; nothing
but that register, flags and phase changes, and the thread is vector-dirty (R186, R204). -/
def State.reduces (s : State) (i : Instr) (vd : BitVec 3) (w : Nat) (p : State → Nat → Prop) : Prop :=
  ∃ t, exec i s = .next t ∧ s.onlyMe t ∧ (∀ r, r ≠ vd → t.me.vreg r = s.me.vreg r) ∧
    (∀ k, k ≠ 0 → k < 512 / w → laneGet (t.me.vreg vd) w k = 0) ∧ p t (laneGet (t.me.vreg vd) w 0) ∧
    t.me = { s.me with pc := s.me.pc + 4, instret := s.me.instret + 1, vregs := t.me.vregs, vrm := t.me.vrm,
                       dphase := t.me.dphase, dirty := true }

section
variable {s : State} {i : Instr} {vd vs1 et : BitVec 3} {m : BitVec 1} {op : Nat → Nat → Nat × BitVec 5} {empty : Nat}
  {rounds : Bool} {g : Thread → Thread}

theorem State.reduces_of_plain {p : State → Nat → Prop} (e : exec i s = .next (s.plain g))
    (h : g s.me = s.me.reduce vd vs1 et m op empty rounds)
    (result : ∀ t : State, t.me = (s.me.reduce vd vs1 et m op empty rounds).retire →
      p t (s.me.reduced vs1 (etType et.toNat).width m op empty)) : s.reduces i vd (etType et.toNat).width p := by
  have me : (s.plain g).me = (s.me.reduce vd vs1 et m op empty rounds).retire :=
    (s.me_plain g).trans (congrArg Thread.retire h)
  have vreg (q : BitVec 3) : (s.plain g).me.vreg q = if q = vd then
      BitVec.ofNat 512 (s.me.reduced vs1 (etType et.toNat).width m op empty) else s.me.vreg q := by
    rw [me, Thread.reduce_eq, Thread.stepPhase_eq]
    exact s.me.vreg_setVreg q vd _
  have lane := laneGet_ofNat (w := (etType et.toNat).width)
    (by rcases etType_width et with w | w | w | w <;> rw [w] <;> decide)
    (show s.me.reduced vs1 _ m op empty < _ from Nat.mod_lt _ (Nat.two_pow_pos _))
  refine ⟨_, e, s.onlyMe_setThr _, fun r other => ?_, fun k later _ => ?_, ?_, ?_⟩
  · rw [vreg, if_neg other]
  · rw [vreg, if_pos rfl, lane, if_neg later]
  · rw [vreg, if_pos rfl, lane, if_pos rfl]
    exact result _ me
  · rw [me, Thread.reduce_eq, Thread.stepPhase_eq]
    rfl

theorem State.reduces.imp {w : Nat} {p q : State → Nat → Prop} (h : s.reduces i vd w p) (imp : ∀ t v, p t v → q t v) :
    s.reduces i vd w q := by
  obtain ⟨t, run, only, others, zeros, result, me⟩ := h
  exact ⟨t, run, only, others, zeros, imp _ _ result, me⟩

/-- A reduction on an integer type changes no flag and no phase. -/
theorem State.reduces_of_quiet {w : Nat} (type : etType et.toNat = .int true w) (e : exec i s = .next (s.plain g))
    (h : g s.me = s.me.reduce vd vs1 et m op empty false) (quiet : ∀ a b, (op a b).2 = 0) : s.reduces i vd w
      (fun t v => (t.me.vrm = s.me.vrm ∧ t.me.dphase = s.me.dphase) ∧ v = s.me.reduced vs1 w m op empty) := by
  have width : (etType et.toNat).width = w := congrArg NumT.width type
  rw [← width]
  exact State.reduces_of_plain e h fun _ me => ⟨me ▸ s.me.reduce_quiet vd vs1 et m op empty quiet, rfl⟩

/-- The reductions on an integer type (R204). -/
theorem State.reduces_int {w : Nat} (type : etType et.toNat = .int true w) :
    let gives (i : Instr) (op : Nat → Nat → Nat × BitVec 5) (empty : Nat) : Prop := s.reduces i vd w
      (fun t v => (t.me.vrm = s.me.vrm ∧ t.me.dphase = s.me.dphase) ∧ v = s.me.reduced vs1 w m op empty)
    gives (.vredAdd vd vs1 et m) (fun a b => ((a + b) % 2 ^ w, 0)) 0 ∧
    gives (.vredMax vd vs1 et m) (greater (toInt true w)) (2 ^ (w - 1)) ∧
    gives (.vredMin vd vs1 et m) (greater (fun x => - toInt true w x)) (2 ^ (w - 1) - 1) := by
  refine ⟨State.reduces_of_quiet type rfl (by rw [type]) fun _ _ => rfl,
    State.reduces_of_quiet type rfl (by rw [type]; rfl) fun _ _ => rfl, ?_⟩
  rw [greater_neg]
  exact State.reduces_of_quiet type rfl (by rw [type]) fun _ _ => rfl

/-- The reductions on a floating type (R178, R179, R204). -/
theorem State.reduces_flt {f : Fmt} (type : etType et.toNat = .flt f) :
    let gives (i : Instr) (op : Nat → Nat → Nat × BitVec 5) (empty : Nat) : Prop :=
      s.reduces i vd (etType et.toNat).width (fun _ v => v = s.me.reduced vs1 (etType et.toNat).width m op empty)
    gives (.vredAdd vd vs1 et m)
      (fun x y => deliver f (s.me.rnd 0) (exactSum s.me.mode [fdecode f x, fdecode f y])) 0 ∧
    gives (.vredMax vd vs1 et m) (fminmax f true) f.nan ∧ gives (.vredMin vd vs1 et m) (fminmax f false) f.nan :=
  ⟨State.reduces_of_plain rfl (by rw [type]) fun _ _ => rfl, State.reduces_of_plain rfl (by rw [type]) fun _ _ => rfl,
    State.reduces_of_plain rfl (by rw [type]) fun _ _ => rfl⟩

end

/-! ## Dot products -/

/-- The terms of an integer dot product add to the accumulator, and their sum is saturated (R205). -/
theorem dotInt_eq (w d acc : Nat) (ps : List (Nat × Nat)) : dotInt w d acc ps =
    wrapInt d (saturate true d (toInt true d acc + (ps.map (fun p => toInt true w p.1 * toInt true w p.2)).sum)) := by
  have sum (z : Int) : ps.foldl (fun x p => x + toInt true w p.1 * toInt true w p.2) z =
      z + (ps.map (fun p => toInt true w p.1 * toInt true w p.2)).sum := by
    induction ps generalizing z with
    | nil => exact (Int.add_zero z).symm
    | cons p ps ih => rw [List.foldl_cons, ih, List.map_cons, List.sum_cons, Int.add_assoc]
  rw [dotInt, sum]

/-- The operands of an integer dot product, as integers. -/
theorem dotInt_pairs (t : Thread) (vd vs1 vs2 : BitVec 3) {w d : Nat} (hw : 0 < w) (hd : 0 < d) (k : Nat) :
    let x (r : BitVec 3) (v k : Nat) : Int := (BitVec.ofNat v (laneGet (t.vreg r) v k)).toInt
    let total : Int := x vd d k + ((List.range 4).map (fun i => x vs1 w (4 * k + i) * x vs2 w (4 * k + i))).sum
    dotInt w d (laneGet (t.vreg vd) d k) (t.pairs vs1 vs2 w 4 k) =
      (BitVec.ofInt d (max (- (2 ^ (d - 1) : Nat)) (min ((2 ^ (d - 1) : Nat) - 1) total))).toNat := by
  intro x total
  rw [dotInt_eq, Thread.pairs, List.map_map, BitVec.toNat_ofInt]
  simp only [Function.comp_def, toInt_eq_toInt_ofNat hw, toInt_eq_toInt_ofNat hd]
  rfl

/-- The wider format of a floating dot product is told by the width of its operands' (R205). -/
theorem width_eq_iff_of_flt {et : Nat} {f : Fmt} (flt : etType et = .flt f) : f.width = 32 ↔ f = fp32 := by
  unfold etType at flt
  split at flt <;> cases flt <;> decide

section
variable {s : State} {vd vs1 vs2 et : BitVec 3} {m : BitVec 1}

/-- An integer dot product, lane by lane: four products into each accumulator lane. -/
theorem State.lanes_vdot_int {w d : Nat} (type : etType et.toNat = .int true w) (wider : (if w = 8 then 32 else 64) = d) :
    s.lanes (.vdot vd vs1 vs2 et m) vd d (512 / d) m false
      (fun k => (dotInt w d (laneGet (s.me.vreg vd) d k) (s.me.pairs vs1 vs2 w 4 k), 0)) :=
  State.lanes_of_plain rfl (by simp only [type, wider]) (Nat.le_refl _)

/-- A floating dot product, lane by lane: two products into each accumulator lane. -/
theorem State.lanes_vdot_flt {f g : Fmt} (type : etType et.toNat = .flt f)
    (wider : (if f.width = 32 then fp64 else fp32) = g) :
    s.lanes (.vdot vd vs1 vs2 et m) vd g.width (512 / g.width) m true
      (fun k => dotFloat f g (s.me.rnd k) (laneGet (s.me.vreg vd) g.width k) (s.me.pairs vs1 vs2 f.width 2 k)) :=
  State.lanes_of_plain rfl (by simp only [type, wider]) (Nat.le_refl _)

end

/-- Settles O42: an integer reduction keeps at every level of the tree what makes its result; a floating one is that tree;
a dot product is lanewise. -/
theorem vectorReductions : Obligations.VectorReductions := by
  unfold Obligations.VectorReductions
  intro s vd vs1 vs2 et m w n a act signed reduces calm leaves
  have full := s.me.length_leaves vs1 m et
  have hw : 0 < w := etType_width_pos et
  have same : reduces = fun i p => s.reduces i vd w p := rfl
  clear_value reduces
  subst same
  have integer (int : et.toNat < 4) : w = 8 * 2 ^ et.toNat ∧ etType et.toNat = .int true w := by
    have type := etType_of_lt int
    have width : w = 8 * 2 ^ et.toNat := congrArg NumT.width type
    exact ⟨width, width ▸ type⟩
  refine ⟨fun int => ?_, fun f flt => State.reduces_flt flt, fun small => ?_, fun f flt narrow => ?_⟩
  · have half : 2 ^ (w - 1) < 2 ^ w := Nat.pow_lt_pow_right (by decide) (by omega)
    obtain ⟨add, max, min⟩ := State.reduces_int (s := s) (vd := vd) (vs1 := vs1) (m := m) (integer int).2
    rw [show toInt true w = signed from funext (toInt_eq_toInt_ofNat hw)] at max min
    refine ⟨add.imp fun t v ⟨still, e⟩ => ⟨still, e.trans (s.me.reduced_add vs1 m full)⟩,
      max.imp fun t v ⟨still, e⟩ => ⟨still, ?_⟩, min.imp fun t v ⟨still, e⟩ => ⟨still, ?_⟩⟩
    · exact e ▸ s.me.reduced_greater vs1 m full half
    · have lowest := s.me.reduced_greater (key := fun x => - signed x) vs1 m full (Nat.lt_of_le_of_lt (Nat.sub_le _ 1) half)
      simp only [Int.neg_le_neg_iff] at lowest
      exact e ▸ lowest
  · intro d x total
    obtain ⟨width, type⟩ := integer (by omega)
    have wider : (if w = 8 then 32 else 64) = d := by
      refine if_congr ?_ rfl rfl
      rw [width]
      interval_cases et.toNat <;> decide
    have hd : 0 < d := by rw [← wider]; split <;> decide
    exact State.lanes_congr (State.lanes_vdot_int type wider)
      (fun k => congrArg (· % 2 ^ d) (dotInt_pairs s.me vd vs1 vs2 hw hd k)) (fun _ => rfl)
  · intro g
    have width : w = f.width := congrArg NumT.width flt
    simp only [width]
    exact State.lanes_vdot_flt flt (if_congr (width_eq_iff_of_flt flt) rfl rfl)

end Sys2Proof.Machine

namespace Sys2Proof.Machine

open Sys2Proof

/-! # Vector comparisons (R185, R197)

A comparison is `Thread.masked` with a test and the flags of each lane: `State.masks_of_plain` says what it does, whatever
the test; the flags of a lane are NV where an operand is a signalling NaN, and none otherwise. -/

/-! ## The mask and the flags of the lanes -/

theorem maskBits_lt (r : Nat → Bool) (n : Nat) : maskBits r n < 2 ^ n := by
  induction n with
  | zero => exact Nat.one_pos
  | succ n ih =>
    rw [maskBits, Nat.pow_succ]
    split <;> omega

/-- Bit `k` of the mask is the result of lane `k`, and 0 beyond the last lane (R197). -/
theorem testBit_maskBits (r : Nat → Bool) (n k : Nat) : (maskBits r n).testBit k = (decide (k < n) && r k) := by
  induction n with
  | zero => simp [maskBits]
  | succ n ih =>
    have top : maskBits r (n + 1) = 2 ^ n * (r n).toNat + maskBits r n := by
      rw [maskBits]
      cases r n <;> simp [Nat.add_comm]
    rw [top, Nat.testBit_two_pow_mul_add _ (maskBits_lt r n), ih, Nat.testBit_bool_toNat]
    rcases Nat.lt_trichotomy k n with below | rfl | above
    · simp [below, Nat.lt_succ_of_lt below]
    · simp
    · simp [Nat.lt_asymm above, Nat.sub_ne_zero_of_lt above, Nat.not_lt.2 above]

/-- Lanes that raise NV or nothing raise NV together where one of them does. -/
theorem orFlags_invalid {fl : Nat → BitVec 5} {q : Nat → Prop} [DecidablePred q]
    (each : ∀ k, fl k = if q k then flNV else 0) (n : Nat) : orFlags fl n = if ∃ k < n, q k then flNV else 0 := by
  induction n with
  | zero => simp [orFlags]
  | succ n ih =>
    rw [orFlags, ih, each n]
    simp only [Nat.exists_lt_succ_right]
    by_cases before : ∃ k < n, q k <;> by_cases here : q n <;> simp [before, here]

theorem sigFlag_eq (x : FVal) : sigFlag x = if x = .nan true then flNV else 0 := by
  rcases x with (_ | _) | _ | _ <;> rfl

/-- Two operands raise NV where one is a signalling NaN. -/
theorem sigFlag_or (x y : FVal) : sigFlag x ||| sigFlag y = if x = .nan true ∨ y = .nan true then flNV else 0 := by
  rw [sigFlag_eq, sigFlag_eq]
  by_cases hx : x = .nan true <;> by_cases hy : y = .nan true <;> simp [hx, hy]

/-! ## A comparison -/

/-- The thread with the mask and the flags of `n` lanes; it is vector-dirty. -/
def Thread.masked (t : Thread) (n : Nat) (r : Nat → Bool) (fl : Nat → BitVec 5) : Thread :=
  { t.raiseFlags (orFlags fl n) with vmask := BitVec.ofNat 64 (maskBits r n), dirty := true }

/-- The instruction answers a next state whose mask holds the active lanes of width `w` of which `p` holds; NV is raised
where `nv` holds of an active lane, and no register changes (R185, R197). -/
def State.masks (s : State) (i : Instr) (w : Nat) (m : BitVec 1) (p nv : Nat → Prop) : Prop :=
  ∃ t, exec i s = .next t ∧ s.onlyMe t ∧
    (∀ k, k < 64 → (t.me.vmask.getLsbD k = true ↔ s.me.joins w m k ∧ p k)) ∧
    ((∃ k, s.me.joins w m k ∧ nv k) → t.me.vrm = s.me.vrm ||| 16#9) ∧
    ((∀ k, s.me.joins w m k → ¬ nv k) → t.me.vrm = s.me.vrm) ∧
    t.me = { s.me with pc := s.me.pc + 4, instret := s.me.instret + 1, vmask := t.me.vmask, vrm := t.me.vrm, dirty := true }

section
variable {s : State} {i : Instr} {vs1 vs2 et : BitVec 3} {w : Nat} {m : BitVec 1} {p nv : Nat → Prop}
  {ci : Nat → Nat → Nat → Bool} {cf : Fmt → Nat → Nat → Bool}

theorem State.masks_of_plain [DecidablePred nv] {g : Thread → Thread} {r : Nat → Bool} {fl : Nat → BitVec 5}
    (e : exec i s = .next (s.plain g)) (h : g s.me = s.me.masked (512 / w) (fun k => s.me.active m k && r k) fl)
    (holds : ∀ k, r k = true ↔ p k) (flags : ∀ k, fl k = if s.me.active m k = true ∧ nv k then flNV else 0) :
    s.masks i w m p nv := by
  have me : (s.plain g).me = (s.me.masked (512 / w) (fun k => s.me.active m k && r k) fl).retire :=
    (s.me_plain g).trans (congrArg Thread.retire h)
  have vrm : (s.plain g).me.vrm = s.me.vrm ||| (orFlags fl (512 / w)).zeroExtend 9 := by rw [me]; rfl
  have raised : (∃ k < 512 / w, s.me.active m k = true ∧ nv k) ↔ ∃ k, s.me.joins w m k ∧ nv k := by
    simp only [Thread.joins, Thread.active_iff, and_assoc]
  refine ⟨_, e, s.onlyMe_setThr _, fun k bit => ?_, fun some => ?_, fun none => ?_, ?_⟩
  · have vmask : (s.plain g).me.vmask = BitVec.ofNat 64 (maskBits (fun k => s.me.active m k && r k) (512 / w)) := by
      rw [me]; rfl
    rw [vmask, BitVec.getLsbD_ofNat, decide_eq_true bit, Bool.true_and, testBit_maskBits, Bool.and_eq_true,
      Bool.and_eq_true, decide_eq_true_iff, Thread.active_iff, holds, ← and_assoc]
    rfl
  · rw [vrm, orFlags_invalid flags, if_pos (raised.2 some)]
    rfl
  · have calm : ¬ ∃ k, s.me.joins w m k ∧ nv k := fun ⟨k, act, sig⟩ => none k act sig
    rw [vrm, orFlags_invalid flags, if_neg (mt raised.1 calm)]
    exact BitVec.or_zero
  · rw [me]
    rfl

/-- A comparison on an integer type raises no flag. -/
theorem State.masks_int (int : et.toNat < 4) (e : exec i s = .next (s.plain (fun t => t.compare vs1 vs2 et m ci cf)))
    (holds : ∀ k, ci (etType et.toNat).width (laneGet (s.me.vreg vs1) (etType et.toNat).width k)
      (laneGet (s.me.vreg vs2) (etType et.toNat).width k) = true ↔ p k) :
    s.masks i (etType et.toNat).width m p (fun _ => False) := by
  refine State.masks_of_plain (fl := fun _ => 0) e ?_ holds (fun k => by simp)
  simp only [Thread.compare, Thread.masked, etType_of_lt int, NumT.width]

/-- A comparison on a floating type raises NV for a signalling NaN of an active lane. -/
theorem State.masks_flt {f : Fmt} (flt : etType et.toNat = .flt f)
    (e : exec i s = .next (s.plain (fun t => t.compare vs1 vs2 et m ci cf))) :
    let x (k : Nat) : Nat := laneGet (s.me.vreg vs1) (etType et.toNat).width k
    let y (k : Nat) : Nat := laneGet (s.me.vreg vs2) (etType et.toNat).width k
    (∀ k, cf f (x k) (y k) = true ↔ p k) →
    s.masks i (etType et.toNat).width m p (fun k => fdecode f (x k) = .nan true ∨ fdecode f (y k) = .nan true) := by
  intro x y holds
  refine State.masks_of_plain
    (fl := fun k => if s.me.active m k then sigFlag (fdecode f (x k)) ||| sigFlag (fdecode f (y k)) else 0) e
    ?_ holds (fun k => ?_)
  · simp only [Thread.compare, Thread.masked, flt, NumT.width, x, y]
  · rw [sigFlag_or, ite_and]

end

/-! ## The tests of a lane -/

section
variable {f : Fmt} {x y : Nat}

/-- Equality of two patterns as numbers: no NaN, and two zeros or one pattern. -/
theorem fltEq_iff (hx : x < 2 ^ f.width) (hy : y < 2 ^ f.width) : fltEq f x y = true ↔
    ((fdecode f x).isNan = false ∧ (fdecode f y).isNan = false) ∧
      (((fdecode f x).isZero = true ∧ (fdecode f y).isZero = true) ∨ x = y) := by
  simp only [fltEq, Nat.mod_eq_of_lt hx, Nat.mod_eq_of_lt hy, Bool.and_eq_true, Bool.or_eq_true, Bool.not_eq_true',
    decide_eq_true_iff]

/-- One pattern below another as a number: no NaN, not two zeros, and below it in the order of R179. -/
theorem fltLess_iff : fltLess f x y = true ↔
    ((fdecode f x).isNan = false ∧ (fdecode f y).isNan = false) ∧
      ¬ ((fdecode f x).isZero = true ∧ (fdecode f y).isZero = true) ∧ forder f x < forder f y := by
  simp only [fltLess, Bool.and_eq_true, Bool.not_eq_true', decide_eq_true_iff, and_assoc, Bool.and_eq_false_iff,
    not_and_or, Bool.not_eq_true]

end

/-- Settles O40: every comparison is `Thread.compare` with a test of its own, and each test is that of the statement. -/
theorem vectorCompares : Obligations.VectorCompares := by
  unfold Obligations.VectorCompares
  intro s vs1 vs2 et m w x y a b act masks quiet
  have named : masks = fun i p nv => s.masks i w m p nv := rfl
  clear_value masks
  subst named
  refine ⟨fun int => ?_, fun f flt => ?_⟩
  · have toNat (r : BitVec 3) (k : Nat) : (BitVec.ofNat w (laneGet (s.me.vreg r) w k)).toNat =
        laneGet (s.me.vreg r) w k := by
      rw [BitVec.toNat_ofNat]
      exact Nat.mod_eq_of_lt (laneGet_lt _ w k)
    have equal (k : Nat) : x k = y k ↔ a k = b k := by
      rw [← BitVec.toNat_inj, toNat, toNat]
    have signed := toInt_eq_toInt_ofNat (etType_width_pos et)
    refine ⟨State.masks_int int rfl fun k => ?_, State.masks_int int rfl fun k => ?_, State.masks_int int rfl fun k => ?_,
      State.masks_int int rfl fun k => ?_, State.masks_int int rfl fun k => ?_⟩
    · exact decide_eq_true_iff.trans (equal k)
    · exact decide_eq_true_iff.trans (not_congr (equal k))
    · rw [decide_eq_true_iff, signed, signed]
    · rw [decide_eq_true_iff, signed, signed]
    · rw [decide_eq_true_iff, toNat, toNat]
  · intro u v numbers zeros same less nv
    have wide (r : BitVec 3) (k : Nat) : laneGet (s.me.vreg r) w k < 2 ^ f.width := by
      rw [show f.width = w from (congrArg NumT.width flt).symm]
      exact laneGet_lt _ w k
    have equal (k : Nat) : fltEq f (x k) (y k) = true ↔ same k := fltEq_iff (wide vs1 k) (wide vs2 k)
    have below (k : Nat) : fltLess f (x k) (y k) = true ↔ less k := fltLess_iff
    refine ⟨State.masks_flt flt rfl equal, State.masks_flt flt rfl fun k => ?_, State.masks_flt flt rfl below,
      State.masks_flt flt rfl fun k => ?_⟩
    · rw [Bool.not_eq_true', ← Bool.not_eq_true]
      exact not_congr (equal k)
    · rw [Bool.or_eq_true]
      exact or_congr (below k) (equal k)

end Sys2Proof.Machine

namespace Sys2Proof.Machine

open Sys2Proof

/-! # Press queues (R216, R218, R226, R232 to R235)

The queues of a press are read by `State.pq`: what a change of a press leaves of them, what leaves with the head of a
queue, and the three instructions that drive a queue. -/

section
variable {s t : State} {c : Nat} {x : Cmd} {l : List Cmd}

/-! ## Presses and their queues -/

theorem State.press_modPress (s : State) (f : Nat) (g : Press → Press) (h : Nat) :
    ((s.modPress f g).forme h).press = if h = f then g (s.forme h).press else (s.forme h).press := by
  rw [State.modPress, State.modForme_eq, State.forme_setForme]
  split
  · next e => rw [e]
  · rfl

theorem State.modPress_frame (s : State) (f : Nat) (g : Press → Press) : Frame [.fFormes] s (s.modPress f g) :=
  (Frame.refl _ s).modForme _ _

theorem State.setPq_frame (s : State) (c : Nat) (q : PQueue) : Frame [.fFormes] s (s.setPq c q) := s.modPress_frame _ _

theorem State.queues_modPress (s : State) (f : Nat) {g : Press → Press} (keeps : ∀ k, (g k).queues = k.queues) (h : Nat) :
    ((s.modPress f g).forme h).press.queues = (s.forme h).press.queues := by
  rw [State.press_modPress]
  split
  · exact keeps _
  · rfl

theorem State.pq_of_queues (same : (t.forme (coreForme c)).press.queues = (s.forme (coreForme c)).press.queues) :
    t.pq c = s.pq c := congrArg (fun q => tget PQueue.fresh q (corePos c)) same

theorem State.pq_of_formes (same : t.formes = s.formes) : t.pq c = s.pq c :=
  State.pq_of_queues (by rw [State.forme, same]; rfl)

theorem State.pq_modPress (s : State) (f : Nat) {g : Press → Press} (keeps : ∀ k, (g k).queues = k.queues) (c : Nat) :
    (s.modPress f g).pq c = s.pq c := State.pq_of_queues (State.queues_modPress _ _ keeps _)

@[simp] theorem State.pq_setPq (s : State) (c : Nat) (q : PQueue) : (s.setPq c q).pq c = q := by
  rw [State.pq, State.setPq, State.press_modPress, if_pos rfl]
  exact tget_tset_self ..

theorem State.modHead_cons (queued : (s.pq c).cmds = x :: l) (g : Cmd → Cmd) :
    s.modHead c g = s.setPq c { s.pq c with cmds := g x :: l } := by
  rw [State.modHead, queued]

/-! ## Planes that become free (R229) -/

/-- What no step of a fold changes reads the same after it. -/
theorem foldl_keeps {α β γ : Type} {f : β → α → β} (g : β → γ) (keeps : ∀ b a, g (f b a) = g b) (l : List α) (b : β) :
    g (l.foldl f b) = g b := by
  induction l generalizing b with
  | nil => rfl
  | cons a l ih => exact (ih _).trans (keeps b a)

theorem State.queues_reinstallOn (s : State) (f gid h : Nat) :
    ((s.reinstallOn f gid).forme h).press.queues = (s.forme h).press.queues := by
  refine foldl_keeps (fun s : State => (s.forme h).press.queues) (fun s y => ?_) _ s
  refine iteInduction (motive := fun r : State => (r.forme h).press.queues = (s.forme h).press.queues) (fun _ => ?_)
    (fun _ => rfl)
  dsimp only
  rw [State.modGrp_eq, State.forme_setGrp]
  refine State.queues_modPress _ f (fun k => ?_) h
  split <;> rfl

theorem State.reinstallOn_frame (s : State) (f gid : Nat) :
    Frame [.fPlanes, .fFormes, .fGroups] s (s.reinstallOn f gid) := by
  refine Frame.foldl _ (fun s y => ?_) _ s
  exact Frame.ite ((((Frame.refl _ s).withPlanes _).modForme _ _).modGrp _ _) (Frame.refl _ s)

theorem State.planesFreed_frame (s : State) (f : Nat) : Frame [.fPlanes, .fFormes, .fGroups] s (s.planesFreed f) :=
  Frame.foldl _ (fun s g => s.reinstallOn_frame f g) _ s

theorem State.queues_planesFreed (s : State) (f h : Nat) :
    ((s.planesFreed f).forme h).press.queues = (s.forme h).press.queues :=
  foldl_keeps (fun s : State => (s.forme h).press.queues) (fun s g => s.queues_reinstallOn f g h) _ s

/-! ## The head of a queue leaves it -/

/-- What leaves with the head of a queue: the others stay, and the wakes for an entry of the queue fire. The planes change
only where the head is an LSTAT whose shadow is not loaded (R218, R229). -/
theorem State.dropHead_eq (queued : (s.pq c).cmds = x :: l) :
    ∃ r, s.dropHead c = r.fire (fun w => decide (w = .pressEntry c)) ∧ Frame [.fPlanes, .fFormes, .fGroups] s r ∧
      r.pq c = { s.pq c with cmds := l } ∧ ((x.op = 1 → (s.forme (coreForme c)).press.shadow.loaded = true) →
        Frame [.fGroups] (s.setPq c { s.pq c with cmds := l }) r) := by
  have marks (r : State) : Frame [.fGroups] r (match r.groupOn c with
      | some g => if x.op = 1 then r.modGrp g (fun y => { y with reinstall := y.reinstall.filter (fun e =>
          !(e.2.1 && !e.2.2.1.loaded && decide (e.2.2.1.owner = some (corePos c)))) }) else r
      | none => r) := by
    split
    · exact ((Frame.refl _ r).modGrp _ _).ite (.refl _ r)
    · exact .refl _ r
  have shorter : Frame [.fPlanes, .fFormes, .fGroups] s (s.setPq c { s.pq c with cmds := l }) :=
    (s.setPq_frame c _).mono (by decide)
  unfold State.dropHead
  dsimp only
  rw [queued]
  refine ⟨_, rfl, .trans ?_ ((marks _).mono (by decide)), (State.pq_of_formes (marks _).formes).trans ?_, fun loaded => ?_⟩
  · exact .ite ((shorter.trans ((State.modPress_frame ..).mono (by decide))).trans (State.planesFreed_frame _ _)) shorter
  · split
    · refine (State.pq_of_queues (s := s.setPq c { s.pq c with cmds := l }) ?_).trans (State.pq_setPq ..)
      exact (State.queues_planesFreed ..).trans (State.queues_modPress _ _ (by exact fun _ => rfl) _)
    · exact State.pq_setPq ..
  · have shadow : ((s.setPq c { s.pq c with cmds := l }).forme (coreForme c)).press.shadow =
        (s.forme (coreForme c)).press.shadow := by
      rw [State.setPq, State.press_modPress, if_pos rfl]
    have stays := marks (s.setPq c { s.pq c with cmds := l })
    rw [if_neg]
    · exact stays
    · rintro ⟨op, -, none⟩
      rw [shadow, loaded op] at none
      exact Bool.noConfusion none

theorem State.cmds_dropHead (queued : (s.pq c).cmds = x :: l) : ((s.dropHead c).pq c).cmds = l := by
  obtain ⟨r, dropped, -, queue, -⟩ := State.dropHead_eq queued
  rw [dropped, show (r.fire _).pq c = r.pq c from rfl, queue]

/-- The thread in execution runs on when the head of a queue leaves it: only its armed wake may have fired. -/
theorem State.me_dropHead (queued : (s.pq c).cmds = x :: l) (issues : s.me.issues) :
    ∃ w, (s.dropHead c).me = { s.me with wake := w } := by
  obtain ⟨r, dropped, frame, -, -⟩ := State.dropHead_eq queued
  have me : r.me = s.me := by
    rw [State.me_eq, State.thr, frame.threads, frame.cur]
    rfl
  rw [dropped, State.me_eq, State.fire, State.thr_fireIf]
  split
  · obtain ⟨w, e⟩ := Thread.fire_of_issues r.wakeSeq r.me (me ▸ issues)
    exact ⟨w, by rw [← me]; exact e⟩
  · exact ⟨s.me.wake, me⟩

end

/-! ## `pq.push` (R232, R233) -/

/-- The words of the command that `pq.push` reads. -/
def State.pushedWord (s : State) (rs1 : BitVec 4) (i : Nat) : Nat :=
  mload s.lm (lmByte s.myCore ((s.me.reg rs1).toNat + 8 * i)) 8

/-- The command that `pq.push` queues. -/
def State.pushedCmd (s : State) (rs1 : BitVec 4) : Cmd :=
  let w0 := s.pushedWord rs1 0
  let w3 := s.pushedWord rs1 3
  { w0 := BitVec.ofNat 64 w0, w1 := BitVec.ofNat 64 (s.pushedWord rs1 1), w2 := BitVec.ofNat 64 (s.pushedWord rs1 2),
    w3 := BitVec.ofNat 64 w3, phase := (if pwOp w0 = 5 ∧ w3 / 256 % 4 = 1 then s.me.dphase.toNat % 256 else 0),
    uid := s.cur, pc := s.me.pc, agent := s.me.agent, interval := s.me.released.interval, epoch := s.me.epoch,
    tids := s.myKer.tids, entry := none, st := .queued, unit := 0, ahead := [], faultVa := 0 }

section
variable {s : State} {rs1 : BitVec 4} {nb : BitVec 1}

/-- A release step at `core` or `die` starts nothing, and is established where it is so already (R132). -/
theorem State.releaseStep_of_near (s : State) {scope : Nat} (near : scope < 3) :
    s.releaseStep scope = (s, s.established s.cur scope) := by
  unfold State.releaseStep
  dsimp only
  rw [if_pos near, if_neg fun wide => absurd wide.2 (Nat.not_le.2 near)]

theorem State.pushedWord_eq (s : State) (rs1 : BitVec 4) (i : Nat) :
    s.pushedWord rs1 i = mload s.lm (s.myCore * 2 ^ 18 + (s.me.reg rs1).toNat + 8 * i) 8 := by
  rw [Nat.add_assoc]
  rfl

/-- A DRAIN that takes its phase from the thread is pushed with the thread's (R239). -/
theorem State.pushedCmd_phase (op : s.pushedWord rs1 0 % 256 = 5) (own : s.pushedWord rs1 3 / 256 % 4 = 1) :
    (s.pushedCmd rs1).phase = s.me.dphase.toNat % 256 := by
  simp only [State.pushedCmd, pwOp, op, own, and_self, if_true]

/-- `pq.push` of a command that stands in local memory. -/
theorem exec_pqPush (inside : (s.me.reg rs1).toNat < s.myGrp.lm) (aligned : (s.me.reg rs1).toNat % 32 = 0) :
    let w := s.pushedWord rs1
    let q := s.pq s.myCore
    exec (.pqPush rs1 nb) s = .next (
      if s.pressWordOk (w 0) (w 1) (w 2) (w 3) = false then s.trapMe .pressError (s.me.reg rs1) (BitVec.ofNat 64 (w 0))
      else if s.established s.cur 1 = false then s.notReady nb .nr (.release 1)
      else if 8 ≤ q.cmds.length then s.notReady nb .full (.pressEntry s.myCore)
      else ((s.modMe Thread.released).setPq s.myCore { q with cmds := q.cmds ++ [s.pushedCmd rs1] }).completeP nb .rdy) := by
  intro w q
  show execPqPush rs1 nb s = _
  unfold execPqPush
  dsimp only
  rw [if_neg (Nat.not_le.2 inside), if_neg (not_not.2 aligned)]
  rw [State.releaseStep_of_near s (by decide)]
  have me : (s.modMe Thread.released).me = s.me.released := State.me_modMe ..
  have kernel : (s.modMe Thread.released).myKer = s.myKer := by
    unfold State.myKer State.myGrp
    rw [me]
    rfl
  dsimp only
  rw [me, kernel]
  simp only [Bool.not_eq_true', apply_ite Host.Outcome.next]
  rfl

end

/-! ## `pq.done` (R224, R226, R234) -/

/-- What `pq.done` answers for a ticket of which no MARK is queued: RDY where it is that of the last MARK reached. -/
def State.ticketRead (s : State) (n : Nat) (nb : BitVec 1) : State :=
  if (s.pq s.myCore).lastMark = some n then s.completeP nb .rdy else s.completeP nb .stale

section
variable {s : State} {rs1 : BitVec 4} {nb : BitVec 1} {x : Cmd} {l : List Cmd}

/-- With the race detector off the acquire of `pq.done`, at scope `die`, leaves the state as it is (R132, R224). -/
theorem State.pressAcquire_off (off : (s.ctx s.myCtx).race = 0) (q : PQueue) (rdy : Bool) : s.pressAcquire q rdy = s :=
  if_neg fun racing => racing.2.1 off

/-- With the race detector off `pq.done` reads its ticket where the queue is empty. -/
theorem exec_pqDone_empty (off : (s.ctx s.myCtx).race = 0) (empty : (s.pq s.myCore).cmds = []) :
    exec (.pqDone rs1 nb) s = .next (s.ticketRead ((s.me.reg rs1).toNat % 65536) nb) := by
  show execPqDone rs1 nb s = _
  simp only [execPqDone, empty, State.pressAcquire_off off, State.ticketRead]

/-- With the race detector off `pq.done` reads its ticket where no MARK with it is queued. -/
theorem exec_pqDone_read (off : (s.ctx s.myCtx).race = 0) (queued : (s.pq s.myCore).cmds = x :: l)
    (runs : x.st = .queued ∨ x.st = .started) (absent : (s.pq s.myCore).marked ((s.me.reg rs1).toNat % 65536) = false) :
    exec (.pqDone rs1 nb) s = .next (s.ticketRead ((s.me.reg rs1).toNat % 65536) nb) := by
  show execPqDone rs1 nb s = _
  rcases runs with st | st <;>
    simp only [execPqDone, queued, st, absent, State.pressAcquire_off off, Bool.false_eq_true, if_false, State.ticketRead]

/-- While a MARK with its ticket is queued, `pq.done` waits for a queue that runs (R234). -/
theorem exec_pqDone_waits (queued : (s.pq s.myCore).cmds = x :: l) (runs : x.st = .queued ∨ x.st = .started)
    (marked : (s.pq s.myCore).marked ((s.me.reg rs1).toNat % 65536) = true) : exec (.pqDone rs1 nb) s =
      .next (s.notReady nb .nr (.ticket s.myCore ((s.me.reg rs1).toNat % 65536))) := by
  show execPqDone rs1 nb s = _
  rcases runs with st | st <;> simp only [execPqDone, queued, st, marked, if_true]

theorem exec_pqDone_faulted (queued : (s.pq s.myCore).cmds = x :: l) (st : x.st = .stoppedFault)
    (marked : (s.pq s.myCore).marked ((s.me.reg rs1).toNat % 65536) = true) : exec (.pqDone rs1 nb) s =
      .next (s.notReady nb .faulted (.pressResolved s.myCore)) := by
  show execPqDone rs1 nb s = _
  simp only [execPqDone, queued, st, marked, if_true]

theorem exec_pqDone_denied (queued : (s.pq s.myCore).cmds = x :: l) (st : x.st = .resolved ∨ x.st = .stoppedError)
    (marked : (s.pq s.myCore).marked ((s.me.reg rs1).toNat % 65536) = true) :
    exec (.pqDone rs1 nb) s = .next (s.complete nb .denied) := by
  show execPqDone rs1 nb s = _
  rcases st with st | st <;> simp only [execPqDone, queued, st, marked, if_true]

theorem exec_pqDone_declined (queued : (s.pq s.myCore).cmds = x :: l) (st : x.st = .stoppedDeclined) :
    exec (.pqDone rs1 nb) s = .next (s.trapMe .unresolvable x.faultVa 0) := by
  show execPqDone rs1 nb s = _
  simp only [execPqDone, queued, st]

/-- A ticket read is RDY for the last MARK reached and STALE for another, and changes no memory. -/
theorem State.reads_ticket {i : Instr} {n : Nat} (run : exec i s = .next (s.ticketRead n nb)) :
    let reads (o : OCode) : Prop := ∃ t, exec i s = .next t ∧ t.mem = s.mem ∧ t.lm = s.lm ∧ t.me = s.me.completed nb o
    ((s.pq s.myCore).lastMark = some n → reads .rdy) ∧ ((s.pq s.myCore).lastMark ≠ some n → reads .stale) := by
  intro reads
  have answers {o : OCode} (e : s.ticketRead n nb = s.completeP nb o) : reads o :=
    ⟨_, run.trans (congrArg _ e), (State.completeP_frame ..).mem, (State.completeP_frame ..).lm, State.me_completeP ..⟩
  exact ⟨fun last => answers (if_pos last), fun other => answers (if_neg other)⟩

/-! ## `pq.resume` (R226, R235) -/

theorem exec_pqResume_empty (empty : (s.pq s.myCore).cmds = []) :
    exec (.pqResume nb) s = .next (s.completeP nb .rdy) := by
  show execPqResume nb s = _
  simp only [execPqResume, empty]

theorem exec_pqResume_running (queued : (s.pq s.myCore).cmds = x :: l) (runs : x.st = .queued ∨ x.st = .started) :
    exec (.pqResume nb) s = .next (s.completeP nb .rdy) := by
  show execPqResume nb s = _
  rcases runs with st | st <;> simp only [execPqResume, queued, st]

theorem exec_pqResume_faulted (queued : (s.pq s.myCore).cmds = x :: l) (st : x.st = .stoppedFault) :
    exec (.pqResume nb) s = .next (s.notReady nb .faulted (.pressResolved s.myCore)) := by
  show execPqResume nb s = _
  simp only [execPqResume, queued, st]

/-- A resolved head runs again (R226, R235). -/
theorem exec_pqResume_resolved (queued : (s.pq s.myCore).cmds = x :: l) (st : x.st = .resolved) : exec (.pqResume nb) s =
      .next ((s.setPq s.myCore { s.pq s.myCore with cmds := { x with st := .queued } :: l }).completeP nb .rdy) := by
  rw [← State.modHead_cons queued fun y => { y with st := .queued }]
  show execPqResume nb s = _
  simp only [execPqResume, queued, st]

/-- A head that stopped for an error is dropped (R226, R235). -/
theorem exec_pqResume_error (queued : (s.pq s.myCore).cmds = x :: l) (st : x.st = .stoppedError) :
    exec (.pqResume nb) s = .next ((s.dropHead s.myCore).completeP nb .rdy) := by
  show execPqResume nb s = _
  simp only [execPqResume, queued, st]

theorem exec_pqResume_declined (queued : (s.pq s.myCore).cmds = x :: l) (st : x.st = .stoppedDeclined) :
    exec (.pqResume nb) s = .next (s.trapMe .unresolvable x.faultVa 0) := by
  show execPqResume nb s = _
  simp only [execPqResume, queued, st]

end

/-- Settles O35: each instruction goes by the words it reads or by the head of its core's queue, and then traps, stops,
completes or changes that queue alone. -/
theorem pressQueueInstructions : Obligations.PressQueueInstructions := by
  unfold Obligations.PressQueueInstructions
  intro s rs1 nb x l issues a c q w good ok n head push done resume reads
  have words : w = s.pushedWord rs1 := funext fun i => (s.pushedWord_eq rs1 i).symm
  clear_value w
  subst words
  have pushes (fits : good) := exec_pqPush (nb := nb) fits.1 fits.2
  have queued (t : State) (nb : BitVec 1) : (t.completeP nb .rdy).pq c = t.pq c :=
    State.pq_of_formes (State.completeP_frame ..).formes
  have running {p : Prop} (runs : head .queued ∨ head .started)
      (h : q.cmds = x :: l → x.st = .queued ∨ x.st = .started → p) : p :=
    runs.elim (fun ⟨queue, st⟩ => h queue (.inl st)) fun ⟨queue, st⟩ => h queue (.inr st)
  refine ⟨fun outside => State.traps_of (if_pos outside) issues, fun fits bad => State.traps_of ?_ issues,
    fun ⟨fits, ok⟩ unreleased => State.stops_of ?_, fun ⟨fits, ok⟩ done full => State.stops_of ?_,
    fun ⟨fits, ok⟩ done room => ?_, fun off empty => State.reads_ticket (exec_pqDone_empty off empty),
    fun runs marked => State.stops_of (running runs fun queue st => exec_pqDone_waits queue st marked),
    fun off runs absent => State.reads_ticket (running runs fun queue st => exec_pqDone_read off queue st absent),
    fun ⟨queue, st⟩ marked => State.stops_of (exec_pqDone_faulted queue st marked), ?_, ?_,
    fun ⟨queue, st⟩ => State.stops_of (exec_pqResume_faulted queue st), fun ⟨queue, st⟩ => ?_,
    fun ⟨queue, st⟩ => ?_, fun ⟨queue, st⟩ => ⟨State.traps_of (exec_pqDone_declined queue st) issues,
      State.traps_of (exec_pqResume_declined queue st) issues⟩⟩
  · rw [pushes fits, if_pos bad]
  · rw [pushes fits, if_neg (by rw [ok]; decide), if_pos unreleased]
  · rw [pushes fits, if_neg (by rw [ok]; decide), if_neg (by rw [done]; decide), if_pos full]
  · have run : exec push s = _ := (pushes fits).trans (by
      rw [if_neg (by rw [ok]; decide), if_neg (by rw [done]; decide), if_neg (Nat.not_le.2 room)])
    have me : ((s.modMe Thread.released).setPq c { q with cmds := q.cmds ++ [s.pushedCmd rs1] }).me = s.me.released :=
      State.me_modMe ..
    obtain ⟨frame, others, -, completed⟩ :=
      ((s.modMe Thread.released).setPq c { q with cmds := q.cmds ++ [s.pushedCmd rs1] }).completeP_rdy_facts nb
    refine ⟨_, s.pushedCmd rs1, run, ?_, rfl, rfl, rfl, rfl, rfl, rfl, rfl, State.pushedCmd_phase, frame.mem,
      frame.lm, fun u other => ?_, completed.trans ?_⟩
    · rw [queued, State.pq_setPq]
    · exact (others u other).trans ((s.thr_modMe _ u).trans (if_neg other))
    · rw [me]
      rfl
  · rintro (⟨queue, st⟩ | ⟨queue, st⟩) marked
    · exact State.ends_of (exec_pqDone_denied queue (.inl st) marked)
    · exact State.ends_of (exec_pqDone_denied queue (.inr st) marked)
  · rintro (empty | runs)
    · exact State.results_none_of (.refl s _) (exec_pqResume_empty empty)
    · exact State.results_none_of (.refl s _) (running runs exec_pqResume_running)
  · refine ⟨_, exec_pqResume_resolved queue st, ?_, State.me_completeP ..⟩
    rw [queued, State.pq_setPq]
  · obtain ⟨v, me⟩ := State.me_dropHead queue issues
    refine ⟨_, exec_pqResume_error queue st, ?_, ?_⟩
    · rw [queued, State.cmds_dropHead queue]
    · rw [State.me_completeP, me]
      rfl

end Sys2Proof.Machine

namespace Sys2Proof.Machine

open Sys2Proof

/-! # Bytes and accumulator elements that a press writes (R212, R214)

Cuts and pastes of planes, and folds of writes over the elements of an operand. -/

/-! ## Cuts, slices and pastes -/

/-- A memory of which the cells at some addresses are kept. -/
theorem mget_filter (p : Nat → Bool) (a : Nat) {m : Memory} {lo : Nat} (rising : Memory.above lo m = true) :
    mget (m.filter fun x => p x.1) a = if p a then mget m a else 0 := by
  induction m generalizing lo with
  | nil => simp [mget]
  | cons x m ih =>
    obtain ⟨k, v⟩ := x
    simp only [Memory.above, Bool.and_eq_true] at rising
    obtain ⟨-, rest⟩ := rising
    have below (h : a ≤ k) : mget m a = 0 := mget_of_above rest (Nat.lt_succ_of_le h)
    rcases Nat.lt_trichotomy a k with lt | rfl | gt
    · by_cases kept : p k <;> simp [kept, mget, ih rest, below lt.le, lt, lt.ne']
    · by_cases kept : p a <;> simp [kept, mget, ih rest]
    · by_cases kept : p k <;> simp [kept, mget, ih rest, gt.ne, gt.not_gt]

theorem mget_mcut {m : Memory} (wf : m.wf = true) (a n b : Nat) :
    mget (mcut m a n) b = if b < a ∨ a + n ≤ b then mget m b else 0 := by
  rw [mcut, mget_filter (fun k => decide (k < a ∨ a + n ≤ k)) b wf]
  exact if_congr decide_eq_true_iff rfl rfl

theorem Memory.above_of_forall {m : Memory} {lo a : Nat} (rising : Memory.above lo m = true) (high : ∀ x ∈ m, a ≤ x.1) :
    Memory.above a m = true := by
  cases m with
  | nil => rfl
  | cons x m =>
    obtain ⟨k, v⟩ := x
    simp only [Memory.above, Bool.and_eq_true, decide_eq_true_eq] at rising ⊢
    exact ⟨⟨high (k, v) (.head m), rising.1.2⟩, rising.2⟩

/-- Addresses counted from a lower one. -/
theorem above_and_mget_shift (a : Nat) {m : Memory} {lo : Nat} (high : a ≤ lo) (rising : Memory.above lo m = true) :
    Memory.above (lo - a) (m.map fun x => (x.1 - a, x.2)) = true ∧
      ∀ i, mget (m.map fun x => (x.1 - a, x.2)) i = mget m (a + i) := by
  induction m generalizing lo with
  | nil => exact ⟨rfl, fun i => rfl⟩
  | cons x m ih =>
    obtain ⟨k, v⟩ := x
    simp only [Memory.above, Bool.and_eq_true, decide_eq_true_eq] at rising
    obtain ⟨⟨le, ne⟩, rest⟩ := rising
    obtain ⟨above, get⟩ := ih (by omega) rest
    refine ⟨?_, fun i => ?_⟩
    · simp only [List.map_cons, Memory.above, Bool.and_eq_true, decide_eq_true_eq]
      exact ⟨⟨by omega, ne⟩, by rwa [Nat.sub_add_comm (by omega)] at above⟩
    · rw [List.map_cons, mget, mget, get]
      exact if_congr (by dsimp only; omega) rfl (if_congr (by dsimp only; omega) rfl rfl)

theorem Memory.above_sliced {m : Memory} (wf : m.wf = true) (a n : Nat) :
    Memory.above a (m.filter fun x => decide (a ≤ x.1 ∧ x.1 < a + n)) = true :=
  Memory.above_of_forall (Memory.above_filter _ wf) fun _ mem => (of_decide_eq_true (List.mem_filter.1 mem).2).1

theorem Memory.wf_mslice {m : Memory} (wf : m.wf = true) (a n : Nat) : Memory.wf (mslice m a n) = true :=
  Memory.above_le (above_and_mget_shift a (Nat.le_refl a) (Memory.above_sliced wf a n)).1 (Nat.zero_le _)

theorem mget_mslice {m : Memory} (wf : m.wf = true) (a n i : Nat) :
    mget (mslice m a n) i = if i < n then mget m (a + i) else 0 := by
  rw [mslice, (above_and_mget_shift a (Nat.le_refl a) (Memory.above_sliced wf a n)).2,
    mget_filter (fun k => decide (a ≤ k ∧ k < a + n)) (a + i) wf]
  refine if_congr (decide_eq_true_iff.trans ?_) rfl rfl
  omega

/-- A slice laid over a memory: its bytes that are not 0 replace those below. -/
theorem mget_mpaste (a b : Nat) {l m : Memory} {lo : Nat} (rising : Memory.above lo l = true) (wf : m.wf = true) :
    mget (mpaste m a l) b = if a ≤ b ∧ mget l (b - a) ≠ 0 then mget l (b - a) else mget m b := by
  induction l generalizing m lo with
  | nil => simp [mpaste, mget]
  | cons x l ih =>
    obtain ⟨k, v⟩ := x
    simp only [Memory.above, Bool.and_eq_true, decide_eq_true_eq] at rising
    obtain ⟨⟨-, ne⟩, rest⟩ := rising
    show mget (mpaste (mput m (a + k) v) a l) b = _
    rw [ih rest (Memory.wf_mput _ _ wf), mget_mput _ _ _ wf]
    have below (h : b - a ≤ k) : mget l (b - a) = 0 := mget_of_above rest (Nat.lt_succ_of_le h)
    by_cases here : b = a + k
    · subst here
      have ne : ¬ v = 0#8 := ne
      have zero := mget_of_above rest (Nat.lt_succ_self k)
      rw [Nat.add_sub_cancel_left, zero]
      simp [mget, ne]
    · by_cases inside : a ≤ b
      · have other : ¬ k = b - a := by omega
        by_cases lt : b - a < k
        · simp [mget, here, other, lt, below lt.le]
        · simp [mget, here, other, lt]
      · simp [here, inside]

/-- A part of a memory copied over another part of it (FLIP, R218). -/
theorem mget_copied {m : Memory} (wf : m.wf = true) (a b n : Nat) {i : Nat} (inside : i < n) :
    mget (mpaste (mcut m a n) a (mslice m b n)) (a + i) = mget m (b + i) := by
  rw [mget_mpaste a _ (Memory.wf_mslice wf b n) (Memory.wf_mcut a n wf), Nat.add_sub_cancel_left, mget_mslice wf,
    if_pos inside, mget_mcut wf, if_neg (show ¬ (a + i < a ∨ a + n ≤ a + i) by omega)]
  split
  · rfl
  · next zero => exact (not_not.1 fun ne => zero ⟨Nat.le_add_right a i, ne⟩).symm

/-! ## Elements stored one after another -/

section
variable {α : Type} {l : List α} {at_ v : α → Nat} {n : Nat} {m : Memory}

theorem mload_congr {m' : Memory} : ∀ {n a : Nat}, (∀ b, a ≤ b → b < a + n → mget m' b = mget m b) →
    mload m' a n = mload m a n
  | 0, _, _ => rfl
  | n + 1, a, same => by
    rw [mload, mload, same a (by omega) (by omega), mload_congr fun b ge lt => same b (by omega) (by omega)]

theorem mload_mstore_self (wf : m.wf = true) (a v n : Nat) : mload (mstore m a v n) a n = v % 2 ^ (8 * n) := by
  have read := mload_mstore wf a v (n := n) n 0 (by omega)
  rwa [Nat.pow_zero, Nat.div_one, Nat.add_zero, show 256 = 2 ^ 8 from rfl, ← Nat.pow_mul] at read

theorem Memory.wf_foldl_mstore (wf : m.wf = true) :
    Memory.wf (l.foldl (fun m x => mstore m (at_ x) (v x) n) m) = true :=
  Memory.wf_foldl wf fun _ _ h => Memory.wf_mstore _ _ _ h

theorem mget_foldl_mstore (wf : m.wf = true) {b : Nat} (out : ∀ x ∈ l, b < at_ x ∨ at_ x + n ≤ b) :
    mget (l.foldl (fun m x => mstore m (at_ x) (v x) n) m) b = mget m b := by
  induction l generalizing m with
  | nil => rfl
  | cons x l ih =>
    rw [List.foldl_cons, ih (Memory.wf_mstore _ _ _ wf) fun y mem => out y (.tail x mem),
      mget_mstore_out _ _ _ _ wf (out x (.head l))]

/-- The last store at a place is the one that is read there. -/
theorem mload_foldl_mstore (wf : m.wf = true) {R : α → α → Prop} (order : l.Pairwise R) {x : α} (mem : x ∈ l)
    (apart : ∀ y ∈ l, R x y → at_ y + n ≤ at_ x ∨ at_ x + n ≤ at_ y) :
    mload (l.foldl (fun m x => mstore m (at_ x) (v x) n) m) (at_ x) n = v x % 2 ^ (8 * n) := by
  obtain ⟨before, after, rfl⟩ := List.append_of_mem mem
  obtain ⟨-, order, -⟩ := List.pairwise_append.1 order
  have later (y : α) (h : y ∈ after) := apart y (by simp [h]) ((List.pairwise_cons.1 order).1 y h)
  rw [List.foldl_append, List.foldl_cons]
  have stored := Memory.wf_foldl_mstore (l := before) (at_ := at_) (v := v) (n := n) wf
  rw [mload_congr fun b ge lt => mget_foldl_mstore (Memory.wf_mstore _ _ _ stored) fun y h => ?_, mload_mstore_self stored]
  have := later y h
  omega

end

/-! ## Accumulator elements -/

section
variable {s t : State} {c : Nat}

theorem accKey_inj {r col r' col' : Nat} (narrow : col < 128) (narrow' : col' < 128) :
    accKey c r col = accKey c r' col' ↔ r = r' ∧ col = col' := by
  unfold accKey
  omega

theorem State.accGet_accSet (s : State) {r col r' col' : Nat} (v : Nat) (narrow : col < 128) (narrow' : col' < 128) :
    (s.accSet c r col v).accGet c r' col' = if r' = r ∧ col' = col then v % 2 ^ 32 else s.accGet c r' col' := by
  rw [State.accGet, State.accSet, tget_tset, apply_ite BitVec.toNat, BitVec.toNat_ofNat]
  exact if_congr (accKey_inj narrow' narrow) rfl rfl

theorem tget_filter {α : Type} (d : α) (p : Nat → Bool) (l : Tbl α) (k : Nat) :
    tget d (l.filter fun x => p x.1) k = if p k then tget d l k else d := by
  induction l with
  | nil => simp
  | cons x l ih =>
    obtain ⟨j, v⟩ := x
    by_cases here : j = k
    · subst here
      by_cases kept : p j <;> simp [kept, tget, ih]
    · by_cases kept : p j <;> simp [kept, tget, ih, here]

theorem State.accGet_accClear (s : State) (row n : Nat) {r col : Nat} (narrow : col < 128) :
    (s.accClear c row n).accGet c r col = if r < row ∨ row + n ≤ r then s.accGet c r col else 0 := by
  rw [State.accGet, State.accClear, tget_filter 0 (fun k => decide (k < accKey c row 0 ∨ accKey c (row + n) 0 ≤ k)),
    apply_ite BitVec.toNat]
  refine if_congr (decide_eq_true_iff.trans ?_) rfl rfl
  unfold accKey
  omega

/-- Elements written one after another, each from the planes and from what it was: each takes its value, and the others
are kept. -/
theorem State.foldl_accSet {α : Type} {l : List α} {key : α → Nat × Nat} {g : State → α → Nat}
    (narrow : ∀ x ∈ l, (key x).2 < 128) (nodup : (l.map key).Nodup) (from_ : ∀ (s t : State) (x : α), t.planes = s.planes →
      t.accGet c (key x).1 (key x).2 = s.accGet c (key x).1 (key x).2 → g t x = g s x) (s : State) :
    let t := l.foldl (fun s x => s.accSet c (key x).1 (key x).2 (g s x)) s
    Frame [.fAcc] s t ∧ (∀ x ∈ l, t.accGet c (key x).1 (key x).2 = g s x % 2 ^ 32) ∧
      ∀ r col, col < 128 → (r, col) ∉ l.map key → t.accGet c r col = s.accGet c r col := by
  induction l generalizing s with
  | nil => exact ⟨.refl _ s, fun x mem => absurd mem List.not_mem_nil, fun r col _ _ => rfl⟩
  | cons x l ih =>
    obtain ⟨fresh, nodup⟩ := List.nodup_cons.1 nodup
    have here := narrow x (.head l)
    obtain ⟨frame, written, kept⟩ := ih (fun y mem => narrow y (.tail x mem)) nodup (s.accSet c (key x).1 (key x).2 (g s x))
    have set {r col : Nat} (ok : col < 128) := s.accGet_accSet (c := c) (r := (key x).1) (r' := r) (g s x) here ok
    refine ⟨(Frame.withAcc (.refl _ s) _).trans frame, fun y mem => ?_, fun r col ok other => ?_⟩
    · rcases List.mem_cons.1 mem with rfl | mem
      · exact (kept _ _ here fresh).trans ((set here).trans (if_pos ⟨rfl, rfl⟩))
      · have ne : ¬ ((key y).1 = (key x).1 ∧ (key y).2 = (key x).2) := fun e =>
          fresh (List.mem_map.2 ⟨y, mem, Prod.ext e.1 e.2⟩)
        refine (written y mem).trans (congrArg (· % 2 ^ 32) (from_ _ _ y rfl ?_))
        exact (set (narrow y (.tail x mem))).trans (if_neg ne)
    · rw [List.map_cons, List.mem_cons, not_or] at other
      exact (kept r col ok other.2).trans ((set ok).trans (if_neg fun e => other.1 (Prod.ext e.1 e.2)))

end

end Sys2Proof.Machine

namespace Sys2Proof.Machine

open Sys2Proof

/-! # The commands of a press (R212 to R218, R226, R236 to R243)

`State.runUnit` does a unit and then what `State.afterUnit` says; the effect of the unit itself is an equation per command
with its operand in the windows. -/

/-! ## After a unit (R226) -/

/-- No command of the press runs. -/
def Press.halted (k : Press) : Press := { k with running := none }

/-- The press with an LSTAT of a type and scale 1 done (R236). -/
def Press.filled (type : Nat) (k : Press) : Press :=
  { k with shadow := { k.shadow with loaded := true, type := type, wscale := 0x3F800000#32 } }

/-- The press with the shadow plane made the active one, which a position owns and holds alone (R218). -/
def Press.flipped (p : Nat) (k : Press) : Press :=
  { k with active := { k.shadow with owner := some p }, holders := [p], shadow := Plane.fresh }

/-- What the press does once a unit of the command at the head of a queue is done: the command counts it, or ends with its
last one. -/
def State.afterUnit (s : State) (f p : Nat) (x : Cmd) : State :=
  let c := 8 * f + p
  if x.unit + 1 < x.units then s.modHead c (fun y => { y with unit := x.unit + 1 })
  else (((s.modPress f Press.halted).lastUnit c x).dropHead c).pressIdle f

/-- The fields that the end of a unit may change, but for the planes that FLIP copies. -/
abbrev unitFields : List Field := [.fFormes, .fGroups, .fThreads, .fWakeSeq]

section
variable {s t : State} {f p : Nat} {x y : Cmd} {l : List Cmd}

theorem coreForme_at (near : p < 8) : coreForme (8 * f + p) = f := by
  unfold coreForme
  omega

theorem corePos_at (near : p < 8) : corePos (8 * f + p) = p := by
  unfold corePos
  omega

/-- A queue written leaves the rest of its press. -/
theorem State.press_setPq (near : p < 8) (s : State) (q : PQueue) :
    let k := ((s.setPq (8 * f + p) q).forme f).press
    k = { (s.forme f).press with queues := k.queues } := by
  dsimp only
  rw [State.setPq, State.press_modPress, if_pos (coreForme_at near).symm]

/-- A unit of the command that runs, and what follows it. -/
theorem State.runUnit_done {op : Nat} {name : String} {act : State → Nat → Cmd → UnitRes}
    (running : (s.forme f).press.running = some p) (queued : (s.pq (8 * f + p)).cmds = x :: l) (named : x.op = op)
    (started : x.st = .started) (made : act s (8 * f + p) x = .done t) :
    s.runUnit f op name act = .next (t.afterUnit f p x) := by
  unfold State.runUnit State.afterUnit
  dsimp only
  rw [running]
  dsimp only
  rw [queued]
  dsimp only
  rw [if_neg (not_or.2 ⟨not_not.2 named, not_not.2 started⟩), made]
  dsimp only
  split <;> rfl

/-- Where no group waits to put planes back, freed planes stay free (R229). -/
theorem State.planesFreed_calm (calm : ∀ g, (s.grp g).reinstall = []) (f : Nat) : s.planesFreed f = s :=
  List.foldl_fixed' (fun g => by rw [State.reinstallOn, calm g]; rfl) _

/-- The end of the rounds of an idle press changes its round alone (R216). -/
theorem State.press_pressIdle (s : State) (f h : Nat) :
    let k := ((s.pressIdle f).forme h).press
    k = { (s.forme h).press with pos := k.pos, count := k.count, weights := k.weights } := by
  dsimp only
  unfold State.pressIdle
  split
  · rfl
  · rw [State.press_modPress]
    split <;> rfl

theorem State.pressIdle_frame (s : State) (f : Nat) : Frame [.fFormes] s (s.pressIdle f) :=
  .ite (.refl _ s) (s.modPress_frame f _)

/-- The head of a queue leaves it, of a press whose rounds may then end: the planes, the holders and the command that runs
stay, but for the shadow of an LSTAT that is not loaded. -/
theorem State.headLeft (near : p < 8) (queued : (s.pq (8 * f + p)).cmds = y :: l)
    (loaded : y.op = 1 → (s.forme f).press.shadow.loaded = true) :
    let t := (s.dropHead (8 * f + p)).pressIdle f
    let k := (t.forme f).press
    Frame unitFields s t ∧ t.pq (8 * f + p) = { s.pq (8 * f + p) with cmds := l } ∧
      k = { (s.forme f).press with queues := k.queues, pos := k.pos, count := k.count, weights := k.weights } := by
  intro t k
  obtain ⟨r, dropped, -, queue, stays⟩ := State.dropHead_eq queued
  have left := stays (by rwa [coreForme_at near])
  have idle := (s.dropHead (8 * f + p)).press_pressIdle f f
  have same : (s.dropHead (8 * f + p)).forme f = (s.setPq (8 * f + p) { s.pq (8 * f + p) with cmds := l }).forme f := by
    rw [dropped, State.forme, State.forme, ← left.formes]
    rfl
  refine ⟨?_, ?_, ?_⟩
  · have fired : Frame unitFields s (s.dropHead (8 * f + p)) := by
      rw [dropped]
      exact (((s.setPq_frame _ _).mono (by decide)).trans (left.mono (by decide))).fireIf _
    exact fired.trans ((State.pressIdle_frame _ f).mono (by decide))
  · refine (State.pq_of_queues (s := s.dropHead (8 * f + p)) ?_).trans (by rw [dropped]; exact queue)
    rw [State.press_pressIdle]
  · rw [same, State.press_setPq near] at idle
    exact idle.trans (by rw [show k.queues = _ from congrArg Press.queues idle])

/-- What the last unit of a command other than FLIP leaves (R218, R239, R242). -/
theorem State.lastUnit_keeps (calm : ∀ g, (s.grp g).reinstall = []) (two : x.op ≠ 2) (c : Nat) :
    Frame unitFields s (s.lastUnit c x) ∧ ((s.lastUnit c x).pq c).cmds = (s.pq c).cmds ∧
      ∀ h, ((s.lastUnit c x).forme h).press.running = (s.forme h).press.running := by
  have nothing : Frame unitFields s s ∧ (s.pq c).cmds = (s.pq c).cmds ∧
      ∀ h, (s.forme h).press.running = (s.forme h).press.running := ⟨.refl _ s, rfl, fun _ => rfl⟩
  have requeued (q : PQueue) (same : q.cmds = (s.pq c).cmds) : Frame unitFields s (s.setPq c q) ∧
      ((s.setPq c q).pq c).cmds = (s.pq c).cmds ∧ ∀ h, ((s.setPq c q).forme h).press.running = (s.forme h).press.running := by
    refine ⟨(s.setPq_frame c q).mono (by decide), by rw [State.pq_setPq, same], fun h => ?_⟩
    rw [State.setPq, State.press_modPress]
    split <;> rfl
  unfold State.lastUnit
  dsimp only
  split
  · next op => exact absurd op two
  · split
    · rw [State.planesFreed_calm (s := s.modPress _ _) calm]
      refine ⟨(s.modPress_frame _ _).mono (by decide), ?_, fun h => ?_⟩
      · exact congrArg PQueue.cmds (State.pq_of_queues (State.queues_modPress _ _ (by exact fun _ => rfl) _))
      · rw [State.press_modPress]
        split <;> rfl
    · exact nothing
  · split
    · exact requeued _ rfl
    · exact nothing
  · obtain ⟨frame, cmds, runs⟩ := requeued { s.pq c with
      lastMark := some (pwAux x.w0.toNat), markAgent := x.agent, markInterval := x.interval } rfl
    split
    · exact ⟨(frame.fireIf _).modGrp _ _, cmds, runs⟩
    · exact ⟨frame.fireIf _, cmds, runs⟩
  · exact nothing

/-- After a unit of a command that is neither LSTAT nor FLIP the head counts it and runs on; after the last one it has left
the queue. -/
theorem State.afterUnit_cmds (near : p < 8) (calm : ∀ g, (s.grp g).reinstall = []) (ops : x.op ≠ 1 ∧ x.op ≠ 2)
    (queued : (s.pq (8 * f + p)).cmds = y :: l) (same : y.op = x.op) (running : (s.forme f).press.running = some p) :
    Frame unitFields s (s.afterUnit f p x) ∧ if x.unit + 1 < x.units then
      ((s.afterUnit f p x).pq (8 * f + p)).cmds = { y with unit := x.unit + 1 } :: l ∧
        ((s.afterUnit f p x).forme f).press.running = some p
    else ((s.afterUnit f p x).pq (8 * f + p)).cmds = l ∧ ((s.afterUnit f p x).forme f).press.running = none := by
  unfold State.afterUnit
  dsimp only
  split
  · rw [State.modHead_cons queued]
    exact ⟨(s.setPq_frame _ _).mono (by decide), congrArg PQueue.cmds (s.pq_setPq ..),
      (congrArg Press.running (s.press_setPq near _)).trans running⟩
  · obtain ⟨frame, cmds, runs⟩ := (s.modPress f Press.halted).lastUnit_keeps calm ops.2 (8 * f + p)
    have stopped := s.pq_modPress f (g := Press.halted) (fun _ => rfl) (8 * f + p)
    obtain ⟨left, queue, press⟩ := State.headLeft near (cmds.trans (by rw [stopped]; exact queued))
      fun op => absurd (same ▸ op) ops.1
    refine ⟨(((s.modPress_frame f _).mono (by decide)).trans frame).trans left, by rw [queue], ?_⟩
    rw [press, runs, State.press_modPress, if_pos rfl]
    rfl

end

end Sys2Proof.Machine

namespace Sys2Proof.Machine

open Sys2Proof

section
variable {s : State} {c : Nat} {x : Cmd}

/-! ## Operands in the windows (R220) -/

/-- The byte of the local memories at which an element of a window operand stands. -/
def State.windowPlace (s : State) (c : Nat) (x : Cmd) (row col : Nat) : Nat :=
  s.windowByte c (x.w1.toNat + row * x.w2.toNat) + col * typeBytes (pwType x.w0.toNat)

/-- The bits of an element of a window operand. -/
def State.windowElem (s : State) (c : Nat) (x : Cmd) (row col : Nat) : Nat :=
  mload s.lm (s.windowPlace c x row col) (typeBytes (pwType x.w0.toNat))

theorem State.agentAccess_nil (s : State) (ctx : Nat) (a : Agent) (write : Bool) : s.agentAccess ctx a write [] = .ok s :=
  ite_self _

theorem State.operandAt_window (flag : pwFlag x.w0.toNat 8 = false) (col row : Nat) :
    s.operandAt c x col row = .lm (s.windowPlace c x row col) := by
  rw [State.operandAt, flag]
  rfl

theorem vasOf_eq_nil {l : List Place1} {n : Nat} (near : ∀ y ∈ l, ∃ b, y = .lm b) : vasOf l n = [] :=
  List.filterMap_eq_nil_iff.2 fun y mem => by
    obtain ⟨b, rfl⟩ := near y mem
    rfl

/-- A unit that reads a window operand and no scale goes on with its elements. -/
theorem State.readUnit_window {α : Type} (flag : pwFlag x.w0.toNat 8 = false) (keys : List α) (row col : α → Nat)
    (k : State → List Nat → Nat → UnitRes) :
    s.readUnit c x (typeBytes (pwType x.w0.toNat)) (keys.map fun q => s.operandAt c x (col q) (row q)) .none k =
      k s (keys.map fun q => s.windowElem c x (row q) (col q)) 0 := by
  have places : (keys.map fun q => s.operandAt c x (col q) (row q)) =
      keys.map fun q => .lm (s.windowPlace c x (row q) (col q)) :=
    List.map_congr_left fun q _ => State.operandAt_window flag ..
  have near : ∀ y ∈ keys.map (fun q => Place1.lm (s.windowPlace c x (row q) (col q))), ∃ b, y = .lm b := fun y mem =>
    have ⟨q, _, e⟩ := List.mem_map.1 mem
    ⟨_, e.symm⟩
  unfold State.readUnit
  dsimp only
  rw [places, vasOf_eq_nil near, show vasOf [.none] 4 = [] from rfl, List.append_nil, State.agentAccess_nil]
  exact congrArg (fun values => k s values 0) List.map_map

/-! ## Units of the commands (R236 to R243) -/

/-- LSTAT of a window operand with scale 1 (R236). -/
theorem lstatUnit_window (flag : pwFlag x.w0.toNat 8 = false) (plain : pwSource x.w0.toNat = 0) :
    let n := typeBytes (pwType x.w0.toNat)
    let f := coreForme c
    let filled := ((List.range (96 / n)) ×ˢ (List.range 128)).foldl (fun m q =>
      mstore m (planeByte f 1 + 96 * q.2 + n * q.1) (s.windowElem c x q.1 q.2) n) (mcut s.planes (planeByte f 1) planeBytes)
    lstatUnit s c x = .done (State.modPress { s with planes := filled } f (Press.filled (pwType x.w0.toNat))) := by
  intro n f filled
  unfold lstatUnit
  simp only [flag, plain, Bool.false_and, Bool.false_eq_true, if_false, OfNat.zero_ne_ofNat, decide_false]
  refine (State.readUnit_window flag _ Prod.fst Prod.snd _).trans ?_
  rw [← List.map_prod_left_eq_zip, List.foldl_map]
  rfl

/-- STREAM of a window operand, unscaled, into a row (R237). -/
theorem streamUnit_window (flag : pwFlag x.w0.toNat 8 = false) (plain : pwSource x.w0.toNat = 0)
    (unscaled : pwFlag x.w0.toNat 11 = false) (pairs : typesPair (s.forme (coreForme c)).press.active.type (pwType x.w0.toNat))
    (single : usesPairs x.w0.toNat = false) :
    let n := typeBytes (pwType x.w0.toNat)
    let row := pwAcc x.w0.toNat + x.unit
    streamUnit s c x = .done ((List.range 128).foldl (fun r col => r.accSet c row col
      (pressPass (s.forme (coreForme c)).press.active.type (pwType x.w0.toNat)
        ((List.range (96 / n)).map fun k => s.windowElem c x x.unit k)
        ((List.range (96 / n)).map fun k => mload r.planes (planeByte (coreForme c) 0 + 96 * col + n * k) n)
        (.fin false 1 0) (r.accGet c row col))) s) := by
  intro n row
  unfold streamUnit
  simp only [flag, plain, unscaled, pairs, single, Bool.false_and, Bool.not_true, Bool.false_eq_true, if_false,
    OfNat.zero_ne_ofNat, zero_ne_one, decide_false]
  exact State.readUnit_window flag _ (fun _ => x.unit) id _

theorem aclrUnit_row (single : usesPairs x.w0.toNat = false) :
    aclrUnit s c x = .done (s.accClear c (pwAcc x.w0.toNat + x.unit) 1) := by
  unfold aclrUnit
  simp only [single, Bool.false_eq_true, if_false, Nat.one_mul]

theorem acopyUnit_rows (single : usesPairs x.w0.toNat = false) :
    acopyUnit s c x = .done (((List.range (pwRows x.w0.toNat)) ×ˢ (List.range 128)).foldl (fun r q =>
      r.accSet c (x.w1.toNat % 65536 + q.1) q.2 (s.accGet c (pwAcc x.w0.toNat + q.1) q.2)) s) := by
  unfold acopyUnit pressSpan
  simp only [single, Bool.false_eq_true, if_false]
  rfl

/-- ALOAD of a row from a window operand (R241). -/
theorem aloadUnit_window (flag : pwFlag x.w0.toNat 8 = false) (single : usesPairs x.w0.toNat = false) :
    aloadUnit s c x = .done ((List.range 128).foldl (fun r col =>
      r.accSet c (pwAcc x.w0.toNat + x.unit) col (s.windowElem c x x.unit col)) s) := by
  unfold aloadUnit
  simp only [flag, single, Bool.false_and, Bool.false_eq_true, if_false]
  refine (State.readUnit_window flag _ (fun _ => x.unit) id _).trans ?_
  rw [← List.map_prod_left_eq_zip, List.foldl_map]
  rfl

end

end Sys2Proof.Machine

namespace Sys2Proof.Machine

open Sys2Proof

section
variable {s : State} {f p : Nat} {x : Cmd} {l : List Cmd}

/-! ## The commands, unit by unit -/

/-- The command at the head of a queue that the press runs. -/
structure State.Runs (s : State) (f p : Nat) (x : Cmd) (l : List Cmd) (op : Nat) : Prop where
  near : p < 8
  calm : ∀ g, (s.grp g).reinstall = []
  queued : (s.pq (8 * f + p)).cmds = x :: l
  running : (s.forme f).press.running = some p
  named : x.op = op
  started : x.st = .started

/-- What follows a unit: the head counts it and runs on, or with its last unit has left the queue. -/
def State.Follows (t : State) (f p : Nat) (y : Cmd) (l : List Cmd) (units : Nat) : Prop :=
  if y.unit + 1 < units then (t.pq (8 * f + p)).cmds = { y with unit := y.unit + 1 } :: l ∧
    (t.forme f).press.running = some p
  else (t.pq (8 * f + p)).cmds = l ∧ (t.forme f).press.running = none

theorem Cmd.units_of_rows {op : Nat} (named : x.op = op) (rows : op = 3 ∨ op = 4 ∨ op = 5 ∨ op = 7) :
    x.units = pwRows x.w0.toNat := by
  unfold Cmd.units
  rw [named]
  rcases rows with rfl | rfl | rfl | rfl <;> rfl

theorem Cmd.units_of_whole {op : Nat} (named : x.op = op) (whole : op = 1 ∨ op = 2 ∨ op = 6 ∨ op = 8 ∨ op = 9) :
    x.units = 1 := by
  unfold Cmd.units
  rw [named]
  rcases whole with rfl | rfl | rfl | rfl | rfl <;> rfl

theorem usesPairs_of_type {w0 : Nat} (op : w0 % 256 ≠ 5) (type : pwType w0 ≠ 11) : usesPairs w0 = false :=
  (if_neg op).trans (decide_eq_false type)

/-- A unit of a command that is neither LSTAT nor FLIP, and what it changes in accumulators and local memories alone. -/
theorem State.Runs.unit {op : Nat} {name : String} {act : State → Nat → Cmd → UnitRes} (runs : s.Runs f p x l op)
    (other : op ≠ 1 ∧ op ≠ 2) {r : State} (made : act s (8 * f + p) x = .done r) {T : List Field} (frame : Frame T s r)
    (formes : Field.fFormes ∉ T := by decide) (groups : Field.fGroups ∉ T := by decide) :
    ∃ t, s.runUnit f op name act = .next t ∧ Frame unitFields r t ∧ t.Follows f p x l x.units := by
  have same : r.pq (8 * f + p) = s.pq (8 * f + p) := State.pq_of_formes (frame.formes formes)
  have runs' : (r.forme f).press.running = some p := by
    rw [State.forme, frame.formes formes]
    exact runs.running
  have calm (g : Nat) : (r.grp g).reinstall = [] := by
    rw [State.grp, frame.groups groups]
    exact runs.calm g
  obtain ⟨left, follows⟩ := State.afterUnit_cmds runs.near calm (runs.named ▸ other) (same ▸ runs.queued) rfl runs'
  exact ⟨_, State.runUnit_done runs.running runs.queued runs.named runs.started made, left, follows⟩

theorem State.accGet_of_acc {t : State} (same : t.acc = s.acc) (c row col : Nat) : t.accGet c row col = s.accGet c row col := by
  rw [State.accGet, same]
  rfl

/-- Every accumulator row of a core but `n` of them reads as before. -/
def State.RowsKept (s t : State) (c row n : Nat) : Prop :=
  ∀ r col, col < 128 → r < row ∨ row + n ≤ r → t.accGet c r col = s.accGet c r col

/-- A row written column by column. -/
theorem State.foldl_accSet_row (s : State) (c row : Nat) {g : State → Nat → Nat} (from_ : ∀ (s t : State) (col : Nat),
      t.planes = s.planes → t.accGet c row col = s.accGet c row col → g t col = g s col) :
    let t := (List.range 128).foldl (fun r col => r.accSet c row col (g r col)) s
    Frame [.fAcc] s t ∧ s.RowsKept t c row 1 ∧ ∀ col, col < 128 → t.accGet c row col = g s col % 2 ^ 32 := by
  obtain ⟨frame, written, kept⟩ := State.foldl_accSet (l := List.range 128) (key := fun col => (row, col)) (c := c)
    (fun col mem => List.mem_range.1 mem) (List.nodup_range.map fun _ _ e => (Prod.mk.inj e).2) from_ s
  refine ⟨frame, fun r col narrow out => kept r col narrow fun mem => ?_, fun col narrow => written col (List.mem_range.2 narrow)⟩
  obtain ⟨col', -, e⟩ := List.mem_map.1 mem
  have : row = r := (Prod.mk.inj e).1
  omega

/-- STREAM of a window operand, unscaled: one activation row against the active plane (R237). -/
theorem State.Runs.stream (runs : s.Runs f p x l 3) (flag : pwFlag x.w0.toNat 8 = false) (plain : pwSource x.w0.toNat = 0)
    (unscaled : pwFlag x.w0.toNat 11 = false) (pairs : typesPair (s.forme f).press.active.type (pwType x.w0.toNat) = true)
    (type : pwType x.w0.toNat ≠ 11) :
    let c := 8 * f + p
    let n := typeBytes (pwType x.w0.toNat)
    let row := pwAcc x.w0.toNat + x.unit
    ∃ t, exec (.stream f) s = .next t ∧ t.Follows f p x l (pwRows x.w0.toNat) ∧ t.lm = s.lm ∧ s.RowsKept t c row 1 ∧
      ∀ col, col < 128 → t.accGet c row col = pressPass (s.forme f).press.active.type (pwType x.w0.toNat)
        ((List.range (96 / n)).map fun r => s.windowElem c x x.unit r)
        ((List.range (96 / n)).map fun r => mload s.planes (planeByte f 0 + (96 * col + n * r)) n) (.fin false 1 0)
        (s.accGet c row col) % 2 ^ 32 := by
  intro c n row
  have op : x.w0.toNat % 256 = 3 := runs.named
  have at_ := coreForme_at (f := f) runs.near
  have made := streamUnit_window (c := c) flag plain unscaled (by rwa [at_]) (usesPairs_of_type (by omega) type)
  rw [at_] at made
  obtain ⟨frame, kept, written⟩ := s.foldl_accSet_row c row (g := fun r col =>
    pressPass (s.forme f).press.active.type (pwType x.w0.toNat) ((List.range (96 / n)).map fun k => s.windowElem c x x.unit k)
      ((List.range (96 / n)).map fun k => mload r.planes (planeByte f 0 + 96 * col + n * k) n) (.fin false 1 0)
      (r.accGet c row col)) fun s' t col planes acc => by rw [planes, acc]
  obtain ⟨t, run, left, follows⟩ := runs.unit (name := "STREAM") (by decide) made frame
  rw [Cmd.units_of_rows runs.named (.inl rfl)] at follows
  have acc := State.accGet_of_acc left.acc c
  refine ⟨t, run, follows, left.lm.trans frame.lm, fun r col narrow out => ?_, fun col narrow => ?_⟩
  · exact (acc r col).trans (kept r col narrow out)
  · simp only [← Nat.add_assoc]
    exact (acc row col).trans (written col narrow)

/-- ACLR of one row (R238). -/
theorem State.Runs.aclr (runs : s.Runs f p x l 4) (type : pwType x.w0.toNat ≠ 11) :
    let c := 8 * f + p
    let row := pwAcc x.w0.toNat + x.unit
    ∃ t, exec (.aclr f) s = .next t ∧ t.Follows f p x l (pwRows x.w0.toNat) ∧ s.RowsKept t c row 1 ∧
      ∀ col, col < 128 → t.accGet c row col = 0 := by
  intro c row
  have op : x.w0.toNat % 256 = 4 := runs.named
  obtain ⟨t, run, left, follows⟩ := runs.unit (name := "ACLR") (by decide)
    (aclrUnit_row (c := c) (usesPairs_of_type (by omega) type)) (Frame.withAcc (T := [.fAcc]) (.refl _ s) _)
  rw [Cmd.units_of_rows runs.named (.inr (.inl rfl))] at follows
  have cleared {r col : Nat} (narrow : col < 128) := (State.accGet_of_acc left.acc c r col).trans
    (s.accGet_accClear (c := c) row 1 (r := r) narrow)
  exact ⟨t, run, follows, fun r col narrow out => (cleared narrow).trans (if_pos out),
    fun col narrow => (cleared narrow).trans (if_neg (by omega))⟩

/-- ACOPY: every source row is read before any row is written (R240). -/
theorem State.Runs.acopy (runs : s.Runs f p x l 6) (type : pwType x.w0.toNat ≠ 11) :
    let c := 8 * f + p
    let row := x.w1.toNat % 65536
    ∃ t, exec (.acopy f) s = .next t ∧ ((t.pq c).cmds = l ∧ (t.forme f).press.running = none) ∧ s.RowsKept t c row (pwRows x.w0.toNat) ∧
      ∀ r col, r < pwRows x.w0.toNat → col < 128 → t.accGet c (row + r) col = s.accGet c (pwAcc x.w0.toNat + r) col := by
  intro c row
  have op : x.w0.toNat % 256 = 6 := runs.named
  obtain ⟨frame, written, kept⟩ := State.foldl_accSet (c := c) (l := List.range (pwRows x.w0.toNat) ×ˢ List.range 128)
    (key := fun q => (row + q.1, q.2)) (g := fun _ q => s.accGet c (pwAcc x.w0.toNat + q.1) q.2)
    (fun q mem => List.mem_range.1 (List.mem_product.1 mem).2) ((List.nodup_range.product List.nodup_range).map fun q r e => by
      have := Prod.mk.inj e
      exact Prod.ext (by omega) this.2) (fun _ _ _ _ _ => rfl) s
  obtain ⟨t, run, left, follows⟩ := runs.unit (name := "ACOPY") (by decide)
    (acopyUnit_rows (c := c) (usesPairs_of_type (by omega) type)) frame
  rw [State.Follows, Cmd.units_of_whole runs.named (.inr (.inr (.inl rfl))), if_neg (by omega)] at follows
  have acc := State.accGet_of_acc left.acc c
  refine ⟨t, run, follows, fun r col narrow out => (acc r col).trans (kept r col narrow fun mem => ?_), fun r col low narrow => ?_⟩
  · obtain ⟨q, mem, e⟩ := List.mem_map.1 mem
    have low := List.mem_range.1 (List.mem_product.1 mem).1
    have : row + q.1 = r := (Prod.mk.inj e).1
    omega
  · refine (acc _ col).trans ((written (r, col) (List.mem_product.2 ⟨List.mem_range.2 low, List.mem_range.2 narrow⟩)).trans ?_)
    exact Nat.mod_eq_of_lt (BitVec.isLt _)

/-- ALOAD of a row of 32-bit elements from a window operand, bit for bit (R241). -/
theorem State.Runs.aload (runs : s.Runs f p x l 7) (flag : pwFlag x.w0.toNat 8 = false)
    (four : typeBytes (pwType x.w0.toNat) = 4) :
    let c := 8 * f + p
    let row := pwAcc x.w0.toNat + x.unit
    ∃ t, exec (.aload f) s = .next t ∧ t.Follows f p x l (pwRows x.w0.toNat) ∧ s.RowsKept t c row 1 ∧
      ∀ col, col < 128 → t.accGet c row col = s.windowElem c x x.unit col := by
  intro c row
  have op : x.w0.toNat % 256 = 7 := runs.named
  have type : pwType x.w0.toNat ≠ 11 := fun wide => by rw [wide] at four; exact absurd four (by decide)
  obtain ⟨frame, kept, written⟩ := s.foldl_accSet_row c row (g := fun _ col => s.windowElem c x x.unit col) fun _ _ _ _ _ => rfl
  obtain ⟨t, run, left, follows⟩ := runs.unit (name := "ALOAD") (by decide)
    (aloadUnit_window (c := c) flag (usesPairs_of_type (by omega) type)) frame
  rw [Cmd.units_of_rows runs.named (by decide)] at follows
  have acc := State.accGet_of_acc left.acc c
  refine ⟨t, run, follows, fun r col narrow out => (acc r col).trans (kept r col narrow out), fun col narrow => ?_⟩
  refine (acc row col).trans ((written col narrow).trans (Nat.mod_eq_of_lt ?_))
  rw [State.windowElem, four]
  exact mload_lt ..

end

end Sys2Proof.Machine

namespace Sys2Proof.Machine

open Sys2Proof

section
variable {s : State} {f p : Nat} {x : Cmd} {l : List Cmd}

/-! ## The commands of one unit -/

/-- The end of a command of one unit: what its last unit leaves, without the head of the queue. -/
theorem State.Runs.last {op : Nat} {name : String} {act : State → Nat → Cmd → UnitRes} {k : Press} (runs : s.Runs f p x l op)
    (whole : op = 1 ∨ op = 2 ∨ op = 6 ∨ op = 8 ∨ op = 9) {r v : State} (made : act s (8 * f + p) x = .done r)
    (ends : (r.modPress f Press.halted).lastUnit (8 * f + p) x = v) (queued : (v.pq (8 * f + p)).cmds = x :: l)
    (press : (v.forme f).press = k.halted) (loaded : op = 1 → k.shadow.loaded = true) :
    ∃ t, s.runUnit f op name act = .next t ∧ Frame unitFields v t ∧ t.pq (8 * f + p) = { v.pq (8 * f + p) with cmds := l } ∧
      (t.forme f).press.running = none ∧ (t.forme f).press.active = k.active ∧ (t.forme f).press.shadow = k.shadow ∧
      (t.forme f).press.holders = k.holders := by
  have after : r.afterUnit f p x = (v.dropHead (8 * f + p)).pressIdle f := by
    unfold State.afterUnit
    dsimp only
    rw [Cmd.units_of_whole runs.named whole, if_neg (by omega), ends]
  obtain ⟨frame, queue, same⟩ := State.headLeft runs.near queued fun one => by
    rw [press]
    exact loaded (runs.named ▸ one)
  rw [press] at same
  refine ⟨_, State.runUnit_done runs.running runs.queued runs.named runs.started made, ?_⟩
  rw [after]
  exact ⟨frame, queue, by rw [same]; rfl, by rw [same]; rfl, by rw [same]; rfl, by rw [same]; rfl⟩

/-- A command whose end does nothing of its own. -/
theorem State.lastUnit_of_plain {op : Nat} (named : x.op = op) (plain : op = 1 ∨ op = 9) (c : Nat) : s.lastUnit c x = s := by
  unfold State.lastUnit
  rw [named]
  rcases plain with rfl | rfl <;> rfl

/-- Two updates of a press that keep its queues, beside an update of the planes. -/
theorem State.modPress_modPress (s : State) (planes : Memory) (f : Nat) {g h : Press → Press}
    (first : ∀ k, (g k).queues = k.queues) (second : ∀ k, (h k).queues = k.queues) (c : Nat) :
    let t := (State.modPress { s with planes := planes } f g).modPress f h
    t.pq c = s.pq c ∧ (t.forme f).press = h (g (s.forme f).press) := by
  refine ⟨(State.pq_modPress _ f second c).trans (State.pq_modPress _ f first c), ?_⟩
  rw [State.press_modPress, if_pos rfl, State.press_modPress, if_pos rfl]
  rfl

/-- Elements of `n` bytes of a plane do not overlap. -/
theorem planeCells_apart {base n r col r' col' : Nat} (fits : n * r + n ≤ 96) (fits' : n * r' + n ≤ 96)
    (other : (r, col) ≠ (r', col')) : base + 96 * col' + n * r' + n ≤ base + 96 * col + n * r ∨
      base + 96 * col + n * r + n ≤ base + 96 * col' + n * r' := by
  rcases Nat.lt_trichotomy col col' with lt | rfl | gt
  · omega
  · rcases Nat.lt_trichotomy r r' with lt | rfl | gt
    · have := Nat.mul_le_mul_left n lt
      rw [Nat.mul_succ] at this
      omega
    · exact absurd rfl other
    · have := Nat.mul_le_mul_left n gt
      rw [Nat.mul_succ] at this
      omega
  · omega

/-- LSTAT of a window operand fills the shadow plane (R212, R236). -/
theorem State.Runs.lstat (runs : s.Runs f p x l 1) (canon : s.Canon) (flag : pwFlag x.w0.toNat 8 = false)
    (plain : pwSource x.w0.toNat = 0) (width : 0 < typeBytes (pwType x.w0.toNat)) :
    let c := 8 * f + p
    let n := typeBytes (pwType x.w0.toNat)
    let k := (s.forme f).press
    ∃ t, exec (.lstat f) s = .next t ∧ ((t.pq c).cmds = l ∧ (t.forme f).press.running = none) ∧
      (t.forme f).press.shadow = { k.shadow with loaded := true, type := pwType x.w0.toNat, wscale := 0x3F800000#32 } ∧
      (t.forme f).press.active = k.active ∧ t.lm = s.lm ∧
      (∀ r col, r < 96 / n → col < 128 → mload t.planes (planeByte f 1 + (96 * col + n * r)) n = s.windowElem c x r col) ∧
      ∀ b, b < planeByte f 1 ∨ planeByte f 1 + planeBytes ≤ b → mget t.planes b = mget s.planes b := by
  intro c n k
  have at_ := coreForme_at (f := f) runs.near
  have made := lstatUnit_window (s := s) (c := c) flag plain
  rw [at_] at made
  have cut := Memory.wf_mcut (planeByte f 1) planeBytes canon.planes
  have fits {r : Nat} (low : r < 96 / n) : n * r + n ≤ 96 := by
    rw [← Nat.mul_succ]
    exact (Nat.mul_le_mul_left n low).trans (Nat.mul_div_le 96 n)
  have halting (m : Memory) := s.modPress_modPress m f (g := Press.filled (pwType x.w0.toNat)) (h := Press.halted)
    (fun _ => rfl) (fun _ => rfl) c
  obtain ⟨t, run, left, queue, running, active, shadow, -⟩ := runs.last (name := "LSTAT")
    (k := Press.filled (pwType x.w0.toNat) k) (.inl rfl) made
    (State.lastUnit_of_plain runs.named (.inl rfl) _) ((congrArg PQueue.cmds (halting _).1).trans runs.queued) (halting _).2
    fun _ => rfl
  refine ⟨t, run, ⟨by rw [queue], running⟩, shadow, active, left.lm, fun r col low narrow => ?_, fun b out => ?_⟩
  · rw [left.planes, ← Nat.add_assoc]
    refine (mload_foldl_mstore cut (List.nodup_range.product List.nodup_range)
      (List.mem_product.2 ⟨List.mem_range.2 low, List.mem_range.2 narrow⟩)
      (at_ := fun q : Nat × Nat => planeByte f 1 + 96 * q.2 + n * q.1) fun q mem other => ?_).trans
      (Nat.mod_eq_of_lt (mload_lt ..))
    exact planeCells_apart (fits low) (fits (List.mem_range.1 (List.mem_product.1 mem).1)) other
  · rw [left.planes]
    refine (mget_foldl_mstore cut fun q mem => ?_).trans ((mget_mcut canon.planes _ _ b).trans (if_pos out))
    have low := fits (List.mem_range.1 (List.mem_product.1 mem).1)
    have narrow := List.mem_range.1 (List.mem_product.1 mem).2
    unfold planeBytes at out
    show b < planeByte f 1 + 96 * q.2 + n * q.1 ∨ planeByte f 1 + 96 * q.2 + n * q.1 + n ≤ b
    omega

/-- The end of a FLIP: the shadow plane is copied over the active one (R218). -/
theorem State.lastUnit_flip (near : p < 8) (named : x.op = 2) (calm : ∀ g, (s.grp g).reinstall = []) :
    let copied := mpaste (mcut s.planes (planeByte f 0) planeBytes) (planeByte f 0) (mslice s.planes (planeByte f 1) planeBytes)
    s.lastUnit (8 * f + p) x = State.modPress { s with planes := copied } f (Press.flipped p) := by
  intro copied
  unfold State.lastUnit
  rw [named, coreForme_at near, corePos_at near]
  exact State.planesFreed_calm (s := State.modPress { s with planes := copied } f (Press.flipped p)) calm f

/-- FLIP makes the shadow plane the active one, held by its position alone (R218). -/
theorem State.Runs.flip (runs : s.Runs f p x l 2) (canon : s.Canon) :
    let c := 8 * f + p
    let k := (s.forme f).press
    ∃ t, exec (.flip f) s = .next t ∧ ((t.pq c).cmds = l ∧ (t.forme f).press.running = none) ∧
      (t.forme f).press.active = { k.shadow with owner := some p } ∧ (t.forme f).press.holders = [p] ∧
      (t.forme f).press.shadow = Plane.fresh ∧
      ∀ b, b < planeBytes → mget t.planes (planeByte f 0 + b) = mget s.planes (planeByte f 1 + b) := by
  intro c k
  have turned (m : Memory) := s.modPress_modPress m f (g := Press.halted) (h := Press.flipped p) (fun _ => rfl) (fun _ => rfl) c
  obtain ⟨t, run, left, queue, running, active, shadow, holders⟩ := runs.last (name := "FLIP") (act := fun s _ _ => .done s)
    (k := Press.flipped p k) (.inr (.inl rfl)) rfl
    (State.lastUnit_flip runs.near runs.named runs.calm)
    ((congrArg PQueue.cmds (turned _).1).trans runs.queued) (turned _).2 fun one => absurd one (by decide)
  refine ⟨t, run, ⟨by rw [queue], running⟩, active, holders, shadow, fun b inside => ?_⟩
  rw [left.planes]
  exact mget_copied canon.planes _ _ _ inside

/-- The end of a MARK: its ticket is the last one reached (R242). -/
theorem State.lastUnit_mark (s : State) (c : Nat) (named : x.op = 8) :
    let t := s.lastUnit c x
    let k := (t.forme (coreForme c)).press
    Frame unitFields s t ∧ (t.pq c).cmds = (s.pq c).cmds ∧ (t.pq c).lastMark = some (pwAux x.w0.toNat) ∧
      k = { (s.forme (coreForme c)).press with queues := k.queues } := by
  simp only [State.lastUnit, named]
  have reached (q : PQueue) : ((s.setPq c q).forme (coreForme c)).press = { (s.forme (coreForme c)).press with
      queues := ((s.setPq c q).forme (coreForme c)).press.queues } := by
    rw [State.setPq, State.press_modPress, if_pos rfl]
  have frame (q : PQueue) : Frame unitFields s (s.setPq c q) := (s.setPq_frame c q).mono (by decide)
  have queue := s.pq_setPq c { s.pq c with
    lastMark := some (pwAux x.w0.toNat), markAgent := x.agent, markInterval := x.interval }
  have cmds := congrArg PQueue.cmds queue
  have mark := congrArg PQueue.lastMark queue
  split
  · exact ⟨((frame _).fireIf _).modGrp _ _, cmds, mark, reached _⟩
  · exact ⟨(frame _).fireIf _, cmds, mark, reached _⟩

/-- MARK reaches its ticket (R242). -/
theorem State.Runs.mark (runs : s.Runs f p x l 8) :
    let c := 8 * f + p
    ∃ t, exec (.pressMark f) s = .next t ∧ ((t.pq c).cmds = l ∧ (t.forme f).press.running = none) ∧
      (t.pq c).lastMark = some (pwAux x.w0.toNat) ∧ t.planes = s.planes ∧ t.acc = s.acc := by
  intro c
  obtain ⟨frame, cmds, mark, press⟩ := (s.modPress f Press.halted).lastUnit_mark c runs.named
  rw [coreForme_at runs.near, State.press_modPress, if_pos rfl] at press
  obtain ⟨t, run, left, queue, running, -⟩ := runs.last (name := "PRESS_MARK") (act := fun s _ _ => .done s)
    (k := { (s.forme f).press with queues := (((s.modPress f Press.halted).lastUnit c x).forme f).press.queues })
    (by decide) rfl rfl (cmds.trans ((congrArg PQueue.cmds (s.pq_modPress f (g := Press.halted) (fun _ => rfl) c)).trans runs.queued))
    press fun one => absurd one (by decide)
  exact ⟨t, run, ⟨by rw [queue], running⟩, by rw [queue]; exact mark, left.planes.trans frame.planes, left.acc.trans frame.acc⟩

/-- The holders of a press with the positions of a list joined (R243). -/
def Press.shared (ps : List Nat) (k : Press) : Press :=
  { k with holders := k.holders ++ ps.filter (fun i => !k.holders.contains i) }

/-- SHARE by the owner, which holds the plane, to positions of its group (R218, R243). -/
theorem shareUnit_mine (near : p < 8) (owner : (s.forme f).press.active.owner = some p) (holds : p ∈ (s.forme f).press.holders)
    (mine : ∀ q, q < 8 → x.w1.toNat.testBit q = true → s.groupOn (8 * f + q) = s.groupOn (8 * f + p)) :
    shareUnit s (8 * f + p) x =
      .done (s.modPress f (Press.shared ((List.range 8).filter fun i => x.w1.toNat.testBit i))) := by
  unfold shareUnit
  dsimp only
  rw [coreForme_at near, corePos_at near]
  refine if_pos ⟨owner, List.contains_iff_mem.2 holds, List.all_eq_true.2 fun q mem => decide_eq_true ?_⟩
  obtain ⟨low, bit⟩ := List.mem_filter.1 mem
  exact mine q (List.mem_range.1 low) bit

/-- SHARE adds the positions that it names to the holders (R218, R243). -/
theorem State.Runs.share (runs : s.Runs f p x l 9) (owner : (s.forme f).press.active.owner = some p)
    (holds : p ∈ (s.forme f).press.holders) (mine : ∀ q, q < 8 → x.w1.toNat.testBit q = true →
      s.groupOn (8 * f + q) = s.groupOn (8 * f + p)) :
    let c := 8 * f + p
    ∃ t, exec (.share f) s = .next t ∧ ((t.pq c).cmds = l ∧ (t.forme f).press.running = none) ∧
      ∀ q, q ∈ (t.forme f).press.holders ↔ q ∈ (s.forme f).press.holders ∨ (q < 8 ∧ x.w1.toNat.testBit q = true) := by
  intro c
  have halting := s.modPress_modPress s.planes f (h := Press.halted)
    (g := Press.shared ((List.range 8).filter fun i => x.w1.toNat.testBit i)) (fun _ => rfl) (fun _ => rfl) c
  obtain ⟨t, run, left, queue, running, active, shadow, holders⟩ := runs.last (name := "SHARE")
    (by decide) (shareUnit_mine runs.near owner holds mine) (State.lastUnit_of_plain runs.named (.inr rfl) _)
    ((congrArg PQueue.cmds halting.1).trans runs.queued) halting.2 fun one => absurd one (by decide)
  refine ⟨t, run, ⟨by rw [queue], running⟩, fun q => ?_⟩
  rw [holders, Press.shared]
  by_cases held : q ∈ (s.forme f).press.holders <;> simp [held]

end

end Sys2Proof.Machine

namespace Sys2Proof.Machine

open Sys2Proof

section
variable {s : State} {c : Nat} {x : Cmd}

/-! ## The elements of a DRAIN (R221, R225, R239, R255) -/

/-- The elements of a row that no earlier unit of the DRAIN has written. -/
def State.drainRow (s : State) (c : Nat) (x : Cmd) (i : Nat) : List ((Nat × Nat) × Place1) :=
  ((List.range 128).map fun col => ((i, col), s.operandAt c x col i)).filter fun y => !x.ahead.contains y.1

/-- The elements that a unit of a DRAIN to the windows writes: those left of its row, and those left of later rows that
share a word with them. -/
def State.Drains (s : State) (c : Nat) (x : Cmd) (r col : Nat) : Prop :=
  col < 128 ∧ (r, col) ∉ x.ahead ∧ (r = x.unit ∨ (x.unit < r ∧ r < x.units) ∧ typeBytes (pwType x.w0.toNat) < 8 ∧
    ∃ k, k < 128 ∧ (x.unit, k) ∉ x.ahead ∧ s.windowPlace c x x.unit k / 8 = s.windowPlace c x r col / 8)

theorem State.mem_drainRow (flag : pwFlag x.w0.toNat 8 = false) {i : Nat} {y : (Nat × Nat) × Place1} :
    y ∈ s.drainRow c x i ↔ y.1.1 = i ∧ y.1.2 < 128 ∧ y.1 ∉ x.ahead ∧ y.2 = .lm (s.windowPlace c x y.1.1 y.1.2) := by
  rw [State.drainRow, List.mem_filter, List.mem_map, Bool.not_eq_true', ← Bool.not_eq_true, List.contains_iff_mem]
  constructor
  · rintro ⟨⟨col, low, rfl⟩, fresh⟩
    exact ⟨rfl, List.mem_range.1 low, fresh, State.operandAt_window flag ..⟩
  · rintro ⟨row, low, fresh, place⟩
    refine ⟨⟨y.1.2, List.mem_range.2 low, ?_⟩, fresh⟩
    rw [State.operandAt_window flag, ← row, ← place]

/-- Rows that `State.rowsApart` finds apart share no word with the row of the unit. -/
theorem State.words_of_rowsApart (width : 0 < typeBytes (pwType x.w0.toNat))
    (apart : s.rowsApart c x (typeBytes (pwType x.w0.toNat)) = true) {r k col : Nat} (later : x.unit < r) (last : r < x.units)
    (low : k < 128) (low' : col < 128) : s.windowPlace c x x.unit k / 8 ≠ s.windowPlace c x r col / 8 := by
  simp only [State.rowsApart, Bool.and_eq_true, List.all_eq_true, decide_eq_true_eq, List.mem_range] at apart
  obtain ⟨⟨-, aligned⟩, rows⟩ := apart
  obtain ⟨aligned', disjoint⟩ := rows (r - x.unit - 1) (by omega)
  rw [show x.unit + 1 + (r - x.unit - 1) = r by omega] at aligned' disjoint
  have fits := Nat.mul_le_mul_right (typeBytes (pwType x.w0.toNat)) low
  have fits' := Nat.mul_le_mul_right (typeBytes (pwType x.w0.toNat)) low'
  rw [Nat.succ_mul] at fits fits'
  unfold State.windowPlace
  omega

/-- Whether an element stands in a word of a list. -/
def Place1.inWords (q : Place1) (words : List (Bool × Nat)) : Bool :=
  match q.word with
  | some w => words.contains w
  | Option.none => false

theorem State.inWords_drainRow (flag : pwFlag x.w0.toNat 8 = false) (b : Nat) :
    (Place1.lm b).inWords ((s.drainRow c x x.unit).filterMap fun y => y.2.word) = true ↔
      ∃ k, k < 128 ∧ (x.unit, k) ∉ x.ahead ∧ s.windowPlace c x x.unit k / 8 = b / 8 := by
  refine (List.contains_iff_mem (a := (false, b / 8))).trans (List.mem_filterMap.trans ⟨?_, ?_⟩)
  · rintro ⟨⟨⟨r, k⟩, q⟩, mem, word⟩
    obtain ⟨rfl, low, fresh, place⟩ := (State.mem_drainRow flag).1 mem
    rw [place] at word
    exact ⟨k, low, fresh, (Prod.mk.inj (Option.some.inj word)).2⟩
  · rintro ⟨k, low, fresh, word⟩
    exact ⟨((x.unit, k), .lm (s.windowPlace c x x.unit k)), (State.mem_drainRow flag).2 ⟨rfl, low, fresh, rfl⟩,
      congrArg (fun w => some (false, w)) word⟩

theorem State.mem_drainElems (flag : pwFlag x.w0.toNat 8 = false) (width : 0 < typeBytes (pwType x.w0.toNat))
    {y : (Nat × Nat) × Place1} : y ∈ s.drainElems c x (typeBytes (pwType x.w0.toNat)) ↔
      s.Drains c x y.1.1 y.1.2 ∧ y.2 = .lm (s.windowPlace c x y.1.1 y.1.2) := by
  have elems : s.drainElems c x (typeBytes (pwType x.w0.toNat)) =
      if 8 ≤ typeBytes (pwType x.w0.toNat) || s.rowsApart c x (typeBytes (pwType x.w0.toNat)) then s.drainRow c x x.unit
      else s.drainRow c x x.unit ++ ((List.range (x.units - x.unit - 1)).flatMap fun i =>
        (s.drainRow c x (x.unit + 1 + i)).filter fun y =>
          y.2.inWords ((s.drainRow c x x.unit).filterMap fun y => y.2.word)) := rfl
  have own : y ∈ s.drainRow c x x.unit → s.Drains c x y.1.1 y.1.2 ∧ y.2 = .lm (s.windowPlace c x y.1.1 y.1.2) := fun mem => by
    obtain ⟨row, low, fresh, place⟩ := (State.mem_drainRow flag).1 mem
    exact ⟨⟨low, fresh, .inl row⟩, place⟩
  rw [elems]
  split
  · next apart =>
    refine ⟨own, fun ⟨⟨low, fresh, rows⟩, place⟩ => (State.mem_drainRow flag).2 ⟨?_, low, fresh, place⟩⟩
    rcases rows with row | ⟨⟨later, last⟩, narrow, k, low', -, shared⟩
    · exact row
    · rw [Bool.or_eq_true, decide_eq_true_eq] at apart
      rcases apart with wide | apart
      · omega
      · exact absurd shared (State.words_of_rowsApart width apart later last low' low)
  · next shared =>
    have narrow : typeBytes (pwType x.w0.toNat) < 8 := by
      by_contra wide
      exact shared (by rw [decide_eq_true (Nat.le_of_not_lt wide), Bool.true_or])
    rw [List.mem_append, List.mem_flatMap]
    constructor
    · rintro (mem | ⟨i, low, mem⟩)
      · exact own mem
      · obtain ⟨mem, word⟩ := List.mem_filter.1 mem
        obtain ⟨row, low', fresh, place⟩ := (State.mem_drainRow flag).1 mem
        rw [place] at word
        have inside := List.mem_range.1 low
        exact ⟨⟨low', fresh, .inr ⟨by omega, narrow, (State.inWords_drainRow flag _).1 word⟩⟩, place⟩
    · rintro ⟨⟨low, fresh, rows⟩, place⟩
      rcases rows with row | ⟨⟨later, last⟩, -, word⟩
      · exact .inl ((State.mem_drainRow flag).2 ⟨row, low, fresh, place⟩)
      · refine .inr ⟨y.1.1 - x.unit - 1, List.mem_range.2 (by omega), List.mem_filter.2 ⟨?_, ?_⟩⟩
        · exact (State.mem_drainRow flag).2 ⟨by omega, low, fresh, place⟩
        · rw [place]
          exact (State.inWords_drainRow flag _).2 word

/-- The elements stand in the order of the rows, each once. -/
theorem State.drainElems_order (flag : pwFlag x.w0.toNat 8 = false) (n : Nat) : (s.drainElems c x n).Pairwise fun y z =>
    y.1.1 < z.1.1 ∨ (y.1.1 = z.1.1 ∧ y.1.2 ≠ z.1.2) := by
  have row (i : Nat) : (s.drainRow c x i).Pairwise fun y z => y.1.1 < z.1.1 ∨ (y.1.1 = z.1.1 ∧ y.1.2 ≠ z.1.2) :=
    (List.pairwise_map.2 (List.nodup_range.imp fun ne => .inr ⟨rfl, ne⟩)).filter _
  have rising {i j : Nat} (lt : i < j) {y z : (Nat × Nat) × Place1} (hy : y ∈ s.drainRow c x i) (hz : z ∈ s.drainRow c x j) :
      y.1.1 < z.1.1 ∨ (y.1.1 = z.1.1 ∧ y.1.2 ≠ z.1.2) := by
    obtain ⟨rowy, -⟩ := (State.mem_drainRow flag).1 hy
    obtain ⟨rowz, -⟩ := (State.mem_drainRow flag).1 hz
    exact .inl (by omega)
  unfold State.drainElems
  dsimp only
  split
  · exact row x.unit
  · refine List.pairwise_append.2 ⟨row x.unit, List.pairwise_flatMap.2 ⟨fun i _ => (row _).filter _, ?_⟩, fun y hy z hz => ?_⟩
    · exact List.pairwise_lt_range.imp fun lt y hy z hz =>
        rising (Nat.add_lt_add_left lt _) (List.mem_filter.1 hy).1 (List.mem_filter.1 hz).1
    · obtain ⟨i, -, hz⟩ := List.mem_flatMap.1 hz
      exact rising (by omega) hy (List.mem_filter.1 hz).1

/-- Elements stored in the local memories alone. -/
theorem State.foldl_writeElem {α : Type} (ctx n : Nat) {l : List α} {q : α → Place1} {v at_ : α → Nat}
    (near : ∀ y ∈ l, q y = .lm (at_ y)) (s : State) : l.foldl (fun s y => s.writeElem ctx n (q y) (v y)) s =
      { s with lm := l.foldl (fun m y => mstore m (at_ y) (v y) n) s.lm } := by
  induction l generalizing s with
  | nil => rfl
  | cons y l ih =>
    rw [List.foldl_cons, List.foldl_cons, near y (.head l)]
    exact ih (fun z mem => near z (.tail y mem)) _

/-- What a DRAIN of an INT32 accumulator stores of an element (R239). -/
def State.drainedBits (s : State) (c : Nat) (x : Cmd) (ty : NumT) (q : Nat × Nat) : Nat :=
  let thr := ditherThr (q.1 % 16) (q.2 % 16) (s.drainPhase c x)
  let rnd : Rnd := { mode := pwMode x.w0.toNat, ovf8 := pwFlag x.w0.toNat 14, thr := thr }
  (convert (.int true 32) ty rnd (s.accGet c (pwAcc x.w0.toNat + q.1) q.2)).1

theorem typeBytes_pos {t : Nat} {ty : NumT} (type : type4 t = some ty) : 0 < typeBytes t := by
  unfold type4 at type
  split at type
  case h_15 => exact absurd type (by simp)
  all_goals decide

/-- DRAIN of an INT32 accumulator to a window operand (R239). -/
theorem drainUnit_window {ty : NumT} (flag : pwFlag x.w0.toNat 8 = false) (plain : pwSource x.w0.toNat = 1)
    (single : usesPairs x.w0.toNat = false) (keeps : pwFlag x.w0.toNat 15 = false) (type : type4 (pwType x.w0.toNat) = some ty) :
    let n := typeBytes (pwType x.w0.toNat)
    let elems := s.drainElems c x n
    let lm := elems.foldl (fun m y => mstore m (s.windowPlace c x y.1.1 y.1.2) (s.drainedBits c x ty y.1) n) s.lm
    let more := (elems.map (·.1)).filter fun q => decide (q.1 ≠ x.unit)
    drainUnit s c x = .done (if more = [] then { s with lm := lm }
      else State.modHead { s with lm := lm } c fun y => { y with ahead := y.ahead ++ more }) := by
  intro n elems lm more
  have near : ∀ y ∈ elems, y.2 = .lm (s.windowPlace c x y.1.1 y.1.2) := fun y mem =>
    ((State.mem_drainElems flag (typeBytes_pos type)).1 mem).2
  have written := State.foldl_writeElem (s.coreCtx c) n (v := fun y => s.drainedBits c x ty y.1) near s
  unfold drainUnit
  simp only [flag, plain, single, keeps, type, Bool.false_and, Bool.false_eq_true, if_false]
  rw [vasOf_eq_nil fun q mem => ?_, State.agentAccess_nil]
  · dsimp only
    rw [← List.map_prod_left_eq_zip, List.foldl_map]
    exact congrArg (fun r : State => UnitRes.done (if more = [] then r
      else r.modHead c fun y => { y with ahead := y.ahead ++ more })) written
  · obtain ⟨y, mem', rfl⟩ := List.mem_map.1 mem
    exact ⟨_, near y mem'⟩

/-- Multiples of a width that differ lie at least the width apart. -/
theorem multiples_apart {n a b : Nat} (ha : n ∣ a) (hb : n ∣ b) (ne : a ≠ b) : a + n ≤ b ∨ b + n ≤ a := by
  obtain ⟨i, rfl⟩ := ha
  obtain ⟨j, rfl⟩ := hb
  rcases Nat.lt_trichotomy i j with lt | rfl | gt
  · exact .inl (Nat.mul_succ n i ▸ Nat.mul_le_mul_left n lt)
  · exact absurd rfl ne
  · exact .inr (Nat.mul_succ n j ▸ Nat.mul_le_mul_left n gt)

/-- The bits that a unit of a DRAIN leaves at the place of an element that it writes, where no later row writes that place:
the places are aligned, so that two of them are one or do not overlap. -/
theorem State.mload_drained {ty : NumT} {r col : Nat} (wf : s.lm.wf = true) (flag : pwFlag x.w0.toNat 8 = false)
    (width : 0 < typeBytes (pwType x.w0.toNat)) (rows : x.unit < x.units)
    (aligned : ∀ r, r < x.units → s.windowPlace c x r 0 % typeBytes (pwType x.w0.toNat) = 0) (drains : s.Drains c x r col)
    (last : ∀ r' k, s.Drains c x r' k → r < r' → s.windowPlace c x r' k ≠ s.windowPlace c x r col) :
    let n := typeBytes (pwType x.w0.toNat)
    mload ((s.drainElems c x n).foldl (fun m y => mstore m (s.windowPlace c x y.1.1 y.1.2) (s.drainedBits c x ty y.1) n) s.lm)
      (s.windowPlace c x r col) n = s.drainedBits c x ty (r, col) % 2 ^ (8 * n) := by
  intro n
  have inside {r k : Nat} (h : s.Drains c x r k) : r < x.units := by
    obtain ⟨-, -, rfl | ⟨⟨-, last⟩, -⟩⟩ := h
    · exact rows
    · exact last
  have multiple {r : Nat} (low : r < x.units) (k : Nat) : n ∣ s.windowPlace c x r k := by
    have first := Nat.dvd_of_mod_eq_zero (aligned r low)
    rw [State.windowPlace, Nat.zero_mul] at first
    exact Nat.dvd_add first (Nat.dvd_mul_left n k)
  refine mload_foldl_mstore wf (State.drainElems_order flag n) (x := ((r, col), .lm (s.windowPlace c x r col)))
    (at_ := fun y => s.windowPlace c x y.1.1 y.1.2) (v := fun y => s.drainedBits c x ty y.1)
    ((State.mem_drainElems flag width).2 ⟨drains, rfl⟩) fun y mem later => ?_
  obtain ⟨drains', -⟩ := (State.mem_drainElems flag width).1 mem
  refine multiples_apart (multiple (inside drains') _) (multiple (inside drains) _) ?_
  rcases later with lt | ⟨same, other⟩
  · exact last _ _ drains' lt
  · intro e
    have same : r = y.1.1 := same
    rw [← same, State.windowPlace, State.windowPlace] at e
    exact other (Nat.eq_of_mul_eq_mul_right width (Nat.add_left_cancel e)).symm

/-- DRAIN of an INT32 accumulator to a window operand: the elements that the unit writes, and what the head remembers of
those of later rows (R239, R255). -/
theorem State.Runs.drain {f p : Nat} {l : List Cmd} {ty : NumT} (runs : s.Runs f p x l 5) (canon : s.Canon)
    (flag : pwFlag x.w0.toNat 8 = false) (plain : pwSource x.w0.toNat = 1) (keeps : pwFlag x.w0.toNat 15 = false)
    (type : type4 (pwType x.w0.toNat) = some ty) (aligned : ∀ r, r < pwRows x.w0.toNat →
      s.windowPlace (8 * f + p) x r 0 % typeBytes (pwType x.w0.toNat) = 0) :
    let c := 8 * f + p
    let n := typeBytes (pwType x.w0.toNat)
    ∃ t more, exec (.drain f) s = .next t ∧ t.Follows f p { x with ahead := x.ahead ++ more } l (pwRows x.w0.toNat) ∧
      t.acc = s.acc ∧
      (∀ r col, x.unit < pwRows x.w0.toNat → s.Drains c x r col →
        (∀ r' k, s.Drains c x r' k → r < r' → s.windowPlace c x r' k ≠ s.windowPlace c x r col) →
        mload t.lm (s.windowPlace c x r col) n = s.drainedBits c x ty (r, col) % 2 ^ (8 * n)) ∧
      ∀ y, y ∈ more ↔ s.Drains c x y.1 y.2 ∧ y.1 ≠ x.unit := by
  intro c n
  have width := typeBytes_pos type
  have op : pwOp x.w0.toNat = 5 := runs.named
  have single : usesPairs x.w0.toNat = false := (if_pos op).trans (by rw [plain]; rfl)
  have made := drainUnit_window (s := s) (c := c) flag plain single keeps type
  have units := Cmd.units_of_rows runs.named (by decide)
  let stored : State := { s with lm := (s.drainElems c x n).foldl (fun m y =>
                            mstore m (s.windowPlace c x y.1.1 y.1.2) (s.drainedBits c x ty y.1) n) s.lm }
  let more := ((s.drainElems c x n).map (·.1)).filter fun q => decide (q.1 ≠ x.unit)
  obtain ⟨r, made, frame, queued, running⟩ : ∃ r, drainUnit s c x = .done r ∧ Frame [.fFormes] stored r ∧
      (r.pq c).cmds = { x with ahead := x.ahead ++ more } :: l ∧ (r.forme f).press.running = some p := by
    refine ⟨_, made, ?_⟩
    split
    · next none =>
      refine ⟨.refl _ _, runs.queued.trans ?_, runs.running⟩
      rw [show more = [] from none, List.append_nil]
    · rw [State.modHead_cons (s := stored) runs.queued]
      exact ⟨State.setPq_frame .., congrArg PQueue.cmds (State.pq_setPq ..),
        (congrArg Press.running (stored.press_setPq runs.near _)).trans runs.running⟩
  have calm (g : Nat) : (r.grp g).reinstall = [] := by
    rw [State.grp, frame.groups]
    exact runs.calm g
  obtain ⟨left, follows⟩ := State.afterUnit_cmds (x := x) runs.near calm (runs.named ▸ by decide) queued rfl running
  rw [units] at follows
  refine ⟨_, more, State.runUnit_done runs.running runs.queued runs.named runs.started made, follows,
    left.acc.trans frame.acc, fun r' col rows drains last => ?_, fun y => ?_⟩
  · rw [left.lm, frame.lm]
    exact State.mload_drained canon.lm flag width (units ▸ rows) (units ▸ aligned) drains last
  · rw [List.mem_filter, List.mem_map, decide_eq_true_eq]
    refine and_congr_left fun _ => ⟨?_, fun drains => ?_⟩
    · rintro ⟨z, mem, rfl⟩
      exact ((State.mem_drainElems flag width).1 mem).1
    · exact ⟨(y, .lm (s.windowPlace c x y.1 y.2)), (State.mem_drainElems flag width).2 ⟨drains, rfl⟩, rfl⟩

end

end Sys2Proof.Machine

namespace Sys2Proof.Machine

open Sys2Proof

section
variable {s : State} {f p : Nat} {x : Cmd} {l : List Cmd}

/-! ## Arbitration (R216) -/

/-- The press starts the head that its round names, where the command reads no identifier (R216). -/
theorem exec_pressArbitration (near : p < 8) (queued : (s.pq (8 * f + p)).cmds = x :: l) (idle : (s.forme f).press.running = none)
    (round : (s.forme f).press.weights ≠ []) (pos : (s.forme f).press.pos = p) (eligible : s.pressEligible f p = true)
    (room : (s.forme f).press.count < (s.forme f).press.weights.getD p 0) (flag : pwFlag x.w0.toNat 8 = false) :
    let k := (s.forme f).press
    ∃ t, exec (.pressArbitration f) s = .next t ∧ (t.pq (8 * f + p)).cmds = { x with st := .started } :: l ∧
      (t.forme f).press.running = some p ∧ (t.forme f).press.count = k.count + 1 ∧ (t.forme f).press.weights = k.weights := by
  intro k
  have chosen (fresh : List Nat) : pressChoose (s.pressEligible f) fresh 17 k.pos k.count k.weights =
      some (p, k.count + 1, k.weights) := by
    rw [pos]
    exact if_pos (by rw [eligible, decide_eq_true room]; rfl)
  have run : ∃ start : Press → Press, (∀ q, (start q).queues = q.queues ∧ (start q).running = some p ∧
      (start q).count = k.count + 1 ∧ (start q).weights = k.weights) ∧ exec (.pressArbitration f) s =
        .next (((s.modPress f start).modHead (8 * f + p) fun y => { y with st := .started }).count (8 * f + p)
          ((s.modPress f start).ctxOf x.uid) 0x3001 1) := by
    refine ⟨fun q => { q with
      pos := p, count := k.count + 1, weights := k.weights, running := some p,
      shadow := (if x.op = 1 then { q.shadow with owner := some p, loaded := false } else q.shadow) },
      fun q => ⟨rfl, rfl, rfl, rfl⟩, ?_⟩
    show execPressArbitration f s = _
    unfold execPressArbitration
    dsimp only
    rw [if_neg round, chosen, idle]
    dsimp only
    rw [queued]
    dsimp only
    rw [flag, Bool.and_false, Bool.false_and]
    rfl
  obtain ⟨start, starts, run⟩ := run
  have head : ((s.modPress f start).pq (8 * f + p)).cmds = x :: l :=
    (congrArg PQueue.cmds (s.pq_modPress f (fun q => (starts q).1) _)).trans queued
  refine ⟨_, run, ?_⟩
  rw [State.modHead_cons head]
  refine ⟨congrArg PQueue.cmds (State.pq_setPq ..), ?_⟩
  have press := (s.modPress f start).press_setPq (f := f) near
    { (s.modPress f start).pq (8 * f + p) with cmds := { x with st := .started } :: l }
  rw [State.press_modPress, if_pos rfl] at press
  obtain ⟨-, running, count, weights⟩ := starts k
  exact ⟨(congrArg Press.running press).trans running, (congrArg Press.count press).trans count,
    (congrArg Press.weights press).trans weights⟩

end

/-- The bytes outside a shadow plane, by their addresses (R212). -/
theorem outside_plane {f b : Nat} : (b < planeByte f 1 ∨ planeByte f 1 + planeBytes ≤ b) ↔
    (b < (2 * f + 1) * 2 ^ 14 + 0 ∨ (2 * f + 1) * 2 ^ 14 + 12288 ≤ b) := by
  unfold planeByte planeBytes
  omega

/-- Settles O44: a unit of a command is an equation on the state that it changes, and what follows it is the same for every
command: the head counts the unit, or leaves the queue. -/
theorem pressCommands : Obligations.PressCommands := by
  unfold Obligations.PressCommands
  intro s f p x l near canon calm k c w0 a stride i n acc rows queued runs plain gone unit win rowsKept rnd place drained planes
  have canon := State.canon_iff.2 canon
  have started {op : Nat} (h : runs op) : s.Runs f p x l op ∧ pwFlag x.w0.toNat 8 = false := by
    obtain ⟨queue, running, named, st, flag⟩ := h
    exact ⟨⟨near, calm, queue, running, named, st⟩, flag⟩
  have units (h : runs 5) : x.units = rows := Cmd.units_of_rows (started h).1.named (by decide)
  have drains {r col : Nat} (h : runs 5) : drained r col ↔ r < rows ∧ s.Drains c x r col := by
    constructor
    · rintro ⟨first, low, narrow, fresh, words⟩
      refine ⟨low, narrow, fresh, ?_⟩
      by_cases row : r = i
      · exact .inl row
      · exact .inr ⟨⟨Nat.lt_of_le_of_ne first (Ne.symm row), units h ▸ low⟩, words.resolve_left row⟩
    · rintro ⟨low, narrow, fresh, row | ⟨⟨later, -⟩, shared⟩⟩
      · exact ⟨row.ge, low, narrow, fresh, .inl row⟩
      · exact ⟨later.le, low, narrow, fresh, .inr shared⟩
  refine ⟨fun queue idle round pos eligible room _ flag => exec_pressArbitration near queue idle round pos eligible room flag,
    fun h scale _ width _ => ?_, fun h => ?_, fun h scale unscaled pairs type => ?_, fun h type => (started h).1.aclr type,
    fun ty h source keeps type aligned => ?_, fun h type => ?_, fun h four => ?_, fun h => ?_, fun h owner holds mine => ?_⟩
  · obtain ⟨t, run, left, shadow, active, lm, filled, kept⟩ := (started h).1.lstat canon (started h).2 scale width
    exact ⟨t, run, left, shadow, active, lm, filled, fun b out => kept b (outside_plane.2 out)⟩
  · exact (started h).1.flip canon
  · exact (started h).1.stream (started h).2 scale unscaled pairs type
  · obtain ⟨run, flag⟩ := started h
    obtain ⟨t, more, next, follows, acc, stores, ahead⟩ := run.drain canon flag source keeps type aligned
    refine ⟨t, more, next, follows, acc, fun r col here last => ?_, fun y => ?_⟩
    · obtain ⟨low, draining⟩ := (drains h).1 here
      have first : i ≤ r := here.1
      refine stores r col (Nat.lt_of_le_of_lt first low) draining fun r' k later lt => last r' k ((drains h).2 ⟨?_, later⟩) lt
      obtain ⟨-, -, row | ⟨⟨-, inside⟩, -⟩⟩ := later
      · omega
      · exact units h ▸ inside
    · refine (ahead y).trans (and_congr_left fun other => ?_)
      rw [drains h]
      refine ⟨fun later => ⟨?_, later⟩, And.right⟩
      obtain ⟨-, -, row | ⟨⟨-, inside⟩, -⟩⟩ := later
      · exact absurd row other
      · exact units h ▸ inside
  · exact (started h).1.acopy type
  · exact (started h).1.aload (started h).2 four
  · exact (started h).1.mark
  · exact (started h).1.share owner holds mine

end Sys2Proof.Machine
